-- ==== Sys2Proof/Word.lean ====
section
/-! DEFINITION. The word types of the CQ-256: bytes, dwords, 64-bit words. -/

namespace Sys2Proof

/-- One byte. -/
abbrev Byte := BitVec 8

/-- A 32-bit register dword, little-endian in BAR0 (R358). -/
abbrev Dword := BitVec 32

/-- A 64-bit instruction or microword (R104, R130). -/
abbrev Qword := BitVec 64

end Sys2Proof
end

