-- ==== Sys2Proof/Syntax.lean ====
section
/-! DEFINITION. The commands of the block: one constructor for each row of the opcode table, with the operands that its rule gives
it.  A command that a host writes names its requester; a mailbox command names its mailbox and what its DMA list moved; an event
names what the outside world supplied. -/

namespace Sys2Proof

/-- Where a request of the host goes in its function: the registers and windows of BAR0, BAR2 with the MSI-X table and the PBA, or
the function's configuration space (R354). -/
inductive Space where
  | bar0
  | bar2
  | config
deriving DecidableEq, Repr

/-- A host requester: its function, its Requester ID, whether it is the Supervisor (R360), and the space that its request goes to,
which
only REGISTER_WRITE and LO_READ look at (R354). -/
structure Req where
  fn    : Fin 2
  rid   : BitVec 16
  sup   : Bool
  space : Space := .bar0
deriving DecidableEq, Repr
/-- A block with a configuration CRC (R366). -/
inductive CfgBlock where
  | tun (t : Fin 64)
  | qm
  | wft
  | rfo (p : Fin 288)
  | zp (z : Fin 768)
  | rfi (i : Fin 32)
  | lau (c : Fin 1024)
  | dec
  | ana (a : Fin 8)
  | tap (i : Fin 32)
  | flv (n : Fin 32)
  | flvGlobal
  | nt
  | eth (e : Fin 2)
  | host
  | mon
  | cal
  | kiln
deriving DecidableEq, Repr

/-- The parts of the partition map (R372). -/
inductive PartMap where
  | tun | rfo | zp | lau | tap | frm | bar
deriving DecidableEq, Repr

/-- An error that SECDED finds in a word of the Cellar, at the word's byte address, and whether it corrects it (R454, R456)
(DESIGN CHOICE, log entry 74). -/
structure CellarError where
  addr  : BitVec 26
  fixed : Bool
deriving DecidableEq, Repr

/-- What comes to a mailbox command from outside it: the bytes that the host supplied for its DMA list, as far as the transfer came;
where the transfer of the response failed, how many of its bytes had been moved (R379); and the errors that the Cellar finds in words
that the command reads (R456) (open corners: DEDUCED, log entry 55; DESIGN CHOICE, log entry 74). -/
structure Dma where
  inp  : List Byte
  fail : Option Nat
  ecc  : List CellarError := []
deriving DecidableEq, Repr

/-- A mailbox whose command's Cellar write waits for temperature, and what comes to that command from outside it (R386). -/
structure Queued where
  m   : Fin 16
  dma : Dma
deriving DecidableEq, Repr

/-- A power-good input that is lost (R473): a control-die rail, a bias rail, or one of a tile's two rails. -/
inductive Rail where
  | core
  | biasP
  | biasN
  | atd (a : Fin 8)
  | a18 (a : Fin 8)
deriving DecidableEq, Repr

/-- A counter of R22 on whose storage an error is found (R24): its holder, 0 the island, 1 a queue's drop counter, 2 the descriptor
pool, 3 a Flavas link, 4 a Tap unit, and which of the holder's counters it is: an account, a queue, a link or a unit. -/
structure CounterId where
  holder : Fin 5
  which  : BitVec 16
deriving DecidableEq, Repr

/-- What is delivered for a window (R235, R241): with `stream`, the RFI's samples at 16 GS/s after the deinterleaver and trims, from so
many of them before W0 on; without, the decimated samples from W0 on. -/
structure WindowData where
  stream : Option (BitVec 12 × List (BitVec 10))
  xs     : List (BitVec 16 × BitVec 16)
deriving DecidableEq, Repr

/-- What is delivered for a Tap segment, from record sample 0 on (R304, R305, R314): each sample, none for one that the write path
could not take; and for a BB record, where it is the RFI's stream that is delivered, its samples at 16 GS/s from a number of them
before
record sample 0 on. -/
structure TapData where
  xs     : List (Option (BitVec 256))
  stream : Option (BitVec 12 × List (BitVec 10))
deriving DecidableEq, Repr

/-- A command (DESIGN CHOICE, log entry 1) (open corners: DESIGN CHOICE, log entry 73). -/
inductive Instr where
  /-- R467. Release of PORST_L begins the cold-start sequence: DEV_ID sampled, Timeline 0, feed epoch incremented. -/
  | porstRelease (dev : BitVec 6)
  /-- R471. Assertion of PORST_L with tile analog rails good holds RFO in HOLD, ZF at code 0 and ZB at its present
  current (warm reset). -/
  | porstAssert
  /-- R473. A power-good input low for 1 us acts as PORST_L for core rails and fences tiles for bias or tile rails. -/
  | pgLost (r : Rail)
  /-- R468. A tile's analog rails report good and its Park logic holds every output quiet until the Park Table is
  applied. -/
  | tileRailsGood (a : Fin 8)
  /-- R229. Ryvex applies the Park Table to a tile within 2 ms of its rails being good, moving every ZB to its Park
  value. -/
  | parkApplied (a : Fin 8)
  /-- R450. The boot ROM verifies and boots the first valid Ryvex slot, or stays in recovery. -/
  | boot
  /-- R19. The device sets READY once the minimum service set holds after start-up, raising event 3. -/
  | startupReady
  /-- R20. Loss of REF_IN parks all powered tiles, faults running sequencers with SERVICE_LOSS and aborts every shot in
  flight. -/
  | refLost
  /-- R469. REF_IN becomes present and start-up proceeds from the first lock of the tick PLL. -/
  | refOk
  /-- R27. The tick PLL locks and the Timeline and network time start counting. -/
  | pllLocked
  /-- R29. Loss of tick PLL lock clears ALIGNED, raises event 103 and takes the actions of R20. -/
  | pllUnlocked
  /-- R472. Expiry of the 100 ms Supervisor watchdog takes the R20 action and restarts Ryvex without PORST_L. -/
  | watchdog
  /-- R472. Ryvex completes its restart and READY returns if the rest of the service set is intact. -/
  | ryvexUp
  /-- R20. Loss of Park logic in a tile fences it and switches its analog supplies off at once. -/
  | parkLogicLost (a : Fin 8)
  /-- R24. An uncorrectable memory error on counter storage raises LEDGER_BREAK and the identities involving that counter
  lapse. -/
  | ledgerBreak (counter : CounterId) (word : BitVec 64)
  /-- R31. TL_CTRL.LOAD copies TL_LOAD_VALUE into the Timeline at least 8 ticks later, or is refused. -/
  | tlLoad (r : Req)
  /-- R39. On a master, TL_CTRL.SEND_SYNC launches a SYNC frame with its timing point at TL_SYNC_AT. -/
  | sendSync (r : Req)
  /-- R39. On a master, TL_CTRL.SEND_CHECK launches a SYNC_CHECK frame at TL_SYNC_AT. -/
  | sendCheck (r : Req)
  /-- R39. With AUTO_CHECK = 1 an aligned master sends SYNC_CHECK at every Timeline multiple of 1 s. -/
  | autoSyncCheck
  /-- R36. TL_CTRL.ECHO_START begins the echo delay measurement to each masked device. -/
  | echoStart (r : Req)
  /-- R36. A follower receives ECHO_REQ and launches ECHO_RSP exactly 256 ticks after its arrival. -/
  | echoReqRx (f : BitVec 84) (stamp : BitVec 64)
  /-- R36. The master stamps an ECHO_RSP, computes the exchange delay and starts the next exchange or finishes the
  device. -/
  | echoRspRx (f : BitVec 84) (stamp : BitVec 64)
  /-- R37. A response absent 16,808 ticks after its request abandons the device with ECHO_NO_REPLY. -/
  | echoTimeout
  /-- R38. A follower receiving DELAY_SET stores D and sets DELAY_VALID. -/
  | delaySetRx (f : BitVec 84) (stamp : BitVec 64)
  /-- R40. A follower receiving SYNC computes the correction and steps its Timeline or refuses. -/
  | syncRx (f : BitVec 84) (stamp : BitVec 64)
  /-- R40. A follower receiving SYNC_CHECK stores the correction in TL_SYNC_ERR and flags ALIGN_DRIFT if too large. -/
  | syncCheckRx (f : BitVec 84) (stamp : BitVec 64)
  /-- R54. TL_CTRL.CAPTURE captures a Timeline and network-time pair at the next tick. -/
  | tlCapture
  /-- R54. At every Timeline multiple of 1 s the device captures a Timeline and network-time pair. -/
  | pairCaptured
  /-- R42. An input edge on a trigger pin or fast line persisting FILT ticks is accepted, stamped and delivered to
  consumers. -/
  | trigEdge (n : Fin 22) (falling : Bool) (stamp : BitVec 64)
  /-- R44. A write to TL_PIN_POP releases the oldest stamp of the named pin. -/
  | tlPinPop (pin : BitVec 5)
  /-- R45. Writing the HI half of TL_PIN_AT arms a timed output pulse, or sets PIN_LATE if too late. -/
  | pinArm (n : Fin 22) (at_ : BitVec 64)
  /-- R45. At the armed tick a TIMED output pin emits a high pulse of PULSE_W ticks. -/
  | pinPulse (n : Fin 22)
  /-- R49. A real Cycle Angle index is measured, judged against TOL and the tracker updated. -/
  | caIndex (stamp : BitVec 64)
  /-- R49. With no index by T_idx + P(1 + TOL) a virtual index is placed and COASTING set. -/
  | caMissedIndex
  /-- R47. A quadrature edge on CYC_A or CYC_B moves the QUAD-mode count. -/
  | caQuadEdge (aLeads : Bool) (stamp : BitVec 64)
  /-- R51. The valid angle passing into window k fires trigger source 24 + k. -/
  | caWindowEntry (k : Fin 8) (at_ : BitVec 64)
  /-- R64. SEQ_CTRL.START starts an IDLE or HALTED sequencer with a new cursor, or is refused. -/
  | start (r : Req) (k : Fin 512)
  /-- R64. TUN_CTRL.GROUP_START starts the masked sequencers of a Tun at one tick, or none of them. -/
  | groupStart (r : Req) (t : Fin 64) (mask : BitVec 8)
  /-- R65. SEQ_CTRL.STOP raises HOST_STOP, aborts shots in flight and takes the sequencer to IDLE. -/
  | stop (r : Req) (k : Fin 512)
  /-- R65. SEQ_CTRL.STOP_AT_SHOT makes the sequencer halt at its next SHOT_BEGIN. -/
  | stopAtShot (r : Req) (k : Fin 512)
  /-- R63. SEQ_CTRL.CLEAR returns a FAULTED or HALTED sequencer to IDLE. -/
  | clear (r : Req) (k : Fin 512)
  /-- R96. SEQ_CTRL.SLACK_RESET sets SEQ_SLACK_MIN to 0x7FFF_FFFF. -/
  | slackReset (k : Fin 512)
  /-- R96. A write of SEQ_CTRL.EN, whose write of 0 is refused unless the sequencer is IDLE. -/
  | seqEnWrite (r : Req) (k : Fin 512) (on : Bool)
  /-- R96. A write of TUN_CTRL.EN, whose write of 0 is refused unless all 8 sequencers are IDLE. -/
  | tunEnWrite (r : Req) (t : Fin 64) (on : Bool)
  /-- R105. Machine instruction that does nothing in 1 cycle. -/
  | nop (k : Fin 512)
  /-- R118. Takes the sequencer to HALTED, faulting with SHOT_OPEN inside an open shot. -/
  | halt (k : Fin 512)
  /-- R115. Offers a tile to calibration for LEN ticks and advances the cursor by LEN. -/
  | yieldCal (k : Fin 512)
  /-- R113. Advances the cursor by an immediate or register value. -/
  | wait (k : Fin 512)
  /-- R113. Sets the cursor to the maximum of itself and an absolute or shot-relative target. -/
  | waituntil (k : Fin 512)
  /-- R52. Moves the cursor to the next entry of a Cycle Angle window, stalling while unlocked. -/
  | alignAngle (k : Fin 512)
  /-- R53. An ALIGN_ANGLE stall exceeding TL_CA_ALIGN_TIMEOUT faults and aborts the shot. -/
  | angleUnlocked (k : Fin 512)
  /-- R114. Arms on a trigger source and stalls until it fires, then sets the cursor from its stamp plus OFFSET. -/
  | waittrig (k : Fin 512)
  /-- R114. No edge within TIMEOUT us of WAITTRIG arming faults the instruction. -/
  | trigTimeout (k : Fin 512)
  /-- R82. Arrives at a barrier and stalls until its release. -/
  | sync (k : Fin 512)
  /-- R82. 12 ticks after the COUNT-th arrival the barrier releases all participants with the greatest cursor. -/
  | barrierRelease (b : Fin 256)
  /-- R85. A barrier incomplete TIMEOUT us after its first arrival faults every waiting participant and resets. -/
  | barrierTimeout (b : Fin 256)
  /-- R86. A write to QM_BAR_CFG, ignored and flagged while the barrier holds arrivals. -/
  | qmBarCfgWrite (r : Req) (b : Fin 256) (v : BitVec 32)
  /-- R108. Writes a PULSE entry to a tone lane, optionally scaling the amplitude and advancing the cursor. -/
  | play (k : Fin 512)
  /-- R103. When the head entry of the full queue fires the stalled writing microword re-executes. -/
  | teqFullStallEnd (k : Fin 512)
  /-- R109. Writes a ZPULSE entry to a Z baseband lane. -/
  | playz (k : Fin 512)
  /-- R109. Writes a BIAS_SET entry for a ZB output. -/
  | setbias (k : Fin 512)
  /-- R109. Writes a BIAS_RAMP entry with a register duration, optionally advancing the cursor. -/
  | rampbias (k : Fin 512)
  /-- R110. Writes a FRAME entry with operation FSET. -/
  | fset (k : Fin 512)
  /-- R110. Writes a FRAME entry with operation FSHIFT. -/
  | fshift (k : Fin 512)
  /-- R110. Writes a FRAME entry with operation FRESET. -/
  | freset (k : Fin 512)
  /-- R110. Writes a FRAME entry with operation PFRAME. -/
  | pframe (k : Fin 512)
  /-- R112. Writes a MEASURE entry, assigning the channel's next generation and optionally returning it in a register. -/
  | measure (k : Fin 512)
  /-- R110. Writes an ACQ entry for a Tap unit. -/
  | acq (k : Fin 512)
  /-- R117. Branches to a target when COND holds. -/
  | br (k : Fin 512)
  /-- R120. Arms on a Result Vector pair, bit or branch code of an expected generation and branches on it. -/
  | brr (k : Fin 512)
  /-- R143. A new generation at the source of a stalled BRR ends its stall and starts resolution. -/
  | resultReady (k : Fin 512)
  /-- R121. No resolution within TMO x 256 ticks of arming makes BRR fail with RESULT_TIMEOUT. -/
  | resultTimeout (k : Fin 512)
  /-- R116. Pushes a loop entry for the body up to END with a count. -/
  | loop (k : Fin 512)
  /-- R116. Pushes PC + 1 and jumps to the target. -/
  | call (k : Fin 512)
  /-- R117. Discards loop entries above the last CALL entry, pops it and returns. -/
  | ret (k : Fin 512)
  /-- R124. Loads a word from the sequencer data space into a register. -/
  | ld (k : Fin 512)
  /-- R124. Stores a register into a writable word of the sequencer data space. -/
  | st (k : Fin 512)
  /-- R123. Adds two operands into a register and sets the flags. -/
  | add (k : Fin 512)
  /-- R123. Subtracts two operands into a register and sets the flags. -/
  | sub (k : Fin 512)
  /-- R123. Bitwise AND of two operands into a register. -/
  | and (k : Fin 512)
  /-- R123. Bitwise OR of two operands into a register. -/
  | or (k : Fin 512)
  /-- R123. Bitwise exclusive OR of two operands into a register. -/
  | xor (k : Fin 512)
  /-- R123. Shifts operand A left by B[4:0]. -/
  | shl (k : Fin 512)
  /-- R123. Shifts operand A logically right by B[4:0]. -/
  | shr (k : Fin 512)
  /-- R123. Shifts operand A arithmetically right by B[4:0]. -/
  | asr (k : Fin 512)
  /-- R123. Copies operand B into a register. -/
  | mov (k : Fin 512)
  /-- R123. Sets the flags from A - B without writing a register. -/
  | cmp (k : Fin 512)
  /-- R123. Multiplies the low 18 bits of two operands on the TAU. -/
  | mul (k : Fin 512)
  /-- R126. Checks nesting, stop, Kiln, ring and credit, then begins a new shot. -/
  | shotBegin (k : Fin 512)
  /-- R397. A raised LIMIT lets a sequencer stalled on credit pass check 5 and continue. -/
  | creditStallEnd (k : Fin 512)
  /-- R93. A backpressured result ring ceasing to be full lets stalled SHOT_BEGINs continue. -/
  | ringStallEnd (k : Fin 512)
  /-- R439. The Kiln skip or pause of a SHOT_BEGIN expires and the instruction continues. -/
  | kilnSkipEnd (k : Fin 512)
  /-- R127. Closes the open shot, which stays in flight until its entries fire and records are produced. -/
  | shotEnd (k : Fin 512)
  /-- R127. At the first tick all entries of a closing shot have fired and its records are produced, SHOT_END retires and
  the shot is completed. -/
  | shotClosed (k : Fin 512)
  /-- R125. Appends a message to a general-purpose queue, or sends it as a TRIGGER through a proxy. -/
  | signal (k : Fin 512)
  /-- R94. A signalled message becomes visible to WAITMSG 16 ticks after its SIGNAL and after messages ahead of it. -/
  | msgVisible (q : BitVec 16)
  /-- R125. Removes the head visible message of a queue into a register, stalling while empty. -/
  | waitmsg (k : Fin 512)
  /-- R125. No message visible within TIMEOUT us of WAITMSG arming faults the instruction. -/
  | msgTimeout (k : Fin 512)
  /-- R131. An undefined or unloaded opcode executes ILL and takes the ILLEGAL abort trap. -/
  | illegal (k : Fin 512)
  /-- R158. An opcode 0xE0..0xEF defined by an owner extension runs its routine in owner mode. -/
  | ownerExtension (k : Fin 512)
  /-- R145. A pending calibration request is taken as a call trap at an instruction boundary outside a shot and
  acknowledged. -/
  | calRequest (k : Fin 512)
  /-- R168. A PULSE entry fires on its tone lane, latching frame and descriptor into a pulse slot. -/
  | pulseFire (k : Fin 512) (j : Fin 32)
  /-- R176. A ZPULSE entry fires on its Z lane. -/
  | zpulseFire (k : Fin 512) (j : Fin 32)
  /-- R214. A BIAS_SET entry fires and applies its current to the ZB output, or is discarded. -/
  | biasSetFire (k : Fin 512) (j : Fin 32)
  /-- R214. A BIAS_RAMP entry fires and starts a linear ramp to its final current. -/
  | biasRampFire (k : Fin 512) (j : Fin 32)
  /-- R163. A FRAME entry fires and applies FSET, FSHIFT, FRESET or PFRAME to its frame. -/
  | frameFire (k : Fin 512) (j : Fin 32)
  /-- R244. A MEASURE entry fires on its channel and opens an integration window, or yields an invalid record at once. -/
  | measureFire (k : Fin 512) (j : Fin 32)
  /-- R306. An ACQ entry fires and presents a trigger to its Tap unit. -/
  | acqFire (k : Fin 512) (j : Fin 32)
  /-- R252. At E + 80 a window's state and flags are formed into its record. -/
  | windowRecord (c : Fin 1024) (xs : WindowData) (overs : Bool) (n : BitVec 32)
  /-- R266. The router writes a record into its Result Vector pair and result ring, forwarding it when configured. -/
  | resultWrite
  /-- R275. A round ready within 8 ticks of the last evaluation is evaluated 8 ticks after it. -/
  | roundDeferredEval (d : Fin 64)
  /-- R273. A round open for TIMEOUT x 256 ticks fails with TIMEOUT. -/
  | roundTimeout (d : Fin 64)
  /-- R278. At the action tick a round delivers its code, applies Pauli updates, flags the host and forwards, or delivers
  the failure. -/
  | roundAction (d : Fin 64)
  /-- R274. A write of a decision window's EN, refused for invalid configuration, taking effect 8 ticks later. -/
  | decWinEnable (r : Req) (d : Fin 64) (on : Bool)
  /-- R283. A live write of DEC_WIN_BASE, ignored when it breaks the table limit. -/
  | decBaseWrite (r : Req) (d : Fin 64) (v : BitVec 19)
  /-- R283. A host write of a Decision Table word takes effect whole 8 ticks later. -/
  | decTableWrite (r : Req) (x : Fin 524288) (be : BitVec 4) (v : Dword)
  /-- R165. A host write to the Frame Table window, holding dword 0 until dword 4 applies both FREQ halves. -/
  | frameTableWrite (r : Req) (f : Fin 40960) (dw : Fin 4) (be : BitVec 4) (v : Dword)
  /-- R178. WFT_CTRL.SWAP requests a descriptor bank swap at WFT_SWAP_AT. -/
  | wftSwap
  /-- R178. WFT_CTRL.SWAP_NOW requests a swap 16 ticks after the write. -/
  | wftSwapNow
  /-- R178. At the swap tick the masked regions exchange active and shadow banks. -/
  | wftSwapApply
  /-- R179. WFT_CTRL.COPY starts a copy of the active bank into the shadow of masked regions. -/
  | wftCopy
  /-- R179. A descriptor bank copy completes and held shadow writes are applied. -/
  | wftCopyDone
  /-- R191. A write of RFO EN = 1, refused or scheduled for T_en. -/
  | rfoEnable (r : Req) (p : Fin 288)
  /-- R191. At T_en the port becomes ACTIVE and its enable gain ramps up. -/
  | rfoEnabled (p : Fin 288)
  /-- R192. A write of RFO EN = 0 ramps the gain to 0 and takes the port to HOLD or OFF. -/
  | rfoDisable (r : Req) (p : Fin 288)
  /-- R193. A live write of MUTE ramps the mute gain 8 ticks later. -/
  | rfoMute (p : Fin 288) (on : Bool)
  /-- R198. A short or overheating at the RFO driver sets DRIVER_FAULT and parks the port. -/
  | rfoDriverFault (p : Fin 288)
  /-- R198. Every 1 ms a driver fault is tested again and clears when none is found. -/
  | driverFaultRetest (zf : Bool) (p : Fin 768) (found : Bool)
  /-- R197. Writing 1 to PARKED clears it only when every cause has cleared. -/
  | rfoParkClear (p : Fin 288)
  /-- R186. A noise-shaper state leaving its bounds is cleared, a balanced tick sent and counted. -/
  | shaperReset (p : Fin 288)
  /-- R208. A write of ZP EN = 1, refused or taking effect at T_en. -/
  | zpEnable (r : Req) (z : Fin 768)
  /-- R208. A write of ZP EN = 0 gates ZF to 0 and stops any stream 8 ticks later. -/
  | zpDisable (r : Req) (z : Fin 768)
  /-- R215. At each stream sample instant the port takes one sample from its queue as a BIAS_SET. -/
  | zbStreamSample (z : Fin 768)
  /-- R219. A pending range change opens its 2 us transfer window when the current lies within the overlap. -/
  | transferWindowOpen (z : Fin 768)
  /-- R219. At the end of the window the range change completes, is deferred or is abandoned. -/
  | transferWindowEnd (z : Fin 768)
  /-- R223. A periodic read-back conversion of a ZB current is judged against its commanded current or skipped. -/
  | zbReadback (z : Fin 768) (m : BitVec 12)
  /-- R225. The ZB voltage leaving plus or minus 1.5 V sets COMPLIANCE. -/
  | zbCompliance (z : Fin 768)
  /-- R226. A short or overheating at the ZF driver parks the port with cause 1. -/
  | zfDriverFault (z : Fin 768)
  /-- R228. The ZB Park sequence reaches I_p and sets PARK_DONE. -/
  | parkDone (z : Fin 768)
  /-- R230. Writing 1 to ZP PARKED clears it only when every cause has cleared. -/
  | zParkClear (z : Fin 768)
  /-- R230. Writing 1 to READBACK_FAULT clears Park cause 7. -/
  | readbackFaultClear (z : Fin 768)
  /-- R238. A write of RFI EN = 1, refused or making the input ACTIVE after warm-up. -/
  | rfiEnable (r : Req) (i : Fin 32)
  /-- R238. A write of RFI EN = 0 takes the input to STANDBY or OFF 8 ticks later. -/
  | rfiDisable (r : Req) (i : Fin 32)
  /-- R259. RFI_CTRL.KSWAP requests a kernel bank swap of masked channels at RFI_KSWAP_AT. -/
  | kswap (i : Fin 32)
  /-- R259. RFI_CTRL.KSWAP_NOW requests a kernel bank swap 16 ticks after the write. -/
  | kswapNow (i : Fin 32)
  /-- R259. At the swap tick the masked channels exchange kernel banks. -/
  | kswapApply (i : Fin 32)
  /-- R259. RFI_CTRL.KCOPY starts a copy of the active kernel bank to the shadow. -/
  | kcopy (i : Fin 32)
  /-- R259. A kernel bank copy completes and held shadow writes are applied. -/
  | kcopyDone (i : Fin 32)
  /-- R260. A write of LAU EN, refused for a bad configuration, taking effect 8 ticks later. -/
  | lauEnable (r : Req) (c : Fin 1024) (on : Bool)
  /-- R300. A write of ANA EN = 1, refused or clearing the engine and starting it at address 0. -/
  | anaEnable (r : Req) (a : Fin 8)
  /-- R300. A write of ANA EN = 0 stops the engine at once. -/
  | anaDisable (r : Req) (a : Fin 8)
  /-- R295. ANA_CTRL.DOORBELL raises interrupt source 4. -/
  | anaDoorbell (a : Fin 8)
  /-- R295. An enabled pending source is taken: IRA saved, shadow bank selected, vector issued. -/
  | anaInterrupt (a : Fin 8)
  /-- R297. An input stream copies a queue buffer into its region when room allows and raises IN<j>. -/
  | anaInCopy (a : Fin 8) (j : Fin 2)
  /-- R298. The armed Timeline timer is reached and raises TIMER. -/
  | anaTimer (a : Fin 8)
  /-- R299. A SEND copy completes and raises OUT_DONE. -/
  | anaSendDone (a : Fin 8)
  /-- R291. Analysis instruction that does nothing. -/
  | anaNop (a : Fin 8)
  /-- R291. Loads a word into a V register and post-modifies the pointer. -/
  | anaLd (a : Fin 8)
  /-- R291. Stores a V register and post-modifies the pointer. -/
  | anaSt (a : Fin 8)
  /-- R291. Loads two words through two address units at once. -/
  | anaLdd (a : Fin 8)
  /-- R288. Stores a sum register scaled and rounded. -/
  | anaSts (a : Fin 8)
  /-- R287. Sets a sum register to the product of two V registers. -/
  | anaMul (a : Fin 8)
  /-- R287. Adds a product to a sum register. -/
  | anaMac (a : Fin 8)
  /-- R287. Subtracts a product from a sum register. -/
  | anaMsb (a : Fin 8)
  /-- R291. Adds a fraction to a sum register. -/
  | anaAdds (a : Fin 8)
  /-- R291. Clears a sum register and SAT. -/
  | anaClrs (a : Fin 8)
  /-- R291. Shifts a sum register with saturation. -/
  | anaShs (a : Fin 8)
  /-- R289. Normalises a sum register and writes the exponent. -/
  | anaNorm (a : Fin 8)
  /-- R289. Writes the leading-bit exponent of a sum register. -/
  | anaLead (a : Fin 8)
  /-- R291. Saturating 24-bit addition. -/
  | anaAdd (a : Fin 8)
  /-- R291. Saturating 24-bit subtraction. -/
  | anaSub (a : Fin 8)
  /-- R291. Bitwise AND of V registers. -/
  | anaAnd (a : Fin 8)
  /-- R291. Bitwise OR of V registers. -/
  | anaOr (a : Fin 8)
  /-- R291. Bitwise exclusive OR of V registers. -/
  | anaXor (a : Fin 8)
  /-- R291. Signed shift of a V register with saturation. -/
  | anaShf (a : Fin 8)
  /-- R291. Loads a sign-extended immediate. -/
  | anaLdi (a : Fin 8)
  /-- R291. Loads the high byte of a V register. -/
  | anaLdih (a : Fin 8)
  /-- R294. Sets P, OA, OB or W of an address unit. -/
  | anaSetau (a : Fin 8)
  /-- R291. Saturating absolute value. -/
  | anaAbs (a : Fin 8)
  /-- R291. Sets the flags from Va - B. -/
  | anaCmp (a : Fin 8)
  /-- R293. Conditional branch after two delay slots. -/
  | anaBr (a : Fin 8)
  /-- R293. Conditional call after two delay slots. -/
  | anaCall (a : Fin 8)
  /-- R293. Return after two delay slots. -/
  | anaRet (a : Fin 8)
  /-- R293. Starts a zero-overhead hardware loop. -/
  | anaLooph (a : Fin 8)
  /-- R295. Returns from an interrupt to the main bank. -/
  | anaRti (a : Fin 8)
  /-- R295. Sleeps until an enabled interrupt is pending. -/
  | anaWait (a : Fin 8)
  /-- R291. Sets ANA_HOST_VAL and HOST_FLAG and raises event 800 + 2a. -/
  | anaHflag (a : Fin 8)
  /-- R299. Sends LEN words as one buffer to the output queue, stalling while full. -/
  | anaSend (a : Fin 8)
  /-- R298. Reads an engine I/O register. -/
  | anaIord (a : Fin 8)
  /-- R298. Writes an engine I/O register, arming the timer or releasing input words. -/
  | anaIowr (a : Fin 8)
  /-- R291. Takes the engine to IDLE. -/
  | anaHalt (a : Fin 8)
  /-- R301. An undefined opcode or bad field stops the engine FAULTED with ILLEGAL. -/
  | anaIllegal (a : Fin 8)
  /-- R313. A write of TAP EN = 1, refused for a bad configuration. -/
  | tapEnable (r : Req) (i : Fin 32)
  /-- R308. A write of TAP EN = 0 acts as DISARM and clears EN. -/
  | tapDisable (r : Req) (i : Fin 32)
  /-- R308. TAP_CTRL.ARM starts an acquisition 8 ticks later, or is refused. -/
  | tapArm (i : Fin 32)
  /-- R308. TAP_CTRL.DISARM ends the acquisition after any capture in progress. -/
  | tapDisarm (i : Fin 32)
  /-- R309. A captured segment ends, its descriptor is appended and the unit enters REARM or DONE. -/
  | tapSegmentEnd (i : Fin 32) (xs : TapData)
  /-- R309. 32 ticks after the segment end the unit reserves its next slot. -/
  | tapRearmEnd (i : Fin 32)
  /-- R312. The awaited slot becomes free and a WAIT_ROOM unit enters ARMED. -/
  | tapSlotFree (i : Fin 32)
  /-- R320. A write of Flavas link EN = 1, refused or taking the link to DETECT. -/
  | flvEnable (r : Req) (n : Fin 32)
  /-- R331. A write of link EN = 0 takes it to DISABLED and discards held flits. -/
  | flvDisable (r : Req) (n : Fin 32)
  /-- R331. The once-per-ms far-end termination test of every lane of a link. -/
  | flvDetect (n : Fin 32) (found : BitVec 4)
  /-- R331. The peer reports trained and the link goes to LOCK. -/
  | flvTrained (n : Fin 32)
  /-- R331. TRAIN lasting 2 ms returns to DETECT and counts TRAIN_FAILS. -/
  | flvTrainTimeout (n : Fin 32)
  /-- R331. Bit and block lock and deskew are gained and the link goes to CAPS. -/
  | flvLocked (n : Fin 32)
  /-- R331. 100 us in LOCK without lock returns the link to TRAIN. -/
  | flvLockTimeout (n : Fin 32)
  /-- R331. A capability flit is exchanged and the link goes ACTIVE or back to TRAIN. -/
  | flvCaps (n : Fin 32) (peer : Fin 64) (width : BitVec 2) (depth : BitVec 8)
  /-- R331. 10 us in CAPS without exchange returns the link to TRAIN. -/
  | flvCapsTimeout (n : Fin 32)
  /-- R329. A received flit is checked, its credits taken and its messages dispatched or discarded: `f` is its eight descrambled
  66-bit blocks, the sync header of each in its two low bits (R321). -/
  | flitRx (n : Fin 32) (f : BitVec 528)
  /-- R329. Pending credits with no flit to carry them for 64 ticks send a credit-only flit. -/
  | creditFlit (n : Fin 32)
  /-- R332. Every TIME_PERIOD us an ACTIVE link starts a TIME exchange. -/
  | timeExchange (n : Fin 32)
  /-- R333. 16 invalid sync headers within 1,024 blocks retrain the link. -/
  | flvLockLost (n : Fin 32) (k : Fin 4)
  /-- R333. FLV_CTRL.RETRAIN takes an ACTIVE link to LOCK. -/
  | flvRetrain (r : Req) (n : Fin 32)
  /-- R334. FLV_CTRL.IDLE_REQ takes the link to EIDLE. -/
  | idleReq (r : Req) (n : Fin 32)
  /-- R334. Empty queues for IDLE_AFTER us, or a received idle ordered set, take the link to EIDLE. -/
  | eidleEntry (n : Fin 32) (received : Bool)
  /-- R334. A message or credit ends EIDLE after a 16-tick training burst. -/
  | eidleExit (n : Fin 32)
  /-- R335. FLV_LANE_TEST.INJECT inverts one transmitted bit. -/
  | prbsInject (r : Req) (l : Fin 32)
  /-- R344. A write to NT_INC_HI applies both halves of NT_INC or is refused. -/
  | ntIncWrite (r : Req) (hi : Dword)
  /-- R345. NT_CTRL.STEP moves network time by NT_STEP, or is refused beyond NT_STEP_MAX. -/
  | ntStep (r : Req)
  /-- R345. NT_CTRL.LOAD sets network time to NT_LOAD and logs it in the Excise audit log. -/
  | ntLoad (r : Req)
  /-- R343. A carry out of bit 31 of NT_NS increments NT_WRAPS and raises event 112. -/
  | ntWrap
  /-- R341. A received Ethernet frame is stamped and queued, or dropped. -/
  | ethRxFrame (e : Fin 2) (f : List Byte) (fcs : Bool)
  /-- R383. An Ethernet management frame is run on mailbox 12..15 or relayed over Flavas. -/
  | mgmtFrame (e : Fin 2) (f : List Byte)
  /-- R341. A general-queue frame is sent, stamped or one-step corrected, and its descriptor returned. -/
  | ethTx (e : Fin 2) (bufs : List (List Byte))
  /-- R350. The head of the timed queue reaches its launch time and is sent, or is late. -/
  | ethTimedLaunch (e : Fin 2) (bufs : List (List Byte))
  /-- R351. An Ethernet link changes state and timed heads are judged again. -/
  | ethLink (e : Fin 2) (up : Bool)
  /-- R362. A write to a register with no row of its own, judged for width, privilege, CFG and locks. -/
  | registerWrite (r : Req) (addr : BitVec 26) (xs : List (BitVec 4 × Dword))
  /-- R364. A read of the LO half of a 64-bit pair stores HI in the requester's snapshot slot. -/
  | loRead (r : Req) (addr : BitVec 26) (bes : List (BitVec 4))
  /-- R360. The first write of HOST_SEC_RID sets the secure requester once. -/
  | secRidWrite (r : Req) (rid : BitVec 16)
  /-- R365. Writing 1 to GLB_LOCK.PART_LOCK locks the partition map. -/
  | partLock (r : Req)
  /-- R365. Writing 1 to GLB_LOCK.VEC_LOCK locks HOST_EVT_MAP. -/
  | vecLock (r : Req)
  /-- R89. A write of a GLB_PART register changes each nibble whose resource is not in use. -/
  | partWrite (r : Req) (m : PartMap) (j : Fin 128) (v : Dword)
  /-- R91. QM_Q_CTRL.RESET empties a queue and counts what it held as dropped. -/
  | queueReset (r : Req)
  /-- R367. Writing a block's COMMIT copies the next CRC pass into CRC_REF. -/
  | cfgCrcCommit (r : Req) (b : CfgBlock)
  /-- R367. A completed configuration CRC pass is compared with CRC_REF. -/
  | crcPass (b : CfgBlock)
  /-- R382. A Function Level Reset closes the sessions opened by that function. -/
  | flr (fn : Fin 2)
  /-- R375. A RING of a mailbox doorbell posts its command or is refused. -/
  | mbxRing (r : Req) (m : Fin 16)
  /-- R382. 3,600 s without an accepted command closes a session. -/
  | sessionTimeout (m : Fin 16)
  /-- R381. A mailbox lockout period ends. -/
  | lockoutExpiry (m : Fin 16)
  /-- R386. Returns identity, versions, lifecycle and variant. -/
  | getInfo (m : Fin 16) (dma : Dma)
  /-- R380. Returns a nonce, SALT and ITER for a role. -/
  | getNonce (m : Fin 16) (dma : Dma)
  /-- R380. Opens a session for a role on proof of its key. -/
  | openSession (m : Fin 16) (dma : Dma)
  /-- R382. Closes the mailbox's session. -/
  | closeSession (m : Fin 16) (dma : Dma)
  /-- R386. Stores a role's key hash, SALT and ITER. -/
  | setKey (m : Fin 16) (dma : Dma)
  /-- R386. Returns the payload unchanged. -/
  | echo (m : Fin 16) (dma : Dma)
  /-- R386. Loads instructions into an IDLE sequencer's store. -/
  | loadProgram (m : Fin 16) (dma : Dma)
  /-- R386. Loads words into a Tun's waveform sample memory. -/
  | loadSamples (m : Fin 16) (dma : Dma)
  /-- R386. Loads waveform descriptors into the shadow bank. -/
  | loadDescriptors (m : Fin 16) (dma : Dma)
  /-- R386. Loads kernel window bytes of a Lauter channel. -/
  | loadKernel (m : Fin 16) (dma : Dma)
  /-- R386. Loads Decision Table action words. -/
  | loadDecision (m : Fin 16) (dma : Dma)
  /-- R386. Loads an analysis engine's data or program memory. -/
  | loadAnalysis (m : Fin 16) (dma : Dma)
  /-- R153. Checks and loads a Recipe container into each masked Tun. -/
  | loadRecipe (m : Fin 16) (dma : Dma)
  /-- R386. Stores a Recipe container in the Cellar for start-up. -/
  | storeRecipe (m : Fin 16) (dma : Dma)
  /-- R387. Reads registers as the Supervisor. -/
  | regRead (m : Fin 16) (dma : Dma)
  /-- R387. Writes registers as the Supervisor, denied to an Operator for protected blocks. -/
  | regWrite (m : Fin 16) (dma : Dma)
  /-- R386. Commits configuration CRCs and returns their references. -/
  | commitCrc (m : Fin 16) (dma : Dma)
  /-- R388. Returns the selected counter sets taken at one tick. -/
  | snapshot (m : Fin 16) (dma : Dma)
  /-- R386. Checks the descriptor pool identity by walking every list. -/
  | poolAudit (m : Fin 16) (dma : Dma)
  /-- R386. Returns a stopped sequencer's state and shadow. -/
  | seqState (m : Fin 16) (dma : Dma)
  /-- R389. Binds a queue to a host ring for export. -/
  | exportBind (m : Fin 16) (dma : Dma)
  /-- R389. Ends export of a queue after the buffer in progress. -/
  | exportUnbind (m : Fin 16) (dma : Dma)
  /-- R389. The device writes a buffer into the host ring when data and room are present and advances PROD. -/
  | exportSlotWrite (k : Fin 1008) (cons : BitVec 64)
  /-- R386. Parks the named ports with cause 6. -/
  | park (m : Fin 16) (dma : Dma)
  /-- R386. Clears Park cause 6 on the named ports. -/
  | release (m : Fin 16) (dma : Dma)
  /-- R231. Fences a tile, parking its ports before switching off its analog supplies. -/
  | fence (m : Fin 16) (dma : Dma)
  /-- R231. After PARK_DONE on every port or 2 s, the fenced tile's analog supplies switch off. -/
  | fencePowerOff (a : Fin 8)
  /-- R477. Lifts a fence, restoring rails, Park values and stored selections. -/
  | unfence (m : Fin 16) (dma : Dma) (rails stands : Bool)
  /-- R386. Writes HOST_SEC_RID and optionally stores it in the Cellar. -/
  | setSecRid (m : Fin 16) (dma : Dma)
  /-- R386. A queued Cellar write waiting 10 s for temperature fails. -/
  | cellarTimeout (m : Queued)
  /-- R408. Returns a signed Excise report of the masked accounts. -/
  | excReport (m : Fin 16) (dma : Dma)
  /-- R409. Returns audit log entries still held. -/
  | excLogRead (m : Fin 16) (dma : Dma)
  /-- R401. Checks a voucher and loads its credits. -/
  | excLoadVoucher (m : Fin 16) (dma : Dma)
  /-- R399. Sets credit enforcement on or off for the masked accounts. -/
  | excEnforce (m : Fin 16) (dma : Dma)
  /-- R409. Sets a voucher public key slot. -/
  | excSetVoucherKey (m : Fin 16) (dma : Dma)
  /-- R403. Replaces the Excise firmware, breaking the seal. -/
  | excUpdate (m : Fin 16) (dma : Dma)
  /-- R405. Seals the present Excise image under a Seal Authority signature. -/
  | excSeal (m : Fin 16) (dma : Dma)
  /-- R447. Returns the report key certificate chain. -/
  | excGetCert (m : Fin 16) (dma : Dma)
  /-- R394. Every 1 us the control die sends cumulative partition totals and the island counts the differences. -/
  | exciseFeed
  /-- R397. The island sends LIMIT(n) for each enforced account. -/
  | limitFeed
  /-- R397. 100 us without a limit message holds every enforced partition at balance 0. -/
  | limitStale
  /-- R393. At least once per ms the island commits its state to its Cellar region. -/
  | islandCommit
  /-- R488. VDD_EXC falling or PG_EXC low makes the island commit at once. -/
  | vddExcFail (done : Bool)
  /-- R398. The island watchdog restarts a stalled island from its last commit. -/
  | islandRestart
  /-- R411. Every 1 us the EXC view registers are refreshed from one island tick. -/
  | excViewRefresh
  /-- R445. Writes the owner root and Owner key and moves BLANK to OWNED. -/
  | secTakeOwnership (m : Fin 16) (dma : Dma)
  /-- R448. Installs a certified key in a Vendor or Owner slot. -/
  | secAddKey (m : Fin 16) (dma : Dma)
  /-- R448. Empties a key slot. -/
  | secRevokeKey (m : Fin 16) (dma : Dma)
  /-- R444. Moves the lifecycle from OWNED to FIELD. -/
  | secSetField (m : Fin 16) (dma : Dma)
  /-- R444. Moves the lifecycle to RMA and erases Operator and Owner keys. -/
  | secRma (m : Fin 16) (dma : Dma)
  /-- R452. Writes a Ryvex container to the inactive slot and marks it ACTIVE. -/
  | secLoadFw (m : Fin 16) (dma : Dma)
  /-- R452. Raises SEC_FW_MIN to the running Ryvex version. -/
  | secSetRollback (m : Fin 16) (dma : Dma)
  /-- R461. Returns a debug-reopen challenge. -/
  | secDebugChallenge (m : Fin 16) (dma : Dma)
  /-- R461. Opens the debug port on a signed challenge, logging DEBUG_REOPEN. -/
  | secDebugOpen (m : Fin 16) (dma : Dma)
  /-- R458. Writes Park Table entries into both Cellar copies. -/
  | parkWrite (m : Fin 16) (dma : Dma)
  /-- R462. Returns the Park Table copy in use. -/
  | parkRead (m : Fin 16) (dma : Dma)
  /-- R424. Raises a calibration request for the masked tiles, optionally running at once. -/
  | calRun (m : Fin 16) (dma : Dma)
  /-- R428. Ends a calibration run after its current step. -/
  | calCancel (m : Fin 16) (dma : Dma)
  /-- R429. Writes a tile's present selections and trims to the Cellar. -/
  | calStore (m : Fin 16) (dma : Dma)
  /-- R417. Diagnoses a monitor input with the test DAC. -/
  | monDiag (m : Fin 16) (dma : Dma) (m1 m2 i1 i2 : BitVec 12)
  /-- R424. Every 1 ms a tile temperature beyond CAL_DT of CAL_T_REF raises a calibration request. -/
  | calTempCheck (a : Fin 8)
  /-- R424. CAL_PERIOD seconds after the last run a calibration request is raised. -/
  | calPeriodTrigger (a : Fin 8)
  /-- R425. A calibration step starts in an offered interval, an idle gap or immediately. -/
  | calStepStart (a : Fin 8)
  /-- R427. A step ends, applying or keeping the selection; the last step completes the run. -/
  | calStepEnd (a : Fin 8) (sel bad : BitVec 72) (res : BitVec 16)
  /-- R427. A step unfinished after STEP_TMO fails and keeps the previous selection. -/
  | calStepTimeout (a : Fin 8)
  /-- R426. No step started within CAL_WAIT of a request sets CAL_STALE. -/
  | calStale (a : Fin 8)
  /-- R414. A monitor sequence entry's trigger fires and requests a conversion. -/
  | monSeqFire (x : Fin 10) (j : Fin 8)
  /-- R415. A monitor conversion completes and its result is stored. -/
  | monConversion (x : Fin 10) (code : BitVec 12)
  /-- R418. A bridge channel's fixed-slot conversion feeds its filter and break detection. -/
  | brgConversion (n : Fin 8) (code : BitVec 12)
  /-- R421. Every 1 ms a bridge channel checks its excitation current. -/
  | brgExcCheck (n : Fin 8) (current : BitVec 16)
  /-- R436. Each 1 ms sensor reading is judged against thresholds, rate limit and faults. -/
  | kilnTempRead (n : Fin 49) (r : BitVec 16)
  /-- R436. Every STEP_MS the throttle level rises or falls by one. -/
  | kilnLevelStep
  /-- R435. Each 1 ms rail reading is judged against its limits. -/
  | kilnRailRead (r : Fin 24) (mv : BitVec 16)
  /-- R435. Each 10 ms ring-oscillator count is judged against PROC_MIN. -/
  | kilnProcRead (k : Fin 32) (mhz : BitVec 16)
  /-- R355. The PCI Express data link comes up or goes down, changing HOST_STATUS.LINK_UP and with it one of the host
  paths of R19 and R20. -/
  | hostLinkChange (up : Bool) (speed : BitVec 3) (width : BitVec 4)
  /-- R486. PG_BIAS not rising within 10 ms of EN_BIAS, or a tile's rails not good within 50 ms of its enables, lowers
  the enables and fences with cause 4. -/
  | railEnableTimeout (tile : Option (Fin 8))
  /-- R393. VDD_EXC returns after a failure and the island powers up, restoring its last completed commit and raising
  LEDGER_BREAK if a commit was lost. -/
  | vddExcReturn
  /-- R434. A non-faulty sensor's reading becomes older than 10 ms and the Kiln counts as not running, taking the action
  of R20. -/
  | kilnReadingStale (n : Fin 49)
  /-- R335. A lane's PRBS checker sees 64 consecutive correct bits and sets PRBS_LOCK, starting to count bits and errors.
  -/
  | prbsLock (l : Fin 32)
  /-- R335. A locked PRBS checker sees 64 errors within 1,024 bits, loses lock, sets PRBS_LOSS, raises event 768 + l and
  resynchronises. -/
  | prbsLoss (l : Fin 32) (errors : BitVec 32)
  /-- R214. A running BIAS_RAMP reaches tick T + D, the final current applies and RAMPING clears. -/
  | biasRampEnd (z : Fin 768)
deriving DecidableEq, Repr

end Sys2Proof
end

