-- ==== Sys2Proof/Config.lean ====
section
/-! DEFINITION. What the spec leaves to an implementation, and the free values: constants with no body. -/

namespace Sys2Proof.Config

/-- A value the spec leaves open, by the number State.free had when it was taken (DESIGN CHOICE, log entry 3). -/
opaque freeValue : Nat → Nat

/-- The micro-address at which cycle `cyc` of machine opcode `op` executes, for routine bodies of image 2.4 whose listing the
spec does not give (only PLAY is listed; DESIGN CHOICE, log entry 7). -/
opaque bodyUpc : Nat → Nat → Nat

/-- Whether the routine of opcode r of image 2.4, or of trap n for r = 0x100 + n, passes through the body word at a micro-address:
the spec lists PLAY's body alone (DESIGN CHOICE, log entry 7). -/
opaque bodyUses : Nat → Nat → Bool

/-- The microwords of Recipe image 2.4 that the spec does not list (R142 lists PLAY's; DEDUCED, log entry 16). -/
opaque factoryWord : Nat → Nat

/-- COMMIT microwords that the routine of machine opcode `op` in image 2.4 has completed at its end (R137; only PLAY is listed;
DESIGN CHOICE, log entry 7). -/
opaque bodyCommits : Nat → Nat

/-- Which way a step of the synthesis chain rounds an exact value that is no whole number of its units: step, exact value (R170,
R175, R209 leave the rounding to a model that the spec does not give; DESIGN CHOICE, log entry 9). -/
opaque roundUp : Nat → Int → Bool

/-- The taps of the interpolation filters: factor, distance from the sample, in units of 2^-24 (R170 says that the filter has
linear phase and passes through the samples; DESIGN CHOICE, log entry 9). -/
opaque interpTap : Nat → Nat → Int

/-- The taps of the fractional-delay filters: FINE, distance, in units of 2^-24 (R171; DESIGN CHOICE, log entry 9). -/
opaque delayTap : Nat → Int → Int

/-- The code that RFI i samples at a ball instant [fine ticks], where no command brings it: the part of a Tap segment
taken before a fence (DESIGN CHOICE, log entry 8). -/
opaque tapSample : Nat → Nat → Nat

/-- Whether the write path of Tap unit i took the sample of a ball instant [fine ticks] in an overload, in a record that a fence cuts
(R314, R315; DESIGN CHOICE, log entry 8). -/
opaque tapTaken : Nat → Nat → Bool

/-- The taps of the half-band filter [2^-24] at odd distances of 3 and more, in samples at 16 GS/s (R235 gives its image rejection;
DESIGN CHOICE, log entry 9). -/
opaque halfTap : Nat → Int

/-- The taps of the decimator [2^-24] by the distance of a sample from the ball instant, in samples of the 8 GS/s stream, from 1 on
(R243 says that it has linear phase and gives its response; DESIGN CHOICE, log entry 9). -/
opaque decimTap : Nat → Int

/-- Where on a lane's line INJ_EXP inverts its bit in every 2^e bits (R335 gives the rate and no place;
DESIGN CHOICE, log entry 112). -/
opaque injectPhase : Nat → Nat

/-- The 31 bits with which a lane's test pattern begins at tick 0 (R335 gives the polynomials and no phase;
DESIGN CHOICE, log entry 112). -/
opaque prbsSeed : Nat → Nat

/-- The tap of the interpolator by 32 of an RFO port [2^-24] at a distance in fine ticks from a port sum (R182 gives the factor and no
filter; DESIGN CHOICE, log entry 9). -/
opaque upTap : Nat → Int

/-- How RVRD packs two Result Vector bits and their tags into its destination (R139 names what it holds and no layout;
DESIGN CHOICE, log entry 14): the pair of bits, the tag of the first, the tag of the second, the INV bits of the two
pairs. -/
opaque rvrdWord : Nat → Nat → Nat → Nat → Nat

/-- The role keys V that the device left the factory with, for roles 2 and 3 (DESIGN CHOICE, log entry 12): V, SALT, ITER. -/
opaque factoryV : Nat → Vector Byte 32
opaque factorySalt : Nat → Vector Byte 16
opaque factoryIter : Nat → BitVec 32

/-- The IDCODE of IEEE 1149.1 that the debug port answers (R460 gives no value; DESIGN CHOICE, log entry 109). -/
opaque idcode : BitVec 32

/-- Which of the queue manager's eight events reports a LEDGER_BREAK of its counters: a queue's number, or 65,536 for the pool (R24
names none; DEDUCED, log entry 61). -/
opaque ledgerEvent : Nat → Nat

/-- Which entry of the key store an address of its region holds (R454 lays out no entry; DESIGN CHOICE, log entry 74): a role's key
at 0
to 3, key slot k at 4 + k, and others. -/
opaque keyEntry : Nat → Nat
/-- An address of the Park Table's region lies in its second copy (R454 does not say where it begins; DESIGN CHOICE, log entry 74). -/
opaque parkSecond : Nat → Bool
/-- What an address of the island's region holds (R454 lays out nothing in it; DESIGN CHOICE, log entry 74): an account at 0 to 15, the
Excise image at 16, and others. -/
opaque islandWord : Nat → Nat

/-- The device that first relayed a request which has crossed so many links since, by the last one's SRC_DEV: neither a message nor
its content names it (R323, R384; DEDUCED, log entry 57). -/
opaque relaySource : Nat → Nat → Nat

/-- KEY_IDs of the Vendor root and of the Seal Authority root (DESIGN CHOICE, log entry 12). -/
opaque vendorRoot : Vector Byte 48
opaque sealRoot : Vector Byte 48

/-- The SA slots as the device left the factory: KEY_ID and USAGE of each (R446; DESIGN CHOICE, log entry 12). -/
opaque sealSlots : List (Vector Byte 48 × BitVec 16)

/-- Certificates behind the report key's own in its chain, 0 to 2 (R447; DESIGN CHOICE, log entry 12). -/
opaque reportIssuers : Fin 3
/-- USAGE, SUBJECT and SIGNATURE of certificate k of the report key's chain, 0 its own, and whether it is for this device alone (R447;
DESIGN CHOICE, log entry 12). -/
opaque reportUsage : Nat → BitVec 6
opaque reportSubject : Nat → Vector Byte 97
opaque reportSignature : Nat → Vector Byte 96
opaque reportThis : Nat → Bool

/-- The signature of the island's report key over a digest (DESIGN CHOICE, log entry 12). -/
opaque reportSign : List Byte → Vector Byte 96

end Sys2Proof.Config
end

