-- ==== Sys2Proof/Machine/Bits.lean ====
section
/-! DEFINITION. Bit fields, sign, saturation, rounding and byte order on numbers. -/

namespace Sys2Proof.Machine

/-- Bits [lo + w - 1 : lo] of n. -/
def bits (n lo w : Nat) : Nat := (n >>> lo) % 2 ^ w

/-- Bit k of n. -/
def bit (n k : Nat) : Bool := n.testBit k

/-- 1 for true, 0 for false. -/
def b2n (b : Bool) : Nat := if b then 1 else 0

/-- n with bits [lo + w - 1 : lo] replaced by v (mod 2^w). -/
def putBits (n lo w v : Nat) : Nat := n - (bits n lo w) * 2 ^ lo + (v % 2 ^ w) * 2 ^ lo

/-- The signed value of a w-bit two's complement field. -/
def sgn (w n : Nat) : Int :=
  let m := n % 2 ^ w
  if m < 2 ^ (w - 1) then (m : Int) else (m : Int) - (2 ^ w : Nat)

/-- The w-bit two's complement of i. -/
def wrap (w : Nat) (i : Int) : Nat := (i % ((2 ^ w : Nat) : Int)).toNat

/-- i held to the range lo..hi. -/
def clampI (lo hi i : Int) : Int := if i < lo then lo else if i > hi then hi else i

/-- i held to the range of a w-bit signed number. -/
def satI (w : Nat) (i : Int) : Int := clampI (-(2 ^ (w - 1) : Nat)) ((2 ^ (w - 1) : Nat) - 1) i

/-- n held to 2^w - 1. -/
def satN (w n : Nat) : Nat := min n (2 ^ w - 1)

/-- i divided by 2^k, rounded to nearest with halves toward plus infinity. -/
def roundHalfUp (i : Int) (k : Nat) : Int :=
  if k = 0 then i else (i + ((2 ^ (k - 1) : Nat) : Int)) / ((2 ^ k : Nat) : Int)

/-- i divided by 2^k, rounded to nearest with halves to even. -/
def roundHalfEven (i : Int) (k : Nat) : Int :=
  if k = 0 then i else
    let m : Int := ((2 ^ k : Nat) : Int)
    let q := i / m
    let r := i % m
    if 2 * r < m then q else if 2 * r > m then q + 1 else if q % 2 = 0 then q else q + 1

/-- i divided by d > 0, rounded to nearest with halves away from zero. -/
def roundHalfAway (i : Int) (d : Nat) : Int :=
  if i ≥ 0 then (2 * i + d) / (2 * d) else -((2 * (-i) + d) / (2 * d))

/-- The absolute value as a natural number. -/
def absI (i : Int) : Nat := i.natAbs

/-- The number of bits set in the low w bits. -/
def popcount : Nat → Nat → Nat
  | 0, _ => 0
  | w + 1, n => b2n (n.testBit w) + popcount w n

/-- The indices below w whose bit is set in n, ascending. -/
def setBits (w n : Nat) : List Nat := (List.range w).filter fun k => n.testBit k

/-- n as k little-endian bytes. -/
def toBytes : Nat → Nat → List Byte
  | 0, _ => []
  | k + 1, n => BitVec.ofNat 8 n :: toBytes k (n / 256)

/-- The number that little-endian bytes spell. -/
def ofBytes : List Byte → Nat
  | [] => 0
  | b :: bs => b.toNat + 256 * ofBytes bs

/-- n little-endian bytes of a payload, from offset o on. -/
def le (p : List Byte) (o n : Nat) : Nat := ofBytes ((p.drop o).take n)

/-- Bytes o .. o + n - 1 of a payload. -/
def slice (p : List Byte) (o n : Nat) : List Byte := (p.drop o).take n

/-- Every byte is 0. -/
def allZero (p : List Byte) : Bool := p.all (· == 0)

/-- Byte-serial CRC with the reflected polynomial `poly` of width w: one bit. -/
def crcBit (poly c : Nat) : Nat := if c % 2 = 1 then (c / 2) ^^^ poly else c / 2

/-- Eight bit steps of a reflected CRC. -/
def crcBits (poly : Nat) : Nat → Nat → Nat
  | 0, c => c
  | k + 1, c => crcBits poly k (crcBit poly c)

/-- A reflected CRC over bytes, from the running value c. -/
def crcFold (poly : Nat) (c : Nat) : List Byte → Nat
  | [] => c
  | b :: bs => crcFold poly (crcBits poly 8 (c ^^^ b.toNat)) bs

/-- CRC-32C: Castagnoli polynomial, reflected, initial value and final exclusive-or 0xFFFF_FFFF (R366). -/
def crc32c (bs : List Byte) : Nat := crcFold 0x82F63B78 0xFFFFFFFF bs ^^^ 0xFFFFFFFF

end Sys2Proof.Machine
end

