-- ==== Sys2Proof/Machine/Field.lean ====
section
/-! DEFINITION. Register fields and access codes. -/

namespace Sys2Proof.Machine

/-- A register field: the bit address it is held at, its width and its reset value. -/
structure Fld where
  key   : Nat
  width : Nat
  reset : Nat
deriving DecidableEq, Repr

/-- Access codes of register fields (spec chapter 00, *Access codes*). -/
inductive Access where
  | ro | rw | cfg | mw | w1c | wo | wonce | lk
deriving DecidableEq, Repr

end Sys2Proof.Machine
end

