-- ==== Sys2Proof/Machine/Registers.lean ====
section
/-! DEFINITION. The register map: one definition per register field, and the map from BAR0 offsets to fields.

Each definition gives the field's place (bit address: 8 times the BAR0 offset of the register's first dword, plus
the field's lowest bit), its width and its reset value, as the register table of the rule named beside it states
them.  A LO/HI pair is one field of up to 64 bits.  Where a table's Reset cell reads "Cellar" or a dash the field
starts at 0 until start-up loads it (log entry 6). -/

namespace Sys2Proof.Machine

/-- Reset limits LO and HI of rail sense point r [mV], as 16-bit two's complement (R435). -/
def railLimits (r : Nat) : Nat × Nat :=
  if r < 4 then (713, 788) else if r < 12 then (808, 893) else if r < 20 then (1710, 1890)
  else if r = 20 then (3135, 3465) else if r = 21 then (65536 - 3465, 65536 - 3135)
  else if r = 22 then (1045, 1155) else (1140, 1260)

/-! TL_CTRL (R57). -/
def TL_CTRL_EN : Fld := ⟨524288, 1, 0⟩
def TL_CTRL_LOAD : Fld := ⟨524289, 1, 0⟩
def TL_CTRL_SEND_SYNC : Fld := ⟨524290, 1, 0⟩
def TL_CTRL_SEND_CHECK : Fld := ⟨524291, 1, 0⟩
def TL_CTRL_ECHO_START : Fld := ⟨524292, 1, 0⟩
def TL_CTRL_CAPTURE : Fld := ⟨524293, 1, 0⟩
/-! TL_CFG (R57). -/
def TL_CFG_ROLE : Fld := ⟨524320, 2, 0⟩
def TL_CFG_AUTO_CHECK : Fld := ⟨524322, 1, 0⟩
def TL_CFG_ECHO_SPREAD_MAX : Fld := ⟨524328, 4, 4⟩
def TL_CFG_DRIFT_TOL : Fld := ⟨524332, 4, 2⟩
/-! TL_STATUS (R57). -/
def TL_STATUS_PLL_LOCKED : Fld := ⟨524352, 1, 0⟩
def TL_STATUS_ALIGNED : Fld := ⟨524353, 1, 0⟩
def TL_STATUS_DELAY_VALID : Fld := ⟨524354, 1, 0⟩
def TL_STATUS_ACTIVE : Fld := ⟨524355, 1, 0⟩
def TL_STATUS_ECHO_BUSY : Fld := ⟨524356, 1, 0⟩
def TL_STATUS_STEP_REFUSED : Fld := ⟨524360, 1, 0⟩
def TL_STATUS_SYNC_NO_DELAY : Fld := ⟨524361, 1, 0⟩
def TL_STATUS_BUS_FRAME_ERR : Fld := ⟨524362, 1, 0⟩
def TL_STATUS_ECHO_RANGE : Fld := ⟨524363, 1, 0⟩
def TL_STATUS_ECHO_NOISY : Fld := ⟨524364, 1, 0⟩
def TL_STATUS_ECHO_NO_REPLY : Fld := ⟨524365, 1, 0⟩
def TL_STATUS_SYNC_LATE : Fld := ⟨524366, 1, 0⟩
def TL_STATUS_ALIGN_DRIFT : Fld := ⟨524367, 1, 0⟩
def TL_STATUS_CFG_WHILE_ENABLED : Fld := ⟨524368, 1, 0⟩
def TL_STATUS_PIN_LATE : Fld := ⟨524369, 1, 0⟩
/-! TL_NOW (R57). -/
def TL_NOW : Fld := ⟨524416, 64, 0⟩
/-! TL_LOAD_VALUE (R57). -/
def TL_LOAD_VALUE : Fld := ⟨524480, 64, 0⟩
/-! TL_SYNC_AT (R57). -/
def TL_SYNC_AT : Fld := ⟨524544, 64, 0⟩
/-! TL_ECHO_MASK (R57). -/
def TL_ECHO_MASK : Fld := ⟨524736, 64, 0⟩
/-! TL_DELAY (R57). -/
def TL_DELAY_DELAY : Fld := ⟨524608, 18, 0⟩
def TL_DELAY_ADJ : Fld := ⟨524628, 12, 0⟩
/-! TL_SYNC_ERR (R57). -/
def TL_SYNC_ERR : Fld := ⟨524640, 32, 0⟩
/-! TL_STEP_COUNT (R57). -/
def TL_STEP_COUNT : Fld := ⟨524672, 32, 0⟩
/-! TL_ECHO_RESULT (R57). -/
def TL_ECHO_RESULT_DELAY (n : Nat) : Fld := ⟨8 * (0x10100 + 0x4 * n) + 0, 18, 0⟩
def TL_ECHO_RESULT_SPREAD (n : Nat) : Fld := ⟨8 * (0x10100 + 0x4 * n) + 18, 8, 0⟩
def TL_ECHO_RESULT_NOISY (n : Nat) : Fld := ⟨8 * (0x10100 + 0x4 * n) + 30, 1, 0⟩
def TL_ECHO_RESULT_VALID (n : Nat) : Fld := ⟨8 * (0x10100 + 0x4 * n) + 31, 1, 0⟩
/-! TL_PAIR_SEQ (R57). -/
def TL_PAIR_SEQ : Fld := ⟨528384, 32, 0⟩
/-! TL_PAIR_TL (R57). -/
def TL_PAIR_TL : Fld := ⟨528416, 64, 0⟩
/-! TL_PAIR_NT (R57). -/
def TL_PAIR_NT : Fld := ⟨528480, 32, 0⟩
/-! TL_PAIR_NTF (R57). -/
def TL_PAIR_NTF_NT_FRAC : Fld := ⟨528512, 8, 0⟩
def TL_PAIR_NTF_SRC : Fld := ⟨528520, 1, 0⟩
/-! TL_PIN_CFG (R57). -/
def TL_PIN_CFG_DIR (n : Nat) : Fld := ⟨8 * (0x10400 + 0x4 * n) + 0, 2, 2⟩
def TL_PIN_CFG_EDGE (n : Nat) : Fld := ⟨8 * (0x10400 + 0x4 * n) + 2, 2, 1⟩
def TL_PIN_CFG_FILT (n : Nat) : Fld := ⟨8 * (0x10400 + 0x4 * n) + 4, 4, 0⟩
def TL_PIN_CFG_OUT_SRC (n : Nat) : Fld := ⟨8 * (0x10400 + 0x4 * n) + 8, 2, 0⟩
def TL_PIN_CFG_SEL (n : Nat) : Fld := ⟨8 * (0x10400 + 0x4 * n) + 10, 6, 0⟩
def TL_PIN_CFG_LEVEL (n : Nat) : Fld := ⟨8 * (0x10400 + 0x4 * n) + 16, 1, 0⟩
def TL_PIN_CFG_COMP (n : Nat) : Fld := ⟨8 * (0x10400 + 0x4 * n) + 17, 1, 0⟩
def TL_PIN_CFG_PULSE_W (n : Nat) : Fld := ⟨8 * (0x10400 + 0x4 * n) + 24, 8, 1⟩
/-! TL_PIN_AT (R57). -/
def TL_PIN_AT (n : Nat) : Fld := ⟨8 * (0x10500 + 0x8 * n) + 0, 64, 0⟩
/-! TL_PIN_STAMP (R57). -/
def TL_PIN_STAMP (n : Nat) : Fld := ⟨8 * (0x10600 + 0x8 * n) + 0, 64, 0⟩
/-! TL_PIN_FIFO (R57). -/
def TL_PIN_FIFO_COUNT (n : Nat) : Fld := ⟨8 * (0x10700 + 0x4 * n) + 0, 5, 0⟩
def TL_PIN_FIFO_HEAD_EDGE (n : Nat) : Fld := ⟨8 * (0x10700 + 0x4 * n) + 5, 1, 0⟩
def TL_PIN_FIFO_OVERFLOW (n : Nat) : Fld := ⟨8 * (0x10700 + 0x4 * n) + 16, 16, 0⟩
/-! TL_PIN_POP (R57). -/
def TL_PIN_POP_PIN : Fld := ⟨539648, 5, 0⟩
/-! TL_CA_CFG (R57). -/
def TL_CA_CFG_MODE : Fld := ⟨540672, 2, 0⟩
def TL_CA_CFG_SENSOR : Fld := ⟨540674, 3, 0⟩
def TL_CA_CFG_IDX_EDGE : Fld := ⟨540677, 1, 0⟩
def TL_CA_CFG_DIR_INV : Fld := ⟨540678, 1, 0⟩
def TL_CA_CFG_ALPHA : Fld := ⟨540680, 3, 3⟩
def TL_CA_CFG_LOCK_N : Fld := ⟨540684, 4, 4⟩
def TL_CA_CFG_MISS_MAX : Fld := ⟨540688, 2, 2⟩
def TL_CA_CFG_FILT : Fld := ⟨540690, 4, 0⟩
/-! TL_CA_PPR (R57). -/
def TL_CA_PPR : Fld := ⟨540704, 17, 1024⟩
/-! TL_CA_TOL (R57). -/
def TL_CA_TOL_TOL : Fld := ⟨540736, 16, 1024⟩
def TL_CA_TOL_HYST : Fld := ⟨540752, 16, 256⟩
/-! TL_CA_ALIGN_TIMEOUT (R57). -/
def TL_CA_ALIGN_TIMEOUT : Fld := ⟨541088, 24, 2000000⟩
/-! TL_CA_WIN (R57). -/
def TL_CA_WIN_LO (k : Nat) : Fld := ⟨8 * (0x10840 + 0x4 * k) + 0, 16, 0⟩
def TL_CA_WIN_HI (k : Nat) : Fld := ⟨8 * (0x10840 + 0x4 * k) + 16, 16, 0⟩
/-! TL_CA_STATUS (R57). -/
def TL_CA_STATUS_LOCKED : Fld := ⟨540768, 1, 0⟩
def TL_CA_STATUS_COASTING : Fld := ⟨540769, 1, 0⟩
def TL_CA_STATUS_MISSED_INDEX : Fld := ⟨540776, 1, 0⟩
def TL_CA_STATUS_OUT_OF_TOL : Fld := ⟨540777, 1, 0⟩
def TL_CA_STATUS_PERIOD_RANGE : Fld := ⟨540778, 1, 0⟩
def TL_CA_STATUS_SENSOR_SUSPECT : Fld := ⟨540779, 1, 0⟩
/-! TL_CA_ANGLE (R57). -/
def TL_CA_ANGLE_ANGLE : Fld := ⟨540800, 16, 0⟩
def TL_CA_ANGLE_VALID : Fld := ⟨540816, 1, 0⟩
/-! TL_CA_PERIOD (R57). -/
def TL_CA_PERIOD : Fld := ⟨540864, 48, 0⟩
/-! TL_CA_LAST_IDX (R57). -/
def TL_CA_LAST_IDX : Fld := ⟨540928, 64, 0⟩
/-! TL_CA_LAST_ERR (R57). -/
def TL_CA_LAST_ERR : Fld := ⟨540992, 16, 0⟩
/-! TL_CA_INDEX_COUNT (R57). -/
def TL_CA_INDEX_COUNT : Fld := ⟨541024, 32, 0⟩
/-! TL_CA_MISS_COUNT (R57). -/
def TL_CA_MISS_COUNT : Fld := ⟨541056, 32, 0⟩
/-! TUN_CTRL (R96). -/
def TUN_CTRL_EN (t : Nat) : Fld := ⟨8 * (0x100000 + 0x4000 * t) + 0, 1, 0⟩
def TUN_CTRL_GROUP_START (t : Nat) : Fld := ⟨8 * (0x100000 + 0x4000 * t) + 8, 8, 0⟩
/-! TUN_STATUS (R96). -/
def TUN_STATUS_RCP_LOADED (t : Nat) : Fld := ⟨8 * (0x100004 + 0x4000 * t) + 0, 1, 0⟩
def TUN_STATUS_GROUP_REFUSED (t : Nat) : Fld := ⟨8 * (0x100004 + 0x4000 * t) + 1, 1, 0⟩
def TUN_STATUS_CFG_WHILE_ENABLED (t : Nat) : Fld := ⟨8 * (0x100004 + 0x4000 * t) + 2, 1, 0⟩
def TUN_STATUS_CFG_INTEGRITY (t : Nat) : Fld := ⟨8 * (0x100004 + 0x4000 * t) + 3, 1, 0⟩
def TUN_STATUS_PART (t : Nat) : Fld := ⟨8 * (0x100004 + 0x4000 * t) + 4, 4, 0⟩
def TUN_STATUS_EN_REFUSED (t : Nat) : Fld := ⟨8 * (0x100004 + 0x4000 * t) + 8, 1, 0⟩
/-! RCP_VERSION (R96). -/
def RCP_VERSION_BUILD (t : Nat) : Fld := ⟨8 * (0x100010 + 0x4000 * t) + 0, 16, 0⟩
def RCP_VERSION_MINOR (t : Nat) : Fld := ⟨8 * (0x100010 + 0x4000 * t) + 16, 8, 0⟩
def RCP_VERSION_MAJOR (t : Nat) : Fld := ⟨8 * (0x100010 + 0x4000 * t) + 24, 8, 0⟩
/-! RCP_PATCH (R96). -/
def RCP_PATCH_HASH (t : Nat) : Fld := ⟨8 * (0x100018 + 0x4000 * t) + 0, 32, 0⟩
def RCP_PATCH_LEVEL (t : Nat) : Fld := ⟨8 * (0x100018 + 0x4000 * t) + 32, 16, 0⟩
/-! TUN_CFG_CRC (R96). -/
def TUN_CFG_CRC (t : Nat) : Fld := ⟨8 * (0x100020 + 0x4000 * t) + 0, 32, 0⟩
/-! TUN_CFG_CRC_REF (R96). -/
def TUN_CFG_CRC_REF (t : Nat) : Fld := ⟨8 * (0x100024 + 0x4000 * t) + 0, 32, 0⟩
/-! TUN_CFG_CRC_COMMIT (R96). -/
def TUN_CFG_CRC_COMMIT (t : Nat) : Fld := ⟨8 * (0x100028 + 0x4000 * t) + 0, 1, 0⟩
/-! SEQ_CTRL (R96). -/
def SEQ_CTRL_EN (s : Nat) : Fld := ⟨8 * (0x101000 + 0x4000 * (s / 8) + 0x400 * (s % 8)) + 0, 1, 0⟩
def SEQ_CTRL_START (s : Nat) : Fld := ⟨8 * (0x101000 + 0x4000 * (s / 8) + 0x400 * (s % 8)) + 1, 1, 0⟩
def SEQ_CTRL_STOP (s : Nat) : Fld := ⟨8 * (0x101000 + 0x4000 * (s / 8) + 0x400 * (s % 8)) + 2, 1, 0⟩
def SEQ_CTRL_STOP_AT_SHOT (s : Nat) : Fld := ⟨8 * (0x101000 + 0x4000 * (s / 8) + 0x400 * (s % 8)) + 3, 1, 0⟩
def SEQ_CTRL_CLEAR (s : Nat) : Fld := ⟨8 * (0x101000 + 0x4000 * (s / 8) + 0x400 * (s % 8)) + 4, 1, 0⟩
def SEQ_CTRL_SLACK_RESET (s : Nat) : Fld := ⟨8 * (0x101000 + 0x4000 * (s / 8) + 0x400 * (s % 8)) + 5, 1, 0⟩
def SEQ_CTRL_START_MODE (s : Nat) : Fld := ⟨8 * (0x101000 + 0x4000 * (s / 8) + 0x400 * (s % 8)) + 6, 1, 0⟩
def SEQ_CTRL_ON_ABORT (s : Nat) : Fld := ⟨8 * (0x101000 + 0x4000 * (s / 8) + 0x400 * (s % 8)) + 7, 1, 0⟩
/-! SEQ_STATUS (R96). -/
def SEQ_STATUS_STATE (s : Nat) : Fld := ⟨8 * (0x101004 + 0x4000 * (s / 8) + 0x400 * (s % 8)) + 0, 3, 0⟩
def SEQ_STATUS_STALL (s : Nat) : Fld := ⟨8 * (0x101004 + 0x4000 * (s / 8) + 0x400 * (s % 8)) + 4, 4, 0⟩
def SEQ_STATUS_START_REFUSED (s : Nat) : Fld := ⟨8 * (0x101004 + 0x4000 * (s / 8) + 0x400 * (s % 8)) + 8, 1, 0⟩
def SEQ_STATUS_START_LATE (s : Nat) : Fld := ⟨8 * (0x101004 + 0x4000 * (s / 8) + 0x400 * (s % 8)) + 9, 1, 0⟩
def SEQ_STATUS_CFG_WHILE_ENABLED (s : Nat) : Fld := ⟨8 * (0x101004 + 0x4000 * (s / 8) + 0x400 * (s % 8)) + 10, 1, 0⟩
def SEQ_STATUS_EN_REFUSED (s : Nat) : Fld := ⟨8 * (0x101004 + 0x4000 * (s / 8) + 0x400 * (s % 8)) + 11, 1, 0⟩
/-! SEQ_FAULT (R96). -/
def SEQ_FAULT_CODE (s : Nat) : Fld := ⟨8 * (0x101008 + 0x4000 * (s / 8) + 0x400 * (s % 8)) + 0, 8, 0⟩
def SEQ_FAULT_IADDR (s : Nat) : Fld := ⟨8 * (0x101008 + 0x4000 * (s / 8) + 0x400 * (s % 8)) + 8, 13, 0⟩
/-! SEQ_PC (R96). -/
def SEQ_PC (s : Nat) : Fld := ⟨8 * (0x10100c + 0x4000 * (s / 8) + 0x400 * (s % 8)) + 0, 13, 0⟩
/-! SEQ_CURSOR (R96). -/
def SEQ_CURSOR (s : Nat) : Fld := ⟨8 * (0x101010 + 0x4000 * (s / 8) + 0x400 * (s % 8)) + 0, 64, 0⟩
/-! SEQ_SLACK (R96). -/
def SEQ_SLACK (s : Nat) : Fld := ⟨8 * (0x101018 + 0x4000 * (s / 8) + 0x400 * (s % 8)) + 0, 32, 0⟩
/-! SEQ_SLACK_MIN (R96). -/
def SEQ_SLACK_MIN (s : Nat) : Fld := ⟨8 * (0x10101c + 0x4000 * (s / 8) + 0x400 * (s % 8)) + 0, 32, 2147483647⟩
/-! SEQ_START_AT (R96). -/
def SEQ_START_AT (s : Nat) : Fld := ⟨8 * (0x101020 + 0x4000 * (s / 8) + 0x400 * (s % 8)) + 0, 64, 0⟩
/-! SEQ_START_LEAD (R96). -/
def SEQ_START_LEAD (s : Nat) : Fld := ⟨8 * (0x101028 + 0x4000 * (s / 8) + 0x400 * (s % 8)) + 0, 32, 2000⟩
/-! SEQ_RESUME_PC (R96). -/
def SEQ_RESUME_PC (s : Nat) : Fld := ⟨8 * (0x10102c + 0x4000 * (s / 8) + 0x400 * (s % 8)) + 0, 13, 0⟩
/-! SEQ_SHOT (R96). -/
def SEQ_SHOT (s : Nat) : Fld := ⟨8 * (0x101030 + 0x4000 * (s / 8) + 0x400 * (s % 8)) + 0, 64, 0⟩
/-! SEQ_ABORT_INFO (R96). -/
def SEQ_ABORT_INFO_UPC (s : Nat) : Fld := ⟨8 * (0x101038 + 0x4000 * (s / 8) + 0x400 * (s % 8)) + 0, 14, 0⟩
def SEQ_ABORT_INFO_IADDR (s : Nat) : Fld := ⟨8 * (0x101038 + 0x4000 * (s / 8) + 0x400 * (s % 8)) + 16, 13, 0⟩
def SEQ_ABORT_INFO_COMMITS (s : Nat) : Fld := ⟨8 * (0x101038 + 0x4000 * (s / 8) + 0x400 * (s % 8)) + 32, 8, 0⟩
/-! SEQ_TAU_STALLS (R96). -/
def SEQ_TAU_STALLS (s : Nat) : Fld := ⟨8 * (0x101040 + 0x4000 * (s / 8) + 0x400 * (s % 8)) + 0, 32, 0⟩
/-! SEQ_MISS_COUNT (R96). -/
def SEQ_MISS_COUNT (s : Nat) : Fld := ⟨8 * (0x101044 + 0x4000 * (s / 8) + 0x400 * (s % 8)) + 0, 32, 0⟩
/-! SEQ_GREG (R96). -/
def SEQ_GREG_G (s n : Nat) : Fld := ⟨8 * (0x101080 + 0x4000 * (s / 8) + 0x400 * (s % 8) + 0x4 * n) + 0, 32, 0⟩
/-! SEQ_TEQ_BIND (R96). -/
def SEQ_TEQ_BIND_BASE (s q : Nat) : Fld := ⟨8 * (0x101100 + 0x4000 * (s / 8) + 0x400 * (s % 8) + 0x8 * q) + 0, 16, 0⟩
def SEQ_TEQ_BIND_CLASS (s q : Nat) : Fld := ⟨8 * (0x101100 + 0x4000 * (s / 8) + 0x400 * (s % 8) + 0x8 * q) + 16, 3, 0⟩
def SEQ_TEQ_BIND_COUNT (s q : Nat) : Fld := ⟨8 * (0x101100 + 0x4000 * (s / 8) + 0x400 * (s % 8) + 0x8 * q) + 32, 16, 0⟩
/-! SEQ_TEQ_STATUS (R96). -/
def SEQ_TEQ_STATUS_ENTRIES (s q : Nat) : Fld := ⟨8 * (0x101200 + 0x4000 * (s / 8) + 0x400 * (s % 8) + 0x4 * q) + 0, 5, 0⟩
def SEQ_TEQ_STATUS_FULL_STALLS (s q : Nat) : Fld := ⟨8 * (0x101200 + 0x4000 * (s / 8) + 0x400 * (s % 8) + 0x4 * q) + 16, 16, 0⟩
/-! QM_CTRL (R97). -/
def QM_CTRL_EN : Fld := ⟨30408704, 1, 0⟩
def QM_CTRL_POOL_LOW : Fld := ⟨30408716, 20, 65536⟩
/-! QM_STATUS (R97). -/
def QM_STATUS_POOL_EMPTY : Fld := ⟨30408736, 1, 0⟩
def QM_STATUS_POOL_LOW : Fld := ⟨30408737, 1, 0⟩
def QM_STATUS_OVERRUN : Fld := ⟨30408738, 1, 0⟩
def QM_STATUS_Q_FIXED : Fld := ⟨30408739, 1, 0⟩
def QM_STATUS_PART_BUSY : Fld := ⟨30408740, 1, 0⟩
def QM_STATUS_CFG_WHILE_ENABLED : Fld := ⟨30408741, 1, 0⟩
def QM_STATUS_CFG_INTEGRITY : Fld := ⟨30408742, 1, 0⟩
/-! QM_POOL_FREE (R97). -/
def QM_POOL_FREE : Fld := ⟨30408832, 21, 1048576⟩
/-! QM_POOL_ALLOC (R97). -/
def QM_POOL_ALLOC : Fld := ⟨30408864, 21, 0⟩
/-! QM_CFG_CRC (R97). -/
def QM_CFG_CRC : Fld := ⟨30408960, 32, 0⟩
/-! QM_CFG_CRC_REF (R97). -/
def QM_CFG_CRC_REF : Fld := ⟨30408992, 32, 0⟩
/-! QM_CFG_CRC_COMMIT (R97). -/
def QM_CFG_CRC_COMMIT : Fld := ⟨30409024, 1, 0⟩
/-! QM_SEL (R97). -/
def QM_SEL : Fld := ⟨30410752, 16, 0⟩
/-! QM_Q_CFG (R97). -/
def QM_Q_CFG_FULL_POLICY (q : Nat) : Fld := ⟨8 * (0x10000000 + 0x20 * q) + 0, 1, 0⟩
def QM_Q_CFG_OWNER (q : Nat) : Fld := ⟨8 * (0x10000000 + 0x20 * q) + 1, 4, 0⟩
def QM_Q_CFG_LIMIT (q : Nat) : Fld := ⟨8 * (0x10000000 + 0x20 * q) + 12, 20, 4096⟩
/-! QM_Q_CTRL (R97). -/
def QM_Q_CTRL_Q_EN (q : Nat) : Fld := ⟨8 * (0x10000004 + 0x20 * q) + 0, 1, 0⟩
def QM_Q_CTRL_RESET (q : Nat) : Fld := ⟨8 * (0x10000004 + 0x20 * q) + 1, 1, 0⟩
/-! QM_Q_STATUS (R97). -/
def QM_Q_STATUS_COUNT (q : Nat) : Fld := ⟨8 * (0x10000008 + 0x20 * q) + 0, 21, 0⟩
def QM_Q_STATUS_FULL (q : Nat) : Fld := ⟨8 * (0x10000008 + 0x20 * q) + 21, 1, 0⟩
def QM_Q_STATUS_STALLING (q : Nat) : Fld := ⟨8 * (0x10000008 + 0x20 * q) + 22, 1, 0⟩
/-! QM_Q_DROPS (R97). -/
def QM_Q_DROPS (q : Nat) : Fld := ⟨8 * (0x10000010 + 0x20 * q) + 0, 64, 0⟩
/-! QM_PART_QUOTA (R97). -/
def QM_PART_QUOTA (p : Nat) : Fld := ⟨8 * (0x3a0200 + 0x4 * p) + 0, 21, 65536⟩
/-! QM_PART_USED (R97). -/
def QM_PART_USED (p : Nat) : Fld := ⟨8 * (0x3a0240 + 0x4 * p) + 0, 21, 0⟩
/-! QM_BAR_CFG (R97). -/
def QM_BAR_CFG_COUNT (b : Nat) : Fld := ⟨8 * (0x3a8000 + 0x10 * b) + 0, 10, 0⟩
def QM_BAR_CFG_TIMEOUT (b : Nat) : Fld := ⟨8 * (0x3a8000 + 0x10 * b) + 10, 22, 1000⟩
/-! QM_BAR_STATUS (R97). -/
def QM_BAR_STATUS_ARRIVED (b : Nat) : Fld := ⟨8 * (0x3a8004 + 0x10 * b) + 0, 10, 0⟩
def QM_BAR_STATUS_ROUNDS (b : Nat) : Fld := ⟨8 * (0x3a8004 + 0x10 * b) + 10, 22, 0⟩
/-! QM_BAR_MAX (R97). -/
def QM_BAR_MAX_MAX_CURSOR (b : Nat) : Fld := ⟨8 * (0x3a8008 + 0x10 * b) + 0, 64, 0⟩
/-! WFT_CTRL (R181). -/
def WFT_CTRL_EN : Fld := ⟨176160768, 1, 0⟩
def WFT_CTRL_SWAP : Fld := ⟨176160769, 1, 0⟩
def WFT_CTRL_SWAP_NOW : Fld := ⟨176160770, 1, 0⟩
def WFT_CTRL_COPY : Fld := ⟨176160771, 1, 0⟩
/-! WFT_CFG (R181). -/
def WFT_CFG_ALIAS_POLICY : Fld := ⟨176160800, 1, 1⟩
/-! WFT_STATUS (R181). -/
def WFT_STATUS_SWAP_PENDING : Fld := ⟨176160832, 1, 0⟩
def WFT_STATUS_SWAP_LATE : Fld := ⟨176160840, 1, 0⟩
def WFT_STATUS_SWAP_BUSY : Fld := ⟨176160841, 1, 0⟩
def WFT_STATUS_SWAP_DONE : Fld := ⟨176160842, 1, 0⟩
def WFT_STATUS_DESC_INVALID : Fld := ⟨176160843, 1, 0⟩
def WFT_STATUS_DESC_BOUNDS : Fld := ⟨176160844, 1, 0⟩
def WFT_STATUS_SLOT_DROP : Fld := ⟨176160845, 1, 0⟩
def WFT_STATUS_FRAME_ALIAS : Fld := ⟨176160846, 1, 0⟩
def WFT_STATUS_LANE_SAT : Fld := ⟨176160847, 1, 0⟩
def WFT_STATUS_PORT_LIMIT : Fld := ⟨176160848, 1, 0⟩
def WFT_STATUS_CFG_WHILE_ENABLED : Fld := ⟨176160849, 1, 0⟩
def WFT_STATUS_CFG_INTEGRITY : Fld := ⟨176160850, 1, 0⟩
/-! WFT_SWAP_AT (R181). -/
def WFT_SWAP_AT : Fld := ⟨176160896, 64, 0⟩
/-! WFT_SWAP_MASK (R181). -/
def WFT_SWAP_MASK : Fld := ⟨176160960, 64, 0⟩
/-! WFT_BANK (R181). -/
def WFT_BANK : Fld := ⟨176161024, 64, 0⟩
/-! WFT_SWAP_COUNT (R181). -/
def WFT_SWAP_COUNT : Fld := ⟨176161088, 32, 0⟩
/-! WFT_DESC_FAULTS (R181). -/
def WFT_DESC_FAULTS : Fld := ⟨176161152, 32, 0⟩
/-! WFT_SLOT_DROPS (R181). -/
def WFT_SLOT_DROPS : Fld := ⟨176161184, 32, 0⟩
/-! WFT_ALIAS_COUNT (R181). -/
def WFT_ALIAS_COUNT : Fld := ⟨176161216, 32, 0⟩
/-! WFT_SAT_COUNT (R181). -/
def WFT_SAT_COUNT : Fld := ⟨176161248, 32, 0⟩
/-! WFT_LIMIT_COUNT (R181). -/
def WFT_LIMIT_COUNT : Fld := ⟨176161280, 32, 0⟩
/-! WFT_LAST_FAULT (R181). -/
def WFT_LAST_FAULT_LANE : Fld := ⟨176161408, 12, 0⟩
def WFT_LAST_FAULT_CAUSE : Fld := ⟨176161420, 4, 0⟩
def WFT_LAST_FAULT_SEQ : Fld := ⟨176161424, 9, 0⟩
/-! WFT_LAST_DESC (R181). -/
def WFT_LAST_DESC_W : Fld := ⟨176161440, 17, 0⟩
/-! WFT_LAST_TICK (R181). -/
def WFT_LAST_TICK : Fld := ⟨176161472, 64, 0⟩
/-! WFT_CFG_CRC (R181). -/
def WFT_CFG_CRC : Fld := ⟨176161536, 32, 0⟩
/-! WFT_CFG_CRC_REF (R181). -/
def WFT_CFG_CRC_REF : Fld := ⟨176161568, 32, 0⟩
/-! WFT_CFG_CRC_COMMIT (R181). -/
def WFT_CFG_CRC_COMMIT : Fld := ⟨176161600, 1, 0⟩
/-! RFO_CTRL (R206). -/
def RFO_CTRL_EN (p : Nat) : Fld := ⟨8 * (0x200000 + 0x400 * p) + 0, 1, 0⟩
def RFO_CTRL_MUTE (p : Nat) : Fld := ⟨8 * (0x200000 + 0x400 * p) + 1, 1, 0⟩
/-! RFO_CFG (R206). -/
def RFO_CFG_CENTRE_N (p : Nat) : Fld := ⟨8 * (0x200004 + 0x400 * p) + 0, 8, 96⟩
def RFO_CFG_RANGE (p : Nat) : Fld := ⟨8 * (0x200004 + 0x400 * p) + 8, 2, 2⟩
def RFO_CFG_IDLE_PWR (p : Nat) : Fld := ⟨8 * (0x200004 + 0x400 * p) + 10, 1, 0⟩
def RFO_CFG_PARK_ON_CRC (p : Nat) : Fld := ⟨8 * (0x200004 + 0x400 * p) + 11, 1, 1⟩
def RFO_CFG_HARD_MUTE (p : Nat) : Fld := ⟨8 * (0x200004 + 0x400 * p) + 12, 1, 0⟩
/-! RFO_STATUS (R206). -/
def RFO_STATUS_PSTATE (p : Nat) : Fld := ⟨8 * (0x200008 + 0x400 * p) + 0, 3, 0⟩
def RFO_STATUS_MUTED (p : Nat) : Fld := ⟨8 * (0x200008 + 0x400 * p) + 3, 1, 0⟩
def RFO_STATUS_CLASS (p : Nat) : Fld := ⟨8 * (0x200008 + 0x400 * p) + 4, 1, if p % 36 < 32 then 0 else 1⟩
def RFO_STATUS_CELLS_OK (p : Nat) : Fld := ⟨8 * (0x200008 + 0x400 * p) + 5, 1, 0⟩
def RFO_STATUS_PARKED (p : Nat) : Fld := ⟨8 * (0x200008 + 0x400 * p) + 8, 1, 0⟩
def RFO_STATUS_DRIVER_FAULT (p : Nat) : Fld := ⟨8 * (0x200008 + 0x400 * p) + 9, 1, 0⟩
def RFO_STATUS_BAD_CENTRE (p : Nat) : Fld := ⟨8 * (0x200008 + 0x400 * p) + 10, 1, 0⟩
def RFO_STATUS_EN_REFUSED (p : Nat) : Fld := ⟨8 * (0x200008 + 0x400 * p) + 11, 1, 0⟩
def RFO_STATUS_CAL_COLLISION (p : Nat) : Fld := ⟨8 * (0x200008 + 0x400 * p) + 12, 1, 0⟩
def RFO_STATUS_CFG_WHILE_ENABLED (p : Nat) : Fld := ⟨8 * (0x200008 + 0x400 * p) + 13, 1, 0⟩
def RFO_STATUS_CFG_INTEGRITY (p : Nat) : Fld := ⟨8 * (0x200008 + 0x400 * p) + 14, 1, 0⟩
/-! RFO_PARK (R206). -/
def RFO_PARK_PARK_MODE (p : Nat) : Fld := ⟨8 * (0x20000c + 0x400 * p) + 0, 1, 0⟩
def RFO_PARK_PARK_CAUSE (p : Nat) : Fld := ⟨8 * (0x20000c + 0x400 * p) + 4, 4, 0⟩
/-! RFO_EN_TICK (R206). -/
def RFO_EN_TICK (p : Nat) : Fld := ⟨8 * (0x200010 + 0x400 * p) + 0, 64, 0⟩
/-! RFO_DISCARD_TICKS (R206). -/
def RFO_DISCARD_TICKS (p : Nat) : Fld := ⟨8 * (0x200018 + 0x400 * p) + 0, 32, 0⟩
/-! RFO_SHAPER_RESETS (R206). -/
def RFO_SHAPER_RESETS (p : Nat) : Fld := ⟨8 * (0x20001c + 0x400 * p) + 0, 32, 0⟩
/-! RFO_CAL_EPOCH (R206). -/
def RFO_CAL_EPOCH (p : Nat) : Fld := ⟨8 * (0x200020 + 0x400 * p) + 0, 32, 0⟩
/-! RFO_CELL_SEL (R206). -/
def RFO_CELL_SEL (p : Nat) : Fld := ⟨8 * (0x200024 + 0x400 * p) + 0, 72, 0⟩
/-! RFO_CELL_BAD (R206). -/
def RFO_CELL_BAD (p : Nat) : Fld := ⟨8 * (0x200030 + 0x400 * p) + 0, 72, 0⟩
/-! RFO_DELAY_RES (R206). -/
def RFO_DELAY_RES (p : Nat) : Fld := ⟨8 * (0x200040 + 0x400 * p) + 0, 16, 0⟩
/-! RFO_CFG_CRC (R206). -/
def RFO_CFG_CRC (p : Nat) : Fld := ⟨8 * (0x200050 + 0x400 * p) + 0, 32, 0⟩
/-! RFO_CFG_CRC_REF (R206). -/
def RFO_CFG_CRC_REF (p : Nat) : Fld := ⟨8 * (0x200054 + 0x400 * p) + 0, 32, 0⟩
/-! RFO_CFG_CRC_COMMIT (R206). -/
def RFO_CFG_CRC_COMMIT (p : Nat) : Fld := ⟨8 * (0x200058 + 0x400 * p) + 0, 1, 0⟩
/-! RFO_TILE_PENDING (R206). -/
def RFO_TILE_PENDING (a : Nat) : Fld := ⟨8 * (0x248000 + 0x10 * a) + 0, 36, 0⟩
/-! ZP_CTRL (R234). -/
def ZP_CTRL_EN (z : Nat) : Fld := ⟨8 * (0x280000 + 0x100 * z) + 0, 1, 0⟩
/-! ZP_CFG (R234). -/
def ZP_CFG_ZB_MODE (z : Nat) : Fld := ⟨8 * (0x280004 + 0x100 * z) + 0, 1, 0⟩
def ZP_CFG_RB_EN (z : Nat) : Fld := ⟨8 * (0x280004 + 0x100 * z) + 1, 1, 1⟩
def ZP_CFG_PARK_ON_CRC (z : Nat) : Fld := ⟨8 * (0x280004 + 0x100 * z) + 2, 1, 1⟩
def ZP_CFG_STREAM_DIV (z : Nat) : Fld := ⟨8 * (0x280004 + 0x100 * z) + 15, 17, 128000⟩
/-! ZP_STATUS (R234). -/
def ZP_STATUS_RANGE (z : Nat) : Fld := ⟨8 * (0x280008 + 0x100 * z) + 0, 2, 2⟩
def ZP_STATUS_PEND_RANGE (z : Nat) : Fld := ⟨8 * (0x280008 + 0x100 * z) + 2, 2, 3⟩
def ZP_STATUS_TRANSFER (z : Nat) : Fld := ⟨8 * (0x280008 + 0x100 * z) + 4, 1, 0⟩
def ZP_STATUS_RAMPING (z : Nat) : Fld := ⟨8 * (0x280008 + 0x100 * z) + 5, 1, 0⟩
def ZP_STATUS_ACTIVE (z : Nat) : Fld := ⟨8 * (0x280008 + 0x100 * z) + 6, 1, 0⟩
def ZP_STATUS_PARK_DONE (z : Nat) : Fld := ⟨8 * (0x280008 + 0x100 * z) + 7, 1, 0⟩
def ZP_STATUS_PARKED (z : Nat) : Fld := ⟨8 * (0x280008 + 0x100 * z) + 8, 1, 0⟩
def ZP_STATUS_DRIVER_FAULT (z : Nat) : Fld := ⟨8 * (0x280008 + 0x100 * z) + 9, 1, 0⟩
def ZP_STATUS_READBACK_FAULT (z : Nat) : Fld := ⟨8 * (0x280008 + 0x100 * z) + 10, 1, 0⟩
def ZP_STATUS_RANGE_DEFERRED (z : Nat) : Fld := ⟨8 * (0x280008 + 0x100 * z) + 11, 1, 0⟩
def ZP_STATUS_BIAS_COLLISION (z : Nat) : Fld := ⟨8 * (0x280008 + 0x100 * z) + 12, 1, 0⟩
def ZP_STATUS_MODE_CONFLICT (z : Nat) : Fld := ⟨8 * (0x280008 + 0x100 * z) + 13, 1, 0⟩
def ZP_STATUS_UNDERRUN (z : Nat) : Fld := ⟨8 * (0x280008 + 0x100 * z) + 14, 1, 0⟩
def ZP_STATUS_COMPLIANCE (z : Nat) : Fld := ⟨8 * (0x280008 + 0x100 * z) + 15, 1, 0⟩
def ZP_STATUS_EN_REFUSED (z : Nat) : Fld := ⟨8 * (0x280008 + 0x100 * z) + 16, 1, 0⟩
def ZP_STATUS_ZF_CLIP (z : Nat) : Fld := ⟨8 * (0x280008 + 0x100 * z) + 17, 1, 0⟩
def ZP_STATUS_CFG_WHILE_ENABLED (z : Nat) : Fld := ⟨8 * (0x280008 + 0x100 * z) + 18, 1, 0⟩
def ZP_STATUS_CFG_INTEGRITY (z : Nat) : Fld := ⟨8 * (0x280008 + 0x100 * z) + 19, 1, 0⟩
/-! ZP_PARK (R234). -/
def ZP_PARK_PARK_CAUSE (z : Nat) : Fld := ⟨8 * (0x28000c + 0x100 * z) + 0, 4, 0⟩
/-! ZB_CODE (R234). -/
def ZB_CODE_CODE (z : Nat) : Fld := ⟨8 * (0x280010 + 0x100 * z) + 0, 24, 0⟩
def ZB_CODE_RANGE (z : Nat) : Fld := ⟨8 * (0x280010 + 0x100 * z) + 24, 2, 2⟩
/-! ZP_STREAM_Q (R234). -/
def ZP_STREAM_Q_QUEUE (z : Nat) : Fld := ⟨8 * (0x280014 + 0x100 * z) + 0, 16, 0⟩
/-! ZP_STREAM_AT (R234). -/
def ZP_STREAM_AT (z : Nat) : Fld := ⟨8 * (0x280018 + 0x100 * z) + 0, 64, 0⟩
/-! ZF_CLIP_COUNT (R234). -/
def ZF_CLIP_COUNT (z : Nat) : Fld := ⟨8 * (0x280020 + 0x100 * z) + 0, 32, 0⟩
/-! ZF_DISCARD_TICKS (R234). -/
def ZF_DISCARD_TICKS (z : Nat) : Fld := ⟨8 * (0x280024 + 0x100 * z) + 0, 32, 0⟩
/-! ZB_DISCARDS (R234). -/
def ZB_DISCARDS (z : Nat) : Fld := ⟨8 * (0x280028 + 0x100 * z) + 0, 32, 0⟩
/-! ZB_UNDERRUNS (R234). -/
def ZB_UNDERRUNS (z : Nat) : Fld := ⟨8 * (0x28002c + 0x100 * z) + 0, 32, 0⟩
/-! ZB_DEFERRALS (R234). -/
def ZB_DEFERRALS (z : Nat) : Fld := ⟨8 * (0x280030 + 0x100 * z) + 0, 32, 0⟩
/-! RB_MISMATCHES (R234). -/
def RB_MISMATCHES (z : Nat) : Fld := ⟨8 * (0x280034 + 0x100 * z) + 0, 32, 0⟩
/-! RB_SKIPS (R234). -/
def RB_SKIPS (z : Nat) : Fld := ⟨8 * (0x280038 + 0x100 * z) + 0, 32, 0⟩
/-! ZP_RB_LAST (R234). -/
def ZP_RB_LAST_M (z : Nat) : Fld := ⟨8 * (0x28003c + 0x100 * z) + 0, 12, 0⟩
def ZP_RB_LAST_R (z : Nat) : Fld := ⟨8 * (0x28003c + 0x100 * z) + 16, 12, 0⟩
/-! ZP_PARK_VAL (R234). -/
def ZP_PARK_VAL_PARK_CODE (z : Nat) : Fld := ⟨8 * (0x280040 + 0x100 * z) + 0, 24, 0⟩
def ZP_PARK_VAL_PARK_RANGE (z : Nat) : Fld := ⟨8 * (0x280040 + 0x100 * z) + 24, 2, 0⟩
/-! ZP_PARK_SLEW (R234). -/
def ZP_PARK_SLEW (z : Nat) : Fld := ⟨8 * (0x280044 + 0x100 * z) + 0, 16, 0⟩
/-! ZP_CFG_CRC (R234). -/
def ZP_CFG_CRC (z : Nat) : Fld := ⟨8 * (0x280048 + 0x100 * z) + 0, 32, 0⟩
/-! ZP_CFG_CRC_REF (R234). -/
def ZP_CFG_CRC_REF (z : Nat) : Fld := ⟨8 * (0x28004c + 0x100 * z) + 0, 32, 0⟩
/-! ZP_CFG_CRC_COMMIT (R234). -/
def ZP_CFG_CRC_COMMIT (z : Nat) : Fld := ⟨8 * (0x280050 + 0x100 * z) + 0, 1, 0⟩
/-! ZF_IIR_ALPHA (R234). -/
def ZF_IIR_ALPHA (z k : Nat) : Fld := ⟨8 * (0x280060 + 0x100 * z + 0x8 * k) + 0, 32, 0⟩
/-! ZF_IIR_A (R234). -/
def ZF_IIR_A (z k : Nat) : Fld := ⟨8 * (0x280064 + 0x100 * z + 0x8 * k) + 0, 18, 0⟩
/-! ZF_FIR (R234). -/
def ZF_FIR_H (z j : Nat) : Fld := ⟨8 * (0x280080 + 0x100 * z + 0x4 * j) + 0, 18, if j = 0 then 0x10000 else 0⟩
/-! ZP_TILE_PENDING (R234). -/
def ZP_TILE_PENDING (a : Nat) : Fld := ⟨8 * (0x2b0000 + 0x20 * a) + 0, 96, 0⟩
/-! ZP_RB_CFG (R234). -/
def ZP_RB_CFG_PERIOD (a : Nat) : Fld := ⟨8 * (0x2b0100 + 0x4 * a) + 0, 16, 256⟩
def ZP_RB_CFG_TOL (a : Nat) : Fld := ⟨8 * (0x2b0100 + 0x4 * a) + 16, 8, 8⟩
def ZP_RB_CFG_N (a : Nat) : Fld := ⟨8 * (0x2b0100 + 0x4 * a) + 24, 4, 2⟩
/-! RFI_CTRL (R262). -/
def RFI_CTRL_EN (i : Nat) : Fld := ⟨8 * (0x2c0000 + 0x1000 * i) + 0, 1, 0⟩
def RFI_CTRL_KSWAP (i : Nat) : Fld := ⟨8 * (0x2c0000 + 0x1000 * i) + 1, 1, 0⟩
def RFI_CTRL_KSWAP_NOW (i : Nat) : Fld := ⟨8 * (0x2c0000 + 0x1000 * i) + 2, 1, 0⟩
def RFI_CTRL_KCOPY (i : Nat) : Fld := ⟨8 * (0x2c0000 + 0x1000 * i) + 3, 1, 0⟩
/-! RFI_CFG (R262). -/
def RFI_CFG_RANGE (i : Nat) : Fld := ⟨8 * (0x2c0004 + 0x1000 * i) + 0, 1, 0⟩
def RFI_CFG_IDLE_PWR (i : Nat) : Fld := ⟨8 * (0x2c0004 + 0x1000 * i) + 1, 1, 0⟩
/-! RFI_STATUS (R262). -/
def RFI_STATUS_PSTATE (i : Nat) : Fld := ⟨8 * (0x2c0008 + 0x1000 * i) + 0, 3, 0⟩
def RFI_STATUS_SLICES_OK (i : Nat) : Fld := ⟨8 * (0x2c0008 + 0x1000 * i) + 3, 1, 0⟩
def RFI_STATUS_KSWAP_PENDING (i : Nat) : Fld := ⟨8 * (0x2c0008 + 0x1000 * i) + 4, 1, 0⟩
def RFI_STATUS_OVERRANGE (i : Nat) : Fld := ⟨8 * (0x2c0008 + 0x1000 * i) + 8, 1, 0⟩
def RFI_STATUS_EN_REFUSED (i : Nat) : Fld := ⟨8 * (0x2c0008 + 0x1000 * i) + 9, 1, 0⟩
def RFI_STATUS_CAL_COLLISION (i : Nat) : Fld := ⟨8 * (0x2c0008 + 0x1000 * i) + 10, 1, 0⟩
def RFI_STATUS_KSWAP_LATE (i : Nat) : Fld := ⟨8 * (0x2c0008 + 0x1000 * i) + 11, 1, 0⟩
def RFI_STATUS_KSWAP_BUSY (i : Nat) : Fld := ⟨8 * (0x2c0008 + 0x1000 * i) + 12, 1, 0⟩
def RFI_STATUS_KSWAP_DONE (i : Nat) : Fld := ⟨8 * (0x2c0008 + 0x1000 * i) + 13, 1, 0⟩
def RFI_STATUS_CFG_WHILE_ENABLED (i : Nat) : Fld := ⟨8 * (0x2c0008 + 0x1000 * i) + 14, 1, 0⟩
def RFI_STATUS_CFG_INTEGRITY (i : Nat) : Fld := ⟨8 * (0x2c0008 + 0x1000 * i) + 15, 1, 0⟩
/-! RFI_KSWAP_AT (R262). -/
def RFI_KSWAP_AT (i : Nat) : Fld := ⟨8 * (0x2c0010 + 0x1000 * i) + 0, 64, 0⟩
/-! RFI_KSWAP_MASK (R262). -/
def RFI_KSWAP_MASK (i : Nat) : Fld := ⟨8 * (0x2c0018 + 0x1000 * i) + 0, 32, 0⟩
/-! RFI_KBANK (R262). -/
def RFI_KBANK (i : Nat) : Fld := ⟨8 * (0x2c001c + 0x1000 * i) + 0, 32, 0⟩
/-! RFI_KSWAP_COUNT (R262). -/
def RFI_KSWAP_COUNT (i : Nat) : Fld := ⟨8 * (0x2c0020 + 0x1000 * i) + 0, 32, 0⟩
/-! RFI_OVR_COUNT (R262). -/
def RFI_OVR_COUNT (i : Nat) : Fld := ⟨8 * (0x2c0024 + 0x1000 * i) + 0, 32, 0⟩
/-! RFI_CAL_EPOCH (R262). -/
def RFI_CAL_EPOCH (i : Nat) : Fld := ⟨8 * (0x2c0028 + 0x1000 * i) + 0, 32, 0⟩
/-! RFI_SLICE_SEL (R262). -/
def RFI_SLICE_SEL (i : Nat) : Fld := ⟨8 * (0x2c0030 + 0x1000 * i) + 0, 68, 0⟩
/-! RFI_SLICE_BAD (R262). -/
def RFI_SLICE_BAD (i : Nat) : Fld := ⟨8 * (0x2c0040 + 0x1000 * i) + 0, 68, 0⟩
/-! RFI_LAU_PENDING (R262). -/
def RFI_LAU_PENDING (i : Nat) : Fld := ⟨8 * (0x2c0060 + 0x1000 * i) + 0, 32, 0⟩
/-! RFI_CFG_CRC (R262). -/
def RFI_CFG_CRC (i : Nat) : Fld := ⟨8 * (0x2c0050 + 0x1000 * i) + 0, 32, 0⟩
/-! RFI_CFG_CRC_REF (R262). -/
def RFI_CFG_CRC_REF (i : Nat) : Fld := ⟨8 * (0x2c0054 + 0x1000 * i) + 0, 32, 0⟩
/-! RFI_CFG_CRC_COMMIT (R262). -/
def RFI_CFG_CRC_COMMIT (i : Nat) : Fld := ⟨8 * (0x2c0058 + 0x1000 * i) + 0, 1, 0⟩
/-! LAU_CTRL (R263). -/
def LAU_CTRL_EN (c : Nat) : Fld := ⟨8 * (0x2e0000 + 0x100 * c) + 0, 1, 0⟩
/-! LAU_CFG (R263). -/
def LAU_CFG_FORMAT (c : Nat) : Fld := ⟨8 * (0x2e0004 + 0x100 * c) + 0, 2, 0⟩
def LAU_CFG_PX_EN (c : Nat) : Fld := ⟨8 * (0x2e0004 + 0x100 * c) + 2, 1, 0⟩
def LAU_CFG_RING (c : Nat) : Fld := ⟨8 * (0x2e0004 + 0x100 * c) + 16, 14, 0⟩
/-! LAU_FRAMES (R263). -/
def LAU_FRAMES_RFRAME (c : Nat) : Fld := ⟨8 * (0x2e0008 + 0x100 * c) + 0, 16, 0⟩
def LAU_FRAMES_PFRAME (c : Nat) : Fld := ⟨8 * (0x2e0008 + 0x100 * c) + 16, 16, 0⟩
/-! LAU_STATUS (R263). -/
def LAU_STATUS_ACTIVE (c : Nat) : Fld := ⟨8 * (0x2e000c + 0x100 * c) + 0, 1, 0⟩
def LAU_STATUS_BUSY_NOW (c : Nat) : Fld := ⟨8 * (0x2e000c + 0x100 * c) + 1, 1, 0⟩
def LAU_STATUS_BUSY (c : Nat) : Fld := ⟨8 * (0x2e000c + 0x100 * c) + 8, 1, 0⟩
def LAU_STATUS_SETUP (c : Nat) : Fld := ⟨8 * (0x2e000c + 0x100 * c) + 9, 1, 0⟩
def LAU_STATUS_CHAN_OFF (c : Nat) : Fld := ⟨8 * (0x2e000c + 0x100 * c) + 10, 1, 0⟩
def LAU_STATUS_ACC_SAT (c : Nat) : Fld := ⟨8 * (0x2e000c + 0x100 * c) + 11, 1, 0⟩
def LAU_STATUS_RFI_DOWN (c : Nat) : Fld := ⟨8 * (0x2e000c + 0x100 * c) + 12, 1, 0⟩
def LAU_STATUS_EN_REFUSED (c : Nat) : Fld := ⟨8 * (0x2e000c + 0x100 * c) + 13, 1, 0⟩
def LAU_STATUS_CFG_WHILE_ENABLED (c : Nat) : Fld := ⟨8 * (0x2e000c + 0x100 * c) + 14, 1, 0⟩
def LAU_STATUS_CFG_INTEGRITY (c : Nat) : Fld := ⟨8 * (0x2e000c + 0x100 * c) + 15, 1, 0⟩
/-! LAU_GEN (R263). -/
def LAU_GEN (c : Nat) : Fld := ⟨8 * (0x2e0010 + 0x100 * c) + 0, 16, 0⟩
/-! LAU_MEAS_COUNT (R263). -/
def LAU_MEAS_COUNT (c : Nat) : Fld := ⟨8 * (0x2e0014 + 0x100 * c) + 0, 32, 0⟩
/-! LAU_INVALID_COUNT (R263). -/
def LAU_INVALID_COUNT (c : Nat) : Fld := ⟨8 * (0x2e0018 + 0x100 * c) + 0, 32, 0⟩
/-! LAU_LOWCONF_COUNT (R263). -/
def LAU_LOWCONF_COUNT (c : Nat) : Fld := ⟨8 * (0x2e001c + 0x100 * c) + 0, 32, 0⟩
/-! LAU_LEAK_COUNT (R263). -/
def LAU_LEAK_COUNT (c : Nat) : Fld := ⟨8 * (0x2e0020 + 0x100 * c) + 0, 32, 0⟩
/-! LAU_LAST_I (R263). -/
def LAU_LAST_I (c : Nat) : Fld := ⟨8 * (0x2e0024 + 0x100 * c) + 0, 32, 0⟩
/-! LAU_LAST_Q (R263). -/
def LAU_LAST_Q (c : Nat) : Fld := ⟨8 * (0x2e0028 + 0x100 * c) + 0, 32, 0⟩
/-! LAU_LAST_END (R263). -/
def LAU_LAST_END (c : Nat) : Fld := ⟨8 * (0x2e002c + 0x100 * c) + 0, 64, 0⟩
/-! LAU_CFG_CRC (R263). -/
def LAU_CFG_CRC (c : Nat) : Fld := ⟨8 * (0x2e0040 + 0x100 * c) + 0, 32, 0⟩
/-! LAU_CFG_CRC_REF (R263). -/
def LAU_CFG_CRC_REF (c : Nat) : Fld := ⟨8 * (0x2e0044 + 0x100 * c) + 0, 32, 0⟩
/-! LAU_CFG_CRC_COMMIT (R263). -/
def LAU_CFG_CRC_COMMIT (c : Nat) : Fld := ⟨8 * (0x2e0048 + 0x100 * c) + 0, 1, 0⟩
/-! DEC_CTRL (R285). -/
def DEC_CTRL_EN : Fld := ⟨26214400, 1, 0⟩
/-! DEC_STATUS (R285). -/
def DEC_STATUS_LATE_RESULT : Fld := ⟨26214440, 1, 0⟩
def DEC_STATUS_ROUND_FAIL : Fld := ⟨26214441, 1, 0⟩
def DEC_STATUS_FWD_DROP : Fld := ⟨26214442, 1, 0⟩
def DEC_STATUS_EN_REFUSED : Fld := ⟨26214443, 1, 0⟩
def DEC_STATUS_CFG_WHILE_ENABLED : Fld := ⟨26214444, 1, 0⟩
def DEC_STATUS_CFG_INTEGRITY : Fld := ⟨26214445, 1, 0⟩
/-! DEC_LATE_COUNT (R285). -/
def DEC_LATE_COUNT : Fld := ⟨26214528, 32, 0⟩
/-! DEC_FWD_DROPS (R285). -/
def DEC_FWD_DROPS : Fld := ⟨26214560, 32, 0⟩
/-! DEC_REMOTE_RX (R285). -/
def DEC_REMOTE_RX : Fld := ⟨26214592, 32, 0⟩
/-! DEC_HOST_FLAGS (R285). -/
def DEC_HOST_FLAGS : Fld := ⟨26214656, 64, 0⟩
/-! DEC_CFG_CRC (R285). -/
def DEC_CFG_CRC : Fld := ⟨26214784, 32, 0⟩
/-! DEC_CFG_CRC_REF (R285). -/
def DEC_CFG_CRC_REF : Fld := ⟨26214816, 32, 0⟩
/-! DEC_CFG_CRC_COMMIT (R285). -/
def DEC_CFG_CRC_COMMIT : Fld := ⟨26214848, 1, 0⟩
/-! DEC_FWD (R285). -/
def DEC_FWD_EN (c : Nat) : Fld := ⟨8 * (0x321000 + 0x4 * c) + 0, 1, 0⟩
def DEC_FWD_DEV (c : Nat) : Fld := ⟨8 * (0x321000 + 0x4 * c) + 1, 6, 0⟩
def DEC_FWD_RPAIR (c : Nat) : Fld := ⟨8 * (0x321000 + 0x4 * c) + 7, 10, 0⟩
/-! DEC_WIN_CTRL (R285). -/
def DEC_WIN_CTRL_EN (d : Nat) : Fld := ⟨8 * (0x324000 + 0x100 * d) + 0, 1, 0⟩
/-! DEC_WIN_CFG (R285). -/
def DEC_WIN_CFG_NBITS (d : Nat) : Fld := ⟨8 * (0x324004 + 0x100 * d) + 0, 5, 1⟩
def DEC_WIN_CFG_PART (d : Nat) : Fld := ⟨8 * (0x324004 + 0x100 * d) + 5, 4, 0⟩
def DEC_WIN_CFG_FWD_EN (d : Nat) : Fld := ⟨8 * (0x324004 + 0x100 * d) + 9, 1, 0⟩
def DEC_WIN_CFG_FWD_DEV (d : Nat) : Fld := ⟨8 * (0x324004 + 0x100 * d) + 10, 6, 0⟩
def DEC_WIN_CFG_FWD_RPAIR (d : Nat) : Fld := ⟨8 * (0x324004 + 0x100 * d) + 16, 10, 0⟩
/-! DEC_WIN_BASE (R285). -/
def DEC_WIN_BASE (d : Nat) : Fld := ⟨8 * (0x324008 + 0x100 * d) + 0, 19, 0⟩
/-! DEC_WIN_TMO (R285). -/
def DEC_WIN_TMO_TIMEOUT (d : Nat) : Fld := ⟨8 * (0x32400c + 0x100 * d) + 0, 16, 0⟩
/-! DEC_WIN_GROUP (R285). -/
def DEC_WIN_GROUP_SEQ_A (d j : Nat) : Fld := ⟨8 * (0x324010 + 0x100 * d + 0x4 * j) + 0, 9, 0⟩
def DEC_WIN_GROUP_VALID_A (d j : Nat) : Fld := ⟨8 * (0x324010 + 0x100 * d + 0x4 * j) + 15, 1, 0⟩
def DEC_WIN_GROUP_SEQ_B (d j : Nat) : Fld := ⟨8 * (0x324010 + 0x100 * d + 0x4 * j) + 16, 9, 0⟩
def DEC_WIN_GROUP_VALID_B (d j : Nat) : Fld := ⟨8 * (0x324010 + 0x100 * d + 0x4 * j) + 31, 1, 0⟩
/-! DEC_WIN_PFRAME (R285). -/
def DEC_WIN_PFRAME_FRAME_A (d j : Nat) : Fld := ⟨8 * (0x324020 + 0x100 * d + 0x4 * j) + 0, 16, 65535⟩
def DEC_WIN_PFRAME_FRAME_B (d j : Nat) : Fld := ⟨8 * (0x324020 + 0x100 * d + 0x4 * j) + 16, 16, 65535⟩
/-! DEC_WIN_STATUS (R285). -/
def DEC_WIN_STATUS_ACTIVE (d : Nat) : Fld := ⟨8 * (0x324030 + 0x100 * d) + 0, 1, 0⟩
def DEC_WIN_STATUS_ROUND_OPEN (d : Nat) : Fld := ⟨8 * (0x324030 + 0x100 * d) + 1, 1, 0⟩
def DEC_WIN_STATUS_LAST_FAIL (d : Nat) : Fld := ⟨8 * (0x324030 + 0x100 * d) + 2, 2, 0⟩
def DEC_WIN_STATUS_READY (d : Nat) : Fld := ⟨8 * (0x324030 + 0x100 * d) + 4, 19, 0⟩
/-! DEC_CODE (R285). -/
def DEC_CODE_CODE (d : Nat) : Fld := ⟨8 * (0x324034 + 0x100 * d) + 0, 4, 0⟩
def DEC_CODE_INV (d : Nat) : Fld := ⟨8 * (0x324034 + 0x100 * d) + 4, 1, 1⟩
def DEC_CODE_GEN (d : Nat) : Fld := ⟨8 * (0x324034 + 0x100 * d) + 16, 16, 0⟩
/-! DEC_WIN_ROUNDS (R285). -/
def DEC_WIN_ROUNDS (d : Nat) : Fld := ⟨8 * (0x324038 + 0x100 * d) + 0, 32, 0⟩
/-! DEC_WIN_FAILS (R285). -/
def DEC_WIN_FAILS (d : Nat) : Fld := ⟨8 * (0x32403c + 0x100 * d) + 0, 32, 0⟩
/-! DEC_WIN_LAST (R285). -/
def DEC_WIN_LAST_LAST_INDEX (d : Nat) : Fld := ⟨8 * (0x324040 + 0x100 * d) + 0, 19, 0⟩
/-! DEC_GATHER (R285). -/
def DEC_GATHER_BIT (d k : Nat) : Fld := ⟨8 * (0x324080 + 0x100 * d + 0x4 * k) + 0, 12, 0⟩
/-! ANA_CTRL (R303). -/
def ANA_CTRL_EN (a : Nat) : Fld := ⟨8 * (0x340000 + 0x4000 * a) + 0, 1, 0⟩
def ANA_CTRL_DOORBELL (a : Nat) : Fld := ⟨8 * (0x340000 + 0x4000 * a) + 1, 1, 0⟩
/-! ANA_CFG (R303). -/
def ANA_CFG_PART (a : Nat) : Fld := ⟨8 * (0x340004 + 0x4000 * a) + 0, 4, 0⟩
def ANA_CFG_IRQ_EN (a : Nat) : Fld := ⟨8 * (0x340004 + 0x4000 * a) + 8, 5, 0⟩
/-! ANA_STATUS (R303). -/
def ANA_STATUS_STATE (a : Nat) : Fld := ⟨8 * (0x340008 + 0x4000 * a) + 0, 2, 0⟩
def ANA_STATUS_SHADOW (a : Nat) : Fld := ⟨8 * (0x340008 + 0x4000 * a) + 2, 1, 0⟩
def ANA_STATUS_CLKDIV (a : Nat) : Fld := ⟨8 * (0x340008 + 0x4000 * a) + 3, 3, 0⟩
def ANA_STATUS_FAULT (a : Nat) : Fld := ⟨8 * (0x340008 + 0x4000 * a) + 8, 1, 0⟩
def ANA_STATUS_IN_SKIP (a : Nat) : Fld := ⟨8 * (0x340008 + 0x4000 * a) + 9, 1, 0⟩
def ANA_STATUS_HOST_FLAG (a : Nat) : Fld := ⟨8 * (0x340008 + 0x4000 * a) + 10, 1, 0⟩
def ANA_STATUS_EN_REFUSED (a : Nat) : Fld := ⟨8 * (0x340008 + 0x4000 * a) + 11, 1, 0⟩
def ANA_STATUS_CFG_WHILE_ENABLED (a : Nat) : Fld := ⟨8 * (0x340008 + 0x4000 * a) + 12, 1, 0⟩
def ANA_STATUS_CFG_INTEGRITY (a : Nat) : Fld := ⟨8 * (0x340008 + 0x4000 * a) + 13, 1, 0⟩
/-! ANA_FAULT (R303). -/
def ANA_FAULT_CODE (a : Nat) : Fld := ⟨8 * (0x34000c + 0x4000 * a) + 0, 8, 0⟩
def ANA_FAULT_FPC (a : Nat) : Fld := ⟨8 * (0x34000c + 0x4000 * a) + 8, 14, 0⟩
/-! ANA_PC (R303). -/
def ANA_PC (a : Nat) : Fld := ⟨8 * (0x340010 + 0x4000 * a) + 0, 14, 0⟩
/-! ANA_HOST_VAL (R303). -/
def ANA_HOST_VAL_VALUE (a : Nat) : Fld := ⟨8 * (0x340014 + 0x4000 * a) + 0, 16, 0⟩
/-! ANA_CYCLES (R303). -/
def ANA_CYCLES (a : Nat) : Fld := ⟨8 * (0x340018 + 0x4000 * a) + 0, 64, 0⟩
/-! ANA_IN_CFG (R303). -/
def ANA_IN_CFG_QUEUE (a j : Nat) : Fld := ⟨8 * (0x340040 + 0x4000 * a + 0x10 * j) + 0, 16, 0⟩
def ANA_IN_CFG_MODE (a j : Nat) : Fld := ⟨8 * (0x340040 + 0x4000 * a + 0x10 * j) + 16, 2, 0⟩
def ANA_IN_CFG_CONV (a j : Nat) : Fld := ⟨8 * (0x340040 + 0x4000 * a + 0x10 * j) + 18, 2, 0⟩
/-! ANA_IN_BUF (R303). -/
def ANA_IN_BUF_BASE (a j : Nat) : Fld := ⟨8 * (0x340044 + 0x4000 * a + 0x10 * j) + 0, 16, 0⟩
def ANA_IN_BUF_LEN (a j : Nat) : Fld := ⟨8 * (0x340044 + 0x4000 * a + 0x10 * j) + 16, 16, 0⟩
/-! ANA_IN_WP (R303). -/
def ANA_IN_WP (a j : Nat) : Fld := ⟨8 * (0x340048 + 0x4000 * a + 0x10 * j) + 0, 24, 0⟩
/-! ANA_IN_RP (R303). -/
def ANA_IN_RP (a j : Nat) : Fld := ⟨8 * (0x34004c + 0x4000 * a + 0x10 * j) + 0, 24, 0⟩
/-! ANA_OUT_CFG (R303). -/
def ANA_OUT_CFG_OUT_QUEUE (a : Nat) : Fld := ⟨8 * (0x340060 + 0x4000 * a) + 0, 16, 37888⟩
/-! ANA_OUT_STALLS (R303). -/
def ANA_OUT_STALLS (a : Nat) : Fld := ⟨8 * (0x340064 + 0x4000 * a) + 0, 32, 0⟩
/-! ANA_IN_SKIPS (R303). -/
def ANA_IN_SKIPS (a : Nat) : Fld := ⟨8 * (0x340068 + 0x4000 * a) + 0, 32, 0⟩
/-! ANA_CFG_CRC (R303). -/
def ANA_CFG_CRC (a : Nat) : Fld := ⟨8 * (0x340070 + 0x4000 * a) + 0, 32, 0⟩
/-! ANA_CFG_CRC_REF (R303). -/
def ANA_CFG_CRC_REF (a : Nat) : Fld := ⟨8 * (0x340074 + 0x4000 * a) + 0, 32, 0⟩
/-! ANA_CFG_CRC_COMMIT (R303). -/
def ANA_CFG_CRC_COMMIT (a : Nat) : Fld := ⟨8 * (0x340078 + 0x4000 * a) + 0, 1, 0⟩
/-! TAP_CTRL (R318). -/
def TAP_CTRL_EN (i : Nat) : Fld := ⟨8 * (0x360000 + 0x1000 * i) + 0, 1, 0⟩
def TAP_CTRL_ARM (i : Nat) : Fld := ⟨8 * (0x360000 + 0x1000 * i) + 1, 1, 0⟩
def TAP_CTRL_DISARM (i : Nat) : Fld := ⟨8 * (0x360000 + 0x1000 * i) + 2, 1, 0⟩
/-! TAP_CFG (R318). -/
def TAP_CFG_FMT (i : Nat) : Fld := ⟨8 * (0x360004 + 0x1000 * i) + 0, 2, 0⟩
def TAP_CFG_TRIG_EXT (i : Nat) : Fld := ⟨8 * (0x360004 + 0x1000 * i) + 2, 1, 0⟩
def TAP_CFG_TRIG_MEAS (i : Nat) : Fld := ⟨8 * (0x360004 + 0x1000 * i) + 3, 1, 0⟩
def TAP_CFG_SRC (i : Nat) : Fld := ⟨8 * (0x360004 + 0x1000 * i) + 4, 6, 0⟩
def TAP_CFG_NSEG (i : Nat) : Fld := ⟨8 * (0x360004 + 0x1000 * i) + 16, 16, 1⟩
/-! TAP_LEN (R318). -/
def TAP_LEN (i : Nat) : Fld := ⟨8 * (0x360008 + 0x1000 * i) + 0, 21, 1024⟩
/-! TAP_PRE (R318). -/
def TAP_PRE (i : Nat) : Fld := ⟨8 * (0x36000c + 0x1000 * i) + 0, 21, 0⟩
/-! TAP_CH_MASK (R318). -/
def TAP_CH_MASK (i : Nat) : Fld := ⟨8 * (0x360010 + 0x1000 * i) + 0, 32, 0⟩
/-! TAP_MEAS_MASK (R318). -/
def TAP_MEAS_MASK (i : Nat) : Fld := ⟨8 * (0x360014 + 0x1000 * i) + 0, 32, 0⟩
/-! TAP_QUEUE (R318). -/
def TAP_QUEUE (i : Nat) : Fld := ⟨8 * (0x360018 + 0x1000 * i) + 0, 16, 0x9000 + 32 * i⟩
/-! TAP_REGION_BASE (R318). -/
def TAP_REGION_BASE (i : Nat) : Fld := ⟨8 * (0x36001c + 0x1000 * i) + 0, 19, 0⟩
/-! TAP_REGION_SIZE (R318). -/
def TAP_REGION_SIZE (i : Nat) : Fld := ⟨8 * (0x360024 + 0x1000 * i) + 0, 19, 0⟩
/-! TAP_STATUS (R318). -/
def TAP_STATUS_STATE (i : Nat) : Fld := ⟨8 * (0x360020 + 0x1000 * i) + 0, 3, 0⟩
def TAP_STATUS_MISSED (i : Nat) : Fld := ⟨8 * (0x360020 + 0x1000 * i) + 8, 1, 0⟩
def TAP_STATUS_DONE (i : Nat) : Fld := ⟨8 * (0x360020 + 0x1000 * i) + 9, 1, 0⟩
def TAP_STATUS_DATA_LOSS (i : Nat) : Fld := ⟨8 * (0x360020 + 0x1000 * i) + 10, 1, 0⟩
def TAP_STATUS_ARM_REFUSED (i : Nat) : Fld := ⟨8 * (0x360020 + 0x1000 * i) + 11, 1, 0⟩
def TAP_STATUS_EN_REFUSED (i : Nat) : Fld := ⟨8 * (0x360020 + 0x1000 * i) + 12, 1, 0⟩
def TAP_STATUS_CFG_WHILE_ENABLED (i : Nat) : Fld := ⟨8 * (0x360020 + 0x1000 * i) + 13, 1, 0⟩
def TAP_STATUS_CFG_INTEGRITY (i : Nat) : Fld := ⟨8 * (0x360020 + 0x1000 * i) + 14, 1, 0⟩
/-! TAP_SEEN (R318). -/
def TAP_SEEN (i : Nat) : Fld := ⟨8 * (0x360030 + 0x1000 * i) + 0, 64, 0⟩
/-! TAP_CAPTURED (R318). -/
def TAP_CAPTURED (i : Nat) : Fld := ⟨8 * (0x360038 + 0x1000 * i) + 0, 64, 0⟩
/-! TAP_MISSED (R318). -/
def TAP_MISSED (i : Nat) : Fld := ⟨8 * (0x360040 + 0x1000 * i) + 0, 64, 0⟩
/-! TAP_SEG_DONE (R318). -/
def TAP_SEG_DONE (i : Nat) : Fld := ⟨8 * (0x360048 + 0x1000 * i) + 0, 17, 0⟩
/-! TAP_ACQ_COUNT (R318). -/
def TAP_ACQ_COUNT (i : Nat) : Fld := ⟨8 * (0x36004c + 0x1000 * i) + 0, 32, 0⟩
/-! TAP_MISS_WR (R318). -/
def TAP_MISS_WR (i : Nat) : Fld := ⟨8 * (0x360050 + 0x1000 * i) + 0, 4, 0⟩
/-! TAP_MISS_LOG (R318). -/
def TAP_MISS_LOG_STAMP (i e : Nat) : Fld := ⟨8 * (0x360100 + 0x1000 * i + 0x10 * e) + 0, 64, 0⟩
/-! TAP_MISS_INFO (R318). -/
def TAP_MISS_INFO_CAUSE (i e : Nat) : Fld := ⟨8 * (0x360108 + 0x1000 * i + 0x10 * e) + 0, 2, 0⟩
def TAP_MISS_INFO_KIND (i e : Nat) : Fld := ⟨8 * (0x360108 + 0x1000 * i + 0x10 * e) + 2, 2, 0⟩
def TAP_MISS_INFO_DETAIL (i e : Nat) : Fld := ⟨8 * (0x360108 + 0x1000 * i + 0x10 * e) + 4, 6, 0⟩
/-! TAP_CFG_CRC (R318). -/
def TAP_CFG_CRC (i : Nat) : Fld := ⟨8 * (0x360060 + 0x1000 * i) + 0, 32, 0⟩
/-! TAP_CFG_CRC_REF (R318). -/
def TAP_CFG_CRC_REF (i : Nat) : Fld := ⟨8 * (0x360064 + 0x1000 * i) + 0, 32, 0⟩
/-! TAP_CFG_CRC_COMMIT (R318). -/
def TAP_CFG_CRC_COMMIT (i : Nat) : Fld := ⟨8 * (0x360068 + 0x1000 * i) + 0, 1, 0⟩
/-! FLV_CTRL (R339). -/
def FLV_CTRL_EN (L : Nat) : Fld := ⟨8 * (0x380000 + 0x200 * L) + 0, 1, 0⟩
def FLV_CTRL_IDLE_REQ (L : Nat) : Fld := ⟨8 * (0x380000 + 0x200 * L) + 1, 1, 0⟩
def FLV_CTRL_RETRAIN (L : Nat) : Fld := ⟨8 * (0x380000 + 0x200 * L) + 2, 1, 0⟩
/-! FLV_CFG (R339). -/
def FLV_CFG_WIDTH (L : Nat) : Fld := ⟨8 * (0x380004 + 0x200 * L) + 0, 2, 0⟩
def FLV_CFG_PEER (L : Nat) : Fld := ⟨8 * (0x380004 + 0x200 * L) + 2, 6, 0⟩
def FLV_CFG_PEER_CHK (L : Nat) : Fld := ⟨8 * (0x380004 + 0x200 * L) + 8, 1, 0⟩
def FLV_CFG_AUTO_IDLE (L : Nat) : Fld := ⟨8 * (0x380004 + 0x200 * L) + 9, 1, 0⟩
def FLV_CFG_IDLE_AFTER (L : Nat) : Fld := ⟨8 * (0x380004 + 0x200 * L) + 10, 10, 100⟩
def FLV_CFG_CRC_RETRAIN (L : Nat) : Fld := ⟨8 * (0x380004 + 0x200 * L) + 20, 8, 16⟩
/-! FLV_CFG2 (R339). -/
def FLV_CFG2_TIME_PERIOD (L : Nat) : Fld := ⟨8 * (0x380008 + 0x200 * L) + 0, 16, 1000⟩
def FLV_CFG2_TRIG_PART (L : Nat) : Fld := ⟨8 * (0x380008 + 0x200 * L) + 16, 4, 0⟩
/-! FLV_STATUS (R339). -/
def FLV_STATUS_STATE (L : Nat) : Fld := ⟨8 * (0x38000c + 0x200 * L) + 0, 3, 0⟩
def FLV_STATUS_PEER_DEV (L : Nat) : Fld := ⟨8 * (0x38000c + 0x200 * L) + 3, 6, 0⟩
def FLV_STATUS_EN_REFUSED (L : Nat) : Fld := ⟨8 * (0x38000c + 0x200 * L) + 16, 1, 0⟩
def FLV_STATUS_PEER_MISMATCH (L : Nat) : Fld := ⟨8 * (0x38000c + 0x200 * L) + 17, 1, 0⟩
def FLV_STATUS_TRAIN_FAIL (L : Nat) : Fld := ⟨8 * (0x38000c + 0x200 * L) + 18, 1, 0⟩
def FLV_STATUS_LOCK_LOST (L : Nat) : Fld := ⟨8 * (0x38000c + 0x200 * L) + 19, 1, 0⟩
def FLV_STATUS_CRC_ERR (L : Nat) : Fld := ⟨8 * (0x38000c + 0x200 * L) + 20, 1, 0⟩
def FLV_STATUS_CREDIT_RESTORED (L : Nat) : Fld := ⟨8 * (0x38000c + 0x200 * L) + 21, 1, 0⟩
def FLV_STATUS_CFG_WHILE_ENABLED (L : Nat) : Fld := ⟨8 * (0x38000c + 0x200 * L) + 22, 1, 0⟩
def FLV_STATUS_CFG_INTEGRITY (L : Nat) : Fld := ⟨8 * (0x38000c + 0x200 * L) + 23, 1, 0⟩
/-! FLV_CREDIT (R339). -/
def FLV_CREDIT_TX_CREDITS (L : Nat) : Fld := ⟨8 * (0x380010 + 0x200 * L) + 0, 8, 0⟩
def FLV_CREDIT_PEER_DEPTH (L : Nat) : Fld := ⟨8 * (0x380010 + 0x200 * L) + 8, 8, 0⟩
/-! FLV_FLITS_SENT (R339). -/
def FLV_FLITS_SENT (L : Nat) : Fld := ⟨8 * (0x380020 + 0x200 * L) + 0, 64, 0⟩
/-! FLV_FLITS_CONSUMED (R339). -/
def FLV_FLITS_CONSUMED (L : Nat) : Fld := ⟨8 * (0x380028 + 0x200 * L) + 0, 64, 0⟩
/-! FLV_CREDITS_RETURNED (R339). -/
def FLV_CREDITS_RETURNED (L : Nat) : Fld := ⟨8 * (0x380030 + 0x200 * L) + 0, 64, 0⟩
/-! FLV_CREDITS_BACK (R339). -/
def FLV_CREDITS_BACK (L : Nat) : Fld := ⟨8 * (0x380038 + 0x200 * L) + 0, 64, 0⟩
/-! FLV_CREDITS_RESTORED (R339). -/
def FLV_CREDITS_RESTORED (L : Nat) : Fld := ⟨8 * (0x380040 + 0x200 * L) + 0, 64, 0⟩
/-! FLV_CRC_ERRORS (R339). -/
def FLV_CRC_ERRORS (L : Nat) : Fld := ⟨8 * (0x380048 + 0x200 * L) + 0, 32, 0⟩
/-! FLV_SEQ_GAPS (R339). -/
def FLV_SEQ_GAPS (L : Nat) : Fld := ⟨8 * (0x38004c + 0x200 * L) + 0, 32, 0⟩
/-! FLV_RETRAINS (R339). -/
def FLV_RETRAINS (L : Nat) : Fld := ⟨8 * (0x380050 + 0x200 * L) + 0, 32, 0⟩
/-! FLV_TRAIN_FAILS (R339). -/
def FLV_TRAIN_FAILS (L : Nat) : Fld := ⟨8 * (0x380054 + 0x200 * L) + 0, 32, 0⟩
/-! FLV_FLUSHED (R339). -/
def FLV_FLUSHED (L : Nat) : Fld := ⟨8 * (0x380058 + 0x200 * L) + 0, 32, 0⟩
/-! FLV_IDLE_EXITS (R339). -/
def FLV_IDLE_EXITS (L : Nat) : Fld := ⟨8 * (0x38005c + 0x200 * L) + 0, 32, 0⟩
/-! FLV_LAT_RT (R339). -/
def FLV_LAT_RT_LAT (L : Nat) : Fld := ⟨8 * (0x380060 + 0x200 * L) + 0, 16, 0⟩
def FLV_LAT_RT_VALID (L : Nat) : Fld := ⟨8 * (0x380060 + 0x200 * L) + 31, 1, 0⟩
/-! FLV_LAT_1W_LAST (R339). -/
def FLV_LAT_1W_LAST_LAT (L : Nat) : Fld := ⟨8 * (0x380064 + 0x200 * L) + 0, 16, 0⟩
def FLV_LAT_1W_LAST_VALID (L : Nat) : Fld := ⟨8 * (0x380064 + 0x200 * L) + 31, 1, 0⟩
/-! FLV_LAT_1W_MIN (R339). -/
def FLV_LAT_1W_MIN_LAT (L : Nat) : Fld := ⟨8 * (0x380068 + 0x200 * L) + 0, 16, 0⟩
def FLV_LAT_1W_MIN_VALID (L : Nat) : Fld := ⟨8 * (0x380068 + 0x200 * L) + 31, 1, 0⟩
/-! FLV_LAT_1W_MAX (R339). -/
def FLV_LAT_1W_MAX_LAT (L : Nat) : Fld := ⟨8 * (0x38006c + 0x200 * L) + 0, 16, 0⟩
def FLV_LAT_1W_MAX_VALID (L : Nat) : Fld := ⟨8 * (0x38006c + 0x200 * L) + 31, 1, 0⟩
/-! FLV_CFG_CRC (R339). -/
def FLV_CFG_CRC (L : Nat) : Fld := ⟨8 * (0x380070 + 0x200 * L) + 0, 32, 0⟩
/-! FLV_CFG_CRC_REF (R339). -/
def FLV_CFG_CRC_REF (L : Nat) : Fld := ⟨8 * (0x380074 + 0x200 * L) + 0, 32, 0⟩
/-! FLV_CFG_CRC_COMMIT (R339). -/
def FLV_CFG_CRC_COMMIT (L : Nat) : Fld := ⟨8 * (0x380078 + 0x200 * L) + 0, 1, 0⟩
/-! FLV_LANE_TEST (R339). -/
def FLV_LANE_TEST_PATTERN (l : Nat) : Fld := ⟨8 * (0x384000 + 0x40 * l) + 0, 2, 0⟩
def FLV_LANE_TEST_GEN (l : Nat) : Fld := ⟨8 * (0x384000 + 0x40 * l) + 2, 1, 0⟩
def FLV_LANE_TEST_CHK (l : Nat) : Fld := ⟨8 * (0x384000 + 0x40 * l) + 3, 1, 0⟩
def FLV_LANE_TEST_INJECT (l : Nat) : Fld := ⟨8 * (0x384000 + 0x40 * l) + 4, 1, 0⟩
def FLV_LANE_TEST_INJ_EXP (l : Nat) : Fld := ⟨8 * (0x384000 + 0x40 * l) + 16, 5, 0⟩
/-! FLV_LANE_STATUS (R339). -/
def FLV_LANE_STATUS_DETECTED (l : Nat) : Fld := ⟨8 * (0x384004 + 0x40 * l) + 0, 1, 0⟩
def FLV_LANE_STATUS_BIT_LOCK (l : Nat) : Fld := ⟨8 * (0x384004 + 0x40 * l) + 1, 1, 0⟩
def FLV_LANE_STATUS_BLOCK_LOCK (l : Nat) : Fld := ⟨8 * (0x384004 + 0x40 * l) + 2, 1, 0⟩
def FLV_LANE_STATUS_PRBS_LOCK (l : Nat) : Fld := ⟨8 * (0x384004 + 0x40 * l) + 3, 1, 0⟩
def FLV_LANE_STATUS_PRBS_LOSS (l : Nat) : Fld := ⟨8 * (0x384004 + 0x40 * l) + 8, 1, 0⟩
/-! FLV_PRBS_ERRORS (R339). -/
def FLV_PRBS_ERRORS (l : Nat) : Fld := ⟨8 * (0x384008 + 0x40 * l) + 0, 32, 0⟩
/-! FLV_SYNC_ERRORS (R339). -/
def FLV_SYNC_ERRORS (l : Nat) : Fld := ⟨8 * (0x38400c + 0x40 * l) + 0, 32, 0⟩
/-! FLV_PRBS_BITS (R339). -/
def FLV_PRBS_BITS (l : Nat) : Fld := ⟨8 * (0x384010 + 0x40 * l) + 0, 64, 0⟩
/-! FLV_GCTRL (R339). -/
def FLV_GCTRL_EN : Fld := ⟨29556736, 1, 0⟩
/-! FLV_GSTATUS (R339). -/
def FLV_GSTATUS_TX_DROP : Fld := ⟨29556768, 1, 0⟩
def FLV_GSTATUS_RX_DROP : Fld := ⟨29556769, 1, 0⟩
def FLV_GSTATUS_CFG_WHILE_ENABLED : Fld := ⟨29556770, 1, 0⟩
def FLV_GSTATUS_CFG_INTEGRITY : Fld := ⟨29556771, 1, 0⟩
/-! FLV_TX_DROPS (R339). -/
def FLV_TX_DROPS : Fld := ⟨29556800, 32, 0⟩
/-! FLV_RX_DROPS (R339). -/
def FLV_RX_DROPS : Fld := ⟨29556832, 32, 0⟩
/-! FLV_GCFG_CRC (R339). -/
def FLV_GCFG_CRC : Fld := ⟨29556864, 32, 0⟩
/-! FLV_GCFG_CRC_REF (R339). -/
def FLV_GCFG_CRC_REF : Fld := ⟨29556896, 32, 0⟩
/-! FLV_GCFG_CRC_COMMIT (R339). -/
def FLV_GCFG_CRC_COMMIT : Fld := ⟨29556928, 1, 0⟩
/-! FLV_ROUTE (R339). -/
def FLV_ROUTE_LINK (n : Nat) : Fld := ⟨8 * (0x386100 + 0x4 * n) + 0, 5, 0⟩
def FLV_ROUTE_VALID (n : Nat) : Fld := ⟨8 * (0x386100 + 0x4 * n) + 31, 1, 0⟩
/-! FLV_PROXY_SRC (R339). -/
def FLV_PROXY_SRC_LQUEUE (k : Nat) : Fld := ⟨8 * (0x386200 + 0x4 * k) + 0, 16, 0⟩
/-! FLV_PROXY_DST (R339). -/
def FLV_PROXY_DST_RQUEUE (k : Nat) : Fld := ⟨8 * (0x386300 + 0x4 * k) + 0, 16, 0⟩
def FLV_PROXY_DST_DEV (k : Nat) : Fld := ⟨8 * (0x386300 + 0x4 * k) + 16, 6, 0⟩
def FLV_PROXY_DST_VALID (k : Nat) : Fld := ⟨8 * (0x386300 + 0x4 * k) + 31, 1, 0⟩
/-! NT_CTRL (R353). -/
def NT_CTRL_EN : Fld := ⟨1048576, 1, 0⟩
def NT_CTRL_STEP : Fld := ⟨1048577, 1, 0⟩
def NT_CTRL_LOAD : Fld := ⟨1048578, 1, 0⟩
/-! NT_STATUS (R353). -/
def NT_STATUS_STEP_PENDING : Fld := ⟨1048608, 1, 0⟩
def NT_STATUS_STEP_REFUSED : Fld := ⟨1048616, 1, 0⟩
def NT_STATUS_STEP_BUSY : Fld := ⟨1048617, 1, 0⟩
def NT_STATUS_INC_REFUSED : Fld := ⟨1048618, 1, 0⟩
def NT_STATUS_CFG_WHILE_ENABLED : Fld := ⟨1048619, 1, 0⟩
def NT_STATUS_CFG_INTEGRITY : Fld := ⟨1048620, 1, 0⟩
/-! NT_NOW (R353). -/
def NT_NOW : Fld := ⟨1048640, 64, 0⟩
/-! NT_INC (R353). -/
def NT_INC : Fld := ⟨1048704, 40, 8589934592⟩
/-! NT_STEP (R353). -/
def NT_STEP : Fld := ⟨1048768, 64, 0⟩
/-! NT_STEP_MAX (R353). -/
def NT_STEP_MAX : Fld := ⟨1048832, 32, 1000000⟩
/-! NT_LOAD (R353). -/
def NT_LOAD : Fld := ⟨1048896, 64, 0⟩
/-! NT_WRAPS (R353). -/
def NT_WRAPS : Fld := ⟨1048960, 32, 0⟩
/-! NT_STEPS (R353). -/
def NT_STEPS : Fld := ⟨1048992, 32, 0⟩
/-! NT_REFUSALS (R353). -/
def NT_REFUSALS : Fld := ⟨1049024, 32, 0⟩
/-! NT_CFG_CRC (R353). -/
def NT_CFG_CRC : Fld := ⟨1049216, 32, 0⟩
/-! NT_CFG_CRC_REF (R353). -/
def NT_CFG_CRC_REF : Fld := ⟨1049248, 32, 0⟩
/-! NT_CFG_CRC_COMMIT (R353). -/
def NT_CFG_CRC_COMMIT : Fld := ⟨1049280, 1, 0⟩
/-! ETH_CTRL (R353). -/
def ETH_CTRL_EN (e : Nat) : Fld := ⟨8 * (0x21000 + 0x800 * e) + 0, 1, 0⟩
/-! ETH_CFG (R353). -/
def ETH_CFG_PMD (e : Nat) : Fld := ⟨8 * (0x21004 + 0x800 * e) + 0, 1, 0⟩
def ETH_CFG_AN_EN (e : Nat) : Fld := ⟨8 * (0x21004 + 0x800 * e) + 1, 1, 1⟩
def ETH_CFG_LATE_POLICY (e : Nat) : Fld := ⟨8 * (0x21004 + 0x800 * e) + 2, 1, 0⟩
/-! ETH_STATUS (R353). -/
def ETH_STATUS_LINK (e : Nat) : Fld := ⟨8 * (0x21008 + 0x800 * e) + 0, 1, 0⟩
def ETH_STATUS_FEC_LOCK (e : Nat) : Fld := ⟨8 * (0x21008 + 0x800 * e) + 1, 1, 0⟩
def ETH_STATUS_LATE (e : Nat) : Fld := ⟨8 * (0x21008 + 0x800 * e) + 8, 1, 0⟩
def ETH_STATUS_FCS_ERR (e : Nat) : Fld := ⟨8 * (0x21008 + 0x800 * e) + 9, 1, 0⟩
def ETH_STATUS_PAUSE_RX (e : Nat) : Fld := ⟨8 * (0x21008 + 0x800 * e) + 10, 1, 0⟩
def ETH_STATUS_CFG_WHILE_ENABLED (e : Nat) : Fld := ⟨8 * (0x21008 + 0x800 * e) + 11, 1, 0⟩
def ETH_STATUS_CFG_INTEGRITY (e : Nat) : Fld := ⟨8 * (0x21008 + 0x800 * e) + 12, 1, 0⟩
/-! ETH_TX_LAT (R353). -/
def ETH_TX_LAT (e : Nat) : Fld := ⟨8 * (0x2100c + 0x800 * e) + 0, 16, 0⟩
/-! ETH_RX_LAT (R353). -/
def ETH_RX_LAT (e : Nat) : Fld := ⟨8 * (0x21010 + 0x800 * e) + 0, 16, 0⟩
/-! ETH_TX_FRAMES (R353). -/
def ETH_TX_FRAMES (e : Nat) : Fld := ⟨8 * (0x21020 + 0x800 * e) + 0, 64, 0⟩
/-! ETH_RX_FRAMES (R353). -/
def ETH_RX_FRAMES (e : Nat) : Fld := ⟨8 * (0x21028 + 0x800 * e) + 0, 64, 0⟩
/-! ETH_FCS_ERRORS (R353). -/
def ETH_FCS_ERRORS (e : Nat) : Fld := ⟨8 * (0x21030 + 0x800 * e) + 0, 32, 0⟩
/-! ETH_RX_DROPS (R353). -/
def ETH_RX_DROPS (e : Nat) : Fld := ⟨8 * (0x21034 + 0x800 * e) + 0, 32, 0⟩
/-! ETH_LATE_SENT (R353). -/
def ETH_LATE_SENT (e : Nat) : Fld := ⟨8 * (0x21038 + 0x800 * e) + 0, 32, 0⟩
/-! ETH_LATE_DROPS (R353). -/
def ETH_LATE_DROPS (e : Nat) : Fld := ⟨8 * (0x2103c + 0x800 * e) + 0, 32, 0⟩
/-! ETH_PAUSE_RX (R353). -/
def ETH_PAUSE_RX (e : Nat) : Fld := ⟨8 * (0x21040 + 0x800 * e) + 0, 32, 0⟩
/-! ETH_CFG_CRC (R353). -/
def ETH_CFG_CRC (e : Nat) : Fld := ⟨8 * (0x21060 + 0x800 * e) + 0, 32, 0⟩
/-! ETH_CFG_CRC_REF (R353). -/
def ETH_CFG_CRC_REF (e : Nat) : Fld := ⟨8 * (0x21064 + 0x800 * e) + 0, 32, 0⟩
/-! ETH_CFG_CRC_COMMIT (R353). -/
def ETH_CFG_CRC_COMMIT (e : Nat) : Fld := ⟨8 * (0x21068 + 0x800 * e) + 0, 1, 0⟩
/-! HOST_CTRL (R371). -/
def HOST_CTRL_EN : Fld := ⟨1572864, 1, 0⟩
/-! HOST_CFG (R371). -/
def HOST_CFG_RELAX : Fld := ⟨1572896, 1, 0⟩
def HOST_CFG_MAX_READ : Fld := ⟨1572897, 3, 5⟩
/-! HOST_STATUS (R371). -/
def HOST_STATUS_LINK_UP : Fld := ⟨1572928, 1, 0⟩
def HOST_STATUS_SPEED : Fld := ⟨1572929, 3, 0⟩
def HOST_STATUS_WIDTH : Fld := ⟨1572932, 4, 0⟩
def HOST_STATUS_ACCESS_FAULT : Fld := ⟨1572936, 1, 0⟩
def HOST_STATUS_CFG_WHILE_ENABLED : Fld := ⟨1572937, 1, 0⟩
def HOST_STATUS_CFG_INTEGRITY : Fld := ⟨1572938, 1, 0⟩
/-! HOST_SEC_RID (R371). -/
def HOST_SEC_RID_RID : Fld := ⟨1572960, 16, 0⟩
def HOST_SEC_RID_VALID : Fld := ⟨1572976, 1, 0⟩
/-! HOST_CFG_CRC (R371). -/
def HOST_CFG_CRC : Fld := ⟨1572992, 32, 0⟩
/-! HOST_CFG_CRC_REF (R371). -/
def HOST_CFG_CRC_REF : Fld := ⟨1573024, 32, 0⟩
/-! HOST_CFG_CRC_COMMIT (R371). -/
def HOST_CFG_CRC_COMMIT : Fld := ⟨1573056, 1, 0⟩
/-! HOST_AF_COUNT (R371). -/
def HOST_AF_COUNT : Fld := ⟨1574912, 32, 0⟩
/-! HOST_AF_WR (R371). -/
def HOST_AF_WR : Fld := ⟨1574944, 4, 0⟩
/-! HOST_AF_ADDR (R371). -/
def HOST_AF_ADDR (e : Nat) : Fld := ⟨8 * (0x30200 + 0x10 * e) + 0, 26, 0⟩
/-! HOST_AF_INFO (R371). -/
def HOST_AF_INFO_RID (e : Nat) : Fld := ⟨8 * (0x30204 + 0x10 * e) + 0, 16, 0⟩
def HOST_AF_INFO_FN (e : Nat) : Fld := ⟨8 * (0x30204 + 0x10 * e) + 16, 1, 0⟩
def HOST_AF_INFO_SUP (e : Nat) : Fld := ⟨8 * (0x30204 + 0x10 * e) + 17, 1, 0⟩
def HOST_AF_INFO_WRITE (e : Nat) : Fld := ⟨8 * (0x30204 + 0x10 * e) + 18, 1, 0⟩
def HOST_AF_INFO_BE (e : Nat) : Fld := ⟨8 * (0x30204 + 0x10 * e) + 19, 4, 0⟩
def HOST_AF_INFO_CAUSE (e : Nat) : Fld := ⟨8 * (0x30204 + 0x10 * e) + 24, 4, 0⟩
/-! HOST_AF_DATA (R371). -/
def HOST_AF_DATA (e : Nat) : Fld := ⟨8 * (0x30208 + 0x10 * e) + 0, 32, 0⟩
/-! HOST_AF_TICK (R371). -/
def HOST_AF_TICK (e : Nat) : Fld := ⟨8 * (0x3020c + 0x10 * e) + 0, 32, 0⟩
/-! HOST_EVT_MAP (R371). -/
def HOST_EVT_MAP_VEC (n : Nat) : Fld := ⟨8 * (0x31000 + 0x4 * n) + 0, 7, 0⟩
def HOST_EVT_MAP_MSIX_EN (n : Nat) : Fld := ⟨8 * (0x31000 + 0x4 * n) + 7, 1, 0⟩
def HOST_EVT_MAP_SUP (n : Nat) : Fld := ⟨8 * (0x31000 + 0x4 * n) + 8, 1, 1⟩
/-! GLB_ID (R372). -/
def GLB_ID_VENDOR : Fld := ⟨0, 16, 19979⟩
def GLB_ID_PART : Fld := ⟨16, 16, 598⟩
/-! GLB_REV (R372). -/
def GLB_REV_STEPPING : Fld := ⟨32, 8, 177⟩
def GLB_REV_VARIANT : Fld := ⟨40, 1, 0⟩
/-! GLB_DEVID (R372). -/
def GLB_DEVID_DEV_ID : Fld := ⟨64, 6, 0⟩
/-! GLB_FW (R372). -/
def GLB_FW : Fld := ⟨96, 32, 0⟩
/-! GLB_UID (R372). -/
def GLB_UID : Fld := ⟨128, 64, 0⟩
/-! GLB_STATUS (R372). -/
def GLB_STATUS_READY : Fld := ⟨256, 1, 0⟩
def GLB_STATUS_PART_BUSY : Fld := ⟨264, 1, 0⟩
def GLB_STATUS_FENCED : Fld := ⟨272, 8, 0⟩
/-! GLB_LOCK (R372). -/
def GLB_LOCK_PART_LOCK : Fld := ⟨288, 1, 0⟩
def GLB_LOCK_VEC_LOCK : Fld := ⟨289, 1, 0⟩
/-! GLB_EVT_PEND (R372). -/
def GLB_EVT_PEND (j : Nat) : Fld := ⟨8 * (0x100 + 0x4 * j) + 0, 32, 0⟩
/-! GLB_EVT_EN (R372). -/
def GLB_EVT_EN (j : Nat) : Fld := ⟨8 * (0x200 + 0x4 * j) + 0, 16, 0⟩
/-! MBX_DB (R390). -/
def MBX_DB_RING (m : Nat) : Fld := ⟨8 * (0x4000c + 0x2000 * m) + 0, 1, 0⟩
def MBX_DB_STATE (m : Nat) : Fld := ⟨8 * (0x4000c + 0x2000 * m) + 1, 3, 0⟩
def MBX_DB_SESSION_OPEN (m : Nat) : Fld := ⟨8 * (0x4000c + 0x2000 * m) + 4, 1, 0⟩
def MBX_DB_LOCKOUT (m : Nat) : Fld := ⟨8 * (0x4000c + 0x2000 * m) + 5, 1, 0⟩
def MBX_DB_RING_REFUSED (m : Nat) : Fld := ⟨8 * (0x4000c + 0x2000 * m) + 8, 1, 0⟩
def MBX_DB_LOCK_S (m : Nat) : Fld := ⟨8 * (0x4000c + 0x2000 * m) + 16, 16, 0⟩
/-! EXC_STATUS (R411). -/
def EXC_STATUS_ISLAND_UP : Fld := ⟨5242880, 1, 0⟩
def EXC_STATUS_SEALED : Fld := ⟨5242881, 1, 0⟩
def EXC_STATUS_LEDGER_BREAK : Fld := ⟨5242882, 1, 0⟩
def EXC_STATUS_ENFORCE : Fld := ⟨5242896, 16, 0⟩
/-! EXC_VIEW_TICK (R411). -/
def EXC_VIEW_TICK : Fld := ⟨5242944, 64, 0⟩
/-! EXC_SEAL_BREAKS (R411). -/
def EXC_SEAL_BREAKS : Fld := ⟨5243008, 64, 0⟩
/-! EXC_LOG_INDEX (R411). -/
def EXC_LOG_INDEX : Fld := ⟨5243072, 64, 0⟩
/-! EXC_FEED_EPOCH (R411). -/
def EXC_FEED_EPOCH : Fld := ⟨5243136, 32, 0⟩
/-! EXC_SEAL_ID (R411). -/
def EXC_SEAL_ID (j : Nat) : Fld := ⟨8 * (0xa0040 + 0x4 * j) + 0, 32, 0⟩
/-! EXC_ACC (R411). -/
def EXC_ACC_COUNT (n k : Nat) : Fld := ⟨8 * (0xa1000 + 0x40 * n + 0x8 * k) + 0, 64, 0⟩
/-! MON_CTRL (R431). -/
def MON_CTRL_EN : Fld := ⟨31457280, 1, 0⟩
/-! MON_STATUS (R431). -/
def MON_STATUS_CFG_WHILE_ENABLED : Fld := ⟨31457312, 1, 0⟩
def MON_STATUS_CFG_INTEGRITY : Fld := ⟨31457313, 1, 0⟩
/-! MON_CFG_CRC (R431). -/
def MON_CFG_CRC : Fld := ⟨31457408, 32, 0⟩
/-! MON_CFG_CRC_REF (R431). -/
def MON_CFG_CRC_REF : Fld := ⟨31457440, 32, 0⟩
/-! MON_CFG_CRC_COMMIT (R431). -/
def MON_CFG_CRC_COMMIT : Fld := ⟨31457472, 1, 0⟩
/-! MON_SAR_STATUS (R431). -/
def MON_SAR_STATUS_BUSY (x : Nat) : Fld := ⟨8 * (0x3c1000 + 0x200 * x) + 0, 1, 0⟩
def MON_SAR_STATUS_LATE (x : Nat) : Fld := ⟨8 * (0x3c1000 + 0x200 * x) + 8, 1, 0⟩
def MON_SAR_STATUS_OVERRUN (x : Nat) : Fld := ⟨8 * (0x3c1000 + 0x200 * x) + 9, 1, 0⟩
/-! MON_TDAC (R431). -/
def MON_TDAC_CODE (x : Nat) : Fld := ⟨8 * (0x3c1004 + 0x200 * x) + 0, 10, 512⟩
def MON_TDAC_MODE (x : Nat) : Fld := ⟨8 * (0x3c1004 + 0x200 * x) + 10, 2, 0⟩
def MON_TDAC_TD_INPUT (x : Nat) : Fld := ⟨8 * (0x3c1004 + 0x200 * x) + 12, 6, 0⟩
/-! MON_OVERRUNS (R431). -/
def MON_OVERRUNS (x : Nat) : Fld := ⟨8 * (0x3c1008 + 0x200 * x) + 0, 32, 0⟩
/-! MON_SEQ (R431). -/
def MON_SEQ_INPUT (x j : Nat) : Fld := ⟨8 * (0x3c1040 + 0x200 * x + 0x10 * j) + 0, 6, 0⟩
def MON_SEQ_TRIG (x j : Nat) : Fld := ⟨8 * (0x3c1040 + 0x200 * x + 0x10 * j) + 6, 3, 0⟩
def MON_SEQ_SRC (x j : Nat) : Fld := ⟨8 * (0x3c1040 + 0x200 * x + 0x10 * j) + 9, 10, 0⟩
/-! MON_SEQ_DELAY (R431). -/
def MON_SEQ_DELAY (x j : Nat) : Fld := ⟨8 * (0x3c1044 + 0x200 * x + 0x10 * j) + 0, 32, 0⟩
/-! MON_SEQ_AT (R431). -/
def MON_SEQ_AT (x j : Nat) : Fld := ⟨8 * (0x3c1048 + 0x200 * x + 0x10 * j) + 0, 64, 0⟩
/-! MON_RES (R431). -/
def MON_RES_CODE (x j : Nat) : Fld := ⟨8 * (0x3c1100 + 0x200 * x + 0x10 * j) + 0, 12, 0⟩
def MON_RES_VALID (x j : Nat) : Fld := ⟨8 * (0x3c1100 + 0x200 * x + 0x10 * j) + 12, 1, 0⟩
def MON_RES_LATE (x j : Nat) : Fld := ⟨8 * (0x3c1100 + 0x200 * x + 0x10 * j) + 13, 1, 0⟩
def MON_RES_TEST (x j : Nat) : Fld := ⟨8 * (0x3c1100 + 0x200 * x + 0x10 * j) + 14, 1, 0⟩
/-! MON_RES_TICK (R431). -/
def MON_RES_TICK (x j : Nat) : Fld := ⟨8 * (0x3c1104 + 0x200 * x + 0x10 * j) + 0, 64, 0⟩
/-! BRG_CTRL (R431). -/
def BRG_CTRL_EN (n : Nat) : Fld := ⟨8 * (0x3c3000 + 0x100 * n) + 0, 1, 0⟩
/-! BRG_CFG (R431). -/
def BRG_CFG_GAIN (n : Nat) : Fld := ⟨8 * (0x3c3004 + 0x100 * n) + 0, 2, 0⟩
def BRG_CFG_NOTCH (n : Nat) : Fld := ⟨8 * (0x3c3004 + 0x100 * n) + 2, 2, 3⟩
def BRG_CFG_DEC (n : Nat) : Fld := ⟨8 * (0x3c3004 + 0x100 * n) + 4, 4, 0⟩
def BRG_CFG_I_MIN (n : Nat) : Fld := ⟨8 * (0x3c3004 + 0x100 * n) + 8, 16, 500⟩
/-! BRG_STATUS (R431). -/
def BRG_STATUS_BROKEN (n : Nat) : Fld := ⟨8 * (0x3c3008 + 0x100 * n) + 0, 1, 0⟩
def BRG_STATUS_EXC_FAULT (n : Nat) : Fld := ⟨8 * (0x3c3008 + 0x100 * n) + 1, 1, 0⟩
def BRG_STATUS_WIRE_BREAK (n : Nat) : Fld := ⟨8 * (0x3c3008 + 0x100 * n) + 8, 1, 0⟩
def BRG_STATUS_EXC_OPEN (n : Nat) : Fld := ⟨8 * (0x3c3008 + 0x100 * n) + 9, 1, 0⟩
def BRG_STATUS_EXC_SHORT (n : Nat) : Fld := ⟨8 * (0x3c3008 + 0x100 * n) + 10, 1, 0⟩
def BRG_STATUS_CFG_WHILE_ENABLED (n : Nat) : Fld := ⟨8 * (0x3c3008 + 0x100 * n) + 11, 1, 0⟩
/-! BRG_OUT (R431). -/
def BRG_OUT_Y (n : Nat) : Fld := ⟨8 * (0x3c300c + 0x100 * n) + 0, 24, 0⟩
def BRG_OUT_VALID (n : Nat) : Fld := ⟨8 * (0x3c300c + 0x100 * n) + 24, 1, 0⟩
def BRG_OUT_SUSPECT (n : Nat) : Fld := ⟨8 * (0x3c300c + 0x100 * n) + 25, 1, 0⟩
/-! BRG_OUT_TICK (R431). -/
def BRG_OUT_TICK_STAMP (n : Nat) : Fld := ⟨8 * (0x3c3010 + 0x100 * n) + 0, 64, 0⟩
/-! BRG_EXC_I (R431). -/
def BRG_EXC_I_I_EXC (n : Nat) : Fld := ⟨8 * (0x3c3018 + 0x100 * n) + 0, 16, 0⟩
/-! BRG_BREAKS (R431). -/
def BRG_BREAKS (n : Nat) : Fld := ⟨8 * (0x3c301c + 0x100 * n) + 0, 32, 0⟩
/-! BRG_OVR_COUNT (R431). -/
def BRG_OVR_COUNT (n : Nat) : Fld := ⟨8 * (0x3c3020 + 0x100 * n) + 0, 32, 0⟩
/-! CAL_CTRL (R432). -/
def CAL_CTRL_EN : Fld := ⟨32505856, 1, 0⟩
/-! CAL_STATUS (R432). -/
def CAL_STATUS_CFG_WHILE_ENABLED : Fld := ⟨32505888, 1, 0⟩
def CAL_STATUS_CFG_INTEGRITY : Fld := ⟨32505889, 1, 0⟩
/-! CAL_CFG_CRC (R432). -/
def CAL_CFG_CRC : Fld := ⟨32505984, 32, 0⟩
/-! CAL_CFG_CRC_REF (R432). -/
def CAL_CFG_CRC_REF : Fld := ⟨32506016, 32, 0⟩
/-! CAL_CFG_CRC_COMMIT (R432). -/
def CAL_CFG_CRC_COMMIT : Fld := ⟨32506048, 1, 0⟩
/-! CAL_CFG (R432). -/
def CAL_CFG_CAL_DT (a : Nat) : Fld := ⟨8 * (0x3e1000 + 0x100 * a) + 0, 8, 48⟩
def CAL_CFG_AUTO_T (a : Nat) : Fld := ⟨8 * (0x3e1000 + 0x100 * a) + 8, 1, 1⟩
def CAL_CFG_AUTO_P (a : Nat) : Fld := ⟨8 * (0x3e1000 + 0x100 * a) + 9, 1, 0⟩
/-! CAL_PERIOD (R432). -/
def CAL_PERIOD (a : Nat) : Fld := ⟨8 * (0x3e1004 + 0x100 * a) + 0, 32, 86400⟩
/-! CAL_WAIT (R432). -/
def CAL_WAIT (a : Nat) : Fld := ⟨8 * (0x3e1008 + 0x100 * a) + 0, 16, 500⟩
/-! CAL_STEP_TMO (R432). -/
def CAL_STEP_TMO (a : Nat) : Fld := ⟨8 * (0x3e100c + 0x100 * a) + 0, 16, 500⟩
/-! CAL_STATE (R432). -/
def CAL_STATE_STATE (a : Nat) : Fld := ⟨8 * (0x3e1010 + 0x100 * a) + 0, 2, 0⟩
def CAL_STATE_CAUSE (a : Nat) : Fld := ⟨8 * (0x3e1010 + 0x100 * a) + 2, 3, 0⟩
def CAL_STATE_AGAIN (a : Nat) : Fld := ⟨8 * (0x3e1010 + 0x100 * a) + 5, 1, 0⟩
def CAL_STATE_CAL_STALE (a : Nat) : Fld := ⟨8 * (0x3e1010 + 0x100 * a) + 6, 1, 0⟩
def CAL_STATE_CAL_FAIL (a : Nat) : Fld := ⟨8 * (0x3e1010 + 0x100 * a) + 8, 1, 0⟩
def CAL_STATE_Z_COLLISION (a : Nat) : Fld := ⟨8 * (0x3e1010 + 0x100 * a) + 9, 1, 0⟩
def CAL_STATE_DONE (a : Nat) : Fld := ⟨8 * (0x3e1010 + 0x100 * a) + 10, 1, 0⟩
/-! CAL_COUNT (R432). -/
def CAL_COUNT (a : Nat) : Fld := ⟨8 * (0x3e1014 + 0x100 * a) + 0, 32, 0⟩
/-! CAL_LAST_TL (R432). -/
def CAL_LAST_TL (a : Nat) : Fld := ⟨8 * (0x3e1018 + 0x100 * a) + 0, 64, 0⟩
/-! CAL_LAST_NT (R432). -/
def CAL_LAST_NT (a : Nat) : Fld := ⟨8 * (0x3e1020 + 0x100 * a) + 0, 32, 0⟩
/-! CAL_LAST_WRAPS (R432). -/
def CAL_LAST_WRAPS (a : Nat) : Fld := ⟨8 * (0x3e1024 + 0x100 * a) + 0, 32, 0⟩
/-! CAL_T_REF (R432). -/
def CAL_T_REF (a : Nat) : Fld := ⟨8 * (0x3e1028 + 0x100 * a) + 0, 16, 0⟩
/-! CAL_FAILS (R432). -/
def CAL_FAILS (a : Nat) : Fld := ⟨8 * (0x3e102c + 0x100 * a) + 0, 32, 0⟩
/-! CAL_SKIPS (R432). -/
def CAL_SKIPS (a : Nat) : Fld := ⟨8 * (0x3e1030 + 0x100 * a) + 0, 32, 0⟩
/-! CAL_LAST_FAIL (R432). -/
def CAL_LAST_FAIL_KIND (a : Nat) : Fld := ⟨8 * (0x3e1034 + 0x100 * a) + 0, 2, 0⟩
def CAL_LAST_FAIL_INDEX (a : Nat) : Fld := ⟨8 * (0x3e1034 + 0x100 * a) + 2, 6, 0⟩
def CAL_LAST_FAIL_TIMEOUT (a : Nat) : Fld := ⟨8 * (0x3e1034 + 0x100 * a) + 8, 1, 0⟩
/-! KILN_CTRL (R443). -/
def KILN_CTRL_EN : Fld := ⟨4194304, 1, 0⟩
/-! KILN_CFG (R443). -/
def KILN_CFG_THR_MODE : Fld := ⟨4194336, 1, 0⟩
def KILN_CFG_L_MAX : Fld := ⟨4194337, 3, 4⟩
def KILN_CFG_RATE_ACTION : Fld := ⟨4194340, 2, 1⟩
def KILN_CFG_HYST : Fld := ⟨4194344, 8, 48⟩
def KILN_CFG_STEP_MS : Fld := ⟨4194352, 8, 10⟩
/-! KILN_RATE (R443). -/
def KILN_RATE_RATE_LIMIT : Fld := ⟨4194368, 16, 32⟩
/-! KILN_PROC_MIN (R443). -/
def KILN_PROC_MIN : Fld := ⟨4194400, 16, 0⟩
/-! KILN_STATUS (R443). -/
def KILN_STATUS_LEVEL : Fld := ⟨4194432, 3, 0⟩
def KILN_STATUS_CRIT_ACTIVE : Fld := ⟨4194435, 1, 0⟩
def KILN_STATUS_SHUTDOWN_LATCHED : Fld := ⟨4194436, 1, 0⟩
def KILN_STATUS_CEL_INHIBIT : Fld := ⟨4194437, 1, 1⟩
def KILN_STATUS_OOR : Fld := ⟨4194438, 1, 0⟩
def KILN_STATUS_RUNNING : Fld := ⟨4194439, 1, 0⟩
def KILN_STATUS_WARN : Fld := ⟨4194440, 1, 0⟩
def KILN_STATUS_THROTTLE : Fld := ⟨4194441, 1, 0⟩
def KILN_STATUS_CRIT : Fld := ⟨4194442, 1, 0⟩
def KILN_STATUS_SHUTDOWN : Fld := ⟨4194443, 1, 0⟩
def KILN_STATUS_RATE : Fld := ⟨4194444, 1, 0⟩
def KILN_STATUS_SENSOR_FAULT : Fld := ⟨4194445, 1, 0⟩
def KILN_STATUS_RAIL_FAULT : Fld := ⟨4194446, 1, 0⟩
def KILN_STATUS_PROC_LOW : Fld := ⟨4194447, 1, 0⟩
def KILN_STATUS_CFG_WHILE_ENABLED : Fld := ⟨4194448, 1, 0⟩
def KILN_STATUS_CFG_INTEGRITY : Fld := ⟨4194449, 1, 0⟩
/-! KILN_SKIP (R443). -/
def KILN_SKIP_SKIP (L : Nat) : Fld := ⟨8 * (0x80020 + 0x4 * (L - 1)) + 0, 16, [250, 1000, 4000, 16000].getD (L - 1) 0⟩
def KILN_SKIP_PAUSE (L : Nat) : Fld := ⟨8 * (0x80020 + 0x4 * (L - 1)) + 16, 16, [10, 50, 200, 1000].getD (L - 1) 0⟩
/-! KILN_SKIPPED (R443). -/
def KILN_SKIPPED : Fld := ⟨4194688, 64, 0⟩
/-! KILN_OOR_START (R443). -/
def KILN_OOR_START : Fld := ⟨4194752, 64, 0⟩
/-! KILN_OOR_END (R443). -/
def KILN_OOR_END : Fld := ⟨4194816, 64, 0⟩
/-! KILN_OOR_COUNT (R443). -/
def KILN_OOR_COUNT : Fld := ⟨4194880, 32, 0⟩
/-! KILN_CFG_CRC (R443). -/
def KILN_CFG_CRC : Fld := ⟨4194944, 32, 0⟩
/-! KILN_CFG_CRC_REF (R443). -/
def KILN_CFG_CRC_REF : Fld := ⟨4194976, 32, 0⟩
/-! KILN_CFG_CRC_COMMIT (R443). -/
def KILN_CFG_CRC_COMMIT : Fld := ⟨4195008, 1, 0⟩
/-! KILN_TEMP (R443). -/
def KILN_TEMP_T (n : Nat) : Fld := ⟨8 * (0x80100 + 0x4 * n) + 0, 16, 0⟩
def KILN_TEMP_VALID (n : Nat) : Fld := ⟨8 * (0x80100 + 0x4 * n) + 16, 1, 0⟩
def KILN_TEMP_FAULT (n : Nat) : Fld := ⟨8 * (0x80100 + 0x4 * n) + 17, 1, 0⟩
/-! KILN_TILE_TEMP (R443). -/
def KILN_TILE_TEMP_T (a : Nat) : Fld := ⟨8 * (0x80200 + 0x4 * a) + 0, 16, 0⟩
def KILN_TILE_TEMP_VALID (a : Nat) : Fld := ⟨8 * (0x80200 + 0x4 * a) + 16, 1, 0⟩
def KILN_TILE_TEMP_FAULT (a : Nat) : Fld := ⟨8 * (0x80200 + 0x4 * a) + 17, 1, 0⟩
/-! KILN_THR (R443). -/
def KILN_THR_WARN (n : Nat) : Fld := ⟨8 * (0x80300 + 0x8 * n) + 0, 16, 1520⟩
def KILN_THR_THROTTLE (n : Nat) : Fld := ⟨8 * (0x80300 + 0x8 * n) + 16, 16, 1600⟩
def KILN_THR_CRIT (n : Nat) : Fld := ⟨8 * (0x80300 + 0x8 * n) + 32, 16, 1760⟩
def KILN_THR_SHUTDOWN (n : Nat) : Fld := ⟨8 * (0x80300 + 0x8 * n) + 48, 16, 2000⟩
/-! KILN_RAIL (R443). -/
def KILN_RAIL_MV (r : Nat) : Fld := ⟨8 * (0x80600 + 0x8 * r) + 0, 16, 0⟩
def KILN_RAIL_OUT (r : Nat) : Fld := ⟨8 * (0x80600 + 0x8 * r) + 16, 1, 0⟩
/-! KILN_RAIL_LIM (R443). -/
def KILN_RAIL_LIM_LO (r : Nat) : Fld := ⟨8 * (0x80604 + 0x8 * r) + 0, 16, (railLimits r).1⟩
def KILN_RAIL_LIM_HI (r : Nat) : Fld := ⟨8 * (0x80604 + 0x8 * r) + 16, 16, (railLimits r).2⟩
/-! KILN_PROC (R443). -/
def KILN_PROC_MHZ (k : Nat) : Fld := ⟨8 * (0x80700 + 0x4 * k) + 0, 16, 0⟩
def KILN_PROC_LOW (k : Nat) : Fld := ⟨8 * (0x80700 + 0x4 * k) + 16, 1, 0⟩
/-! SEC_STATUS (R465). -/
def SEC_STATUS_LIFECYCLE : Fld := ⟨4718592, 2, 0⟩
def SEC_STATUS_DEBUG_OPEN : Fld := ⟨4718594, 1, 0⟩
def SEC_STATUS_OWNER_ROOT_SET : Fld := ⟨4718595, 1, 0⟩
def SEC_STATUS_BOOT_SLOT : Fld := ⟨4718596, 1, 0⟩
def SEC_STATUS_EXC_VERIFIED : Fld := ⟨4718597, 1, 0⟩
def SEC_STATUS_FALLBACK : Fld := ⟨4718600, 1, 0⟩
def SEC_STATUS_KEY_CHANGE : Fld := ⟨4718601, 1, 0⟩
def SEC_STATUS_EXC_IMAGE_BAD : Fld := ⟨4718602, 1, 0⟩
/-! SEC_FW_MIN (R465). -/
def SEC_FW_MIN : Fld := ⟨4718624, 32, 0⟩
/-! SEC_DEBUG_COUNT (R465). -/
def SEC_DEBUG_COUNT : Fld := ⟨4718656, 32, 0⟩
/-! SEC_OWNER_ROOT (R465). -/
def SEC_OWNER_ROOT (j : Nat) : Fld := ⟨8 * (0x90040 + 0x4 * j) + 0, 32, 0⟩
/-! SEC_SLOT (R465). -/
def SEC_SLOT_VALID (k : Nat) : Fld := ⟨8 * (0x90100 + 0x4 * k) + 0, 1, 0⟩
def SEC_SLOT_USAGE (k : Nat) : Fld := ⟨8 * (0x90100 + 0x4 * k) + 1, 6, 0⟩
/-! SEC_SLOT_ID (R465). -/
def SEC_SLOT_ID (k j : Nat) : Fld := ⟨8 * (0x90200 + 0x40 * k + 0x4 * j) + 0, 32, 0⟩
/-! CEL_STATUS (R466). -/
def CEL_STATUS_BUSY : Fld := ⟨5767168, 1, 0⟩
def CEL_STATUS_INHIBIT : Fld := ⟨5767169, 1, 1⟩
def CEL_STATUS_ECC_CORR : Fld := ⟨5767176, 1, 0⟩
def CEL_STATUS_ECC_UNCORR : Fld := ⟨5767177, 1, 0⟩
def CEL_STATUS_WRITE_FAIL : Fld := ⟨5767178, 1, 0⟩
def CEL_STATUS_PARK_BAD : Fld := ⟨5767179, 1, 0⟩
/-! CEL_QUEUED (R466). -/
def CEL_QUEUED : Fld := ⟨5767200, 8, 0⟩
/-! CEL_ECC_CORR (R466). -/
def CEL_ECC_CORR : Fld := ⟨5767296, 32, 0⟩
/-! CEL_ECC_UNCORR (R466). -/
def CEL_ECC_UNCORR : Fld := ⟨5767328, 32, 0⟩
/-! CEL_ERR_ADDR (R466). -/
def CEL_ERR_ADDR : Fld := ⟨5767360, 26, 0⟩
/-! CEL_WRITES (R466). -/
def CEL_WRITES : Fld := ⟨5767424, 64, 0⟩
/-! CEL_PARK_SEQ (R466). -/
def CEL_PARK_SEQ : Fld := ⟨5767488, 32, 0⟩
/-! GLB_PART_TUN (R372). -/
def GLB_PART_TUN (j : Nat) : Fld := ⟨8 * (0x1000 + 0x4 * j) + 0, 32, 0⟩
/-! GLB_PART_RFO (R372). -/
def GLB_PART_RFO (j : Nat) : Fld := ⟨8 * (0x1100 + 0x4 * j) + 0, 32, 0⟩
/-! GLB_PART_ZP (R372). -/
def GLB_PART_ZP (j : Nat) : Fld := ⟨8 * (0x1200 + 0x4 * j) + 0, 32, 0⟩
/-! GLB_PART_LAU (R372). -/
def GLB_PART_LAU (j : Nat) : Fld := ⟨8 * (0x1400 + 0x4 * j) + 0, 32, 0⟩
/-! GLB_PART_TAP (R372). -/
def GLB_PART_TAP (j : Nat) : Fld := ⟨8 * (0x1600 + 0x4 * j) + 0, 32, 0⟩
/-! GLB_PART_FRM (R372). -/
def GLB_PART_FRM (j : Nat) : Fld := ⟨8 * (0x1700 + 0x4 * j) + 0, 32, 0⟩
/-! GLB_PART_BAR (R372). -/
def GLB_PART_BAR (j : Nat) : Fld := ⟨8 * (0x1800 + 0x4 * j) + 0, 32, 0⟩

/-- The registers of the register tables, by name. -/
inductive Reg where
  | TL_CTRL
  | TL_CFG
  | TL_STATUS
  | TL_NOW
  | TL_LOAD_VALUE
  | TL_SYNC_AT
  | TL_ECHO_MASK
  | TL_DELAY
  | TL_SYNC_ERR
  | TL_STEP_COUNT
  | TL_ECHO_RESULT
  | TL_PAIR_SEQ
  | TL_PAIR_TL
  | TL_PAIR_NT
  | TL_PAIR_NTF
  | TL_PIN_CFG
  | TL_PIN_AT
  | TL_PIN_STAMP
  | TL_PIN_FIFO
  | TL_PIN_POP
  | TL_CA_CFG
  | TL_CA_PPR
  | TL_CA_TOL
  | TL_CA_ALIGN_TIMEOUT
  | TL_CA_WIN
  | TL_CA_STATUS
  | TL_CA_ANGLE
  | TL_CA_PERIOD
  | TL_CA_LAST_IDX
  | TL_CA_LAST_ERR
  | TL_CA_INDEX_COUNT
  | TL_CA_MISS_COUNT
  | TUN_CTRL
  | TUN_STATUS
  | RCP_VERSION
  | RCP_PATCH
  | TUN_CFG_CRC
  | TUN_CFG_CRC_REF
  | TUN_CFG_CRC_COMMIT
  | SEQ_CTRL
  | SEQ_STATUS
  | SEQ_FAULT
  | SEQ_PC
  | SEQ_CURSOR
  | SEQ_SLACK
  | SEQ_SLACK_MIN
  | SEQ_START_AT
  | SEQ_START_LEAD
  | SEQ_RESUME_PC
  | SEQ_SHOT
  | SEQ_ABORT_INFO
  | SEQ_TAU_STALLS
  | SEQ_MISS_COUNT
  | SEQ_GREG
  | SEQ_TEQ_BIND
  | SEQ_TEQ_STATUS
  | QM_CTRL
  | QM_STATUS
  | QM_POOL_FREE
  | QM_POOL_ALLOC
  | QM_CFG_CRC
  | QM_CFG_CRC_REF
  | QM_CFG_CRC_COMMIT
  | QM_SEL
  | QM_Q_CFG
  | QM_Q_CTRL
  | QM_Q_STATUS
  | QM_Q_DROPS
  | QM_PART_QUOTA
  | QM_PART_USED
  | QM_BAR_CFG
  | QM_BAR_STATUS
  | QM_BAR_MAX
  | WFT_CTRL
  | WFT_CFG
  | WFT_STATUS
  | WFT_SWAP_AT
  | WFT_SWAP_MASK
  | WFT_BANK
  | WFT_SWAP_COUNT
  | WFT_DESC_FAULTS
  | WFT_SLOT_DROPS
  | WFT_ALIAS_COUNT
  | WFT_SAT_COUNT
  | WFT_LIMIT_COUNT
  | WFT_LAST_FAULT
  | WFT_LAST_DESC
  | WFT_LAST_TICK
  | WFT_CFG_CRC
  | WFT_CFG_CRC_REF
  | WFT_CFG_CRC_COMMIT
  | RFO_CTRL
  | RFO_CFG
  | RFO_STATUS
  | RFO_PARK
  | RFO_EN_TICK
  | RFO_DISCARD_TICKS
  | RFO_SHAPER_RESETS
  | RFO_CAL_EPOCH
  | RFO_CELL_SEL
  | RFO_CELL_BAD
  | RFO_DELAY_RES
  | RFO_CFG_CRC
  | RFO_CFG_CRC_REF
  | RFO_CFG_CRC_COMMIT
  | RFO_TILE_PENDING
  | ZP_CTRL
  | ZP_CFG
  | ZP_STATUS
  | ZP_PARK
  | ZB_CODE
  | ZP_STREAM_Q
  | ZP_STREAM_AT
  | ZF_CLIP_COUNT
  | ZF_DISCARD_TICKS
  | ZB_DISCARDS
  | ZB_UNDERRUNS
  | ZB_DEFERRALS
  | RB_MISMATCHES
  | RB_SKIPS
  | ZP_RB_LAST
  | ZP_PARK_VAL
  | ZP_PARK_SLEW
  | ZP_CFG_CRC
  | ZP_CFG_CRC_REF
  | ZP_CFG_CRC_COMMIT
  | ZF_IIR_ALPHA
  | ZF_IIR_A
  | ZF_FIR
  | ZP_TILE_PENDING
  | ZP_RB_CFG
  | RFI_CTRL
  | RFI_CFG
  | RFI_STATUS
  | RFI_KSWAP_AT
  | RFI_KSWAP_MASK
  | RFI_KBANK
  | RFI_KSWAP_COUNT
  | RFI_OVR_COUNT
  | RFI_CAL_EPOCH
  | RFI_SLICE_SEL
  | RFI_SLICE_BAD
  | RFI_LAU_PENDING
  | RFI_CFG_CRC
  | RFI_CFG_CRC_REF
  | RFI_CFG_CRC_COMMIT
  | LAU_CTRL
  | LAU_CFG
  | LAU_FRAMES
  | LAU_STATUS
  | LAU_GEN
  | LAU_MEAS_COUNT
  | LAU_INVALID_COUNT
  | LAU_LOWCONF_COUNT
  | LAU_LEAK_COUNT
  | LAU_LAST_I
  | LAU_LAST_Q
  | LAU_LAST_END
  | LAU_CFG_CRC
  | LAU_CFG_CRC_REF
  | LAU_CFG_CRC_COMMIT
  | DEC_CTRL
  | DEC_STATUS
  | DEC_LATE_COUNT
  | DEC_FWD_DROPS
  | DEC_REMOTE_RX
  | DEC_HOST_FLAGS
  | DEC_CFG_CRC
  | DEC_CFG_CRC_REF
  | DEC_CFG_CRC_COMMIT
  | DEC_FWD
  | DEC_WIN_CTRL
  | DEC_WIN_CFG
  | DEC_WIN_BASE
  | DEC_WIN_TMO
  | DEC_WIN_GROUP
  | DEC_WIN_PFRAME
  | DEC_WIN_STATUS
  | DEC_CODE
  | DEC_WIN_ROUNDS
  | DEC_WIN_FAILS
  | DEC_WIN_LAST
  | DEC_GATHER
  | ANA_CTRL
  | ANA_CFG
  | ANA_STATUS
  | ANA_FAULT
  | ANA_PC
  | ANA_HOST_VAL
  | ANA_CYCLES
  | ANA_IN_CFG
  | ANA_IN_BUF
  | ANA_IN_WP
  | ANA_IN_RP
  | ANA_OUT_CFG
  | ANA_OUT_STALLS
  | ANA_IN_SKIPS
  | ANA_CFG_CRC
  | ANA_CFG_CRC_REF
  | ANA_CFG_CRC_COMMIT
  | TAP_CTRL
  | TAP_CFG
  | TAP_LEN
  | TAP_PRE
  | TAP_CH_MASK
  | TAP_MEAS_MASK
  | TAP_QUEUE
  | TAP_REGION_BASE
  | TAP_REGION_SIZE
  | TAP_STATUS
  | TAP_SEEN
  | TAP_CAPTURED
  | TAP_MISSED
  | TAP_SEG_DONE
  | TAP_ACQ_COUNT
  | TAP_MISS_WR
  | TAP_MISS_LOG
  | TAP_MISS_INFO
  | TAP_CFG_CRC
  | TAP_CFG_CRC_REF
  | TAP_CFG_CRC_COMMIT
  | FLV_CTRL
  | FLV_CFG
  | FLV_CFG2
  | FLV_STATUS
  | FLV_CREDIT
  | FLV_FLITS_SENT
  | FLV_FLITS_CONSUMED
  | FLV_CREDITS_RETURNED
  | FLV_CREDITS_BACK
  | FLV_CREDITS_RESTORED
  | FLV_CRC_ERRORS
  | FLV_SEQ_GAPS
  | FLV_RETRAINS
  | FLV_TRAIN_FAILS
  | FLV_FLUSHED
  | FLV_IDLE_EXITS
  | FLV_LAT_RT
  | FLV_LAT_1W_LAST
  | FLV_LAT_1W_MIN
  | FLV_LAT_1W_MAX
  | FLV_CFG_CRC
  | FLV_CFG_CRC_REF
  | FLV_CFG_CRC_COMMIT
  | FLV_LANE_TEST
  | FLV_LANE_STATUS
  | FLV_PRBS_ERRORS
  | FLV_SYNC_ERRORS
  | FLV_PRBS_BITS
  | FLV_GCTRL
  | FLV_GSTATUS
  | FLV_TX_DROPS
  | FLV_RX_DROPS
  | FLV_GCFG_CRC
  | FLV_GCFG_CRC_REF
  | FLV_GCFG_CRC_COMMIT
  | FLV_ROUTE
  | FLV_PROXY_SRC
  | FLV_PROXY_DST
  | NT_CTRL
  | NT_STATUS
  | NT_NOW
  | NT_INC
  | NT_STEP
  | NT_STEP_MAX
  | NT_LOAD
  | NT_WRAPS
  | NT_STEPS
  | NT_REFUSALS
  | NT_CFG_CRC
  | NT_CFG_CRC_REF
  | NT_CFG_CRC_COMMIT
  | ETH_CTRL
  | ETH_CFG
  | ETH_STATUS
  | ETH_TX_LAT
  | ETH_RX_LAT
  | ETH_TX_FRAMES
  | ETH_RX_FRAMES
  | ETH_FCS_ERRORS
  | ETH_RX_DROPS
  | ETH_LATE_SENT
  | ETH_LATE_DROPS
  | ETH_PAUSE_RX
  | ETH_CFG_CRC
  | ETH_CFG_CRC_REF
  | ETH_CFG_CRC_COMMIT
  | HOST_CTRL
  | HOST_CFG
  | HOST_STATUS
  | HOST_SEC_RID
  | HOST_CFG_CRC
  | HOST_CFG_CRC_REF
  | HOST_CFG_CRC_COMMIT
  | HOST_AF_COUNT
  | HOST_AF_WR
  | HOST_AF_ADDR
  | HOST_AF_INFO
  | HOST_AF_DATA
  | HOST_AF_TICK
  | HOST_EVT_MAP
  | GLB_ID
  | GLB_REV
  | GLB_DEVID
  | GLB_FW
  | GLB_UID
  | GLB_STATUS
  | GLB_LOCK
  | GLB_EVT_PEND
  | GLB_EVT_EN
  | MBX_DB
  | EXC_STATUS
  | EXC_VIEW_TICK
  | EXC_SEAL_BREAKS
  | EXC_LOG_INDEX
  | EXC_FEED_EPOCH
  | EXC_SEAL_ID
  | EXC_ACC
  | MON_CTRL
  | MON_STATUS
  | MON_CFG_CRC
  | MON_CFG_CRC_REF
  | MON_CFG_CRC_COMMIT
  | MON_SAR_STATUS
  | MON_TDAC
  | MON_OVERRUNS
  | MON_SEQ
  | MON_SEQ_DELAY
  | MON_SEQ_AT
  | MON_RES
  | MON_RES_TICK
  | BRG_CTRL
  | BRG_CFG
  | BRG_STATUS
  | BRG_OUT
  | BRG_OUT_TICK
  | BRG_EXC_I
  | BRG_BREAKS
  | BRG_OVR_COUNT
  | CAL_CTRL
  | CAL_STATUS
  | CAL_CFG_CRC
  | CAL_CFG_CRC_REF
  | CAL_CFG_CRC_COMMIT
  | CAL_CFG
  | CAL_PERIOD
  | CAL_WAIT
  | CAL_STEP_TMO
  | CAL_STATE
  | CAL_COUNT
  | CAL_LAST_TL
  | CAL_LAST_NT
  | CAL_LAST_WRAPS
  | CAL_T_REF
  | CAL_FAILS
  | CAL_SKIPS
  | CAL_LAST_FAIL
  | KILN_CTRL
  | KILN_CFG
  | KILN_RATE
  | KILN_PROC_MIN
  | KILN_STATUS
  | KILN_SKIP
  | KILN_SKIPPED
  | KILN_OOR_START
  | KILN_OOR_END
  | KILN_OOR_COUNT
  | KILN_CFG_CRC
  | KILN_CFG_CRC_REF
  | KILN_CFG_CRC_COMMIT
  | KILN_TEMP
  | KILN_TILE_TEMP
  | KILN_THR
  | KILN_RAIL
  | KILN_RAIL_LIM
  | KILN_PROC
  | SEC_STATUS
  | SEC_FW_MIN
  | SEC_DEBUG_COUNT
  | SEC_OWNER_ROOT
  | SEC_SLOT
  | SEC_SLOT_ID
  | CEL_STATUS
  | CEL_QUEUED
  | CEL_ECC_CORR
  | CEL_ECC_UNCORR
  | CEL_ERR_ADDR
  | CEL_WRITES
  | CEL_PARK_SEQ
  | GLB_PART_TUN
  | GLB_PART_RFO
  | GLB_PART_ZP
  | GLB_PART_LAU
  | GLB_PART_TAP
  | GLB_PART_FRM
  | GLB_PART_BAR
deriving DecidableEq, Repr

/-- One row of the register map: the register, its base offset, its index strides and counts (outermost first), how many
dwords one instance takes, and the number of its first index. -/
structure RegRow where
  reg    : Reg
  base   : Nat
  dims   : List (Nat × Nat)
  dwords : Nat
  first  : Nat := 0
deriving DecidableEq, Repr

/-- Registers of chapter 02, part 0. -/
def regRows02_0 : List RegRow :=
  [ ⟨.TL_CTRL, 0x10000, [], 1, 0⟩
  , ⟨.TL_CFG, 0x10004, [], 1, 0⟩
  , ⟨.TL_STATUS, 0x10008, [], 1, 0⟩
  , ⟨.TL_NOW, 0x10010, [], 2, 0⟩
  , ⟨.TL_LOAD_VALUE, 0x10018, [], 2, 0⟩
  , ⟨.TL_SYNC_AT, 0x10020, [], 2, 0⟩
  , ⟨.TL_ECHO_MASK, 0x10038, [], 2, 0⟩
  , ⟨.TL_DELAY, 0x10028, [], 1, 0⟩
  , ⟨.TL_SYNC_ERR, 0x1002c, [], 1, 0⟩
  , ⟨.TL_STEP_COUNT, 0x10030, [], 1, 0⟩
  , ⟨.TL_ECHO_RESULT, 0x10100, [(0x4, 64)], 1, 0⟩
  , ⟨.TL_PAIR_SEQ, 0x10200, [], 1, 0⟩
  , ⟨.TL_PAIR_TL, 0x10204, [], 2, 0⟩
  , ⟨.TL_PAIR_NT, 0x1020c, [], 1, 0⟩
  , ⟨.TL_PAIR_NTF, 0x10210, [], 1, 0⟩
  , ⟨.TL_PIN_CFG, 0x10400, [(0x4, 22)], 1, 0⟩
  , ⟨.TL_PIN_AT, 0x10500, [(0x8, 22)], 2, 0⟩
  , ⟨.TL_PIN_STAMP, 0x10600, [(0x8, 22)], 2, 0⟩
  , ⟨.TL_PIN_FIFO, 0x10700, [(0x4, 22)], 1, 0⟩
  , ⟨.TL_PIN_POP, 0x10780, [], 1, 0⟩
  , ⟨.TL_CA_CFG, 0x10800, [], 1, 0⟩
  , ⟨.TL_CA_PPR, 0x10804, [], 1, 0⟩
  , ⟨.TL_CA_TOL, 0x10808, [], 1, 0⟩
  , ⟨.TL_CA_ALIGN_TIMEOUT, 0x10834, [], 1, 0⟩
  , ⟨.TL_CA_WIN, 0x10840, [(0x4, 8)], 1, 0⟩
  , ⟨.TL_CA_STATUS, 0x1080c, [], 1, 0⟩
  , ⟨.TL_CA_ANGLE, 0x10810, [], 1, 0⟩
  , ⟨.TL_CA_PERIOD, 0x10818, [], 2, 0⟩
  , ⟨.TL_CA_LAST_IDX, 0x10820, [], 2, 0⟩
  , ⟨.TL_CA_LAST_ERR, 0x10828, [], 1, 0⟩ ]

/-- Registers of chapter 02, part 1. -/
def regRows02_1 : List RegRow :=
  [ ⟨.TL_CA_INDEX_COUNT, 0x1082c, [], 1, 0⟩
  , ⟨.TL_CA_MISS_COUNT, 0x10830, [], 1, 0⟩ ]

/-- Registers of chapter 03, part 0. -/
def regRows03_0 : List RegRow :=
  [ ⟨.TUN_CTRL, 0x100000, [(0x4000, 64)], 1, 0⟩
  , ⟨.TUN_STATUS, 0x100004, [(0x4000, 64)], 1, 0⟩
  , ⟨.RCP_VERSION, 0x100010, [(0x4000, 64)], 1, 0⟩
  , ⟨.RCP_PATCH, 0x100018, [(0x4000, 64)], 2, 0⟩
  , ⟨.TUN_CFG_CRC, 0x100020, [(0x4000, 64)], 1, 0⟩
  , ⟨.TUN_CFG_CRC_REF, 0x100024, [(0x4000, 64)], 1, 0⟩
  , ⟨.TUN_CFG_CRC_COMMIT, 0x100028, [(0x4000, 64)], 1, 0⟩
  , ⟨.SEQ_CTRL, 0x101000, [(0x4000, 64), (0x400, 8)], 1, 0⟩
  , ⟨.SEQ_STATUS, 0x101004, [(0x4000, 64), (0x400, 8)], 1, 0⟩
  , ⟨.SEQ_FAULT, 0x101008, [(0x4000, 64), (0x400, 8)], 1, 0⟩
  , ⟨.SEQ_PC, 0x10100c, [(0x4000, 64), (0x400, 8)], 1, 0⟩
  , ⟨.SEQ_CURSOR, 0x101010, [(0x4000, 64), (0x400, 8)], 2, 0⟩
  , ⟨.SEQ_SLACK, 0x101018, [(0x4000, 64), (0x400, 8)], 1, 0⟩
  , ⟨.SEQ_SLACK_MIN, 0x10101c, [(0x4000, 64), (0x400, 8)], 1, 0⟩
  , ⟨.SEQ_START_AT, 0x101020, [(0x4000, 64), (0x400, 8)], 2, 0⟩
  , ⟨.SEQ_START_LEAD, 0x101028, [(0x4000, 64), (0x400, 8)], 1, 0⟩
  , ⟨.SEQ_RESUME_PC, 0x10102c, [(0x4000, 64), (0x400, 8)], 1, 0⟩
  , ⟨.SEQ_SHOT, 0x101030, [(0x4000, 64), (0x400, 8)], 2, 0⟩
  , ⟨.SEQ_ABORT_INFO, 0x101038, [(0x4000, 64), (0x400, 8)], 2, 0⟩
  , ⟨.SEQ_TAU_STALLS, 0x101040, [(0x4000, 64), (0x400, 8)], 1, 0⟩
  , ⟨.SEQ_MISS_COUNT, 0x101044, [(0x4000, 64), (0x400, 8)], 1, 0⟩
  , ⟨.SEQ_GREG, 0x101080, [(0x4000, 64), (0x400, 8), (0x4, 16)], 1, 0⟩
  , ⟨.SEQ_TEQ_BIND, 0x101100, [(0x4000, 64), (0x400, 8), (0x8, 32)], 2, 0⟩
  , ⟨.SEQ_TEQ_STATUS, 0x101200, [(0x4000, 64), (0x400, 8), (0x4, 32)], 1, 0⟩
  , ⟨.QM_CTRL, 0x3a0000, [], 1, 0⟩
  , ⟨.QM_STATUS, 0x3a0004, [], 1, 0⟩
  , ⟨.QM_POOL_FREE, 0x3a0010, [], 1, 0⟩
  , ⟨.QM_POOL_ALLOC, 0x3a0014, [], 1, 0⟩
  , ⟨.QM_CFG_CRC, 0x3a0020, [], 1, 0⟩
  , ⟨.QM_CFG_CRC_REF, 0x3a0024, [], 1, 0⟩ ]

/-- Registers of chapter 03, part 1. -/
def regRows03_1 : List RegRow :=
  [ ⟨.QM_CFG_CRC_COMMIT, 0x3a0028, [], 1, 0⟩
  , ⟨.QM_SEL, 0x3a0100, [], 1, 0⟩
  , ⟨.QM_Q_CFG, 0x3a0104, [], 1, 0⟩
  , ⟨.QM_Q_CTRL, 0x3a0108, [], 1, 0⟩
  , ⟨.QM_Q_STATUS, 0x3a010c, [], 1, 0⟩
  , ⟨.QM_Q_DROPS, 0x3a0110, [], 2, 0⟩
  , ⟨.QM_PART_QUOTA, 0x3a0200, [(0x4, 16)], 1, 0⟩
  , ⟨.QM_PART_USED, 0x3a0240, [(0x4, 16)], 1, 0⟩
  , ⟨.QM_BAR_CFG, 0x3a8000, [(0x10, 256)], 1, 0⟩
  , ⟨.QM_BAR_STATUS, 0x3a8004, [(0x10, 256)], 1, 0⟩
  , ⟨.QM_BAR_MAX, 0x3a8008, [(0x10, 256)], 2, 0⟩ ]

/-- Registers of chapter 06, part 0. -/
def regRows06_0 : List RegRow :=
  [ ⟨.WFT_CTRL, 0x1500000, [], 1, 0⟩
  , ⟨.WFT_CFG, 0x1500004, [], 1, 0⟩
  , ⟨.WFT_STATUS, 0x1500008, [], 1, 0⟩
  , ⟨.WFT_SWAP_AT, 0x1500010, [], 2, 0⟩
  , ⟨.WFT_SWAP_MASK, 0x1500018, [], 2, 0⟩
  , ⟨.WFT_BANK, 0x1500020, [], 2, 0⟩
  , ⟨.WFT_SWAP_COUNT, 0x1500028, [], 1, 0⟩
  , ⟨.WFT_DESC_FAULTS, 0x1500030, [], 1, 0⟩
  , ⟨.WFT_SLOT_DROPS, 0x1500034, [], 1, 0⟩
  , ⟨.WFT_ALIAS_COUNT, 0x1500038, [], 1, 0⟩
  , ⟨.WFT_SAT_COUNT, 0x150003c, [], 1, 0⟩
  , ⟨.WFT_LIMIT_COUNT, 0x1500040, [], 1, 0⟩
  , ⟨.WFT_LAST_FAULT, 0x1500050, [], 1, 0⟩
  , ⟨.WFT_LAST_DESC, 0x1500054, [], 1, 0⟩
  , ⟨.WFT_LAST_TICK, 0x1500058, [], 2, 0⟩
  , ⟨.WFT_CFG_CRC, 0x1500060, [], 1, 0⟩
  , ⟨.WFT_CFG_CRC_REF, 0x1500064, [], 1, 0⟩
  , ⟨.WFT_CFG_CRC_COMMIT, 0x1500068, [], 1, 0⟩ ]

/-- Registers of chapter 07, part 0. -/
def regRows07_0 : List RegRow :=
  [ ⟨.RFO_CTRL, 0x200000, [(0x400, 288)], 1, 0⟩
  , ⟨.RFO_CFG, 0x200004, [(0x400, 288)], 1, 0⟩
  , ⟨.RFO_STATUS, 0x200008, [(0x400, 288)], 1, 0⟩
  , ⟨.RFO_PARK, 0x20000c, [(0x400, 288)], 1, 0⟩
  , ⟨.RFO_EN_TICK, 0x200010, [(0x400, 288)], 2, 0⟩
  , ⟨.RFO_DISCARD_TICKS, 0x200018, [(0x400, 288)], 1, 0⟩
  , ⟨.RFO_SHAPER_RESETS, 0x20001c, [(0x400, 288)], 1, 0⟩
  , ⟨.RFO_CAL_EPOCH, 0x200020, [(0x400, 288)], 1, 0⟩
  , ⟨.RFO_CELL_SEL, 0x200024, [(0x400, 288)], 3, 0⟩
  , ⟨.RFO_CELL_BAD, 0x200030, [(0x400, 288)], 3, 0⟩
  , ⟨.RFO_DELAY_RES, 0x200040, [(0x400, 288)], 1, 0⟩
  , ⟨.RFO_CFG_CRC, 0x200050, [(0x400, 288)], 1, 0⟩
  , ⟨.RFO_CFG_CRC_REF, 0x200054, [(0x400, 288)], 1, 0⟩
  , ⟨.RFO_CFG_CRC_COMMIT, 0x200058, [(0x400, 288)], 1, 0⟩
  , ⟨.RFO_TILE_PENDING, 0x248000, [(0x10, 8)], 2, 0⟩ ]

/-- Registers of chapter 08, part 0. -/
def regRows08_0 : List RegRow :=
  [ ⟨.ZP_CTRL, 0x280000, [(0x100, 768)], 1, 0⟩
  , ⟨.ZP_CFG, 0x280004, [(0x100, 768)], 1, 0⟩
  , ⟨.ZP_STATUS, 0x280008, [(0x100, 768)], 1, 0⟩
  , ⟨.ZP_PARK, 0x28000c, [(0x100, 768)], 1, 0⟩
  , ⟨.ZB_CODE, 0x280010, [(0x100, 768)], 1, 0⟩
  , ⟨.ZP_STREAM_Q, 0x280014, [(0x100, 768)], 1, 0⟩
  , ⟨.ZP_STREAM_AT, 0x280018, [(0x100, 768)], 2, 0⟩
  , ⟨.ZF_CLIP_COUNT, 0x280020, [(0x100, 768)], 1, 0⟩
  , ⟨.ZF_DISCARD_TICKS, 0x280024, [(0x100, 768)], 1, 0⟩
  , ⟨.ZB_DISCARDS, 0x280028, [(0x100, 768)], 1, 0⟩
  , ⟨.ZB_UNDERRUNS, 0x28002c, [(0x100, 768)], 1, 0⟩
  , ⟨.ZB_DEFERRALS, 0x280030, [(0x100, 768)], 1, 0⟩
  , ⟨.RB_MISMATCHES, 0x280034, [(0x100, 768)], 1, 0⟩
  , ⟨.RB_SKIPS, 0x280038, [(0x100, 768)], 1, 0⟩
  , ⟨.ZP_RB_LAST, 0x28003c, [(0x100, 768)], 1, 0⟩
  , ⟨.ZP_PARK_VAL, 0x280040, [(0x100, 768)], 1, 0⟩
  , ⟨.ZP_PARK_SLEW, 0x280044, [(0x100, 768)], 1, 0⟩
  , ⟨.ZP_CFG_CRC, 0x280048, [(0x100, 768)], 1, 0⟩
  , ⟨.ZP_CFG_CRC_REF, 0x28004c, [(0x100, 768)], 1, 0⟩
  , ⟨.ZP_CFG_CRC_COMMIT, 0x280050, [(0x100, 768)], 1, 0⟩
  , ⟨.ZF_IIR_ALPHA, 0x280060, [(0x100, 768), (0x8, 4)], 1, 0⟩
  , ⟨.ZF_IIR_A, 0x280064, [(0x100, 768), (0x8, 4)], 1, 0⟩
  , ⟨.ZF_FIR, 0x280080, [(0x100, 768), (0x4, 32)], 1, 0⟩
  , ⟨.ZP_TILE_PENDING, 0x2b0000, [(0x20, 8)], 3, 0⟩
  , ⟨.ZP_RB_CFG, 0x2b0100, [(0x4, 8)], 1, 0⟩ ]

/-- Registers of chapter 09, part 0. -/
def regRows09_0 : List RegRow :=
  [ ⟨.RFI_CTRL, 0x2c0000, [(0x1000, 32)], 1, 0⟩
  , ⟨.RFI_CFG, 0x2c0004, [(0x1000, 32)], 1, 0⟩
  , ⟨.RFI_STATUS, 0x2c0008, [(0x1000, 32)], 1, 0⟩
  , ⟨.RFI_KSWAP_AT, 0x2c0010, [(0x1000, 32)], 2, 0⟩
  , ⟨.RFI_KSWAP_MASK, 0x2c0018, [(0x1000, 32)], 1, 0⟩
  , ⟨.RFI_KBANK, 0x2c001c, [(0x1000, 32)], 1, 0⟩
  , ⟨.RFI_KSWAP_COUNT, 0x2c0020, [(0x1000, 32)], 1, 0⟩
  , ⟨.RFI_OVR_COUNT, 0x2c0024, [(0x1000, 32)], 1, 0⟩
  , ⟨.RFI_CAL_EPOCH, 0x2c0028, [(0x1000, 32)], 1, 0⟩
  , ⟨.RFI_SLICE_SEL, 0x2c0030, [(0x1000, 32)], 3, 0⟩
  , ⟨.RFI_SLICE_BAD, 0x2c0040, [(0x1000, 32)], 3, 0⟩
  , ⟨.RFI_LAU_PENDING, 0x2c0060, [(0x1000, 32)], 1, 0⟩
  , ⟨.RFI_CFG_CRC, 0x2c0050, [(0x1000, 32)], 1, 0⟩
  , ⟨.RFI_CFG_CRC_REF, 0x2c0054, [(0x1000, 32)], 1, 0⟩
  , ⟨.RFI_CFG_CRC_COMMIT, 0x2c0058, [(0x1000, 32)], 1, 0⟩
  , ⟨.LAU_CTRL, 0x2e0000, [(0x100, 1024)], 1, 0⟩
  , ⟨.LAU_CFG, 0x2e0004, [(0x100, 1024)], 1, 0⟩
  , ⟨.LAU_FRAMES, 0x2e0008, [(0x100, 1024)], 1, 0⟩
  , ⟨.LAU_STATUS, 0x2e000c, [(0x100, 1024)], 1, 0⟩
  , ⟨.LAU_GEN, 0x2e0010, [(0x100, 1024)], 1, 0⟩
  , ⟨.LAU_MEAS_COUNT, 0x2e0014, [(0x100, 1024)], 1, 0⟩
  , ⟨.LAU_INVALID_COUNT, 0x2e0018, [(0x100, 1024)], 1, 0⟩
  , ⟨.LAU_LOWCONF_COUNT, 0x2e001c, [(0x100, 1024)], 1, 0⟩
  , ⟨.LAU_LEAK_COUNT, 0x2e0020, [(0x100, 1024)], 1, 0⟩
  , ⟨.LAU_LAST_I, 0x2e0024, [(0x100, 1024)], 1, 0⟩
  , ⟨.LAU_LAST_Q, 0x2e0028, [(0x100, 1024)], 1, 0⟩
  , ⟨.LAU_LAST_END, 0x2e002c, [(0x100, 1024)], 2, 0⟩
  , ⟨.LAU_CFG_CRC, 0x2e0040, [(0x100, 1024)], 1, 0⟩
  , ⟨.LAU_CFG_CRC_REF, 0x2e0044, [(0x100, 1024)], 1, 0⟩
  , ⟨.LAU_CFG_CRC_COMMIT, 0x2e0048, [(0x100, 1024)], 1, 0⟩ ]

/-- Registers of chapter 10, part 0. -/
def regRows10_0 : List RegRow :=
  [ ⟨.DEC_CTRL, 0x320000, [], 1, 0⟩
  , ⟨.DEC_STATUS, 0x320004, [], 1, 0⟩
  , ⟨.DEC_LATE_COUNT, 0x320010, [], 1, 0⟩
  , ⟨.DEC_FWD_DROPS, 0x320014, [], 1, 0⟩
  , ⟨.DEC_REMOTE_RX, 0x320018, [], 1, 0⟩
  , ⟨.DEC_HOST_FLAGS, 0x320020, [], 2, 0⟩
  , ⟨.DEC_CFG_CRC, 0x320030, [], 1, 0⟩
  , ⟨.DEC_CFG_CRC_REF, 0x320034, [], 1, 0⟩
  , ⟨.DEC_CFG_CRC_COMMIT, 0x320038, [], 1, 0⟩
  , ⟨.DEC_FWD, 0x321000, [(0x4, 1024)], 1, 0⟩
  , ⟨.DEC_WIN_CTRL, 0x324000, [(0x100, 64)], 1, 0⟩
  , ⟨.DEC_WIN_CFG, 0x324004, [(0x100, 64)], 1, 0⟩
  , ⟨.DEC_WIN_BASE, 0x324008, [(0x100, 64)], 1, 0⟩
  , ⟨.DEC_WIN_TMO, 0x32400c, [(0x100, 64)], 1, 0⟩
  , ⟨.DEC_WIN_GROUP, 0x324010, [(0x100, 64), (0x4, 4)], 1, 0⟩
  , ⟨.DEC_WIN_PFRAME, 0x324020, [(0x100, 64), (0x4, 4)], 1, 0⟩
  , ⟨.DEC_WIN_STATUS, 0x324030, [(0x100, 64)], 1, 0⟩
  , ⟨.DEC_CODE, 0x324034, [(0x100, 64)], 1, 0⟩
  , ⟨.DEC_WIN_ROUNDS, 0x324038, [(0x100, 64)], 1, 0⟩
  , ⟨.DEC_WIN_FAILS, 0x32403c, [(0x100, 64)], 1, 0⟩
  , ⟨.DEC_WIN_LAST, 0x324040, [(0x100, 64)], 1, 0⟩
  , ⟨.DEC_GATHER, 0x324080, [(0x100, 64), (0x4, 19)], 1, 0⟩ ]

/-- Registers of chapter 11, part 0. -/
def regRows11_0 : List RegRow :=
  [ ⟨.ANA_CTRL, 0x340000, [(0x4000, 8)], 1, 0⟩
  , ⟨.ANA_CFG, 0x340004, [(0x4000, 8)], 1, 0⟩
  , ⟨.ANA_STATUS, 0x340008, [(0x4000, 8)], 1, 0⟩
  , ⟨.ANA_FAULT, 0x34000c, [(0x4000, 8)], 1, 0⟩
  , ⟨.ANA_PC, 0x340010, [(0x4000, 8)], 1, 0⟩
  , ⟨.ANA_HOST_VAL, 0x340014, [(0x4000, 8)], 1, 0⟩
  , ⟨.ANA_CYCLES, 0x340018, [(0x4000, 8)], 2, 0⟩
  , ⟨.ANA_IN_CFG, 0x340040, [(0x4000, 8), (0x10, 2)], 1, 0⟩
  , ⟨.ANA_IN_BUF, 0x340044, [(0x4000, 8), (0x10, 2)], 1, 0⟩
  , ⟨.ANA_IN_WP, 0x340048, [(0x4000, 8), (0x10, 2)], 1, 0⟩
  , ⟨.ANA_IN_RP, 0x34004c, [(0x4000, 8), (0x10, 2)], 1, 0⟩
  , ⟨.ANA_OUT_CFG, 0x340060, [(0x4000, 8)], 1, 0⟩
  , ⟨.ANA_OUT_STALLS, 0x340064, [(0x4000, 8)], 1, 0⟩
  , ⟨.ANA_IN_SKIPS, 0x340068, [(0x4000, 8)], 1, 0⟩
  , ⟨.ANA_CFG_CRC, 0x340070, [(0x4000, 8)], 1, 0⟩
  , ⟨.ANA_CFG_CRC_REF, 0x340074, [(0x4000, 8)], 1, 0⟩
  , ⟨.ANA_CFG_CRC_COMMIT, 0x340078, [(0x4000, 8)], 1, 0⟩ ]

/-- Registers of chapter 12, part 0. -/
def regRows12_0 : List RegRow :=
  [ ⟨.TAP_CTRL, 0x360000, [(0x1000, 32)], 1, 0⟩
  , ⟨.TAP_CFG, 0x360004, [(0x1000, 32)], 1, 0⟩
  , ⟨.TAP_LEN, 0x360008, [(0x1000, 32)], 1, 0⟩
  , ⟨.TAP_PRE, 0x36000c, [(0x1000, 32)], 1, 0⟩
  , ⟨.TAP_CH_MASK, 0x360010, [(0x1000, 32)], 1, 0⟩
  , ⟨.TAP_MEAS_MASK, 0x360014, [(0x1000, 32)], 1, 0⟩
  , ⟨.TAP_QUEUE, 0x360018, [(0x1000, 32)], 1, 0⟩
  , ⟨.TAP_REGION_BASE, 0x36001c, [(0x1000, 32)], 1, 0⟩
  , ⟨.TAP_REGION_SIZE, 0x360024, [(0x1000, 32)], 1, 0⟩
  , ⟨.TAP_STATUS, 0x360020, [(0x1000, 32)], 1, 0⟩
  , ⟨.TAP_SEEN, 0x360030, [(0x1000, 32)], 2, 0⟩
  , ⟨.TAP_CAPTURED, 0x360038, [(0x1000, 32)], 2, 0⟩
  , ⟨.TAP_MISSED, 0x360040, [(0x1000, 32)], 2, 0⟩
  , ⟨.TAP_SEG_DONE, 0x360048, [(0x1000, 32)], 1, 0⟩
  , ⟨.TAP_ACQ_COUNT, 0x36004c, [(0x1000, 32)], 1, 0⟩
  , ⟨.TAP_MISS_WR, 0x360050, [(0x1000, 32)], 1, 0⟩
  , ⟨.TAP_MISS_LOG, 0x360100, [(0x1000, 32), (0x10, 16)], 2, 0⟩
  , ⟨.TAP_MISS_INFO, 0x360108, [(0x1000, 32), (0x10, 16)], 1, 0⟩
  , ⟨.TAP_CFG_CRC, 0x360060, [(0x1000, 32)], 1, 0⟩
  , ⟨.TAP_CFG_CRC_REF, 0x360064, [(0x1000, 32)], 1, 0⟩
  , ⟨.TAP_CFG_CRC_COMMIT, 0x360068, [(0x1000, 32)], 1, 0⟩ ]

/-- Registers of chapter 13, part 0. -/
def regRows13_0 : List RegRow :=
  [ ⟨.FLV_CTRL, 0x380000, [(0x200, 32)], 1, 0⟩
  , ⟨.FLV_CFG, 0x380004, [(0x200, 32)], 1, 0⟩
  , ⟨.FLV_CFG2, 0x380008, [(0x200, 32)], 1, 0⟩
  , ⟨.FLV_STATUS, 0x38000c, [(0x200, 32)], 1, 0⟩
  , ⟨.FLV_CREDIT, 0x380010, [(0x200, 32)], 1, 0⟩
  , ⟨.FLV_FLITS_SENT, 0x380020, [(0x200, 32)], 2, 0⟩
  , ⟨.FLV_FLITS_CONSUMED, 0x380028, [(0x200, 32)], 2, 0⟩
  , ⟨.FLV_CREDITS_RETURNED, 0x380030, [(0x200, 32)], 2, 0⟩
  , ⟨.FLV_CREDITS_BACK, 0x380038, [(0x200, 32)], 2, 0⟩
  , ⟨.FLV_CREDITS_RESTORED, 0x380040, [(0x200, 32)], 2, 0⟩
  , ⟨.FLV_CRC_ERRORS, 0x380048, [(0x200, 32)], 1, 0⟩
  , ⟨.FLV_SEQ_GAPS, 0x38004c, [(0x200, 32)], 1, 0⟩
  , ⟨.FLV_RETRAINS, 0x380050, [(0x200, 32)], 1, 0⟩
  , ⟨.FLV_TRAIN_FAILS, 0x380054, [(0x200, 32)], 1, 0⟩
  , ⟨.FLV_FLUSHED, 0x380058, [(0x200, 32)], 1, 0⟩
  , ⟨.FLV_IDLE_EXITS, 0x38005c, [(0x200, 32)], 1, 0⟩
  , ⟨.FLV_LAT_RT, 0x380060, [(0x200, 32)], 1, 0⟩
  , ⟨.FLV_LAT_1W_LAST, 0x380064, [(0x200, 32)], 1, 0⟩
  , ⟨.FLV_LAT_1W_MIN, 0x380068, [(0x200, 32)], 1, 0⟩
  , ⟨.FLV_LAT_1W_MAX, 0x38006c, [(0x200, 32)], 1, 0⟩
  , ⟨.FLV_CFG_CRC, 0x380070, [(0x200, 32)], 1, 0⟩
  , ⟨.FLV_CFG_CRC_REF, 0x380074, [(0x200, 32)], 1, 0⟩
  , ⟨.FLV_CFG_CRC_COMMIT, 0x380078, [(0x200, 32)], 1, 0⟩
  , ⟨.FLV_LANE_TEST, 0x384000, [(0x40, 32)], 1, 0⟩
  , ⟨.FLV_LANE_STATUS, 0x384004, [(0x40, 32)], 1, 0⟩
  , ⟨.FLV_PRBS_ERRORS, 0x384008, [(0x40, 32)], 1, 0⟩
  , ⟨.FLV_SYNC_ERRORS, 0x38400c, [(0x40, 32)], 1, 0⟩
  , ⟨.FLV_PRBS_BITS, 0x384010, [(0x40, 32)], 2, 0⟩
  , ⟨.FLV_GCTRL, 0x386000, [], 1, 0⟩
  , ⟨.FLV_GSTATUS, 0x386004, [], 1, 0⟩ ]

/-- Registers of chapter 13, part 1. -/
def regRows13_1 : List RegRow :=
  [ ⟨.FLV_TX_DROPS, 0x386008, [], 1, 0⟩
  , ⟨.FLV_RX_DROPS, 0x38600c, [], 1, 0⟩
  , ⟨.FLV_GCFG_CRC, 0x386010, [], 1, 0⟩
  , ⟨.FLV_GCFG_CRC_REF, 0x386014, [], 1, 0⟩
  , ⟨.FLV_GCFG_CRC_COMMIT, 0x386018, [], 1, 0⟩
  , ⟨.FLV_ROUTE, 0x386100, [(0x4, 64)], 1, 0⟩
  , ⟨.FLV_PROXY_SRC, 0x386200, [(0x4, 64)], 1, 0⟩
  , ⟨.FLV_PROXY_DST, 0x386300, [(0x4, 64)], 1, 0⟩ ]

/-- Registers of chapter 14, part 0. -/
def regRows14_0 : List RegRow :=
  [ ⟨.NT_CTRL, 0x20000, [], 1, 0⟩
  , ⟨.NT_STATUS, 0x20004, [], 1, 0⟩
  , ⟨.NT_NOW, 0x20008, [], 2, 0⟩
  , ⟨.NT_INC, 0x20010, [], 2, 0⟩
  , ⟨.NT_STEP, 0x20018, [], 2, 0⟩
  , ⟨.NT_STEP_MAX, 0x20020, [], 1, 0⟩
  , ⟨.NT_LOAD, 0x20028, [], 2, 0⟩
  , ⟨.NT_WRAPS, 0x20030, [], 1, 0⟩
  , ⟨.NT_STEPS, 0x20034, [], 1, 0⟩
  , ⟨.NT_REFUSALS, 0x20038, [], 1, 0⟩
  , ⟨.NT_CFG_CRC, 0x20050, [], 1, 0⟩
  , ⟨.NT_CFG_CRC_REF, 0x20054, [], 1, 0⟩
  , ⟨.NT_CFG_CRC_COMMIT, 0x20058, [], 1, 0⟩
  , ⟨.ETH_CTRL, 0x21000, [(0x800, 2)], 1, 0⟩
  , ⟨.ETH_CFG, 0x21004, [(0x800, 2)], 1, 0⟩
  , ⟨.ETH_STATUS, 0x21008, [(0x800, 2)], 1, 0⟩
  , ⟨.ETH_TX_LAT, 0x2100c, [(0x800, 2)], 1, 0⟩
  , ⟨.ETH_RX_LAT, 0x21010, [(0x800, 2)], 1, 0⟩
  , ⟨.ETH_TX_FRAMES, 0x21020, [(0x800, 2)], 2, 0⟩
  , ⟨.ETH_RX_FRAMES, 0x21028, [(0x800, 2)], 2, 0⟩
  , ⟨.ETH_FCS_ERRORS, 0x21030, [(0x800, 2)], 1, 0⟩
  , ⟨.ETH_RX_DROPS, 0x21034, [(0x800, 2)], 1, 0⟩
  , ⟨.ETH_LATE_SENT, 0x21038, [(0x800, 2)], 1, 0⟩
  , ⟨.ETH_LATE_DROPS, 0x2103c, [(0x800, 2)], 1, 0⟩
  , ⟨.ETH_PAUSE_RX, 0x21040, [(0x800, 2)], 1, 0⟩
  , ⟨.ETH_CFG_CRC, 0x21060, [(0x800, 2)], 1, 0⟩
  , ⟨.ETH_CFG_CRC_REF, 0x21064, [(0x800, 2)], 1, 0⟩
  , ⟨.ETH_CFG_CRC_COMMIT, 0x21068, [(0x800, 2)], 1, 0⟩ ]

/-- Registers of chapter 15, part 0. -/
def regRows15_0 : List RegRow :=
  [ ⟨.HOST_CTRL, 0x30000, [], 1, 0⟩
  , ⟨.HOST_CFG, 0x30004, [], 1, 0⟩
  , ⟨.HOST_STATUS, 0x30008, [], 1, 0⟩
  , ⟨.HOST_SEC_RID, 0x3000c, [], 1, 0⟩
  , ⟨.HOST_CFG_CRC, 0x30010, [], 1, 0⟩
  , ⟨.HOST_CFG_CRC_REF, 0x30014, [], 1, 0⟩
  , ⟨.HOST_CFG_CRC_COMMIT, 0x30018, [], 1, 0⟩
  , ⟨.HOST_AF_COUNT, 0x30100, [], 1, 0⟩
  , ⟨.HOST_AF_WR, 0x30104, [], 1, 0⟩
  , ⟨.HOST_AF_ADDR, 0x30200, [(0x10, 16)], 1, 0⟩
  , ⟨.HOST_AF_INFO, 0x30204, [(0x10, 16)], 1, 0⟩
  , ⟨.HOST_AF_DATA, 0x30208, [(0x10, 16)], 1, 0⟩
  , ⟨.HOST_AF_TICK, 0x3020c, [(0x10, 16)], 1, 0⟩
  , ⟨.HOST_EVT_MAP, 0x31000, [(0x4, 1024)], 1, 0⟩
  , ⟨.GLB_ID, 0x0, [], 1, 0⟩
  , ⟨.GLB_REV, 0x4, [], 1, 0⟩
  , ⟨.GLB_DEVID, 0x8, [], 1, 0⟩
  , ⟨.GLB_FW, 0xc, [], 1, 0⟩
  , ⟨.GLB_UID, 0x10, [], 2, 0⟩
  , ⟨.GLB_STATUS, 0x20, [], 1, 0⟩
  , ⟨.GLB_LOCK, 0x24, [], 1, 0⟩
  , ⟨.GLB_EVT_PEND, 0x100, [(0x4, 32)], 1, 0⟩
  , ⟨.GLB_EVT_EN, 0x200, [(0x4, 64)], 1, 0⟩
  , ⟨.GLB_PART_TUN, 0x1000, [(0x4, 8)], 1, 0⟩
  , ⟨.GLB_PART_RFO, 0x1100, [(0x4, 36)], 1, 0⟩
  , ⟨.GLB_PART_ZP, 0x1200, [(0x4, 96)], 1, 0⟩
  , ⟨.GLB_PART_LAU, 0x1400, [(0x4, 128)], 1, 0⟩
  , ⟨.GLB_PART_TAP, 0x1600, [(0x4, 4)], 1, 0⟩
  , ⟨.GLB_PART_FRM, 0x1700, [(0x4, 20)], 1, 0⟩
  , ⟨.GLB_PART_BAR, 0x1800, [(0x4, 32)], 1, 0⟩ ]

/-- Registers of chapter 16, part 0. -/
def regRows16_0 : List RegRow :=
  [ ⟨.MBX_DB, 0x4000c, [(0x2000, 16)], 1, 0⟩ ]

/-- Registers of chapter 17, part 0. -/
def regRows17_0 : List RegRow :=
  [ ⟨.EXC_STATUS, 0xa0000, [], 1, 0⟩
  , ⟨.EXC_VIEW_TICK, 0xa0008, [], 2, 0⟩
  , ⟨.EXC_SEAL_BREAKS, 0xa0010, [], 2, 0⟩
  , ⟨.EXC_LOG_INDEX, 0xa0018, [], 2, 0⟩
  , ⟨.EXC_FEED_EPOCH, 0xa0020, [], 1, 0⟩
  , ⟨.EXC_SEAL_ID, 0xa0040, [(0x4, 12)], 1, 0⟩
  , ⟨.EXC_ACC, 0xa1000, [(0x40, 16), (0x8, 8)], 2, 0⟩ ]

/-- Registers of chapter 18, part 0. -/
def regRows18_0 : List RegRow :=
  [ ⟨.MON_CTRL, 0x3c0000, [], 1, 0⟩
  , ⟨.MON_STATUS, 0x3c0004, [], 1, 0⟩
  , ⟨.MON_CFG_CRC, 0x3c0010, [], 1, 0⟩
  , ⟨.MON_CFG_CRC_REF, 0x3c0014, [], 1, 0⟩
  , ⟨.MON_CFG_CRC_COMMIT, 0x3c0018, [], 1, 0⟩
  , ⟨.MON_SAR_STATUS, 0x3c1000, [(0x200, 10)], 1, 0⟩
  , ⟨.MON_TDAC, 0x3c1004, [(0x200, 10)], 1, 0⟩
  , ⟨.MON_OVERRUNS, 0x3c1008, [(0x200, 10)], 1, 0⟩
  , ⟨.MON_SEQ, 0x3c1040, [(0x200, 10), (0x10, 8)], 1, 0⟩
  , ⟨.MON_SEQ_DELAY, 0x3c1044, [(0x200, 10), (0x10, 8)], 1, 0⟩
  , ⟨.MON_SEQ_AT, 0x3c1048, [(0x200, 10), (0x10, 8)], 2, 0⟩
  , ⟨.MON_RES, 0x3c1100, [(0x200, 10), (0x10, 8)], 1, 0⟩
  , ⟨.MON_RES_TICK, 0x3c1104, [(0x200, 10), (0x10, 8)], 2, 0⟩
  , ⟨.BRG_CTRL, 0x3c3000, [(0x100, 8)], 1, 0⟩
  , ⟨.BRG_CFG, 0x3c3004, [(0x100, 8)], 1, 0⟩
  , ⟨.BRG_STATUS, 0x3c3008, [(0x100, 8)], 1, 0⟩
  , ⟨.BRG_OUT, 0x3c300c, [(0x100, 8)], 1, 0⟩
  , ⟨.BRG_OUT_TICK, 0x3c3010, [(0x100, 8)], 2, 0⟩
  , ⟨.BRG_EXC_I, 0x3c3018, [(0x100, 8)], 1, 0⟩
  , ⟨.BRG_BREAKS, 0x3c301c, [(0x100, 8)], 1, 0⟩
  , ⟨.BRG_OVR_COUNT, 0x3c3020, [(0x100, 8)], 1, 0⟩
  , ⟨.CAL_CTRL, 0x3e0000, [], 1, 0⟩
  , ⟨.CAL_STATUS, 0x3e0004, [], 1, 0⟩
  , ⟨.CAL_CFG_CRC, 0x3e0010, [], 1, 0⟩
  , ⟨.CAL_CFG_CRC_REF, 0x3e0014, [], 1, 0⟩
  , ⟨.CAL_CFG_CRC_COMMIT, 0x3e0018, [], 1, 0⟩
  , ⟨.CAL_CFG, 0x3e1000, [(0x100, 8)], 1, 0⟩
  , ⟨.CAL_PERIOD, 0x3e1004, [(0x100, 8)], 1, 0⟩
  , ⟨.CAL_WAIT, 0x3e1008, [(0x100, 8)], 1, 0⟩
  , ⟨.CAL_STEP_TMO, 0x3e100c, [(0x100, 8)], 1, 0⟩ ]

/-- Registers of chapter 18, part 1. -/
def regRows18_1 : List RegRow :=
  [ ⟨.CAL_STATE, 0x3e1010, [(0x100, 8)], 1, 0⟩
  , ⟨.CAL_COUNT, 0x3e1014, [(0x100, 8)], 1, 0⟩
  , ⟨.CAL_LAST_TL, 0x3e1018, [(0x100, 8)], 2, 0⟩
  , ⟨.CAL_LAST_NT, 0x3e1020, [(0x100, 8)], 1, 0⟩
  , ⟨.CAL_LAST_WRAPS, 0x3e1024, [(0x100, 8)], 1, 0⟩
  , ⟨.CAL_T_REF, 0x3e1028, [(0x100, 8)], 1, 0⟩
  , ⟨.CAL_FAILS, 0x3e102c, [(0x100, 8)], 1, 0⟩
  , ⟨.CAL_SKIPS, 0x3e1030, [(0x100, 8)], 1, 0⟩
  , ⟨.CAL_LAST_FAIL, 0x3e1034, [(0x100, 8)], 1, 0⟩ ]

/-- Registers of chapter 19, part 0. -/
def regRows19_0 : List RegRow :=
  [ ⟨.KILN_CTRL, 0x80000, [], 1, 0⟩
  , ⟨.KILN_CFG, 0x80004, [], 1, 0⟩
  , ⟨.KILN_RATE, 0x80008, [], 1, 0⟩
  , ⟨.KILN_PROC_MIN, 0x8000c, [], 1, 0⟩
  , ⟨.KILN_STATUS, 0x80010, [], 1, 0⟩
  , ⟨.KILN_SKIP, 0x80020, [(0x4, 4)], 1, 1⟩
  , ⟨.KILN_SKIPPED, 0x80030, [], 2, 0⟩
  , ⟨.KILN_OOR_START, 0x80038, [], 2, 0⟩
  , ⟨.KILN_OOR_END, 0x80040, [], 2, 0⟩
  , ⟨.KILN_OOR_COUNT, 0x80048, [], 1, 0⟩
  , ⟨.KILN_CFG_CRC, 0x80050, [], 1, 0⟩
  , ⟨.KILN_CFG_CRC_REF, 0x80054, [], 1, 0⟩
  , ⟨.KILN_CFG_CRC_COMMIT, 0x80058, [], 1, 0⟩
  , ⟨.KILN_TEMP, 0x80100, [(0x4, 49)], 1, 0⟩
  , ⟨.KILN_TILE_TEMP, 0x80200, [(0x4, 8)], 1, 0⟩
  , ⟨.KILN_THR, 0x80300, [(0x8, 49)], 2, 0⟩
  , ⟨.KILN_RAIL, 0x80600, [(0x8, 24)], 1, 0⟩
  , ⟨.KILN_RAIL_LIM, 0x80604, [(0x8, 24)], 1, 0⟩
  , ⟨.KILN_PROC, 0x80700, [(0x4, 32)], 1, 0⟩ ]

/-- Registers of chapter 20, part 0. -/
def regRows20_0 : List RegRow :=
  [ ⟨.SEC_STATUS, 0x90000, [], 1, 0⟩
  , ⟨.SEC_FW_MIN, 0x90004, [], 1, 0⟩
  , ⟨.SEC_DEBUG_COUNT, 0x90008, [], 1, 0⟩
  , ⟨.SEC_OWNER_ROOT, 0x90040, [(0x4, 12)], 1, 0⟩
  , ⟨.SEC_SLOT, 0x90100, [(0x4, 8)], 1, 0⟩
  , ⟨.SEC_SLOT_ID, 0x90200, [(0x40, 8), (0x4, 12)], 1, 0⟩
  , ⟨.CEL_STATUS, 0xb0000, [], 1, 0⟩
  , ⟨.CEL_QUEUED, 0xb0004, [], 1, 0⟩
  , ⟨.CEL_ECC_CORR, 0xb0010, [], 1, 0⟩
  , ⟨.CEL_ECC_UNCORR, 0xb0014, [], 1, 0⟩
  , ⟨.CEL_ERR_ADDR, 0xb0018, [], 1, 0⟩
  , ⟨.CEL_WRITES, 0xb0020, [], 2, 0⟩
  , ⟨.CEL_PARK_SEQ, 0xb0028, [], 1, 0⟩ ]

/-- The register map of BAR0. -/
def regMap : List RegRow :=
  regRows02_0 ++ regRows02_1 ++ regRows03_0 ++ regRows03_1 ++ regRows06_0 ++ regRows07_0 ++ regRows08_0 ++ regRows09_0 ++ regRows10_0 ++ regRows11_0 ++ regRows12_0 ++ regRows13_0 ++ regRows13_1 ++ regRows14_0 ++ regRows15_0 ++ regRows16_0 ++ regRows17_0 ++ regRows18_0 ++ regRows18_1 ++ regRows19_0 ++ regRows20_0

/-- One field of a register row: where it is held, its access code and whether it is privileged. -/
structure RegField where
  fld  : Fld
  acc  : Access
  priv : Bool
deriving DecidableEq, Repr

/-- The fields of one register instance, in bit order, for its index list (one number per index letter; a sequencer
register's first index is s). -/
def regFields (r : Reg) (i j : Nat) : List RegField :=
  match r with
  | .TL_CTRL => [⟨TL_CTRL_EN, .rw, true⟩, ⟨TL_CTRL_LOAD, .wo, true⟩, ⟨TL_CTRL_SEND_SYNC, .wo, true⟩, ⟨TL_CTRL_SEND_CHECK, .wo, true⟩, ⟨TL_CTRL_ECHO_START, .wo, true⟩, ⟨TL_CTRL_CAPTURE, .wo, false⟩]
  | .TL_CFG => [⟨TL_CFG_ROLE, .cfg, true⟩, ⟨TL_CFG_AUTO_CHECK, .cfg, true⟩, ⟨TL_CFG_ECHO_SPREAD_MAX, .cfg, true⟩, ⟨TL_CFG_DRIFT_TOL, .rw, true⟩]
  | .TL_STATUS => [⟨TL_STATUS_PLL_LOCKED, .ro, false⟩, ⟨TL_STATUS_ALIGNED, .ro, false⟩, ⟨TL_STATUS_DELAY_VALID, .ro, false⟩, ⟨TL_STATUS_ACTIVE, .ro, false⟩, ⟨TL_STATUS_ECHO_BUSY, .ro, false⟩, ⟨TL_STATUS_STEP_REFUSED, .w1c, false⟩, ⟨TL_STATUS_SYNC_NO_DELAY, .w1c, false⟩, ⟨TL_STATUS_BUS_FRAME_ERR, .w1c, false⟩, ⟨TL_STATUS_ECHO_RANGE, .w1c, false⟩, ⟨TL_STATUS_ECHO_NOISY, .w1c, false⟩, ⟨TL_STATUS_ECHO_NO_REPLY, .w1c, false⟩, ⟨TL_STATUS_SYNC_LATE, .w1c, false⟩, ⟨TL_STATUS_ALIGN_DRIFT, .w1c, false⟩, ⟨TL_STATUS_CFG_WHILE_ENABLED, .w1c, false⟩, ⟨TL_STATUS_PIN_LATE, .w1c, false⟩]
  | .TL_NOW => [⟨TL_NOW, .ro, false⟩]
  | .TL_LOAD_VALUE => [⟨TL_LOAD_VALUE, .rw, true⟩]
  | .TL_SYNC_AT => [⟨TL_SYNC_AT, .rw, true⟩]
  | .TL_ECHO_MASK => [⟨TL_ECHO_MASK, .rw, true⟩]
  | .TL_DELAY => [⟨TL_DELAY_DELAY, .ro, false⟩, ⟨TL_DELAY_ADJ, .rw, true⟩]
  | .TL_SYNC_ERR => [⟨TL_SYNC_ERR, .ro, false⟩]
  | .TL_STEP_COUNT => [⟨TL_STEP_COUNT, .ro, false⟩]
  | .TL_ECHO_RESULT => [⟨TL_ECHO_RESULT_DELAY i, .ro, true⟩, ⟨TL_ECHO_RESULT_SPREAD i, .ro, true⟩, ⟨TL_ECHO_RESULT_NOISY i, .ro, true⟩, ⟨TL_ECHO_RESULT_VALID i, .ro, true⟩]
  | .TL_PAIR_SEQ => [⟨TL_PAIR_SEQ, .ro, false⟩]
  | .TL_PAIR_TL => [⟨TL_PAIR_TL, .ro, false⟩]
  | .TL_PAIR_NT => [⟨TL_PAIR_NT, .ro, false⟩]
  | .TL_PAIR_NTF => [⟨TL_PAIR_NTF_NT_FRAC, .ro, false⟩, ⟨TL_PAIR_NTF_SRC, .ro, false⟩]
  | .TL_PIN_CFG => [⟨TL_PIN_CFG_DIR i, .cfg, false⟩, ⟨TL_PIN_CFG_EDGE i, .cfg, false⟩, ⟨TL_PIN_CFG_FILT i, .cfg, false⟩, ⟨TL_PIN_CFG_OUT_SRC i, .cfg, false⟩, ⟨TL_PIN_CFG_SEL i, .cfg, false⟩, ⟨TL_PIN_CFG_LEVEL i, .rw, false⟩, ⟨TL_PIN_CFG_COMP i, .cfg, false⟩, ⟨TL_PIN_CFG_PULSE_W i, .cfg, false⟩]
  | .TL_PIN_AT => [⟨TL_PIN_AT i, .rw, false⟩]
  | .TL_PIN_STAMP => [⟨TL_PIN_STAMP i, .ro, false⟩]
  | .TL_PIN_FIFO => [⟨TL_PIN_FIFO_COUNT i, .ro, false⟩, ⟨TL_PIN_FIFO_HEAD_EDGE i, .ro, false⟩, ⟨TL_PIN_FIFO_OVERFLOW i, .ro, false⟩]
  | .TL_PIN_POP => [⟨TL_PIN_POP_PIN, .wo, false⟩]
  | .TL_CA_CFG => [⟨TL_CA_CFG_MODE, .cfg, false⟩, ⟨TL_CA_CFG_SENSOR, .cfg, false⟩, ⟨TL_CA_CFG_IDX_EDGE, .cfg, false⟩, ⟨TL_CA_CFG_DIR_INV, .cfg, false⟩, ⟨TL_CA_CFG_ALPHA, .cfg, false⟩, ⟨TL_CA_CFG_LOCK_N, .cfg, false⟩, ⟨TL_CA_CFG_MISS_MAX, .cfg, false⟩, ⟨TL_CA_CFG_FILT, .cfg, false⟩]
  | .TL_CA_PPR => [⟨TL_CA_PPR, .cfg, false⟩]
  | .TL_CA_TOL => [⟨TL_CA_TOL_TOL, .rw, false⟩, ⟨TL_CA_TOL_HYST, .rw, false⟩]
  | .TL_CA_ALIGN_TIMEOUT => [⟨TL_CA_ALIGN_TIMEOUT, .rw, false⟩]
  | .TL_CA_WIN => [⟨TL_CA_WIN_LO i, .rw, false⟩, ⟨TL_CA_WIN_HI i, .rw, false⟩]
  | .TL_CA_STATUS => [⟨TL_CA_STATUS_LOCKED, .ro, false⟩, ⟨TL_CA_STATUS_COASTING, .ro, false⟩, ⟨TL_CA_STATUS_MISSED_INDEX, .w1c, false⟩, ⟨TL_CA_STATUS_OUT_OF_TOL, .w1c, false⟩, ⟨TL_CA_STATUS_PERIOD_RANGE, .w1c, false⟩, ⟨TL_CA_STATUS_SENSOR_SUSPECT, .w1c, false⟩]
  | .TL_CA_ANGLE => [⟨TL_CA_ANGLE_ANGLE, .ro, false⟩, ⟨TL_CA_ANGLE_VALID, .ro, false⟩]
  | .TL_CA_PERIOD => [⟨TL_CA_PERIOD, .ro, false⟩]
  | .TL_CA_LAST_IDX => [⟨TL_CA_LAST_IDX, .ro, false⟩]
  | .TL_CA_LAST_ERR => [⟨TL_CA_LAST_ERR, .ro, false⟩]
  | .TL_CA_INDEX_COUNT => [⟨TL_CA_INDEX_COUNT, .ro, false⟩]
  | .TL_CA_MISS_COUNT => [⟨TL_CA_MISS_COUNT, .ro, false⟩]
  | .TUN_CTRL => [⟨TUN_CTRL_EN i, .rw, true⟩, ⟨TUN_CTRL_GROUP_START i, .wo, true⟩]
  | .TUN_STATUS => [⟨TUN_STATUS_RCP_LOADED i, .ro, false⟩, ⟨TUN_STATUS_GROUP_REFUSED i, .w1c, false⟩, ⟨TUN_STATUS_CFG_WHILE_ENABLED i, .w1c, false⟩, ⟨TUN_STATUS_CFG_INTEGRITY i, .w1c, false⟩, ⟨TUN_STATUS_PART i, .ro, false⟩, ⟨TUN_STATUS_EN_REFUSED i, .w1c, false⟩]
  | .RCP_VERSION => [⟨RCP_VERSION_BUILD i, .ro, false⟩, ⟨RCP_VERSION_MINOR i, .ro, false⟩, ⟨RCP_VERSION_MAJOR i, .ro, false⟩]
  | .RCP_PATCH => [⟨RCP_PATCH_HASH i, .ro, false⟩, ⟨RCP_PATCH_LEVEL i, .ro, false⟩]
  | .TUN_CFG_CRC => [⟨TUN_CFG_CRC i, .ro, false⟩]
  | .TUN_CFG_CRC_REF => [⟨TUN_CFG_CRC_REF i, .rw, true⟩]
  | .TUN_CFG_CRC_COMMIT => [⟨TUN_CFG_CRC_COMMIT i, .wo, true⟩]
  | .SEQ_CTRL => [⟨SEQ_CTRL_EN i, .rw, true⟩, ⟨SEQ_CTRL_START i, .wo, true⟩, ⟨SEQ_CTRL_STOP i, .wo, true⟩, ⟨SEQ_CTRL_STOP_AT_SHOT i, .wo, true⟩, ⟨SEQ_CTRL_CLEAR i, .wo, true⟩, ⟨SEQ_CTRL_SLACK_RESET i, .wo, false⟩, ⟨SEQ_CTRL_START_MODE i, .cfg, true⟩, ⟨SEQ_CTRL_ON_ABORT i, .cfg, true⟩]
  | .SEQ_STATUS => [⟨SEQ_STATUS_STATE i, .ro, false⟩, ⟨SEQ_STATUS_STALL i, .ro, false⟩, ⟨SEQ_STATUS_START_REFUSED i, .w1c, false⟩, ⟨SEQ_STATUS_START_LATE i, .w1c, false⟩, ⟨SEQ_STATUS_CFG_WHILE_ENABLED i, .w1c, false⟩, ⟨SEQ_STATUS_EN_REFUSED i, .w1c, false⟩]
  | .SEQ_FAULT => [⟨SEQ_FAULT_CODE i, .ro, false⟩, ⟨SEQ_FAULT_IADDR i, .ro, false⟩]
  | .SEQ_PC => [⟨SEQ_PC i, .ro, false⟩]
  | .SEQ_CURSOR => [⟨SEQ_CURSOR i, .ro, false⟩]
  | .SEQ_SLACK => [⟨SEQ_SLACK i, .ro, false⟩]
  | .SEQ_SLACK_MIN => [⟨SEQ_SLACK_MIN i, .ro, false⟩]
  | .SEQ_START_AT => [⟨SEQ_START_AT i, .rw, true⟩]
  | .SEQ_START_LEAD => [⟨SEQ_START_LEAD i, .rw, true⟩]
  | .SEQ_RESUME_PC => [⟨SEQ_RESUME_PC i, .cfg, true⟩]
  | .SEQ_SHOT => [⟨SEQ_SHOT i, .ro, false⟩]
  | .SEQ_ABORT_INFO => [⟨SEQ_ABORT_INFO_UPC i, .ro, false⟩, ⟨SEQ_ABORT_INFO_IADDR i, .ro, false⟩, ⟨SEQ_ABORT_INFO_COMMITS i, .ro, false⟩]
  | .SEQ_TAU_STALLS => [⟨SEQ_TAU_STALLS i, .ro, false⟩]
  | .SEQ_MISS_COUNT => [⟨SEQ_MISS_COUNT i, .ro, false⟩]
  | .SEQ_GREG => [⟨SEQ_GREG_G i j, .cfg, true⟩]
  | .SEQ_TEQ_BIND => [⟨SEQ_TEQ_BIND_BASE i j, .cfg, true⟩, ⟨SEQ_TEQ_BIND_CLASS i j, .cfg, true⟩, ⟨SEQ_TEQ_BIND_COUNT i j, .cfg, true⟩]
  | .SEQ_TEQ_STATUS => [⟨SEQ_TEQ_STATUS_ENTRIES i j, .ro, false⟩, ⟨SEQ_TEQ_STATUS_FULL_STALLS i j, .ro, false⟩]
  | .QM_CTRL => [⟨QM_CTRL_EN, .rw, true⟩, ⟨QM_CTRL_POOL_LOW, .cfg, true⟩]
  | .QM_STATUS => [⟨QM_STATUS_POOL_EMPTY, .w1c, false⟩, ⟨QM_STATUS_POOL_LOW, .w1c, false⟩, ⟨QM_STATUS_OVERRUN, .w1c, false⟩, ⟨QM_STATUS_Q_FIXED, .w1c, false⟩, ⟨QM_STATUS_PART_BUSY, .w1c, false⟩, ⟨QM_STATUS_CFG_WHILE_ENABLED, .w1c, false⟩, ⟨QM_STATUS_CFG_INTEGRITY, .w1c, false⟩]
  | .QM_POOL_FREE => [⟨QM_POOL_FREE, .ro, false⟩]
  | .QM_POOL_ALLOC => [⟨QM_POOL_ALLOC, .ro, false⟩]
  | .QM_CFG_CRC => [⟨QM_CFG_CRC, .ro, false⟩]
  | .QM_CFG_CRC_REF => [⟨QM_CFG_CRC_REF, .rw, true⟩]
  | .QM_CFG_CRC_COMMIT => [⟨QM_CFG_CRC_COMMIT, .wo, true⟩]
  | .QM_SEL => [⟨QM_SEL, .rw, false⟩]
  | .QM_Q_CFG => [⟨QM_Q_CFG_FULL_POLICY i, .cfg, true⟩, ⟨QM_Q_CFG_OWNER i, .cfg, true⟩, ⟨QM_Q_CFG_LIMIT i, .cfg, true⟩]
  | .QM_Q_CTRL => [⟨QM_Q_CTRL_Q_EN i, .rw, true⟩, ⟨QM_Q_CTRL_RESET i, .wo, true⟩]
  | .QM_Q_STATUS => [⟨QM_Q_STATUS_COUNT i, .ro, false⟩, ⟨QM_Q_STATUS_FULL i, .ro, false⟩, ⟨QM_Q_STATUS_STALLING i, .ro, false⟩]
  | .QM_Q_DROPS => [⟨QM_Q_DROPS i, .ro, false⟩]
  | .QM_PART_QUOTA => [⟨QM_PART_QUOTA i, .cfg, true⟩]
  | .QM_PART_USED => [⟨QM_PART_USED i, .ro, false⟩]
  | .QM_BAR_CFG => [⟨QM_BAR_CFG_COUNT i, .rw, true⟩, ⟨QM_BAR_CFG_TIMEOUT i, .rw, true⟩]
  | .QM_BAR_STATUS => [⟨QM_BAR_STATUS_ARRIVED i, .ro, false⟩, ⟨QM_BAR_STATUS_ROUNDS i, .ro, false⟩]
  | .QM_BAR_MAX => [⟨QM_BAR_MAX_MAX_CURSOR i, .ro, false⟩]
  | .WFT_CTRL => [⟨WFT_CTRL_EN, .rw, true⟩, ⟨WFT_CTRL_SWAP, .wo, false⟩, ⟨WFT_CTRL_SWAP_NOW, .wo, false⟩, ⟨WFT_CTRL_COPY, .wo, false⟩]
  | .WFT_CFG => [⟨WFT_CFG_ALIAS_POLICY, .cfg, true⟩]
  | .WFT_STATUS => [⟨WFT_STATUS_SWAP_PENDING, .ro, false⟩, ⟨WFT_STATUS_SWAP_LATE, .w1c, false⟩, ⟨WFT_STATUS_SWAP_BUSY, .w1c, false⟩, ⟨WFT_STATUS_SWAP_DONE, .w1c, false⟩, ⟨WFT_STATUS_DESC_INVALID, .w1c, false⟩, ⟨WFT_STATUS_DESC_BOUNDS, .w1c, false⟩, ⟨WFT_STATUS_SLOT_DROP, .w1c, false⟩, ⟨WFT_STATUS_FRAME_ALIAS, .w1c, false⟩, ⟨WFT_STATUS_LANE_SAT, .w1c, false⟩, ⟨WFT_STATUS_PORT_LIMIT, .w1c, false⟩, ⟨WFT_STATUS_CFG_WHILE_ENABLED, .w1c, false⟩, ⟨WFT_STATUS_CFG_INTEGRITY, .w1c, false⟩]
  | .WFT_SWAP_AT => [⟨WFT_SWAP_AT, .rw, false⟩]
  | .WFT_SWAP_MASK => [⟨WFT_SWAP_MASK, .rw, false⟩]
  | .WFT_BANK => [⟨WFT_BANK, .ro, false⟩]
  | .WFT_SWAP_COUNT => [⟨WFT_SWAP_COUNT, .ro, false⟩]
  | .WFT_DESC_FAULTS => [⟨WFT_DESC_FAULTS, .ro, false⟩]
  | .WFT_SLOT_DROPS => [⟨WFT_SLOT_DROPS, .ro, false⟩]
  | .WFT_ALIAS_COUNT => [⟨WFT_ALIAS_COUNT, .ro, false⟩]
  | .WFT_SAT_COUNT => [⟨WFT_SAT_COUNT, .ro, false⟩]
  | .WFT_LIMIT_COUNT => [⟨WFT_LIMIT_COUNT, .ro, false⟩]
  | .WFT_LAST_FAULT => [⟨WFT_LAST_FAULT_LANE, .ro, false⟩, ⟨WFT_LAST_FAULT_CAUSE, .ro, false⟩, ⟨WFT_LAST_FAULT_SEQ, .ro, false⟩]
  | .WFT_LAST_DESC => [⟨WFT_LAST_DESC_W, .ro, false⟩]
  | .WFT_LAST_TICK => [⟨WFT_LAST_TICK, .ro, false⟩]
  | .WFT_CFG_CRC => [⟨WFT_CFG_CRC, .ro, false⟩]
  | .WFT_CFG_CRC_REF => [⟨WFT_CFG_CRC_REF, .rw, true⟩]
  | .WFT_CFG_CRC_COMMIT => [⟨WFT_CFG_CRC_COMMIT, .wo, true⟩]
  | .RFO_CTRL => [⟨RFO_CTRL_EN i, .rw, true⟩, ⟨RFO_CTRL_MUTE i, .rw, false⟩]
  | .RFO_CFG => [⟨RFO_CFG_CENTRE_N i, .cfg, true⟩, ⟨RFO_CFG_RANGE i, .cfg, true⟩, ⟨RFO_CFG_IDLE_PWR i, .cfg, true⟩, ⟨RFO_CFG_PARK_ON_CRC i, .cfg, true⟩, ⟨RFO_CFG_HARD_MUTE i, .cfg, true⟩]
  | .RFO_STATUS => [⟨RFO_STATUS_PSTATE i, .ro, false⟩, ⟨RFO_STATUS_MUTED i, .ro, false⟩, ⟨RFO_STATUS_CLASS i, .ro, false⟩, ⟨RFO_STATUS_CELLS_OK i, .ro, false⟩, ⟨RFO_STATUS_PARKED i, .w1c, false⟩, ⟨RFO_STATUS_DRIVER_FAULT i, .w1c, false⟩, ⟨RFO_STATUS_BAD_CENTRE i, .w1c, false⟩, ⟨RFO_STATUS_EN_REFUSED i, .w1c, false⟩, ⟨RFO_STATUS_CAL_COLLISION i, .w1c, false⟩, ⟨RFO_STATUS_CFG_WHILE_ENABLED i, .w1c, false⟩, ⟨RFO_STATUS_CFG_INTEGRITY i, .w1c, false⟩]
  | .RFO_PARK => [⟨RFO_PARK_PARK_MODE i, .ro, false⟩, ⟨RFO_PARK_PARK_CAUSE i, .ro, false⟩]
  | .RFO_EN_TICK => [⟨RFO_EN_TICK i, .ro, false⟩]
  | .RFO_DISCARD_TICKS => [⟨RFO_DISCARD_TICKS i, .ro, false⟩]
  | .RFO_SHAPER_RESETS => [⟨RFO_SHAPER_RESETS i, .ro, false⟩]
  | .RFO_CAL_EPOCH => [⟨RFO_CAL_EPOCH i, .ro, false⟩]
  | .RFO_CELL_SEL => [⟨RFO_CELL_SEL i, .ro, false⟩]
  | .RFO_CELL_BAD => [⟨RFO_CELL_BAD i, .ro, false⟩]
  | .RFO_DELAY_RES => [⟨RFO_DELAY_RES i, .ro, false⟩]
  | .RFO_CFG_CRC => [⟨RFO_CFG_CRC i, .ro, false⟩]
  | .RFO_CFG_CRC_REF => [⟨RFO_CFG_CRC_REF i, .rw, true⟩]
  | .RFO_CFG_CRC_COMMIT => [⟨RFO_CFG_CRC_COMMIT i, .wo, true⟩]
  | .RFO_TILE_PENDING => [⟨RFO_TILE_PENDING i, .ro, false⟩]
  | .ZP_CTRL => [⟨ZP_CTRL_EN i, .rw, true⟩]
  | .ZP_CFG => [⟨ZP_CFG_ZB_MODE i, .cfg, true⟩, ⟨ZP_CFG_RB_EN i, .cfg, true⟩, ⟨ZP_CFG_PARK_ON_CRC i, .cfg, true⟩, ⟨ZP_CFG_STREAM_DIV i, .cfg, true⟩]
  | .ZP_STATUS => [⟨ZP_STATUS_RANGE i, .ro, false⟩, ⟨ZP_STATUS_PEND_RANGE i, .ro, false⟩, ⟨ZP_STATUS_TRANSFER i, .ro, false⟩, ⟨ZP_STATUS_RAMPING i, .ro, false⟩, ⟨ZP_STATUS_ACTIVE i, .ro, false⟩, ⟨ZP_STATUS_PARK_DONE i, .ro, false⟩, ⟨ZP_STATUS_PARKED i, .w1c, false⟩, ⟨ZP_STATUS_DRIVER_FAULT i, .w1c, false⟩, ⟨ZP_STATUS_READBACK_FAULT i, .w1c, false⟩, ⟨ZP_STATUS_RANGE_DEFERRED i, .w1c, false⟩, ⟨ZP_STATUS_BIAS_COLLISION i, .w1c, false⟩, ⟨ZP_STATUS_MODE_CONFLICT i, .w1c, false⟩, ⟨ZP_STATUS_UNDERRUN i, .w1c, false⟩, ⟨ZP_STATUS_COMPLIANCE i, .w1c, false⟩, ⟨ZP_STATUS_EN_REFUSED i, .w1c, false⟩, ⟨ZP_STATUS_ZF_CLIP i, .w1c, false⟩, ⟨ZP_STATUS_CFG_WHILE_ENABLED i, .w1c, false⟩, ⟨ZP_STATUS_CFG_INTEGRITY i, .w1c, false⟩]
  | .ZP_PARK => [⟨ZP_PARK_PARK_CAUSE i, .ro, false⟩]
  | .ZB_CODE => [⟨ZB_CODE_CODE i, .ro, false⟩, ⟨ZB_CODE_RANGE i, .ro, false⟩]
  | .ZP_STREAM_Q => [⟨ZP_STREAM_Q_QUEUE i, .cfg, true⟩]
  | .ZP_STREAM_AT => [⟨ZP_STREAM_AT i, .rw, true⟩]
  | .ZF_CLIP_COUNT => [⟨ZF_CLIP_COUNT i, .ro, false⟩]
  | .ZF_DISCARD_TICKS => [⟨ZF_DISCARD_TICKS i, .ro, false⟩]
  | .ZB_DISCARDS => [⟨ZB_DISCARDS i, .ro, false⟩]
  | .ZB_UNDERRUNS => [⟨ZB_UNDERRUNS i, .ro, false⟩]
  | .ZB_DEFERRALS => [⟨ZB_DEFERRALS i, .ro, false⟩]
  | .RB_MISMATCHES => [⟨RB_MISMATCHES i, .ro, false⟩]
  | .RB_SKIPS => [⟨RB_SKIPS i, .ro, false⟩]
  | .ZP_RB_LAST => [⟨ZP_RB_LAST_M i, .ro, false⟩, ⟨ZP_RB_LAST_R i, .ro, false⟩]
  | .ZP_PARK_VAL => [⟨ZP_PARK_VAL_PARK_CODE i, .ro, false⟩, ⟨ZP_PARK_VAL_PARK_RANGE i, .ro, false⟩]
  | .ZP_PARK_SLEW => [⟨ZP_PARK_SLEW i, .ro, false⟩]
  | .ZP_CFG_CRC => [⟨ZP_CFG_CRC i, .ro, false⟩]
  | .ZP_CFG_CRC_REF => [⟨ZP_CFG_CRC_REF i, .rw, true⟩]
  | .ZP_CFG_CRC_COMMIT => [⟨ZP_CFG_CRC_COMMIT i, .wo, true⟩]
  | .ZF_IIR_ALPHA => [⟨ZF_IIR_ALPHA i j, .cfg, true⟩]
  | .ZF_IIR_A => [⟨ZF_IIR_A i j, .cfg, true⟩]
  | .ZF_FIR => [⟨ZF_FIR_H i j, .cfg, true⟩]
  | .ZP_TILE_PENDING => [⟨ZP_TILE_PENDING i, .ro, false⟩]
  | .ZP_RB_CFG => [⟨ZP_RB_CFG_PERIOD i, .rw, true⟩, ⟨ZP_RB_CFG_TOL i, .rw, true⟩, ⟨ZP_RB_CFG_N i, .rw, true⟩]
  | .RFI_CTRL => [⟨RFI_CTRL_EN i, .rw, true⟩, ⟨RFI_CTRL_KSWAP i, .wo, false⟩, ⟨RFI_CTRL_KSWAP_NOW i, .wo, false⟩, ⟨RFI_CTRL_KCOPY i, .wo, false⟩]
  | .RFI_CFG => [⟨RFI_CFG_RANGE i, .cfg, true⟩, ⟨RFI_CFG_IDLE_PWR i, .cfg, true⟩]
  | .RFI_STATUS => [⟨RFI_STATUS_PSTATE i, .ro, false⟩, ⟨RFI_STATUS_SLICES_OK i, .ro, false⟩, ⟨RFI_STATUS_KSWAP_PENDING i, .ro, false⟩, ⟨RFI_STATUS_OVERRANGE i, .w1c, false⟩, ⟨RFI_STATUS_EN_REFUSED i, .w1c, false⟩, ⟨RFI_STATUS_CAL_COLLISION i, .w1c, false⟩, ⟨RFI_STATUS_KSWAP_LATE i, .w1c, false⟩, ⟨RFI_STATUS_KSWAP_BUSY i, .w1c, false⟩, ⟨RFI_STATUS_KSWAP_DONE i, .w1c, false⟩, ⟨RFI_STATUS_CFG_WHILE_ENABLED i, .w1c, false⟩, ⟨RFI_STATUS_CFG_INTEGRITY i, .w1c, false⟩]
  | .RFI_KSWAP_AT => [⟨RFI_KSWAP_AT i, .rw, false⟩]
  | .RFI_KSWAP_MASK => [⟨RFI_KSWAP_MASK i, .rw, false⟩]
  | .RFI_KBANK => [⟨RFI_KBANK i, .ro, false⟩]
  | .RFI_KSWAP_COUNT => [⟨RFI_KSWAP_COUNT i, .ro, false⟩]
  | .RFI_OVR_COUNT => [⟨RFI_OVR_COUNT i, .ro, false⟩]
  | .RFI_CAL_EPOCH => [⟨RFI_CAL_EPOCH i, .ro, false⟩]
  | .RFI_SLICE_SEL => [⟨RFI_SLICE_SEL i, .ro, false⟩]
  | .RFI_SLICE_BAD => [⟨RFI_SLICE_BAD i, .ro, false⟩]
  | .RFI_LAU_PENDING => [⟨RFI_LAU_PENDING i, .ro, false⟩]
  | .RFI_CFG_CRC => [⟨RFI_CFG_CRC i, .ro, false⟩]
  | .RFI_CFG_CRC_REF => [⟨RFI_CFG_CRC_REF i, .rw, true⟩]
  | .RFI_CFG_CRC_COMMIT => [⟨RFI_CFG_CRC_COMMIT i, .wo, true⟩]
  | .LAU_CTRL => [⟨LAU_CTRL_EN i, .rw, true⟩]
  | .LAU_CFG => [⟨LAU_CFG_FORMAT i, .cfg, true⟩, ⟨LAU_CFG_PX_EN i, .cfg, true⟩, ⟨LAU_CFG_RING i, .cfg, true⟩]
  | .LAU_FRAMES => [⟨LAU_FRAMES_RFRAME i, .cfg, true⟩, ⟨LAU_FRAMES_PFRAME i, .cfg, true⟩]
  | .LAU_STATUS => [⟨LAU_STATUS_ACTIVE i, .ro, false⟩, ⟨LAU_STATUS_BUSY_NOW i, .ro, false⟩, ⟨LAU_STATUS_BUSY i, .w1c, false⟩, ⟨LAU_STATUS_SETUP i, .w1c, false⟩, ⟨LAU_STATUS_CHAN_OFF i, .w1c, false⟩, ⟨LAU_STATUS_ACC_SAT i, .w1c, false⟩, ⟨LAU_STATUS_RFI_DOWN i, .w1c, false⟩, ⟨LAU_STATUS_EN_REFUSED i, .w1c, false⟩, ⟨LAU_STATUS_CFG_WHILE_ENABLED i, .w1c, false⟩, ⟨LAU_STATUS_CFG_INTEGRITY i, .w1c, false⟩]
  | .LAU_GEN => [⟨LAU_GEN i, .ro, false⟩]
  | .LAU_MEAS_COUNT => [⟨LAU_MEAS_COUNT i, .ro, false⟩]
  | .LAU_INVALID_COUNT => [⟨LAU_INVALID_COUNT i, .ro, false⟩]
  | .LAU_LOWCONF_COUNT => [⟨LAU_LOWCONF_COUNT i, .ro, false⟩]
  | .LAU_LEAK_COUNT => [⟨LAU_LEAK_COUNT i, .ro, false⟩]
  | .LAU_LAST_I => [⟨LAU_LAST_I i, .ro, false⟩]
  | .LAU_LAST_Q => [⟨LAU_LAST_Q i, .ro, false⟩]
  | .LAU_LAST_END => [⟨LAU_LAST_END i, .ro, false⟩]
  | .LAU_CFG_CRC => [⟨LAU_CFG_CRC i, .ro, false⟩]
  | .LAU_CFG_CRC_REF => [⟨LAU_CFG_CRC_REF i, .rw, true⟩]
  | .LAU_CFG_CRC_COMMIT => [⟨LAU_CFG_CRC_COMMIT i, .wo, true⟩]
  | .DEC_CTRL => [⟨DEC_CTRL_EN, .rw, true⟩]
  | .DEC_STATUS => [⟨DEC_STATUS_LATE_RESULT, .w1c, false⟩, ⟨DEC_STATUS_ROUND_FAIL, .w1c, false⟩, ⟨DEC_STATUS_FWD_DROP, .w1c, false⟩, ⟨DEC_STATUS_EN_REFUSED, .w1c, false⟩, ⟨DEC_STATUS_CFG_WHILE_ENABLED, .w1c, false⟩, ⟨DEC_STATUS_CFG_INTEGRITY, .w1c, false⟩]
  | .DEC_LATE_COUNT => [⟨DEC_LATE_COUNT, .ro, false⟩]
  | .DEC_FWD_DROPS => [⟨DEC_FWD_DROPS, .ro, false⟩]
  | .DEC_REMOTE_RX => [⟨DEC_REMOTE_RX, .ro, false⟩]
  | .DEC_HOST_FLAGS => [⟨DEC_HOST_FLAGS, .w1c, false⟩]
  | .DEC_CFG_CRC => [⟨DEC_CFG_CRC, .ro, false⟩]
  | .DEC_CFG_CRC_REF => [⟨DEC_CFG_CRC_REF, .rw, true⟩]
  | .DEC_CFG_CRC_COMMIT => [⟨DEC_CFG_CRC_COMMIT, .wo, true⟩]
  | .DEC_FWD => [⟨DEC_FWD_EN i, .cfg, true⟩, ⟨DEC_FWD_DEV i, .cfg, true⟩, ⟨DEC_FWD_RPAIR i, .cfg, true⟩]
  | .DEC_WIN_CTRL => [⟨DEC_WIN_CTRL_EN i, .rw, true⟩]
  | .DEC_WIN_CFG => [⟨DEC_WIN_CFG_NBITS i, .cfg, true⟩, ⟨DEC_WIN_CFG_PART i, .cfg, true⟩, ⟨DEC_WIN_CFG_FWD_EN i, .cfg, true⟩, ⟨DEC_WIN_CFG_FWD_DEV i, .cfg, true⟩, ⟨DEC_WIN_CFG_FWD_RPAIR i, .cfg, true⟩]
  | .DEC_WIN_BASE => [⟨DEC_WIN_BASE i, .rw, true⟩]
  | .DEC_WIN_TMO => [⟨DEC_WIN_TMO_TIMEOUT i, .rw, true⟩]
  | .DEC_WIN_GROUP => [⟨DEC_WIN_GROUP_SEQ_A i j, .cfg, true⟩, ⟨DEC_WIN_GROUP_VALID_A i j, .cfg, true⟩, ⟨DEC_WIN_GROUP_SEQ_B i j, .cfg, true⟩, ⟨DEC_WIN_GROUP_VALID_B i j, .cfg, true⟩]
  | .DEC_WIN_PFRAME => [⟨DEC_WIN_PFRAME_FRAME_A i j, .cfg, true⟩, ⟨DEC_WIN_PFRAME_FRAME_B i j, .cfg, true⟩]
  | .DEC_WIN_STATUS => [⟨DEC_WIN_STATUS_ACTIVE i, .ro, false⟩, ⟨DEC_WIN_STATUS_ROUND_OPEN i, .ro, false⟩, ⟨DEC_WIN_STATUS_LAST_FAIL i, .ro, false⟩, ⟨DEC_WIN_STATUS_READY i, .ro, false⟩]
  | .DEC_CODE => [⟨DEC_CODE_CODE i, .ro, false⟩, ⟨DEC_CODE_INV i, .ro, false⟩, ⟨DEC_CODE_GEN i, .ro, false⟩]
  | .DEC_WIN_ROUNDS => [⟨DEC_WIN_ROUNDS i, .ro, false⟩]
  | .DEC_WIN_FAILS => [⟨DEC_WIN_FAILS i, .ro, false⟩]
  | .DEC_WIN_LAST => [⟨DEC_WIN_LAST_LAST_INDEX i, .ro, false⟩]
  | .DEC_GATHER => [⟨DEC_GATHER_BIT i j, .cfg, true⟩]
  | .ANA_CTRL => [⟨ANA_CTRL_EN i, .rw, true⟩, ⟨ANA_CTRL_DOORBELL i, .wo, false⟩]
  | .ANA_CFG => [⟨ANA_CFG_PART i, .cfg, true⟩, ⟨ANA_CFG_IRQ_EN i, .cfg, true⟩]
  | .ANA_STATUS => [⟨ANA_STATUS_STATE i, .ro, false⟩, ⟨ANA_STATUS_SHADOW i, .ro, false⟩, ⟨ANA_STATUS_CLKDIV i, .ro, false⟩, ⟨ANA_STATUS_FAULT i, .w1c, false⟩, ⟨ANA_STATUS_IN_SKIP i, .w1c, false⟩, ⟨ANA_STATUS_HOST_FLAG i, .w1c, false⟩, ⟨ANA_STATUS_EN_REFUSED i, .w1c, false⟩, ⟨ANA_STATUS_CFG_WHILE_ENABLED i, .w1c, false⟩, ⟨ANA_STATUS_CFG_INTEGRITY i, .w1c, false⟩]
  | .ANA_FAULT => [⟨ANA_FAULT_CODE i, .ro, false⟩, ⟨ANA_FAULT_FPC i, .ro, false⟩]
  | .ANA_PC => [⟨ANA_PC i, .ro, false⟩]
  | .ANA_HOST_VAL => [⟨ANA_HOST_VAL_VALUE i, .ro, false⟩]
  | .ANA_CYCLES => [⟨ANA_CYCLES i, .ro, false⟩]
  | .ANA_IN_CFG => [⟨ANA_IN_CFG_QUEUE i j, .cfg, true⟩, ⟨ANA_IN_CFG_MODE i j, .cfg, true⟩, ⟨ANA_IN_CFG_CONV i j, .cfg, true⟩]
  | .ANA_IN_BUF => [⟨ANA_IN_BUF_BASE i j, .cfg, true⟩, ⟨ANA_IN_BUF_LEN i j, .cfg, true⟩]
  | .ANA_IN_WP => [⟨ANA_IN_WP i j, .ro, false⟩]
  | .ANA_IN_RP => [⟨ANA_IN_RP i j, .ro, false⟩]
  | .ANA_OUT_CFG => [⟨ANA_OUT_CFG_OUT_QUEUE i, .cfg, true⟩]
  | .ANA_OUT_STALLS => [⟨ANA_OUT_STALLS i, .ro, false⟩]
  | .ANA_IN_SKIPS => [⟨ANA_IN_SKIPS i, .ro, false⟩]
  | .ANA_CFG_CRC => [⟨ANA_CFG_CRC i, .ro, false⟩]
  | .ANA_CFG_CRC_REF => [⟨ANA_CFG_CRC_REF i, .rw, true⟩]
  | .ANA_CFG_CRC_COMMIT => [⟨ANA_CFG_CRC_COMMIT i, .wo, true⟩]
  | .TAP_CTRL => [⟨TAP_CTRL_EN i, .rw, true⟩, ⟨TAP_CTRL_ARM i, .wo, false⟩, ⟨TAP_CTRL_DISARM i, .wo, false⟩]
  | .TAP_CFG => [⟨TAP_CFG_FMT i, .cfg, true⟩, ⟨TAP_CFG_TRIG_EXT i, .cfg, true⟩, ⟨TAP_CFG_TRIG_MEAS i, .cfg, true⟩, ⟨TAP_CFG_SRC i, .cfg, true⟩, ⟨TAP_CFG_NSEG i, .cfg, true⟩]
  | .TAP_LEN => [⟨TAP_LEN i, .cfg, true⟩]
  | .TAP_PRE => [⟨TAP_PRE i, .cfg, true⟩]
  | .TAP_CH_MASK => [⟨TAP_CH_MASK i, .cfg, true⟩]
  | .TAP_MEAS_MASK => [⟨TAP_MEAS_MASK i, .cfg, true⟩]
  | .TAP_QUEUE => [⟨TAP_QUEUE i, .cfg, true⟩]
  | .TAP_REGION_BASE => [⟨TAP_REGION_BASE i, .cfg, true⟩]
  | .TAP_REGION_SIZE => [⟨TAP_REGION_SIZE i, .cfg, true⟩]
  | .TAP_STATUS => [⟨TAP_STATUS_STATE i, .ro, false⟩, ⟨TAP_STATUS_MISSED i, .w1c, false⟩, ⟨TAP_STATUS_DONE i, .w1c, false⟩, ⟨TAP_STATUS_DATA_LOSS i, .w1c, false⟩, ⟨TAP_STATUS_ARM_REFUSED i, .w1c, false⟩, ⟨TAP_STATUS_EN_REFUSED i, .w1c, false⟩, ⟨TAP_STATUS_CFG_WHILE_ENABLED i, .w1c, false⟩, ⟨TAP_STATUS_CFG_INTEGRITY i, .w1c, false⟩]
  | .TAP_SEEN => [⟨TAP_SEEN i, .ro, false⟩]
  | .TAP_CAPTURED => [⟨TAP_CAPTURED i, .ro, false⟩]
  | .TAP_MISSED => [⟨TAP_MISSED i, .ro, false⟩]
  | .TAP_SEG_DONE => [⟨TAP_SEG_DONE i, .ro, false⟩]
  | .TAP_ACQ_COUNT => [⟨TAP_ACQ_COUNT i, .ro, false⟩]
  | .TAP_MISS_WR => [⟨TAP_MISS_WR i, .ro, false⟩]
  | .TAP_MISS_LOG => [⟨TAP_MISS_LOG_STAMP i j, .ro, false⟩]
  | .TAP_MISS_INFO => [⟨TAP_MISS_INFO_CAUSE i j, .ro, false⟩, ⟨TAP_MISS_INFO_KIND i j, .ro, false⟩, ⟨TAP_MISS_INFO_DETAIL i j, .ro, false⟩]
  | .TAP_CFG_CRC => [⟨TAP_CFG_CRC i, .ro, false⟩]
  | .TAP_CFG_CRC_REF => [⟨TAP_CFG_CRC_REF i, .rw, true⟩]
  | .TAP_CFG_CRC_COMMIT => [⟨TAP_CFG_CRC_COMMIT i, .wo, true⟩]
  | .FLV_CTRL => [⟨FLV_CTRL_EN i, .rw, true⟩, ⟨FLV_CTRL_IDLE_REQ i, .wo, true⟩, ⟨FLV_CTRL_RETRAIN i, .wo, true⟩]
  | .FLV_CFG => [⟨FLV_CFG_WIDTH i, .cfg, true⟩, ⟨FLV_CFG_PEER i, .cfg, true⟩, ⟨FLV_CFG_PEER_CHK i, .cfg, true⟩, ⟨FLV_CFG_AUTO_IDLE i, .cfg, true⟩, ⟨FLV_CFG_IDLE_AFTER i, .cfg, true⟩, ⟨FLV_CFG_CRC_RETRAIN i, .cfg, true⟩]
  | .FLV_CFG2 => [⟨FLV_CFG2_TIME_PERIOD i, .cfg, true⟩, ⟨FLV_CFG2_TRIG_PART i, .cfg, true⟩]
  | .FLV_STATUS => [⟨FLV_STATUS_STATE i, .ro, false⟩, ⟨FLV_STATUS_PEER_DEV i, .ro, false⟩, ⟨FLV_STATUS_EN_REFUSED i, .w1c, false⟩, ⟨FLV_STATUS_PEER_MISMATCH i, .w1c, false⟩, ⟨FLV_STATUS_TRAIN_FAIL i, .w1c, false⟩, ⟨FLV_STATUS_LOCK_LOST i, .w1c, false⟩, ⟨FLV_STATUS_CRC_ERR i, .w1c, false⟩, ⟨FLV_STATUS_CREDIT_RESTORED i, .w1c, false⟩, ⟨FLV_STATUS_CFG_WHILE_ENABLED i, .w1c, false⟩, ⟨FLV_STATUS_CFG_INTEGRITY i, .w1c, false⟩]
  | .FLV_CREDIT => [⟨FLV_CREDIT_TX_CREDITS i, .ro, false⟩, ⟨FLV_CREDIT_PEER_DEPTH i, .ro, false⟩]
  | .FLV_FLITS_SENT => [⟨FLV_FLITS_SENT i, .ro, false⟩]
  | .FLV_FLITS_CONSUMED => [⟨FLV_FLITS_CONSUMED i, .ro, false⟩]
  | .FLV_CREDITS_RETURNED => [⟨FLV_CREDITS_RETURNED i, .ro, false⟩]
  | .FLV_CREDITS_BACK => [⟨FLV_CREDITS_BACK i, .ro, false⟩]
  | .FLV_CREDITS_RESTORED => [⟨FLV_CREDITS_RESTORED i, .ro, false⟩]
  | .FLV_CRC_ERRORS => [⟨FLV_CRC_ERRORS i, .ro, false⟩]
  | .FLV_SEQ_GAPS => [⟨FLV_SEQ_GAPS i, .ro, false⟩]
  | .FLV_RETRAINS => [⟨FLV_RETRAINS i, .ro, false⟩]
  | .FLV_TRAIN_FAILS => [⟨FLV_TRAIN_FAILS i, .ro, false⟩]
  | .FLV_FLUSHED => [⟨FLV_FLUSHED i, .ro, false⟩]
  | .FLV_IDLE_EXITS => [⟨FLV_IDLE_EXITS i, .ro, false⟩]
  | .FLV_LAT_RT => [⟨FLV_LAT_RT_LAT i, .ro, false⟩, ⟨FLV_LAT_RT_VALID i, .ro, false⟩]
  | .FLV_LAT_1W_LAST => [⟨FLV_LAT_1W_LAST_LAT i, .ro, false⟩, ⟨FLV_LAT_1W_LAST_VALID i, .ro, false⟩]
  | .FLV_LAT_1W_MIN => [⟨FLV_LAT_1W_MIN_LAT i, .ro, false⟩, ⟨FLV_LAT_1W_MIN_VALID i, .ro, false⟩]
  | .FLV_LAT_1W_MAX => [⟨FLV_LAT_1W_MAX_LAT i, .ro, false⟩, ⟨FLV_LAT_1W_MAX_VALID i, .ro, false⟩]
  | .FLV_CFG_CRC => [⟨FLV_CFG_CRC i, .ro, false⟩]
  | .FLV_CFG_CRC_REF => [⟨FLV_CFG_CRC_REF i, .rw, true⟩]
  | .FLV_CFG_CRC_COMMIT => [⟨FLV_CFG_CRC_COMMIT i, .wo, true⟩]
  | .FLV_LANE_TEST => [⟨FLV_LANE_TEST_PATTERN i, .cfg, true⟩, ⟨FLV_LANE_TEST_GEN i, .cfg, true⟩, ⟨FLV_LANE_TEST_CHK i, .cfg, true⟩, ⟨FLV_LANE_TEST_INJECT i, .wo, true⟩, ⟨FLV_LANE_TEST_INJ_EXP i, .rw, true⟩]
  | .FLV_LANE_STATUS => [⟨FLV_LANE_STATUS_DETECTED i, .ro, false⟩, ⟨FLV_LANE_STATUS_BIT_LOCK i, .ro, false⟩, ⟨FLV_LANE_STATUS_BLOCK_LOCK i, .ro, false⟩, ⟨FLV_LANE_STATUS_PRBS_LOCK i, .ro, false⟩, ⟨FLV_LANE_STATUS_PRBS_LOSS i, .w1c, false⟩]
  | .FLV_PRBS_ERRORS => [⟨FLV_PRBS_ERRORS i, .ro, false⟩]
  | .FLV_SYNC_ERRORS => [⟨FLV_SYNC_ERRORS i, .ro, false⟩]
  | .FLV_PRBS_BITS => [⟨FLV_PRBS_BITS i, .ro, false⟩]
  | .FLV_GCTRL => [⟨FLV_GCTRL_EN, .rw, true⟩]
  | .FLV_GSTATUS => [⟨FLV_GSTATUS_TX_DROP, .w1c, false⟩, ⟨FLV_GSTATUS_RX_DROP, .w1c, false⟩, ⟨FLV_GSTATUS_CFG_WHILE_ENABLED, .w1c, false⟩, ⟨FLV_GSTATUS_CFG_INTEGRITY, .w1c, false⟩]
  | .FLV_TX_DROPS => [⟨FLV_TX_DROPS, .ro, false⟩]
  | .FLV_RX_DROPS => [⟨FLV_RX_DROPS, .ro, false⟩]
  | .FLV_GCFG_CRC => [⟨FLV_GCFG_CRC, .ro, false⟩]
  | .FLV_GCFG_CRC_REF => [⟨FLV_GCFG_CRC_REF, .rw, true⟩]
  | .FLV_GCFG_CRC_COMMIT => [⟨FLV_GCFG_CRC_COMMIT, .wo, true⟩]
  | .FLV_ROUTE => [⟨FLV_ROUTE_LINK i, .rw, true⟩, ⟨FLV_ROUTE_VALID i, .rw, true⟩]
  | .FLV_PROXY_SRC => [⟨FLV_PROXY_SRC_LQUEUE i, .cfg, true⟩]
  | .FLV_PROXY_DST => [⟨FLV_PROXY_DST_RQUEUE i, .cfg, true⟩, ⟨FLV_PROXY_DST_DEV i, .cfg, true⟩, ⟨FLV_PROXY_DST_VALID i, .cfg, true⟩]
  | .NT_CTRL => [⟨NT_CTRL_EN, .rw, true⟩, ⟨NT_CTRL_STEP, .wo, true⟩, ⟨NT_CTRL_LOAD, .wo, true⟩]
  | .NT_STATUS => [⟨NT_STATUS_STEP_PENDING, .ro, true⟩, ⟨NT_STATUS_STEP_REFUSED, .w1c, true⟩, ⟨NT_STATUS_STEP_BUSY, .w1c, true⟩, ⟨NT_STATUS_INC_REFUSED, .w1c, true⟩, ⟨NT_STATUS_CFG_WHILE_ENABLED, .w1c, true⟩, ⟨NT_STATUS_CFG_INTEGRITY, .w1c, true⟩]
  | .NT_NOW => [⟨NT_NOW, .ro, true⟩]
  | .NT_INC => [⟨NT_INC, .rw, true⟩]
  | .NT_STEP => [⟨NT_STEP, .rw, true⟩]
  | .NT_STEP_MAX => [⟨NT_STEP_MAX, .cfg, true⟩]
  | .NT_LOAD => [⟨NT_LOAD, .rw, true⟩]
  | .NT_WRAPS => [⟨NT_WRAPS, .ro, true⟩]
  | .NT_STEPS => [⟨NT_STEPS, .ro, true⟩]
  | .NT_REFUSALS => [⟨NT_REFUSALS, .ro, true⟩]
  | .NT_CFG_CRC => [⟨NT_CFG_CRC, .ro, true⟩]
  | .NT_CFG_CRC_REF => [⟨NT_CFG_CRC_REF, .rw, true⟩]
  | .NT_CFG_CRC_COMMIT => [⟨NT_CFG_CRC_COMMIT, .wo, true⟩]
  | .ETH_CTRL => [⟨ETH_CTRL_EN i, .rw, true⟩]
  | .ETH_CFG => [⟨ETH_CFG_PMD i, .cfg, true⟩, ⟨ETH_CFG_AN_EN i, .cfg, true⟩, ⟨ETH_CFG_LATE_POLICY i, .cfg, true⟩]
  | .ETH_STATUS => [⟨ETH_STATUS_LINK i, .ro, true⟩, ⟨ETH_STATUS_FEC_LOCK i, .ro, true⟩, ⟨ETH_STATUS_LATE i, .w1c, true⟩, ⟨ETH_STATUS_FCS_ERR i, .w1c, true⟩, ⟨ETH_STATUS_PAUSE_RX i, .w1c, true⟩, ⟨ETH_STATUS_CFG_WHILE_ENABLED i, .w1c, true⟩, ⟨ETH_STATUS_CFG_INTEGRITY i, .w1c, true⟩]
  | .ETH_TX_LAT => [⟨ETH_TX_LAT i, .rw, true⟩]
  | .ETH_RX_LAT => [⟨ETH_RX_LAT i, .rw, true⟩]
  | .ETH_TX_FRAMES => [⟨ETH_TX_FRAMES i, .ro, true⟩]
  | .ETH_RX_FRAMES => [⟨ETH_RX_FRAMES i, .ro, true⟩]
  | .ETH_FCS_ERRORS => [⟨ETH_FCS_ERRORS i, .ro, true⟩]
  | .ETH_RX_DROPS => [⟨ETH_RX_DROPS i, .ro, true⟩]
  | .ETH_LATE_SENT => [⟨ETH_LATE_SENT i, .ro, true⟩]
  | .ETH_LATE_DROPS => [⟨ETH_LATE_DROPS i, .ro, true⟩]
  | .ETH_PAUSE_RX => [⟨ETH_PAUSE_RX i, .ro, true⟩]
  | .ETH_CFG_CRC => [⟨ETH_CFG_CRC i, .ro, true⟩]
  | .ETH_CFG_CRC_REF => [⟨ETH_CFG_CRC_REF i, .rw, true⟩]
  | .ETH_CFG_CRC_COMMIT => [⟨ETH_CFG_CRC_COMMIT i, .wo, true⟩]
  | .HOST_CTRL => [⟨HOST_CTRL_EN, .rw, true⟩]
  | .HOST_CFG => [⟨HOST_CFG_RELAX, .cfg, true⟩, ⟨HOST_CFG_MAX_READ, .cfg, true⟩]
  | .HOST_STATUS => [⟨HOST_STATUS_LINK_UP, .ro, false⟩, ⟨HOST_STATUS_SPEED, .ro, false⟩, ⟨HOST_STATUS_WIDTH, .ro, false⟩, ⟨HOST_STATUS_ACCESS_FAULT, .w1c, false⟩, ⟨HOST_STATUS_CFG_WHILE_ENABLED, .w1c, false⟩, ⟨HOST_STATUS_CFG_INTEGRITY, .w1c, false⟩]
  | .HOST_SEC_RID => [⟨HOST_SEC_RID_RID, .wonce, true⟩, ⟨HOST_SEC_RID_VALID, .ro, false⟩]
  | .HOST_CFG_CRC => [⟨HOST_CFG_CRC, .ro, false⟩]
  | .HOST_CFG_CRC_REF => [⟨HOST_CFG_CRC_REF, .rw, true⟩]
  | .HOST_CFG_CRC_COMMIT => [⟨HOST_CFG_CRC_COMMIT, .wo, true⟩]
  | .HOST_AF_COUNT => [⟨HOST_AF_COUNT, .ro, true⟩]
  | .HOST_AF_WR => [⟨HOST_AF_WR, .ro, true⟩]
  | .HOST_AF_ADDR => [⟨HOST_AF_ADDR i, .ro, true⟩]
  | .HOST_AF_INFO => [⟨HOST_AF_INFO_RID i, .ro, true⟩, ⟨HOST_AF_INFO_FN i, .ro, true⟩, ⟨HOST_AF_INFO_SUP i, .ro, true⟩, ⟨HOST_AF_INFO_WRITE i, .ro, true⟩, ⟨HOST_AF_INFO_BE i, .ro, true⟩, ⟨HOST_AF_INFO_CAUSE i, .ro, true⟩]
  | .HOST_AF_DATA => [⟨HOST_AF_DATA i, .ro, true⟩]
  | .HOST_AF_TICK => [⟨HOST_AF_TICK i, .ro, true⟩]
  | .HOST_EVT_MAP => [⟨HOST_EVT_MAP_VEC i, .lk, true⟩, ⟨HOST_EVT_MAP_MSIX_EN i, .lk, true⟩, ⟨HOST_EVT_MAP_SUP i, .lk, true⟩]
  | .GLB_ID => [⟨GLB_ID_VENDOR, .ro, false⟩, ⟨GLB_ID_PART, .ro, false⟩]
  | .GLB_REV => [⟨GLB_REV_STEPPING, .ro, false⟩, ⟨GLB_REV_VARIANT, .ro, false⟩]
  | .GLB_DEVID => [⟨GLB_DEVID_DEV_ID, .ro, false⟩]
  | .GLB_FW => [⟨GLB_FW, .ro, false⟩]
  | .GLB_UID => [⟨GLB_UID, .ro, false⟩]
  | .GLB_STATUS => [⟨GLB_STATUS_READY, .ro, false⟩, ⟨GLB_STATUS_PART_BUSY, .w1c, false⟩, ⟨GLB_STATUS_FENCED, .ro, false⟩]
  | .GLB_LOCK => [⟨GLB_LOCK_PART_LOCK, .rw, true⟩, ⟨GLB_LOCK_VEC_LOCK, .rw, true⟩]
  | .GLB_EVT_PEND => [⟨GLB_EVT_PEND i, .w1c, false⟩]
  | .GLB_EVT_EN => [⟨GLB_EVT_EN i, .mw, false⟩]
  | .MBX_DB => [⟨MBX_DB_RING i, .wo, true⟩, ⟨MBX_DB_STATE i, .ro, true⟩, ⟨MBX_DB_SESSION_OPEN i, .ro, true⟩, ⟨MBX_DB_LOCKOUT i, .ro, true⟩, ⟨MBX_DB_RING_REFUSED i, .w1c, true⟩, ⟨MBX_DB_LOCK_S i, .ro, true⟩]
  | .EXC_STATUS => [⟨EXC_STATUS_ISLAND_UP, .ro, false⟩, ⟨EXC_STATUS_SEALED, .ro, false⟩, ⟨EXC_STATUS_LEDGER_BREAK, .ro, false⟩, ⟨EXC_STATUS_ENFORCE, .ro, false⟩]
  | .EXC_VIEW_TICK => [⟨EXC_VIEW_TICK, .ro, false⟩]
  | .EXC_SEAL_BREAKS => [⟨EXC_SEAL_BREAKS, .ro, false⟩]
  | .EXC_LOG_INDEX => [⟨EXC_LOG_INDEX, .ro, false⟩]
  | .EXC_FEED_EPOCH => [⟨EXC_FEED_EPOCH, .ro, false⟩]
  | .EXC_SEAL_ID => [⟨EXC_SEAL_ID i, .ro, false⟩]
  | .EXC_ACC => [⟨EXC_ACC_COUNT i j, .ro, false⟩]
  | .MON_CTRL => [⟨MON_CTRL_EN, .rw, true⟩]
  | .MON_STATUS => [⟨MON_STATUS_CFG_WHILE_ENABLED, .w1c, false⟩, ⟨MON_STATUS_CFG_INTEGRITY, .w1c, false⟩]
  | .MON_CFG_CRC => [⟨MON_CFG_CRC, .ro, false⟩]
  | .MON_CFG_CRC_REF => [⟨MON_CFG_CRC_REF, .rw, true⟩]
  | .MON_CFG_CRC_COMMIT => [⟨MON_CFG_CRC_COMMIT, .wo, true⟩]
  | .MON_SAR_STATUS => [⟨MON_SAR_STATUS_BUSY i, .ro, false⟩, ⟨MON_SAR_STATUS_LATE i, .w1c, false⟩, ⟨MON_SAR_STATUS_OVERRUN i, .w1c, false⟩]
  | .MON_TDAC => [⟨MON_TDAC_CODE i, .rw, true⟩, ⟨MON_TDAC_MODE i, .rw, true⟩, ⟨MON_TDAC_TD_INPUT i, .rw, true⟩]
  | .MON_OVERRUNS => [⟨MON_OVERRUNS i, .ro, false⟩]
  | .MON_SEQ => [⟨MON_SEQ_INPUT i j, .cfg, true⟩, ⟨MON_SEQ_TRIG i j, .cfg, true⟩, ⟨MON_SEQ_SRC i j, .cfg, true⟩]
  | .MON_SEQ_DELAY => [⟨MON_SEQ_DELAY i j, .cfg, true⟩]
  | .MON_SEQ_AT => [⟨MON_SEQ_AT i j, .cfg, true⟩]
  | .MON_RES => [⟨MON_RES_CODE i j, .ro, false⟩, ⟨MON_RES_VALID i j, .ro, false⟩, ⟨MON_RES_LATE i j, .ro, false⟩, ⟨MON_RES_TEST i j, .ro, false⟩]
  | .MON_RES_TICK => [⟨MON_RES_TICK i j, .ro, false⟩]
  | .BRG_CTRL => [⟨BRG_CTRL_EN i, .rw, true⟩]
  | .BRG_CFG => [⟨BRG_CFG_GAIN i, .cfg, true⟩, ⟨BRG_CFG_NOTCH i, .cfg, true⟩, ⟨BRG_CFG_DEC i, .cfg, true⟩, ⟨BRG_CFG_I_MIN i, .cfg, true⟩]
  | .BRG_STATUS => [⟨BRG_STATUS_BROKEN i, .ro, false⟩, ⟨BRG_STATUS_EXC_FAULT i, .ro, false⟩, ⟨BRG_STATUS_WIRE_BREAK i, .w1c, false⟩, ⟨BRG_STATUS_EXC_OPEN i, .w1c, false⟩, ⟨BRG_STATUS_EXC_SHORT i, .w1c, false⟩, ⟨BRG_STATUS_CFG_WHILE_ENABLED i, .w1c, false⟩]
  | .BRG_OUT => [⟨BRG_OUT_Y i, .ro, false⟩, ⟨BRG_OUT_VALID i, .ro, false⟩, ⟨BRG_OUT_SUSPECT i, .ro, false⟩]
  | .BRG_OUT_TICK => [⟨BRG_OUT_TICK_STAMP i, .ro, false⟩]
  | .BRG_EXC_I => [⟨BRG_EXC_I_I_EXC i, .ro, false⟩]
  | .BRG_BREAKS => [⟨BRG_BREAKS i, .ro, false⟩]
  | .BRG_OVR_COUNT => [⟨BRG_OVR_COUNT i, .ro, false⟩]
  | .CAL_CTRL => [⟨CAL_CTRL_EN, .rw, true⟩]
  | .CAL_STATUS => [⟨CAL_STATUS_CFG_WHILE_ENABLED, .w1c, false⟩, ⟨CAL_STATUS_CFG_INTEGRITY, .w1c, false⟩]
  | .CAL_CFG_CRC => [⟨CAL_CFG_CRC, .ro, false⟩]
  | .CAL_CFG_CRC_REF => [⟨CAL_CFG_CRC_REF, .rw, true⟩]
  | .CAL_CFG_CRC_COMMIT => [⟨CAL_CFG_CRC_COMMIT, .wo, true⟩]
  | .CAL_CFG => [⟨CAL_CFG_CAL_DT i, .cfg, true⟩, ⟨CAL_CFG_AUTO_T i, .cfg, true⟩, ⟨CAL_CFG_AUTO_P i, .cfg, true⟩]
  | .CAL_PERIOD => [⟨CAL_PERIOD i, .cfg, true⟩]
  | .CAL_WAIT => [⟨CAL_WAIT i, .cfg, true⟩]
  | .CAL_STEP_TMO => [⟨CAL_STEP_TMO i, .cfg, true⟩]
  | .CAL_STATE => [⟨CAL_STATE_STATE i, .ro, false⟩, ⟨CAL_STATE_CAUSE i, .ro, false⟩, ⟨CAL_STATE_AGAIN i, .ro, false⟩, ⟨CAL_STATE_CAL_STALE i, .ro, false⟩, ⟨CAL_STATE_CAL_FAIL i, .w1c, false⟩, ⟨CAL_STATE_Z_COLLISION i, .w1c, false⟩, ⟨CAL_STATE_DONE i, .w1c, false⟩]
  | .CAL_COUNT => [⟨CAL_COUNT i, .ro, false⟩]
  | .CAL_LAST_TL => [⟨CAL_LAST_TL i, .ro, false⟩]
  | .CAL_LAST_NT => [⟨CAL_LAST_NT i, .ro, false⟩]
  | .CAL_LAST_WRAPS => [⟨CAL_LAST_WRAPS i, .ro, false⟩]
  | .CAL_T_REF => [⟨CAL_T_REF i, .ro, false⟩]
  | .CAL_FAILS => [⟨CAL_FAILS i, .ro, false⟩]
  | .CAL_SKIPS => [⟨CAL_SKIPS i, .ro, false⟩]
  | .CAL_LAST_FAIL => [⟨CAL_LAST_FAIL_KIND i, .ro, false⟩, ⟨CAL_LAST_FAIL_INDEX i, .ro, false⟩, ⟨CAL_LAST_FAIL_TIMEOUT i, .ro, false⟩]
  | .KILN_CTRL => [⟨KILN_CTRL_EN, .rw, true⟩]
  | .KILN_CFG => [⟨KILN_CFG_THR_MODE, .cfg, true⟩, ⟨KILN_CFG_L_MAX, .cfg, true⟩, ⟨KILN_CFG_RATE_ACTION, .cfg, true⟩, ⟨KILN_CFG_HYST, .cfg, true⟩, ⟨KILN_CFG_STEP_MS, .cfg, true⟩]
  | .KILN_RATE => [⟨KILN_RATE_RATE_LIMIT, .cfg, true⟩]
  | .KILN_PROC_MIN => [⟨KILN_PROC_MIN, .cfg, true⟩]
  | .KILN_STATUS => [⟨KILN_STATUS_LEVEL, .ro, false⟩, ⟨KILN_STATUS_CRIT_ACTIVE, .ro, false⟩, ⟨KILN_STATUS_SHUTDOWN_LATCHED, .ro, false⟩, ⟨KILN_STATUS_CEL_INHIBIT, .ro, false⟩, ⟨KILN_STATUS_OOR, .ro, false⟩, ⟨KILN_STATUS_RUNNING, .ro, false⟩, ⟨KILN_STATUS_WARN, .w1c, false⟩, ⟨KILN_STATUS_THROTTLE, .w1c, false⟩, ⟨KILN_STATUS_CRIT, .w1c, false⟩, ⟨KILN_STATUS_SHUTDOWN, .w1c, false⟩, ⟨KILN_STATUS_RATE, .w1c, false⟩, ⟨KILN_STATUS_SENSOR_FAULT, .w1c, false⟩, ⟨KILN_STATUS_RAIL_FAULT, .w1c, false⟩, ⟨KILN_STATUS_PROC_LOW, .w1c, false⟩, ⟨KILN_STATUS_CFG_WHILE_ENABLED, .w1c, false⟩, ⟨KILN_STATUS_CFG_INTEGRITY, .w1c, false⟩]
  | .KILN_SKIP => [⟨KILN_SKIP_SKIP i, .cfg, true⟩, ⟨KILN_SKIP_PAUSE i, .cfg, true⟩]
  | .KILN_SKIPPED => [⟨KILN_SKIPPED, .ro, false⟩]
  | .KILN_OOR_START => [⟨KILN_OOR_START, .ro, false⟩]
  | .KILN_OOR_END => [⟨KILN_OOR_END, .ro, false⟩]
  | .KILN_OOR_COUNT => [⟨KILN_OOR_COUNT, .ro, false⟩]
  | .KILN_CFG_CRC => [⟨KILN_CFG_CRC, .ro, false⟩]
  | .KILN_CFG_CRC_REF => [⟨KILN_CFG_CRC_REF, .rw, true⟩]
  | .KILN_CFG_CRC_COMMIT => [⟨KILN_CFG_CRC_COMMIT, .wo, true⟩]
  | .KILN_TEMP => [⟨KILN_TEMP_T i, .ro, false⟩, ⟨KILN_TEMP_VALID i, .ro, false⟩, ⟨KILN_TEMP_FAULT i, .ro, false⟩]
  | .KILN_TILE_TEMP => [⟨KILN_TILE_TEMP_T i, .ro, false⟩, ⟨KILN_TILE_TEMP_VALID i, .ro, false⟩, ⟨KILN_TILE_TEMP_FAULT i, .ro, false⟩]
  | .KILN_THR => [⟨KILN_THR_WARN i, .cfg, true⟩, ⟨KILN_THR_THROTTLE i, .cfg, true⟩, ⟨KILN_THR_CRIT i, .cfg, true⟩, ⟨KILN_THR_SHUTDOWN i, .cfg, true⟩]
  | .KILN_RAIL => [⟨KILN_RAIL_MV i, .ro, false⟩, ⟨KILN_RAIL_OUT i, .ro, false⟩]
  | .KILN_RAIL_LIM => [⟨KILN_RAIL_LIM_LO i, .cfg, true⟩, ⟨KILN_RAIL_LIM_HI i, .cfg, true⟩]
  | .KILN_PROC => [⟨KILN_PROC_MHZ i, .ro, false⟩, ⟨KILN_PROC_LOW i, .ro, false⟩]
  | .SEC_STATUS => [⟨SEC_STATUS_LIFECYCLE, .ro, false⟩, ⟨SEC_STATUS_DEBUG_OPEN, .ro, false⟩, ⟨SEC_STATUS_OWNER_ROOT_SET, .ro, false⟩, ⟨SEC_STATUS_BOOT_SLOT, .ro, false⟩, ⟨SEC_STATUS_EXC_VERIFIED, .ro, false⟩, ⟨SEC_STATUS_FALLBACK, .w1c, false⟩, ⟨SEC_STATUS_KEY_CHANGE, .w1c, false⟩, ⟨SEC_STATUS_EXC_IMAGE_BAD, .w1c, false⟩]
  | .SEC_FW_MIN => [⟨SEC_FW_MIN, .ro, false⟩]
  | .SEC_DEBUG_COUNT => [⟨SEC_DEBUG_COUNT, .ro, false⟩]
  | .SEC_OWNER_ROOT => [⟨SEC_OWNER_ROOT i, .ro, false⟩]
  | .SEC_SLOT => [⟨SEC_SLOT_VALID i, .ro, false⟩, ⟨SEC_SLOT_USAGE i, .ro, false⟩]
  | .SEC_SLOT_ID => [⟨SEC_SLOT_ID i j, .ro, false⟩]
  | .CEL_STATUS => [⟨CEL_STATUS_BUSY, .ro, false⟩, ⟨CEL_STATUS_INHIBIT, .ro, false⟩, ⟨CEL_STATUS_ECC_CORR, .w1c, false⟩, ⟨CEL_STATUS_ECC_UNCORR, .w1c, false⟩, ⟨CEL_STATUS_WRITE_FAIL, .w1c, false⟩, ⟨CEL_STATUS_PARK_BAD, .w1c, false⟩]
  | .CEL_QUEUED => [⟨CEL_QUEUED, .ro, false⟩]
  | .CEL_ECC_CORR => [⟨CEL_ECC_CORR, .ro, false⟩]
  | .CEL_ECC_UNCORR => [⟨CEL_ECC_UNCORR, .ro, false⟩]
  | .CEL_ERR_ADDR => [⟨CEL_ERR_ADDR, .ro, false⟩]
  | .CEL_WRITES => [⟨CEL_WRITES, .ro, false⟩]
  | .CEL_PARK_SEQ => [⟨CEL_PARK_SEQ, .ro, false⟩]
  | .GLB_PART_TUN => [⟨GLB_PART_TUN i, .lk, true⟩]
  | .GLB_PART_RFO => [⟨GLB_PART_RFO i, .lk, true⟩]
  | .GLB_PART_ZP => [⟨GLB_PART_ZP i, .lk, true⟩]
  | .GLB_PART_LAU => [⟨GLB_PART_LAU i, .lk, true⟩]
  | .GLB_PART_TAP => [⟨GLB_PART_TAP i, .lk, true⟩]
  | .GLB_PART_FRM => [⟨GLB_PART_FRM i, .lk, true⟩]
  | .GLB_PART_BAR => [⟨GLB_PART_BAR i, .lk, true⟩]

end Sys2Proof.Machine
end

