-- ==== Sys2Proof/Machine/Frac.lean ====
section
/-! DEFINITION. Exact fractions, for currents that move linearly (R214, R228). -/

namespace Sys2Proof.Machine

/-- An exact fraction num / (den1 + 1) in lowest terms. -/
structure Frac where
  num  : Int := 0
  den1 : Nat := 0
deriving DecidableEq, Repr

/-- The denominator. -/
def Frac.den (a : Frac) : Nat := a.den1 + 1

/-- n / d in lowest terms; n for d = 0. -/
def frac (n : Int) (d : Nat) : Frac :=
  if d = 0 then ⟨n, 0⟩
  else
    let g := Nat.gcd n.natAbs d
    ⟨n / (g : Int), d / g - 1⟩

/-- A whole number. -/
def fracI (n : Int) : Frac := ⟨n, 0⟩

/-- a + b. -/
def Frac.add (a b : Frac) : Frac := frac (a.num * b.den + b.num * a.den) (a.den * b.den)

/-- a - b. -/
def Frac.sub (a b : Frac) : Frac := frac (a.num * b.den - b.num * a.den) (a.den * b.den)

/-- a times n / d. -/
def Frac.scale (a : Frac) (n : Int) (d : Nat) : Frac := frac (a.num * n) (a.den * d)

/-- a ≤ b. -/
def Frac.le (a b : Frac) : Bool := decide (a.num * b.den ≤ b.num * a.den)

/-- a < b. -/
def Frac.lt (a b : Frac) : Bool := decide (a.num * b.den < b.num * a.den)

/-- |a|. -/
def Frac.abs (a : Frac) : Frac := ⟨(a.num.natAbs : Int), a.den1⟩

/-- The larger of two fractions. -/
def Frac.max (a b : Frac) : Frac := if a.le b then b else a

/-- The smaller of two fractions. -/
def Frac.min (a b : Frac) : Frac := if a.le b then a else b

/-- a held to the range -l..l. -/
def Frac.clamp (a l : Frac) : Frac :=
  if l.lt a then l else if a.lt ⟨-l.num, l.den1⟩ then ⟨-l.num, l.den1⟩ else a

/-- a rounded to the nearest whole number, halves away from zero. -/
def Frac.round (a : Frac) : Int := roundHalfAway a.num a.den

/-- The least whole number at or above a. -/
def Frac.ceil (a : Frac) : Int := -((-a.num) / (a.den : Int))

end Sys2Proof.Machine
end

