-- ==== Sys2Proof/Machine/Tab.lean ====
section
/-! DEFINITION. Sparse tables: a list of (index, value) pairs in one canonical form, indices strictly rising and no value
equal to what an unlisted index reads as. -/

namespace Sys2Proof.Machine

/-- A sparse table from indices to values of type α. -/
abbrev Tab (α : Type) := List (Nat × α)

/-- The value a table lists for index k, if it lists one. -/
def Tab.find? {α : Type} : Tab α → Nat → Option α
  | [], _ => none
  | (i, v) :: t, k => if k = i then some v else Tab.find? t k

/-- The value at index k, d where none is listed. -/
def Tab.get {α : Type} (d : α) (t : Tab α) (k : Nat) : α := (Tab.find? t k).getD d

/-- The table with index k unlisted. -/
def Tab.drop {α : Type} : Tab α → Nat → Tab α
  | [], _ => []
  | (i, v) :: t, k => if k = i then Tab.drop t k else (i, v) :: Tab.drop t k

/-- The table with value v listed at index k. -/
def Tab.list {α : Type} : Tab α → Nat → α → Tab α
  | [], k, v => [(k, v)]
  | (i, w) :: t, k, v =>
    if k = i then (i, v) :: t else if k < i then (k, v) :: (i, w) :: t else (i, w) :: Tab.list t k v

/-- The table with index k reading v; an index that reads as the default d is unlisted. -/
def Tab.put {α : Type} [DecidableEq α] (d : α) (t : Tab α) (k : Nat) (v : α) : Tab α :=
  if v = d then Tab.drop t k else Tab.list t k v

/-- The canonical form: indices strictly rising, no value equal to the default d. -/
def Tab.wf {α : Type} [DecidableEq α] (d : α) : Tab α → Bool
  | [] => true
  | [(_, v)] => decide (v ≠ d)
  | (i, v) :: (j, w) :: t => decide (v ≠ d) && decide (i < j) && Tab.wf d ((j, w) :: t)

/-- All indices listed, in rising order. -/
def Tab.keys {α : Type} (t : Tab α) : List Nat := t.map (·.1)

end Sys2Proof.Machine
end

