-- ==== Sys2Proof/Machine/State.lean ====
section
/-! DEFINITION. The state of the block as plain data.

Registers stand in one register file, `State.regs`, keyed by the bit address of the field (Machine/Registers.lean
names every field); addressed memories stand in `State.mem`; everything else the spec gives the machine stands in the
structures below, one per unit, in tables indexed by the unit's number.  A structure's field defaults are the unit's
reset values. -/

namespace Sys2Proof.Machine

/-- The block's fault reasons: the spec stops the machine for none (R473), so no meaning raises this one (safe)
(DESIGN CHOICE, log entry 18). -/
inductive Fault where
  /-- Raised by nothing: every fault of the spec takes a part out of service and is an effect on State (safe). -/
  | never
deriving DecidableEq, Repr

/-- Refusal reasons (DESIGN CHOICE, log entry 18). -/
inductive Refusal where
  /-- Raised by an arm of Machine/Dispatch.lean whose command has no meaning yet (safe: nothing is claimed). -/
  | notModelled (mnemonic : String)
deriving DecidableEq, Repr

/-- The byte memory: (address, byte) pairs, addresses strictly rising, none equal to what an unlisted address reads as. -/
abbrev Memory := List Host.Cell

/-- What the block has sent to the world outside, or shown to it (DESIGN CHOICE, log entry 19). -/
inductive Out where
  /-- An MSI-X message on a device vector: the address and the data of its table entry (R354, R369). -/
  | msix (vector addr data : Nat)
  /-- The data a register read returned to its requester (R359). -/
  | completion (fn rid data : Nat)
  /-- A trigger-bus frame: its 84 bits, bit 0 sent first, and the fine stamp of its timing point (R33, R34). -/
  | busFrame (bits stamp : Nat)
  /-- A trigger pin's output pulse: pin, first tick or fine stamp at the ball, width [ticks] (R45). -/
  | pinPulse (pin stamp width : Nat)
  /-- A source repeated on a MIRROR pin: pin, fine stamp at the ball (R43, R45). -/
  | pinMirror (pin stamp : Nat)
  /-- Bytes written into host memory by a function of the device: function, host address, bytes (R379, R389). -/
  | hostWrite (fn addr : Nat) (bytes : List Byte)
  /-- A Flavas flit or ordered set sent on a link: link, kind, sequence number, credits carried, message bytes. -/
  | flit (link kind seq credits : Nat) (bytes : List Byte)
  /-- The blocks of a flit on one lane: lane, IDLE blocks before them, and the 66-bit blocks as the line carries them (R321). -/
  | lane (lane idle : Nat) (blocks : List Nat)
  /-- A capability flit: link, DEV_ID, WIDTH, receiver depth (R328, R331). -/
  | caps (link dev width depth : Nat)
  /-- An Ethernet frame sent: port, launch stamp (network time at the ball), bytes. -/
  | ethFrame (port stamp : Nat) (bytes : List Byte)
  /-- A balanced noise-shaper tick on an RFO port (R186). -/
  | shaperTick (port : Nat)
  /-- A management response sent to an Ethernet station or a relay (R383). -/
  | mgmtReply (mailbox : Nat) (bytes : List Byte)
deriving DecidableEq, Repr

/-- Effects that the spec places a fixed number of ticks after a command and for which the table has no row. -/
inductive Action where
  /-- A host write of one memory byte takes effect (R165, R246, R283). -/
  | memByte (addr : Nat) (b : Byte)
  /-- Trigger source `code` fires with fine stamp `stamp` (R46). -/
  | source (code stamp : Nat)
  /-- A SYNC or SYNC_CHECK reaches its timing point (R39). -/
  | busLaunch (type at_ : Nat)
  /-- A Timeline load is carried out (R31). -/
  | tlLoad
  /-- The pair capture of TL_CTRL.CAPTURE (R54). -/
  | capture
  /-- Both halves of a frame's FREQ, or another dword, are written (R165). -/
  | frameDword (frame dw v : Nat)
  /-- A Z port's enable takes effect (R208). -/
  | zEnable (z : Nat)
  /-- A Z port's disable takes effect (R208). -/
  | zDisable (z : Nat)
  /-- An RFI enable or disable takes effect (R238). -/
  | rfiEnable (i : Nat)
  | rfiDisable (i : Nat)
  /-- A Lauter channel's EN takes effect (R260). -/
  | lauEn (c : Nat) (on : Bool)
  /-- A decision window's EN, BASE or TIMEOUT takes effect (R273, R274, R283). -/
  | decEn (d : Nat) (on : Bool)
  | decBase (d v : Nat)
  | decTmo (d v : Nat)
  /-- The round of window d is judged at this tick; a round's index is formed, and its action word read (R281); `at_` is the
  round's T_v. -/
  | decJudge (d : Nat)
  | decIndex (d at_ : Nat)
  | decRead (d at_ : Nat)
  /-- A swap or copy of the Waveform Descriptor Table that ends at tick `at_`, and one of RFI i (R178, R179, R259). -/
  | wftBank (at_ : Nat)
  | kBank (i at_ : Nat)
  /-- A Tap unit judges the triggers that wait with stamps below a bound; its ARM acts, and its REARM ends, at tick `at_` (R307 to
R309). -/
  | tapRun (i key : Nat)
  | tapArm (i at_ : Nat)
  | tapRearm (i at_ : Nat)
  /-- A TAU result of sequencer k lands (R59, R142). -/
  | tauLand (k at_ : Nat)
  /-- The abort routine of sequencer k ends (R149), and its CAL_REQUEST routine returns (R143). -/
  | abortEnd (k at_ : Nat)
  | trapReturn (k at_ : Nat)
  /-- A window of channel c opens, and ends (R239, R254, R306). -/
  | winOpen (c : Nat)
  | winEnd (c : Nat)
  /-- An enable or disable of an RFO port takes effect, the ramp that began at tick `ramp` ends, and the port powers down after a
Park (R191, R192, R196). -/
  | rfoEnable (p : Nat)
  | rfoOff (p : Nat)
  | rfoIdle (p ramp : Nat)
  | rfoDown (p : Nat)
  /-- A change of MUTE takes effect (R193). -/
  | rfoMute (p : Nat) (on : Bool)
  /-- The transfer window of a ZB Park sequence that began at tick `from_` opens and ends (R228). -/
  | zParkOpen (z from_ : Nat)
  | zParkEnd (z from_ : Nat)
  /-- The Park sequence that began at tick `from_` reaches I_p (R228). -/
  | zParkDone (z from_ : Nat)
  /-- The current of port z may open its transfer window, the window that opened at tick `opened` ends, the ramp that began at tick
  `ramp` ends, and modulator cycle `cycle` takes a stream sample (R214, R215, R219). -/
  | zWindowOpen (z : Nat)
  | zWindowEnd (z opened : Nat)
  | zRampEnd (z ramp : Nat)
  | zStream (z cycle : Nat)
  /-- A pending STEP or LOAD of network time takes effect (R345). -/
  | ntStep
  | ntLoad
  /-- A new rate of network time takes effect (R344). -/
  | ntInc (v : Nat)
  /-- An engine's EN = 1 takes effect (R300). -/
  | anaStart (a : Nat)
  /-- A CFG field held during a pending disable takes its value (R362). -/
  | cfg (f : Fld) (v : Nat) (block : Option CfgBlock)
deriving DecidableEq, Repr

/-! ### Timeline, trigger pins, Cycle Angle -/

/-- The running echo procedure of a master (R36). -/
structure Echo where
  rest     : List Nat          -- devices still to be measured, the present one first
  exchange : Nat               -- exchange number, 0..63
  reqStamp : Nat               -- fine stamp Q of the outstanding request
  delays   : List Int          -- 2 x one-way delays of the exchanges done, newest first
deriving DecidableEq, Repr

/-- One trigger pin (R42 to R45). -/
structure Pin where
  fifo  : List (Nat × Nat) := []     -- stamps [fine ticks] with edge (0 rising, 1 falling), oldest first
  armed : Option Nat := none         -- armed TIMED pulse [tick]
  pulse : Option (Nat × Nat) := none -- last TIMED pulse sent: fine stamp of its start, width [ticks]
deriving DecidableEq, Repr

/-- What the Cycle Angle extrapolates from, until a change at tick `until_` (R50). -/
structure AngleMark where
  until_    : Nat
  period    : Nat
  ok        : Bool
  tIdx      : Nat
  count     : Int
  quadStamp : Nat
  quadStep  : Nat
deriving DecidableEq, Repr

/-- The Cycle Angle tracker (R47 to R49) (open corners: DEDUCED, log entry 66). -/
structure Angle where
  tIdx      : Nat := 0       -- stamp that last restarted the angle [1/256 tick]
  started   : Bool := false  -- a first index has been seen
  pSet      : Bool := false  -- P has been set
  remeasure : Bool := false  -- the next interval sets P anew
  good      : Nat := 0       -- consecutive in-tolerance indices
  misses    : Nat := 0       -- consecutive virtual indices
  count     : Int := 0       -- quadrature count
  quadStamp : Nat := 0       -- stamp of the last quadrature edge [1/256 tick]
  quadStep  : Nat := 0       -- length of the last count interval [1/256 tick]
  low       : Bool := false  -- SENSOR mode: an output has lain at or below -HYST since the last crossing
  reading   : Option (Int × Nat × Bool) := none   -- SENSOR mode: the last output: Y, stamp, SUSPECT
  past      : List AngleMark := []   -- the tracker as it stood before its last changes, newest first
  changed   : Nat := 0       -- tick of the last restart of the angle
  was       : Nat := 0       -- angle at the tick before it (R51)
deriving DecidableEq, Repr

/-- Timeline, trigger bus, pins and Cycle Angle beside their registers.  Timeline value 0 at the release of PORST_L is no multiple of
1 s that is looked at: the first is 2,000,000,000 (DEDUCED, log entry 81). -/
structure Timeline where
  counting : Bool := false           -- the Timeline counts (R27)
  moved    : Int := 0                -- ticks by which loads and SYNC steps have moved it (R31, R40)
  phase    : Nat := 0                -- tick-clock phase shift [fine ticks] (R40)
  echo     : Option Echo := none
  pins     : Tab Pin := []
  angle    : Angle := {}
  lineFree : Nat := 0                -- fine stamp from which the master may begin its next frame (R33)
  pairNext : Nat := 2000000000       -- next multiple of 1 s whose pair is to be captured (R54)
  checkNext : Nat := 2000000000      -- next multiple of 1 s at which AUTO_CHECK looks (R39)
deriving DecidableEq, Repr

/-! ### Sequencers -/

/-- One timed event entry (R71), with the full 64-bit firing tick and, for a MEASURE, the generation kept beside it. -/
structure Entry where
  tick   : Nat
  fine   : Nat
  kind   : Nat
  seq    : Nat
  target : Nat
  shot   : Nat          -- full shot number; SHOT holds its low 16 bits
  a      : Nat
  b      : Nat
  gen    : Nat := 0
deriving DecidableEq, Repr

/-- One item of the call and loop stack (R116). -/
inductive StackItem where
  | call (ret : Nat)
  | loop (first last count : Nat)
deriving DecidableEq, Repr

/-- The write that a full queue holds back (R69, R103): its queue and everything needed to make it again (open corners: DEDUCED,
DEDUCED, log entry 29). -/
structure HeldWrite where
  queue  : Nat
  kind   : Nat
  target : Nat
  fine   : Nat
  a      : Nat
  b      : Nat
  adv    : Nat                 -- advance of the cursor [ticks]
  advDesc : Option Nat := none -- or the descriptor whose length at the write is the advance (R108)
  staged : Option (Nat × Nat) := none -- SEQ and SHOT as a microword has staged them (R141)
  genReg : Option Nat
deriving DecidableEq, Repr

/-- What a stalled sequencer waits for (R63, R106). -/
inductive Stall where
  | teqFull (w : HeldWrite)
  | result (gen : Nat)
  | msg
  | trig (src offset : Nat)
  | barrier (b : Nat)
  | angle
  | credit
  | ring
  | kiln (until_ pauseTicks : Nat)
  | micro (uop arg : Nat)          -- a stalling micro-op of an owner extension: what it waits on
deriving DecidableEq, Repr

/-- Abort-class causes by what follows them (R66). -/
inductive AbortKind where
  | hostStop | serviceLoss | fault
deriving DecidableEq, Repr

/-- An abort routine in execution (R149): what it stores in SEQ_FAULT, and the tick at which it ends. -/
structure Aborting where
  kind : AbortKind
  code : Nat
  pc   : Nat
  ends : Nat
  loaded : Bool := false        -- the routine is one that a patch has written: it runs its microwords (R157)
deriving DecidableEq, Repr

/-- What a return from a non-abort trap goes back to (R148): the microword it interrupted, or where an instruction of image 2.4
stood. -/
inductive Resume where
  | word
  | write (w : HeldWrite)
  | shot
  | result (gen : Nat)
  | boundary
deriving DecidableEq, Repr

/-- A generation-tagged value: a Result Vector pair or a branch code (R265, R276). -/
structure Tagged where
  val : Nat := 0
  gen : Nat := 0
  inv : Bool := true
deriving DecidableEq, Repr

/-- The micro-state of a sequencer (R133 to R148) (DESIGN CHOICE, log entry 5). -/
structure Micro where
  active : Bool := false        -- an owner routine is in execution
  upc    : Nat := 0
  u      : List Nat := [0, 0, 0, 0, 0, 0, 0, 0]
  e0     : Nat := 0
  e1     : Nat := 0
  e2     : Nat := 0
  uz     : Bool := false
  un     : Bool := false
  uc     : Bool := false
  uv     : Bool := false
  mret   : Nat := 0
  mretOk : Bool := false
  tau    : List (Nat × Nat × Bool × Nat × Nat) := []   -- in flight: due cycle, destination, TSCL?, product 0, product 1
  taur0  : Nat := 0
  taur1  : Nat := 0
  resval : Nat := 0
  resgen : Nat := 0
  tstamp : Nat := 0
  msghd  : Nat := 0
  angt   : Nat := 0
  commits : Nat := 0
  armed  : Nat := 0             -- tick at which the last WARM, TARM or WMSG armed
  nextPc : Option Nat := none   -- a SETPC or stack transfer has committed
  halt   : Bool := false        -- UHALT has committed
  trap   : Option Nat := none   -- trap whose loaded routine is in execution (R143)
  resume : Resume := .word      -- what its UTRET goes back to
  full   : Option Nat := none   -- the queue found full, for UWAITQ
  edgeSrc : Option Nat := none  -- source on which TARM has armed (R139)
  edge   : Option Nat := none   -- stamp of the first edge after it
  past   : Nat := 0             -- COMMIT count with which its last instruction retired
  stale  : Bool := false        -- a routine of image 2.4 has run since that the spec does not list: u, E, MRET, flags, TAUR are open
deriving DecidableEq, Repr

/-- A sequencer beside its registers (R62) (DESIGN CHOICE, log entry 5). -/
structure Seq where
  z : Bool := false
  n : Bool := false
  c : Bool := false
  v : Bool := false
  stack    : List StackItem := []          -- top first
  teqs     : Tab (List Entry) := []        -- per queue 0..31, oldest entry first
  readyAt  : Nat := 0                      -- end of the last instruction [tick]
  stopNext : Bool := false                 -- STOP_AT_SHOT pending
  stall    : Option Stall := none
  since    : Nat := 0                      -- tick at which the stalled instruction armed
  shotOpen : Bool := false
  shotT0   : Nat := 0
  closing  : List Nat := []                -- shots in flight whose SHOT_END has issued, oldest first
  measures : Tab Nat := []                 -- per shot number: MEASUREs written whose record is not yet produced
  rings    : List Nat := []                -- result rings named by MEASUREs since START (R93)
  ldHi     : Option (Nat × Nat) := none    -- latched HI word: pair, value (R124)
  codes    : Tab Tagged := []              -- copies of branch codes (R276)
  micro    : Micro := {}
  shadow   : List Nat := []                -- 17 words of the last non-abort trap (R148)
  calReq   : List Nat := []                -- tiles whose CAL_REQUEST is pending, the oldest first
  reserved : Bool := false                 -- a shot reserved against LIMIT (R126, R397)
  pause    : Nat := 0                      -- pause that SHOT_BEGIN adds to the cursor at its retirement (R439)
  pcOver   : Bool := false                 -- the program counter stands beyond address 8,191 (R104)
  freedAt  : Option Nat := none            -- tick at which the head of the queue found full fired (R103)
  abort    : Option Aborting := none       -- the abort routine in execution (R149)
  lastPc   : Nat := 0                      -- address of the instruction that retired last
deriving DecidableEq, Repr

/-- A Tun beside its registers (open corners: DEDUCED, log entry 32). -/
structure Tun where
  tauGrants : List (Nat × Nat) := []       -- TAU cycles granted of late: tick, sequencer, latest first (R59)
  factory   : Bool := false                -- the image is the one the device left the factory with (R2)
  written   : List (Nat × Nat) := []       -- micro-addresses that patches wrote over it: first, count (R155)
deriving DecidableEq, Repr

/-- A barrier beside its registers (R82). -/
structure Barrier where
  arrivals : List (Nat × Nat × Nat) := []  -- arrivals of the open round: sequencer, cursor, tick; earliest first
  first    : Nat := 0                      -- tick of the open round's first arrival
  rounds   : List (Nat × List (Nat × Nat × Nat)) := []   -- complete rounds that await their release, oldest first: tick of the last arrival, arrivals
deriving DecidableEq, Repr

/-! ### Queue manager -/

/-- One descriptor's buffer: records or a message (R91). The model keeps one record or message per descriptor (open corners:
DEDUCED, log entry 26). -/
structure Item where
  bytes   : List Byte
  records : Nat := 1          -- records or messages held
  format  : Nat := 0          -- record format, or the producer's kind
  visible : Nat := 0          -- tick at which a message is visible (R94)
  tag     : Nat := 0          -- producer's own note (Tap: HBM address of the slot, plus 1; Flavas: message type)
  tag2    : Nat := 0
  teed    : Bool := false     -- an engine's TEE input has passed it to software (R297)
deriving DecidableEq, Repr

/-- A queue of the queue manager beside its registers (R90, R388). -/
structure Queue where
  items     : List Item := []
  nextSeq   : Nat := 0        -- next sequence number of a result ring (R257)
  entered   : Nat := 0
  delivered : Nat := 0
  dropped   : Nat := 0
deriving DecidableEq, Repr

/-! ### Host interface -/

/-- One 64-bit snapshot slot (R364). -/
structure Snap where
  who   : Nat               -- requester: 0 = Supervisor, else 1 + 2^16 * function + RID
  pair  : Nat               -- PF0 offset of the pair's LO dword, for the held HI
  hi    : Option Nat        -- HI stored by the last LO read
  wpair : Nat               -- pair of the held LO write
  lo    : Option Nat        -- held LO write
deriving DecidableEq, Repr

/-- One Supervisor fault-log entry (R480). -/
structure FaultLog where
  index : Nat
  tick  : Nat
  ntNs  : Nat
  wraps : Nat
  event : Nat
  code  : Nat
  overs  : Nat
deriving DecidableEq, Repr

/-- Configuration-integrity state of one covered block (R367). -/
structure Crc where
  refSet  : Bool := false        -- CRC_REF has been set since PORST_L
  suspend : Bool := false        -- comparison is suspended until CRC_REF is set
  commit  : Nat := 0             -- COMMIT: 0 none, 1 waits for the next pass to begin, 2 that pass is under way
  began   : Bool := false        -- the comparing EN was 1 as the present pass began
deriving DecidableEq, Repr

/-- The transmit line of an Ethernet port: when it is free of the frame on it, in units of 0.02 ns of the ticks since the first lock,
and the first such tick at which its next timed head can be judged (R350, R351). -/
structure EthLine where
  free  : Nat := 0
  judge : Nat := 0
deriving DecidableEq, Repr

/-- An entry of an MSI-X table: its message address, its message data and its mask bit (PRESUMED, log entry 113). -/
structure Msix where
  addr   : Nat := 0
  data   : Nat := 0
  masked : Bool := true
deriving DecidableEq, Repr

/-- Host interface and event state beside the registers (DESIGN CHOICE, log entry 5; DEDUCED, log entry 53). -/
structure HostIf where
  snaps      : List Snap := []          -- most recently used first, at most 16
  qmSel      : List (Nat × Nat) := []   -- QM_SEL per requester (R95)
  frameRead  : List (Nat × Nat × Nat) := []   -- per requester: frame, latched high half (R165)
  frameHeld  : Tab Nat := []            -- per frame: held dword 0 plus 1 (R165)
  msix       : Tab Msix := []           -- the MSI-X tables, by device vector (R354, R369)
  pba        : List Nat := []           -- pending bits of masked vectors
  master     : List Nat := []           -- functions with Bus Master Enable set (R379)
  eths       : Tab EthLine := []        -- the lines of the Ethernet ports (R350, R351)
  secWritten : Bool := false            -- HOST_SEC_RID has been written (R365)
  crcs       : Tab Crc := []
  log        : List FaultLog := []      -- newest first, at most 4,096
  logIndex   : Nat := 0
  logOver    : Nat := 0
  logHeld    : Nat := 0                 -- entries waiting while CEL_INHIBIT = 1
  logLost    : Bool := false            -- event 17 has been raised since READY
  refPresent : Bool := false            -- REF_IN present
  ryvexUp    : Bool := false            -- Ryvex has booted
  kilnUp     : Bool := false            -- the Kiln runs
  parkLost   : List Nat := []           -- powered tiles whose Park logic is lost
  powered    : List Nat := []           -- tiles whose analog rails are good
  started    : Bool := false            -- start-up has reached READY since PORST_L or the last Ryvex restart
  recovery   : Bool := false            -- the boot ROM stays in recovery
  posted     : List Nat := []           -- mailboxes with a POSTED command, in the order of their doorbells
  waits      : List Nat := []           -- mailboxes whose BUSY command waits for a resource, in the order of their doorbells (R376)
  porst      : Bool := true             -- PORST_L is asserted
  held       : List Nat := []           -- powered tiles that the hold of R468 holds until the Park Table is applied
  enBias     : Bool := false            -- the enable output EN_BIAS is high (R486, R487)
  enTiles    : List Nat := []           -- tiles whose enable outputs EN_ATD and EN_A18 are high (R486, R487)
deriving DecidableEq, Repr

/-! ### Mailboxes, sessions and the Cellar -/

/-- Where a mailbox command came from (R373, R383, R384): a function of the host, an Ethernet frame by its port and source
station, or a relayed frame by the relaying device and the source station. -/
inductive Origin where
  | host (fn : Nat)
  | frame (port station : Nat)
  | relay (dev station : Nat)
deriving DecidableEq, Repr

/-- A mailbox's nonce (R380). -/
structure Nonce where
  bytes : List Byte
  role  : Nat
  at_   : Nat            -- ticks since the lock
deriving DecidableEq, Repr

/-- An open session (R380, R382). -/
structure Session where
  tag    : Nat
  role   : Nat
  seq    : Nat           -- last accepted SEQ
  at_    : Nat           -- the last accepted command, in ticks since the lock
  origin : Origin
  v      : List Byte     -- V of the role as the session opened
  nonce  : List Byte     -- nonce of the OPEN_SESSION
deriving DecidableEq, Repr

/-- A mailbox beside its buffers and its doorbell register (R374 to R383). -/
structure Mbx where
  ringAt    : Nat := 0                 -- doorbell, in ticks since the lock
  origin    : Origin := .host 0
  body      : List Byte := []          -- body of the frame that brought the command, VERSION through the payload
  tag       : List Byte := []          -- its TAG
  nonce     : Option Nonce := none
  session   : Option Session := none
  fails     : Nat := 0                 -- F, kept in the Cellar
  lockEnd   : Option Nat := none       -- when a running lockout ends, in ticks since the lock; kept in the Cellar
  challenge : Option (List Byte × Nat) := none   -- debug challenge and when it was made, in ticks since the lock (R461)
  tile      : Option Nat := none       -- FENCE in BUSY: the tile
  role      : Nat := 0                 -- role of a command that waits in BUSY (R376)
deriving DecidableEq, Repr

/-- What the Cellar holds for a role (R380). -/
structure RoleKey where
  v    : List Byte
  salt : List Byte
  iter : Nat
deriving DecidableEq, Repr

/-- One copy of the Park Table (R457); an entry that is not listed is the port's default (R459) (open corners:
DEDUCED, log entry 69). -/
structure ParkCopy where
  valid : Bool := true
  seq   : Nat := 0
  rfo   : Tab Nat := []
  z     : Tab Nat := []
deriving DecidableEq, Repr

/-- A Ryvex slot of the Cellar: empty, the image the device left the factory with, or a container (R452). -/
inductive Slot where
  | empty
  | factory
  | container (bytes : List Byte)
deriving DecidableEq, Repr

/-- What the Cellar holds beside the registers that show it and what stands with its unit (R454) (DESIGN CHOICE, log entry 5). -/
structure Cellar where
  roles   : Tab RoleKey := []
  parkA   : ParkCopy := {}
  parkB   : ParkCopy := {}
  ryvexA  : Slot := .factory
  ryvexB  : Slot := .empty
  active  : Nat := 0                       -- slot marked ACTIVE
  recipes : List (List Byte) := []         -- containers of STORE_RECIPE, oldest first
  secRid  : Option Nat := none             -- stored HOST_SEC_RID
  lost    : List Nat := []                 -- roles whose key-store entry is lost (R456)
  late    : Bool := false                  -- the temperature has left its range with the command in hand queued (R386)
deriving DecidableEq, Repr

/-- An export of a queue to a host ring (R389). -/
structure Export where
  queue  : Nat
  slots  : Nat
  bytes  : Nat           -- SLOT_BYTES
  addr   : Nat
  prod   : Nat := 0
  done   : Nat := 0      -- data bytes of the head buffer already in host slots
  off    : Bool := false -- unbound; it ends with the buffer in progress
deriving DecidableEq, Repr

/-- A reassembly of relayed content, from one device (R384). -/
structure Reass where
  next  : Nat            -- FRAG expected
  bytes : List Byte      -- content so far
deriving DecidableEq, Repr

/-- Relays of management frames (R384). -/
structure Relays where
  rx      : Tab Reass := []                 -- reassemblies by sending device
  pending : List (Nat × Nat × Nat × Nat) := []   -- relaying device's requests: DEV_ID, MBX, port, station
deriving DecidableEq, Repr

/-! ### Excise Meter -/

/-- The control die's totals of one partition (R394, R397) (open corners: DEDUCED, log entry 61). -/
structure Part where
  base      : Nat := 0          -- SHOTS_BEGUN at the start of the epoch: the total compared with LIMIT starts there (R397)
  begun     : Nat := 0
  completed : Nat := 0
  aborted   : Nat := 0
  meas      : Nat := 0
  active    : Nat := 0          -- ACTIVE_TICKS up to `since`
  inflight  : Nat := 0          -- shots in flight
  since     : Nat := 0          -- tick from which the present activity has not been added
  reserved  : Nat := 0          -- shots reserved at check 5, counted from the total begun (R397)
  limit     : Nat := 0          -- last LIMIT received
  limitAt   : Nat := 0          -- its arrival, in ticks since the lock
  enforced  : Bool := false     -- enforcement is on: the last limit feed named the partition, or none has come since PORST_L
deriving DecidableEq, Repr

/-- One Excise audit-log entry (R406). -/
structure AuditEntry where
  index : Nat
  tick  : Nat
  nt    : Nat
  wraps : Nat
  type_ : Nat
  account : Nat
  arg0  : Nat
  arg1  : Nat
  chain : List Byte
deriving DecidableEq, Repr

/-- One Excise account on the island (R395, R394). -/
structure Account where
  begun     : Nat := 0
  completed : Nat := 0
  aborted   : Nat := 0
  meas      : Nat := 0
  active    : Nat := 0
  loaded    : Nat := 0
  balance   : Nat := 0
  uncharged : Nat := 0
  serial    : Option Nat := none     -- greatest serial accepted
  lBegun    : Nat := 0               -- last totals received in the epoch
  lCompleted : Nat := 0
  lAborted  : Nat := 0
  lMeas     : Nat := 0
  lActive   : Nat := 0
deriving DecidableEq, Repr

/-- What the island commits to its Cellar region (R393). -/
structure IslandData where
  accounts : Tab Account := []
  enforce  : Nat := 0
  epoch    : Nat := 0                -- feed epoch of the last totals
  sealed   : Bool := false
  breaks   : Nat := 0
  image    : List Byte := []         -- Excise firmware image
  imageBad : Bool := false           -- a word of it is lost (R456)
  keys     : Tab (List Byte) := []   -- voucher public keys by slot
  log      : List AuditEntry := []   -- newest first, at most 1,024
  nextIndex : Nat := 0
  ledger   : Bool := false           -- LEDGER_BREAK since the last POWER_UP
deriving DecidableEq, Repr

/-- The Excise island and the control die's side of its feeds (DESIGN CHOICE, log entry 5). -/
structure Excise where
  parts   : Tab Part := []
  epoch   : Nat := 0                 -- control-die feed epoch (R394)
  up      : Bool := true        -- the island runs (R393)
  cur     : IslandData := {}
  saved   : IslandData := {}         -- last completed commit
  dirty   : Bool := false            -- a commit waits for temperature
  fedAt   : Nat := 0                 -- the last count feed, limit messages and refresh of the view, in ticks since the lock (R394,
                                     -- R397, R411)
  limitAt : Nat := 0
  viewAt  : Nat := 0
  downAt  : Nat := 0                 -- control-die feed epoch in which the island went down (R394)
deriving DecidableEq, Repr

/-! ### Readout -/

/-- A result record, from its production until the router writes it (R252 to R256). -/
structure Rec where
  chan   : Nat
  gen    : Nat
  state  : Nat
  i      : Int
  q      : Int
  flags  : Nat          -- bits [127:112] of the record
  slot   : Nat
  angle  : Nat
  epoch  : Nat
  at_    : Nat          -- tick of production
  toRv   : Bool         -- also to the Result Vector
  seq    : Nat          -- sequencer that wrote the MEASURE
  shot   : Nat          -- its shot number
deriving DecidableEq, Repr

/-- An integration window (R244), with what it latched at the firing tick (open corners: DEDUCED, log entry 41). -/
structure Window where
  fire  : Nat
  w0    : Nat
  e     : Nat
  start : Nat            -- first weight
  len   : Nat
  shift : Nat
  dset  : List Nat       -- the 16 dwords of the discriminator set
  freq  : Nat            -- F of the readout frame (R242)
  phase : Nat            -- P of the readout frame
  px    : Bool           -- X of PFRAME with PX_EN (R251)
  seq   : Nat
  shot  : Nat
  slot  : Nat
  gen   : Nat
  angle   : Nat := 0     -- angle at E, its validity, and the low 16 bits of the calibration epoch at E (R254)
  angleOk : Bool := false
  epoch   : Nat := 0
  old   : List (Nat × Byte) := []   -- weight bytes as the integrator read them, where a later write changed them (R246)
deriving DecidableEq, Repr

/-- A Lauter channel beside its registers. -/
structure Lau where
  windows : List Window := []     -- open windows, oldest first
deriving DecidableEq, Repr

/-- A pending bank swap or copy (R178, R179, R259). -/
structure BankOp where
  copy : Bool
  at_  : Nat
  mask : Nat
  held : List (Nat × Byte) := []  -- shadow writes held until a copy ends, newest first
deriving DecidableEq, Repr

/-- An RFI beside its registers. -/
structure Rfi where
  pend       : List Nat := []      -- effective ticks of the enables to come (R238)
  bank       : Option BankOp := none
  back       : Nat := 0            -- the power state under CAL (R239, R423)
  spans      : List (Nat × Option Nat) := []   -- when it was ACTIVE: first tick, and the first tick after; newest first
  epochAt    : Nat := 0            -- tick of the last change of its calibration epoch
deriving DecidableEq, Repr

/-! ### Tap -/

/-- A capture in progress or complete (R309, R316). -/
structure Capture where
  stamp    : Nat
  kind     : Nat          -- 0 ACQ, 1 EXT, 2 MEAS
  detail   : Nat
  tag      : Nat
  seq      : Nat
  first    : Int          -- ball instant of sample 0 [fine ticks]
  step     : Nat          -- fine ticks between samples
  len      : Nat
  pre      : Nat
  preValid : Nat
  slot     : Nat
  segment  : Nat
  missed   : Nat          -- MISSED_BEFORE
  angle    : Nat
  angleOk  : Bool
  epoch    : Nat
deriving DecidableEq, Repr

/-- A trigger on its way to a Tap unit: its stamp [fine ticks], its priority at that stamp (1 ACQ, 2 EXT, 3 + m MEAS), its kind,
detail, tag and sequencer (R306, R307). -/
structure TapEv where
  stamp  : Nat
  prio   : Nat
  kind   : Nat
  detail : Nat
  tag    : Nat
  seq    : Nat
deriving DecidableEq, Repr

/-- F and P of the readout frame of a channel up to a tick (R305). -/
structure ToneMark where
  until_ : Nat
  chan   : Nat          -- 0..31 of the unit's RFI
  f      : Nat
  p      : Nat
deriving DecidableEq, Repr

/-- A stretch in which a Tap unit was in one state, up to a fine stamp: what it had reserved, and its write rate [GB/s] meanwhile
(R304, R308, R314). -/
structure TapMark where
  until_  : Nat
  state   : Nat
  armedAt : Nat
  slot    : Nat
  rate    : Nat
deriving DecidableEq, Repr

/-- A Tap unit beside its registers (R308). -/
structure Tap where
  armedAt  : Nat := 0                   -- tick of entering ARMED
  cap      : Option Capture := none     -- the capture, to the end of its segment
  armAt    : Option Nat := none         -- tick at which an accepted ARM acts
  rearmAt  : Nat := 0                   -- tick at which REARM ends
  slot     : Nat := 0                   -- reserved slot
  last     : Option Nat := none         -- last slot used
  missed   : Nat := 0                   -- misses since the previous record
  disarm   : Bool := false              -- DISARM waits for the capture in progress
  disable  : Bool := false              -- EN = 0 waits for it too
  judged   : Option Nat := none         -- stamp of the last trigger judged
  waiting  : List TapEv := []           -- triggers still to be judged, in order of stamp and priority
  marks    : List TapMark := []         -- the states before the present one, newest first
  tones    : List ToneMark := []        -- readout frames' F and P before their last changes, newest first
deriving DecidableEq, Repr

/-! ### Frames, descriptors and lanes -/

/-- A pulse that occupies a slot of a lane, with what it latched at its firing tick (R162, R168, R172). -/
structure Pulse where
  t0    : Nat
  last  : Nat          -- last sample tick
  fine  : Nat
  seq   : Nat
  frame : Nat
  f     : Nat
  p     : Nat
  z     : Bool
  a     : Int          -- amplitude [2^-15]
  o     : Nat          -- phase offset [2^-16 turn]
  w     : Nat
  desc  : Nat          -- the descriptor's 128 bits
deriving DecidableEq, Repr

/-- Frame Table and Waveform Descriptor Table beside their registers and bytes. -/
structure Wft where
  bank : Option BankOp := none      -- the pending swap or copy
deriving DecidableEq, Repr

/-! ### Flavas -/

/-- A Flavas link beside its registers and its VC queues (R324 to R334). -/
structure Link where
  txSeq  : Nat := 0
  rxSeq  : Option Nat := none      -- SEQ of the last flit received
  owed   : Nat := 0                -- credits pending return
  owedAt : Nat := 0                -- tick of the consumed flit that first owed one of them
  since  : Nat := 0                -- tick of entering the present state
  crcAt  : List Nat := []          -- ticks of recent discarded flits
  num    : Nat := 0                -- TIME exchanges started
  t1     : Option (Nat × Nat) := none   -- outstanding exchange: NUM, T1
  exitAt : Option Nat := none      -- end of the exit burst of EIDLE
  quiet  : Nat := 0                -- tick since which nothing waits
  rr     : Nat := 3                -- MGMT channel to be served next
  timeAt : Nat := 0                -- tick of the last TIME request
  flushTo : Nat := 0               -- tick before which a flit that leaves the receiver was held as the link left ACTIVE
deriving DecidableEq, Repr

/-- Lane test of one lane beside its registers (R335). -/
structure Lane where
  injected : Nat := 0              -- single bits still to be inverted on request
  line     : List Bool := []       -- the last 58 payload bits on the line, newest first: the scrambler's state (R321)
  sentAt   : Nat := 0              -- tick of its last flit, or at which its link became ACTIVE
  bad      : Nat := 0              -- invalid sync headers counted since its last lock loss (R333)
  lockAt   : Option Nat := none    -- tick of the PRBS checker's present lock
deriving DecidableEq, Repr

/-! ### Decision windows -/

/-- A round that has become ready or failed and moves down the pipeline of R281. -/
structure Round where
  at_   : Nat            -- T_v, or the tick at which it failed
  gen   : Nat            -- E_0
  fail  : Nat            -- 0 evaluated, else LAST_FAIL
  bits  : Nat            -- the gathered bits at T_v
  index : Nat := 0       -- x, formed at T_v + 8
  word  : Nat := 0       -- the action word, read at T_v + 24
deriving DecidableEq, Repr

/-- A decision window beside its registers (R272 to R281). -/
structure Decision where
  last    : List Nat := []           -- L_k
  start   : Option Nat := none       -- tick at which the round's first entry reached its generation
  evalAt  : Option Nat := none       -- tick of the last evaluation
  defer   : Option Nat := none       -- tick at which a ready round is to be evaluated (R275)
  judged  : Option Nat := none       -- tick at which it was last judged
  rounds  : List Round := []         -- rounds on their way to the action tick, oldest first
  base    : Nat := 0                 -- BASE in force
  tmo     : Nat := 0                 -- TIMEOUT in force
deriving DecidableEq, Repr

/-! ### RFO and Z ports -/

/-- The last ramp of a gain: it starts at a tick, from the gain held at the tick before, towards 1 or 0 (R501). -/
structure Ramp where
  at_   : Nat
  up    : Bool
  hard  : Bool
  from_ : Nat          -- gain at tick at_ - 1 [2^-60]
deriving DecidableEq, Repr

/-- An RFO port beside its registers (R190 to R198, R501, R474). -/
structure Rfo where
  enGain  : Ramp := ⟨0, false, true, 0⟩       -- the enable gain; 0 at reset
  muteGain : Ramp := ⟨0, true, true, 2 ^ 60⟩   -- the mute gain; 1 at reset
  back    : Nat := 0               -- the power state under CAL (R199, R423)
  down    : Option Nat := none     -- tick at which a Park with PARK_MODE = OFF powers the port down (R196)
  pend    : List Nat := []         -- T_en of the enables to come, oldest first
  muteOn  : Bool := false          -- the mute is in effect (R194)
  past    : List (Nat × Int × Int) := []   -- gated sums of the last 128 ticks: tick, I, Q [2^-135] (R173, R182)
  fault   : Bool := false          -- the driver's short or overheating is present
  causes  : List Nat := []         -- Park causes recorded since the Park (R474)
deriving DecidableEq, Repr

/-- One piece of a commanded current: from tick at_ it moves from a to b over d ticks (R214, R228); d = 0 is a step.
Currents are in units of 16 uA / 2^23. -/
structure Seg where
  at_ : Nat
  d   : Nat
  a   : Frac
  b   : Frac
deriving DecidableEq, Repr

/-- A transfer window (R219 to R221). -/
structure ZWindow where
  opened  : Nat
  ends    : Nat
  range   : Nat                   -- R_new
  abandon : Bool := false         -- it runs to its end and is abandoned
  park    : Bool := false         -- a Park begins its sequence when it has ended (R227)
  after   : Nat := 3              -- what is pending after an abandon; 3 = none
deriving DecidableEq, Repr

/-- A Park sequence of ZB (R228): its first tick, R_p, the transfer window's first tick, and the tick at which I_p is
reached. -/
structure ZPark where
  from_ : Nat
  range : Nat
  open_ : Option Nat
  ix    : Frac
  ends  : Nat
  live  : Bool := true            -- no entry has ended it
  after : Nat := 3                -- a range that an entry named during the transfer window
  again : Bool := false           -- a further Park begins its sequence when the transfer window has ended (R227)
deriving DecidableEq, Repr

/-- A Z port beside its registers (R207 to R230). -/
structure Zp where
  segs    : List Seg := []         -- commanded current, newest first
  window  : Option ZWindow := none
  windows : List (Nat × Nat) := [] -- transfer windows of the last 96,000 ticks, first and last tick
  park    : Option ZPark := none
  parkVal : Nat × Nat × Nat := (0, 0, 0)   -- PARK_CODE, PARK_RANGE and SLEW of the Park in progress (R458)
  parkAt  : Option Nat := none     -- last Park start
  enAt    : Option Nat := none     -- last T_en
  pend    : List Nat := []         -- T_en of the enables to come
  stream  : Option Nat := none     -- modulator cycle of the next sample instant (R215)
  reqAt   : Nat := 0               -- tick from which a pending range change may open its window
  lastAt  : Option Nat := none     -- tick of the last bias entry that acted
  undo    : List Seg := []         -- commanded current before that tick's entries
  undoPend : Nat := 3              -- pending range before that tick's entries
  undoWin : Option ZWindow := none
  undoPark : Option ZPark := none
  undoReq : Nat := 0
  misses  : Nat := 0               -- consecutive read-back mismatches
  fault   : Bool := false          -- the ZF driver's short or overheating is present
  causes  : List Nat := []         -- Park causes recorded since the Park (R474)
  iir     : List Int := []         -- corrector states s_0..s_3 [2^-47] (R209); empty: all 0
  fir     : List Int := []         -- the last 31 values of y, newest first [2^-47] (R209); empty: all 0
  q       : Int := 0               -- the last q [2^-47], which the quantiser maps to the code (R210)
deriving DecidableEq, Repr

/-! ### Calibration, monitors, bridge channels, Kiln -/

/-- A calibration step in progress: its number 0..45 and its first tick. -/
structure CalStep where
  step  : Nat
  at_   : Nat
  skips : List Nat := []                 -- ZF ports of the group that were parked at its start
deriving DecidableEq, Repr

/-- Calibration of one tile beside its registers (R423 to R428). -/
structure Cal where
  next    : Nat := 0                     -- first undone step, 0..46
  step    : Option CalStep := none
  reqAt   : Nat := 0                     -- tick of the pending request
  again   : Nat := 0                     -- cause of the trigger that set AGAIN
  started : Bool := false                -- some step has started since the request
  offers  : List (Nat × Nat) := []       -- offered intervals: first tick, tick after the last
  now_    : Bool := false                -- IMMEDIATE
  cancel  : Bool := false                -- CAL_CANCEL waits for the step in progress
  temp0   : Nat := 0                     -- tile temperature at the run's first step
  lastEnd : Nat := 0                     -- tick at which the last run completed
  busyTo  : Nat := 0                     -- last tick at which a target of the tile was in use
  fired   : Option Nat := none           -- the periodic trigger since the run that completed at this tick has been given
  trims   : Tab Nat := []                -- ZF segment trims by port of the tile
  bad     : List Nat := []               -- steps without a valid selection in the Cellar
  stored  : Tab Nat := []                -- selections in the Cellar as stored since manufacture: by step, ZF port j at 40 + j
deriving DecidableEq, Repr

/-- A conversion of a sequence entry that has started: the entry, its firing tick, the tick of its start and its input (R413,
R414). -/
structure MonConv where
  entry : Nat
  fire  : Nat
  at_   : Nat
  input : Nat
deriving DecidableEq, Repr

/-- A monitor converter beside its registers (R413, R414). -/
structure Mon where
  fires   : Tab (List Nat) := []         -- per entry: ticks at which it is to fire
  waiting : List (Nat × Nat) := []       -- requests that have not started: entry, firing tick
  begun   : List MonConv := []           -- conversions that have started and whose result has not come, oldest first
  freeAt  : Nat := 0                     -- tick at which the converter is free
  done    : List (Nat × Nat) := []       -- PERIOD and AT entries that have fired, with their last tick
  sweep   : Option (Nat × Nat) := none   -- read-back sweep: first tick of its period, last port of the tile measured (R222)
deriving DecidableEq, Repr

/-- A bridge channel beside its registers (R418 to R422). -/
structure Bridge where
  codes   : List (Int × Bool × Nat) := []   -- conversions of the last span, newest first: code, suspect, tick
  count   : Nat := 0                     -- conversions since EN = 1
  outs    : Nat := 0                     -- outputs since EN = 1
  overs    : Nat := 0                     -- consecutive over-range conversions
  good    : Nat := 0                     -- consecutive in-range conversions
  since   : Nat := 0                     -- tick of EN = 1
  passAt  : Nat := 0                     -- tick of the last passing excitation check
  dueAt   : Nat := 0                     -- tick from which the next excitation check is due
  off     : Bool := false                -- the excitation is switched off (R421)
deriving DecidableEq, Repr

/-- A Kiln temperature sensor beside its registers (R434, R436, R437). -/
structure Sensor where
  past    : List (Nat × Int) := []       -- readings of the last 250 ms, newest first: tick, reading
  crossed : List Nat := []               -- thresholds crossed: 0 WARN, 1 THROTTLE, 2 CRIT, 3 SHUTDOWN
  onset   : Bool := false                -- inside an onset of R437
  readAt  : Nat := 0                     -- tick of the last reading
deriving DecidableEq, Repr

/-- The Kiln beside its registers. -/
structure Kiln where
  sensors : Tab Sensor := []
  railOut : List Nat := []               -- rail points whose RAIL_FAULT is active (R435, R441)
  levelAt : Nat := 0                     -- tick of the last change of L
deriving DecidableEq, Repr

/-! ### Analysis engines -/

/-- An address unit (R286). -/
structure AddrUnit where
  p  : Nat := 0
  oa : Nat := 0
  ob : Nat := 0
  w  : Nat := 0
deriving DecidableEq, Repr

/-- One register bank of an engine (R286): the V registers as 24-bit numbers, the sums as signed numbers of 56 bits. -/
structure EngBank where
  v     : List Nat := [0, 0, 0, 0, 0, 0, 0, 0]
  sum   : List Int := [0, 0]
  au    : List AddrUnit := [{}, {}, {}, {}]
  z     : Bool := false
  n     : Bool := false
  o     : Bool := false        -- V
  sat   : Bool := false
  loops : List StackItem := []
deriving DecidableEq, Repr

/-- Where a result in flight goes. -/
inductive EngDest where
  | v (r : Nat)
  | sum (k : Nat)
deriving DecidableEq, Repr

/-- A result in flight (R292): the cycle at whose end it is written, the bank of the instruction that issued it, its place
and value. -/
structure Flight where
  due    : Nat
  shadow : Bool
  dest   : EngDest
  val    : Int
deriving DecidableEq, Repr

/-- An analysis engine beside its registers (R286 to R299). -/
structure Engine where
  main    : EngBank := {}
  shadow  : EngBank := {}
  calls   : List Nat := []
  irq     : Nat := 0                    -- IRQ_PEND
  ira     : Nat := 0
  at_     : Nat := 0                    -- tick at which the next instruction issues
  flight  : List Flight := []           -- in order of issue
  slots   : Nat := 0                    -- delay slots still to be issued
  target  : Option Nat := none          -- where a taken branch goes after them
  rti     : Bool := false               -- it returns to the main bank
  acc     : Option (Nat × Bool × Nat × Int) := none   -- last MAC, MSB or ADDS: cycle, bank, sum, result (R292)
  tlMid   : Nat := 0                    -- latched Timeline [47:24]
  timerLo : Nat := 0
  timer   : Option Nat := none          -- armed timer [48 bits]
  sends   : List (Nat × Nat) := []      -- copies of SEND under way: first word, length
  startAt : Option Nat := none          -- tick at which an accepted EN = 1 takes effect
  held    : Bool := false               -- its last cycle was one in which SEND waited for room (R299)
deriving DecidableEq, Repr

/-! ### The state -/

/-- The state of the block (open corners: DESIGN CHOICE, log entry 73). -/
structure State where
  /-- The commands that wait, first in first out. -/
  pending : List Instr
  /-- The register file: field values, exclusive-or their reset value, by bit address. -/
  regs    : Tab Nat
  /-- Addressed memories. -/
  mem     : Memory
  /-- What the block has sent outside, newest first. -/
  outbox  : List Out
  /-- Effects to come, with the tick each falls due. -/
  due     : List (Nat × Action)
  /-- The model's own counter of free values used (DESIGN CHOICE, log entry 3). -/
  free    : Nat
  tl      : Timeline
  seqs    : Tab Seq
  tuns    : Tab Tun
  bars    : Tab Barrier
  queues  : Tab Queue
  host    : HostIf
  recs    : List Rec          -- records produced and not yet written by the router, oldest first
  exc     : Excise
  laus    : Tab Lau
  rfis    : Tab Rfi
  rv      : Tab Tagged        -- the Result Vector, 2,048 pairs (R265)
  taps    : Tab Tap
  lanes   : Tab (List Pulse)  -- pulses by tone lane 0..2,303 and Z lane 2,304..3,071, oldest first
  wft     : Wft
  links   : Tab Link
  fibres  : Tab Lane          -- Flavas lanes
  decs    : Tab Decision
  rfos    : Tab Rfo
  zps     : Tab Zp
  cals    : Tab Cal
  mons    : Tab Mon
  brgs    : Tab Bridge
  kiln    : Kiln
  anas    : Tab Engine
  mbxs    : Tab Mbx
  cel     : Cellar
  exports : List (Nat × Export)   -- by k of host ring 0x9400 + k
  relays  : Relays
  load    : List (Nat × Option Nat)   -- ticks at which the Kiln divided the Tap and HBM clock, newest first (R314)
  broken  : List (Nat × Nat)  -- counters whose identities have lapsed: holder, instance (R24)
  fences  : Tab Nat           -- fence cause of each fenced tile, and the tick of the fence above bit 8 (R475)
deriving DecidableEq, Repr

/-- The machine right after reset: every register at its reset value, no memory byte listed, nothing queued, nothing in
flight (DESIGN CHOICE, log entry 2; DESIGN CHOICE, log entry 5). -/
def State.reset : State :=
  { pending := [], regs := [], mem := [], outbox := [], due := [], free := 0, tl := {}, seqs := [], tuns := [],
    bars := [], queues := [], host := {}, recs := [], exc := {}, laus := [], rfis := [], rv := [],
    taps := [], lanes := [], wft := {}, links := [], fibres := [],
    decs := [], rfos := [], zps := [], cals := [], mons := [], brgs := [], kiln := {}, anas := [],
    mbxs := [], cel := {}, exports := [], relays := {}, load := [], broken := [], fences := [] }

end Sys2Proof.Machine
end

