-- ==== Sys2Proof/Machine/Ops.lean ====
section
/-! DEFINITION. The named operations over the register file, the byte memory, the Timeline and the event aggregator.

Taking an exception has no counterpart in this block: raising an event (`State.event`) is what a command does instead. -/

namespace Sys2Proof.Machine

/-! ### Register file -/

/-- The value of a register field (DESIGN CHOICE, log entry 6; DEDUCED, log entry 17). -/
def State.get (s : State) (f : Fld) : Nat := (Tab.get 0 s.regs f.key ^^^ f.reset) % 2 ^ f.width

/-- The state with a register field set to v, modulo the field's width (DEDUCED, log entry 17). -/
def State.set (s : State) (f : Fld) (v : Nat) : State :=
  { s with regs := Tab.put 0 s.regs f.key ((v % 2 ^ f.width) ^^^ f.reset) }

/-- A one-bit field as a Bool. -/
def State.on (s : State) (f : Fld) : Bool := s.get f != 0

/-- Set or clear a one-bit field. -/
def State.setB (s : State) (f : Fld) (b : Bool) : State := s.set f (b2n b)

/-- The signed value of a field. -/
def State.getI (s : State) (f : Fld) : Int := sgn f.width (s.get f)

/-- Set a field to the two's complement of i. -/
def State.setI (s : State) (f : Fld) (i : Int) : State := s.set f (wrap f.width i)

/-- Add n to a counter that wraps. -/
def State.inc (s : State) (f : Fld) (n : Nat := 1) : State := s.set f (s.get f + n)

/-- Add n to a counter that saturates. -/
def State.incSat (s : State) (f : Fld) (n : Nat := 1) : State := s.set f (satN f.width (s.get f + n))

/-- Put something in the outbox (DESIGN CHOICE, log entry 19). -/
def State.emit (s : State) (o : Out) : State := { s with outbox := o :: s.outbox }

/-- Take a fresh index for a free value (DESIGN CHOICE, log entry 3). -/
def State.fresh (s : State) : Nat × State := (s.free, { s with free := s.free + 1 })

/-- Let an effect take place at tick t (DESIGN CHOICE, log entry 2). -/
def State.later (s : State) (t : Nat) (a : Action) : State := { s with due := s.due ++ [(t, a)] }

/-! ### Byte memory -/

/-- First address of the instruction stores in the model's memory (DESIGN CHOICE, log entry 4). -/
def instrStoreBase : Nat := 0x1_0000_0000
/-- First address of the waveform sample memories (DESIGN CHOICE, log entry 4). -/
def sampleBase : Nat := 0x1_1000_0000
/-- First address of the Recipe Stores (DESIGN CHOICE, log entry 4). -/
def recipeBase : Nat := 0x1_2000_0000
/-- First address of HBM (DESIGN CHOICE, log entry 4). -/
def hbmBase : Nat := 0x10_0000_0000

/-- What an unlisted byte reads as: all ones in the instruction stores (R62); in a Recipe Store, bytes that spell ILL with UCOND =
AL (R156: after power-up it holds nothing usable); 0 elsewhere (DESIGN CHOICE, log entry 4). -/
def memDefault (a : Nat) : Byte :=
  if instrStoreBase ≤ a ∧ a < instrStoreBase + 0x200_0000 then 0xFF
  else if recipeBase ≤ a ∧ a < recipeBase + 0x80_0000 ∧ a % 8 = 7 then 0x1C
  else 0

/-- The byte a memory holds at address a (DESIGN CHOICE, log entry 4). -/
def Memory.read : Memory → Nat → Byte
  | [], a => memDefault a
  | (i, b) :: m, a => if a = i then b else Memory.read m a

/-- The memory with address a unlisted. -/
def Memory.drop : Memory → Nat → Memory
  | [], _ => []
  | (i, b) :: m, a => if a = i then Memory.drop m a else (i, b) :: Memory.drop m a

/-- The memory with byte b listed at address a. -/
def Memory.list : Memory → Nat → Byte → Memory
  | [], a, b => [(a, b)]
  | (i, c) :: m, a, b =>
    if a = i then (i, b) :: m else if a < i then (a, b) :: (i, c) :: m else (i, c) :: Memory.list m a b

/-- The memory after byte b is written at address a, in canonical form. -/
def Memory.write (m : Memory) (a : Nat) (b : Byte) : Memory :=
  if b = memDefault a then Memory.drop m a else Memory.list m a b

/-- The canonical form: addresses strictly rising, no entry equal to what an unlisted address reads as. -/
def Memory.wf : Memory → Bool
  | [] => true
  | [(a, b)] => decide (b ≠ memDefault a)
  | (a, b) :: (a', b') :: m => decide (b ≠ memDefault a) && decide (a < a') && Memory.wf ((a', b') :: m)

/-- The memory after n bytes are copied from src to dst, where both ranges read alike when unlisted. -/
def Memory.copyRange (src dst n : Nat) (m : Memory) : Memory :=
  let clear := (m.filter fun c => dst ≤ c.1 && c.1 < dst + n).foldl (fun m c => Memory.write m c.1 (memDefault c.1)) m
  (m.filter fun c => src ≤ c.1 && c.1 < src + n).foldl (fun m c => Memory.write m (c.1 - src + dst) c.2) clear

/-- The byte at address a. -/
def State.byte (s : State) (a : Nat) : Byte := Memory.read s.mem a

/-- Write one byte. -/
def State.setByte (s : State) (a : Nat) (b : Byte) : State := { s with mem := Memory.write s.mem a b }

/-- Write bytes at ascending addresses. -/
def State.setBytes (s : State) (a : Nat) : List Byte → State
  | [] => s
  | b :: bs => State.setBytes (s.setByte a b) (a + 1) bs

/-- n bytes from address a on. -/
def State.getBytes (s : State) (a n : Nat) : List Byte := (List.range n).map fun k => s.byte (a + k)

/-- The little-endian number of n bytes at address a. -/
def State.rd (s : State) (a n : Nat) : Nat := ofBytes (s.getBytes a n)

/-- Write v as n little-endian bytes at address a. -/
def State.wr (s : State) (a n v : Nat) : State := s.setBytes a (toBytes n v)

/-- Copy n bytes from one place to another. -/
def State.copyBytes (s : State) (src dst n : Nat) : State := s.setBytes dst (s.getBytes src n)

/-! ### Units -/

/-- Sequencer k beside its registers. -/
def State.seq (s : State) (k : Nat) : Seq := Tab.get {} s.seqs k
/-- Replace sequencer k. -/
def State.setSeq (s : State) (k : Nat) (q : Seq) : State := { s with seqs := Tab.put {} s.seqs k q }
/-- Change sequencer k. -/
def State.modSeq (s : State) (k : Nat) (f : Seq → Seq) : State := s.setSeq k (f (s.seq k))

/-- Barrier b beside its registers. -/
def State.bar (s : State) (b : Nat) : Barrier := Tab.get {} s.bars b
/-- Replace barrier b. -/
def State.setBar (s : State) (b : Nat) (x : Barrier) : State := { s with bars := Tab.put {} s.bars b x }

/-- Queue q beside its registers. -/
def State.queue (s : State) (q : Nat) : Queue := Tab.get {} s.queues q
/-- Replace queue q. -/
def State.setQueue (s : State) (q : Nat) (x : Queue) : State := { s with queues := Tab.put {} s.queues q x }

/-- Tun t beside its registers. -/
def State.tun (s : State) (t : Nat) : Tun := Tab.get {} s.tuns t
/-- Replace Tun t. -/
def State.setTun (s : State) (t : Nat) (x : Tun) : State := { s with tuns := Tab.put {} s.tuns t x }

/-- Mailbox m beside its buffers and its doorbell register. -/
def State.mbx (s : State) (m : Nat) : Mbx := Tab.get {} s.mbxs m
/-- Replace mailbox m. -/
def State.setMbx (s : State) (m : Nat) (x : Mbx) : State := { s with mbxs := Tab.put {} s.mbxs m x }

/-- Trigger pin n. -/
def State.pin (s : State) (n : Nat) : Pin := Tab.get {} s.tl.pins n
/-- Replace trigger pin n. -/
def State.setPin (s : State) (n : Nat) (x : Pin) : State := { s with tl := { s.tl with pins := Tab.put {} s.tl.pins n x } }

/-- The Timeline [ticks]. -/
def State.now (s : State) : Nat := s.get TL_NOW

/-- Ticks that the Timeline has counted up to its value t, whatever loads and SYNC steps have made of it (R27, R31). -/
def State.upOf (s : State) (t : Nat) : Nat := ((t : Int) - s.tl.moved).toNat
/-- Ticks that the Timeline has counted (R27). -/
def State.up (s : State) : Nat := s.upOf s.now

/-- The fine stamp of an instant that stands x fine ticks from the zero of the Timeline: stamps are 64 bits and wrap (R26). -/
def fineStamp (x : Int) : Nat := wrap 64 x

/-- The instant [fine ticks] nearest to now that a 64-bit fine stamp names: a stamp wraps after 2^59 ticks, the Timeline after
2^64 (R26). -/
def State.instant (s : State) (stamp : Nat) : Nat :=
  ((32 * s.now : Nat) + sgn 64 (wrap 64 ((stamp : Int) - (32 * s.now : Nat)))).toNat

/-! ### Descriptor pool and queues (R91 to R94) -/

/-- The partition that owns queue q (R88). -/
def State.owner (s : State) (q : Nat) : Nat := s.get (QM_Q_CFG_OWNER q)

/-- Number of descriptors queue q holds. -/
def State.depth (s : State) (q : Nat) : Nat := (s.queue q).items.length

/-- Queue q has reached its LIMIT (R92). -/
def State.atLimit (s : State) (q : Nat) : Bool :=
  s.get (QM_Q_CFG_LIMIT q) != 0 && s.depth q ≥ s.get (QM_Q_CFG_LIMIT q)

/-- The partition of queue q has reached its quota (R92). -/
def State.atQuota (s : State) (q : Nat) : Bool :=
  s.get (QM_PART_USED (s.owner q)) ≥ s.get (QM_PART_QUOTA (s.owner q))

/-- The descriptor pool is empty. -/
def State.poolEmpty (s : State) : Bool := s.get QM_POOL_FREE == 0

/-- Queue q is full (R92). -/
def State.full (s : State) (q : Nat) : Bool := s.atLimit q || s.atQuota q || s.poolEmpty

/-- The status registers of queue q after its list changed (R95). -/
def State.showQueue (s : State) (q : Nat) : State :=
  (s.set (QM_Q_STATUS_COUNT q) (s.depth q)).setB (QM_Q_STATUS_FULL q) (s.full q)

/-- Take one descriptor from the pool for queue q and append an item; room is the caller's concern (open corners:
DEDUCED, log entry 26). -/
def State.appendRaw (s : State) (q : Nat) (it : Item) : State :=
  let x := s.queue q
  let s := s.setQueue q { x with items := x.items ++ [it], entered := x.entered + it.records }
  let s := s.set QM_POOL_FREE (s.get QM_POOL_FREE - 1)
  let s := s.inc QM_POOL_ALLOC
  let s := s.inc (QM_PART_USED (s.owner q))
  s.showQueue q

/-- Return n descriptors of queue q to the pool (open corners: DEDUCED, log entry 26). -/
def State.giveBack (s : State) (q n : Nat) : State :=
  let s := s.inc QM_POOL_FREE n
  let s := s.set QM_POOL_ALLOC (s.get QM_POOL_ALLOC - n)
  s.set (QM_PART_USED (s.owner q)) (s.get (QM_PART_USED (s.owner q)) - n)

/-- Remove the head item of queue q, its descriptor returning to the free list (open corners: DEDUCED, log entry 26). -/
def State.popHead (s : State) (q : Nat) : Option Item × State :=
  let x := s.queue q
  match x.items with
  | [] => (none, s)
  | it :: rest =>
    let s := s.setQueue q { x with items := rest, delivered := x.delivered + it.records }
    (some it, (s.giveBack q 1).showQueue q)

/-- Count n items dropped at queue q (R93). -/
def State.countDrop (s : State) (q n : Nat) : State :=
  let x := s.queue q
  (s.setQueue q { x with entered := x.entered + n, dropped := x.dropped + n }).inc (QM_Q_DROPS q) n

/-! ### Events (R369, R480) -/

/-- The pending bit of event n (R372). -/
def State.evtPend (s : State) (n : Nat) : Bool := (s.get (GLB_EVT_PEND (n / 32))).testBit (n % 32)
/-- The enable bit of event n (R372). -/
def State.evtEn (s : State) (n : Nat) : Bool := (s.get (GLB_EVT_EN (n / 16))).testBit (n % 16)

/-- The MSI-X table entry of device vector v (R354). -/
def State.msix (s : State) (v : Nat) : Msix := Tab.get {} s.host.msix v

/-- Deliver device vector v, or set its pending bit while it is masked (R369) (DESIGN CHOICE, log entry 19; DEDUCED, log entry 53). -/
def State.sendVector (s : State) (v : Nat) : State :=
  let x := s.msix v
  if x.masked then
    { s with host := { s.host with pba := if s.host.pba.contains v then s.host.pba else v :: s.host.pba } }
  else s.emit (.msix v x.addr x.data)

/-- The pending bit of event n and its MSI-X message (R369). -/
def State.pend (s : State) (n : Nat) : State :=
  let was := s.evtPend n
  let s := s.set (GLB_EVT_PEND (n / 32)) (s.get (GLB_EVT_PEND (n / 32)) ||| 2 ^ (n % 32))
  if !was && s.evtEn n && s.on (HOST_EVT_MAP_MSIX_EN n) then s.sendVector (s.get (HOST_EVT_MAP_VEC n)) else s

/-- The bytes of a fault-log entry (R480). -/
def FaultLog.bytes (e : FaultLog) : List Byte :=
  toBytes 8 e.index ++ toBytes 8 e.tick ++ toBytes 4 e.ntNs ++ toBytes 4 e.wraps ++ toBytes 2 e.event
    ++ toBytes 2 e.code ++ toBytes 4 e.overs

/-- Write one entry into the Supervisor fault log (R480); the Bool says that an entry was lost or overwritten. -/
def State.logEntry (s : State) (event code : Nat) : State × Bool :=
  let h := s.host
  if s.on KILN_STATUS_CEL_INHIBIT && h.logHeld ≥ 256 then
    ({ s with host := { h with logOver := satN 32 (h.logOver + 1) } }, true)
  else
    let lost := h.log.length ≥ 4096
    let overs := if lost then satN 32 (h.logOver + 1) else h.logOver
    let e : FaultLog := ⟨h.logIndex, s.now, s.get NT_NOW / 2 ^ 32, s.get NT_WRAPS, event, code % 2 ^ 16, overs⟩
    ({ s with host := { h with
        log := (e :: h.log).take 4096, logIndex := h.logIndex + 1, logOver := overs,
        logHeld := if s.on KILN_STATUS_CEL_INHIBIT then h.logHeld + 1 else h.logHeld } }, lost)

/-- Set a sticky flag; true when it went from 0 to 1. -/
def State.stick (s : State) (f : Fld) : State × Bool := (s.setB f true, !s.on f)

/-- Raise event n with the 16-bit CODE of its fault-log entry (R369, R480).  `fuel` bounds the chain of events that the log's own
copy into queue 0xFFFF can raise: each of them needs a flag to go from 0 to 1. -/
def State.eventN : Nat → State → Nat → Nat → State
  | 0, s, n, _ => s.pend n
  | fuel + 1, s, n, code =>
    let s := s.pend n
    if n = 100 ∨ n = 112 ∨ !s.on (HOST_EVT_MAP_SUP n) then s
    else
      let (s, lost) := s.logEntry n code
      let s :=
        if lost && !s.host.logLost && s.on GLB_STATUS_READY then
          State.eventN fuel { s with host := { s.host with logLost := true } } 17 0
        else s
      match s.host.log with
      | [] => s
      | e :: _ =>
        let up := fun (s : State) (f : Fld) (n : Nat) => if s.on f then s else State.eventN fuel (s.setB f true) n 0
        if s.full 0xFFFF || !s.on (QM_Q_CTRL_Q_EN 0xFFFF) then
          let s := s.countDrop 0xFFFF 1
          if s.poolEmpty && !s.atLimit 0xFFFF && !s.atQuota 0xFFFF && s.on (QM_Q_CTRL_Q_EN 0xFFFF) then
            up s QM_STATUS_POOL_EMPTY 761
          else s
        else
          let s := s.appendRaw 0xFFFF { bytes := e.bytes }
          let s := if s.poolEmpty then up s QM_STATUS_POOL_EMPTY 761 else s
          let s := if s.get QM_POOL_FREE < s.get QM_CTRL_POOL_LOW then up s QM_STATUS_POOL_LOW 763 else s
          if s.get (QM_PART_USED (s.owner 0xFFFF)) = s.get (QM_PART_QUOTA (s.owner 0xFFFF)) then
            State.eventN fuel s 764 0
          else s

/-- Raise event n (open corners: DEDUCED, log entry 53). -/
def State.event (s : State) (n : Nat) (code : Nat := 0) : State := State.eventN 6 s n code

/-- Set flag f and raise event n when it goes from 0 to 1 (open corners: DEDUCED, log entry 53; DEDUCED, log entry 83). -/
def State.flag (s : State) (f : Fld) (n : Nat) : State :=
  let (s, first) := s.stick f
  if first then s.event n else s

/-- Set flag f and raise event n whether or not it was set (open corners: DEDUCED, log entry 53). -/
def State.flagAlways (s : State) (f : Fld) (n : Nat) : State := (s.setB f true).event n

/-! ### Appending to a queue (R92) -/

/-- Append an item to queue q, which has room, and report the pool and the quota (R92, R97) (open corners: DEDUCED, log entry 83). -/
def State.append (s : State) (q : Nat) (it : Item) : State :=
  let s := s.appendRaw q it
  let s := if s.poolEmpty then s.flag QM_STATUS_POOL_EMPTY 761 else s
  let s := if s.get QM_POOL_FREE < s.get QM_CTRL_POOL_LOW then s.flag QM_STATUS_POOL_LOW 763 else s
  if s.get (QM_PART_USED (s.owner q)) = s.get (QM_PART_QUOTA (s.owner q)) then s.event 764 else s

/-- A queue that finds the pool empty becomes full and says so (R92) (open corners: DEDUCED, log entry 83). -/
def State.noteEmpty (s : State) (q : Nat) : State :=
  if s.poolEmpty && !s.atLimit q && !s.atQuota q then s.flag QM_STATUS_POOL_EMPTY 761 else s

end Sys2Proof.Machine
end

