-- ==== Sys2Proof/Machine/Access.lean ====
section
/-! DEFINITION. Requesters, privilege and the access-fault log (R360, R361, R368). -/

namespace Sys2Proof.Machine

/-- The secure requester rule (R360). -/
def isPriv (r : Req) (s : State) : Bool :=
  r.sup || (r.fn == 0 && s.on HOST_SEC_RID_VALID && r.rid.toNat == s.get HOST_SEC_RID_RID)

/-- A requester's number in the snapshot slots and in QM_SEL (R364): the Supervisor has one of its own. -/
def reqId (r : Req) : Nat := if r.sup then 0 else 1 + 65536 * r.fn.val + r.rid.toNat

/-- Causes of the access-fault log (R368). -/
inductive AccessCause where
  | privilege | width | unimplemented | wonce | locked | cfgWhileEnabled
deriving DecidableEq, Repr

/-- The code of a cause (R368). -/
def AccessCause.code : AccessCause → Nat
  | .privilege => 1 | .width => 2 | .unimplemented => 3 | .wonce => 4 | .locked => 5 | .cfgWhileEnabled => 6

/-- Add one entry to the access-fault log (R368); `addr` is the PF0 offset of the dword (open corners: DEDUCED, log entry 51). -/
def accessFault (r : Req) (c : AccessCause) (write : Bool) (be addr data : Nat) (s : State) : State :=
  let e := s.get HOST_AF_WR
  let s := s.set (HOST_AF_ADDR e) addr
  let s := s.set (HOST_AF_INFO_RID e) r.rid.toNat
  let s := s.set (HOST_AF_INFO_FN e) r.fn.val
  let s := s.setB (HOST_AF_INFO_SUP e) r.sup
  let s := s.setB (HOST_AF_INFO_WRITE e) write
  let s := s.set (HOST_AF_INFO_BE e) be
  let s := s.set (HOST_AF_INFO_CAUSE e) c.code
  let s := s.set (HOST_AF_DATA e) (if write then data else 0)
  let s := s.set (HOST_AF_TICK e) s.now
  let s := s.inc HOST_AF_WR
  let s := s.incSat HOST_AF_COUNT
  s.flag HOST_STATUS_ACCESS_FAULT 0

/-- The PF0 offset of the dword that holds a field. -/
def Fld.dword (f : Fld) : Nat := 4 * (f.key / 32)

/-- A write of v into the privileged field f: a requester that is not privileged leaves it unchanged and is flagged when its data
has a bit set there (R361); otherwise `k` is the write's effect. -/
def privileged (r : Req) (f : Fld) (v : Nat) (s : State) (k : State → State) : State :=
  if isPriv r s then k s
  else if v = 0 then s
  else accessFault r .privilege true 0xF f.dword (v * 2 ^ (f.key % 32) % 2 ^ 32) s

/-! ### Partitions, tiles and fences -/

/-- Nibble k of a partition map (R372). -/
def nibble (reg : Nat → Fld) (k : Nat) (s : State) : Nat := bits (s.get (reg (k / 8))) (4 * (k % 8)) 4

/-- The partition of sequencer k: that of its Tun (R88). -/
def seqPart (k : Nat) (s : State) : Nat := nibble GLB_PART_TUN (k / 8) s

/-- Tile a is fenced (R21). -/
def fenced (a : Nat) (s : State) : Bool := (s.get GLB_STATUS_FENCED).testBit a

/-- The target classes of R68 and R72. -/
inductive Target where
  | tone | zlane | zb | lauter | tap | frame
deriving DecidableEq, Repr

/-- The binding class code of a target class (SEQ_TEQ_BIND.CLASS). -/
def Target.code : Target → Nat
  | .tone => 0 | .zlane => 1 | .zb => 2 | .lauter => 3 | .tap => 4 | .frame => 5

/-- The target class of an entry kind (R72); kinds 7 to 15 are reserved. -/
def kindTarget : Nat → Option Target
  | 0 => some .tone | 1 => some .zlane | 2 => some .zb | 3 => some .zb | 4 => some .lauter | 5 => some .tap
  | 6 => some .frame | _ => none

/-- The tile of a target, none for a frame (R74). -/
def targetTile (c : Target) (n : Nat) : Option Nat :=
  match c with
  | .tone => some (n / 288)
  | .zlane => some ((n - 2304) / 96)
  | .zb => some ((n - 2304) / 96)
  | .lauter => some (n / 128)
  | .tap => some (n / 4)
  | .frame => none

/-- The partition of a target (R88) (open corners: DEDUCED, log entry 79). -/
def targetPart (c : Target) (n : Nat) (s : State) : Nat :=
  match c with
  | .tone => nibble GLB_PART_RFO (n / 8) s
  | .zlane => nibble GLB_PART_ZP (n - 2304) s
  | .zb => nibble GLB_PART_ZP (n - 2304) s
  | .lauter => nibble GLB_PART_LAU n s
  | .tap => nibble GLB_PART_TAP n s
  | .frame => nibble GLB_PART_FRM (n / 256) s

/-- A number lies in its target class (R111) (open corners: DEDUCED, log entry 79). -/
def targetOk (c : Target) (n : Nat) : Bool :=
  match c with
  | .tone => n ≤ 2303
  | .zlane => 2304 ≤ n && n ≤ 3071
  | .zb => 2304 ≤ n && n ≤ 3071
  | .lauter => n ≤ 1023
  | .tap => n ≤ 31
  | .frame => n ≤ 40959

/-- The minimum lead of a target for sequencer k (R74). -/
def minLead (k : Nat) (c : Target) (n : Nat) : Nat :=
  match targetTile c n with
  | none => 48
  | some a => if a = k / 64 then 48 else 64

end Sys2Proof.Machine
end

