-- ==== Sys2Proof/Machine/Meter.lean ====
section
/-! DEFINITION. The control die's totals per partition, which the Excise Meter counts (R394 to R397). -/

namespace Sys2Proof.Machine

/-- The control-die totals of partition n. -/
def State.part (s : State) (n : Nat) : Part := Tab.get {} s.exc.parts n
/-- Replace the totals of partition n. -/
def State.setPart (s : State) (n : Nat) (p : Part) : State :=
  { s with exc := { s.exc with parts := Tab.put {} s.exc.parts n p } }

/-- Bring ACTIVE_TICKS of a partition up to tick t: it counts ticks with at least one shot in flight (R395). -/
def Part.upTo (p : Part) (t : Nat) : Part :=
  { p with active := if p.inflight = 0 then p.active else p.active + (t - p.since), since := max p.since t }

/-- A SHOT_BEGIN of partition n retires at tick t (R126, R395). -/
def meterBegin (n t : Nat) (s : State) : State :=
  let p := (s.part n).upTo t
  s.setPart n { p with begun := p.begun + 1, inflight := p.inflight + 1, since := t }

/-- A shot of partition n completes at tick t (R127). -/
def meterComplete (n t : Nat) (s : State) : State :=
  let p := (s.part n).upTo t
  s.setPart n { p with completed := p.completed + 1, inflight := p.inflight - 1 }

/-- A shot of partition n is aborted at tick t (R79). -/
def meterAbort (n t : Nat) (s : State) : State :=
  let p := (s.part n).upTo t
  s.setPart n { p with aborted := p.aborted + 1, inflight := p.inflight - 1 }

/-- A VALID record of partition n's sequencers is produced (R395). -/
def meterRecord (n : Nat) (s : State) : State :=
  let p := s.part n
  s.setPart n { p with meas := p.meas + 1 }

/-- Enforcement holds partition n at check 5 of SHOT_BEGIN (R126, R397): it is on, and either no limit message has arrived for 200,000
ticks or the reserved total has reached LIMIT. -/
def creditHeld (n : Nat) (t : Nat) (s : State) : Bool :=
  let p := s.part n
  p.enforced && (s.upOf t ≥ p.limitAt + 200000 || p.base + p.begun + p.reserved ≥ p.limit)

/-- Reserve one shot of partition n against LIMIT (R397). -/
def meterReserve (n : Nat) (s : State) : State :=
  let p := s.part n
  s.setPart n { p with reserved := p.reserved + 1 }

/-- A reservation of partition n ends, because its SHOT_BEGIN retired or was abandoned (R126). -/
def meterRelease (n : Nat) (s : State) : State :=
  let p := s.part n
  s.setPart n { p with reserved := p.reserved - 1 }

end Sys2Proof.Machine
end

