-- ==== Sys2Proof/Machine/Angle.lean ====
section
/-! DEFINITION. The Cycle Angle: the angle at a tick, windows, and the tick of ALIGN_ANGLE (R47, R50 to R52). -/

namespace Sys2Proof.Machine

/-- The angle in QUAD mode at instant x [1/256 tick]: count plus the elapsed fraction of the last count interval, capped below 1 (R47);
an index restarts the count and the fraction, and the next interval is measured from its stamp (open corners:
DEDUCED, log entry 91). -/
def quadAngle (s : State) (x : Int) : Nat :=
  let a := s.tl.angle
  let ppr0 := s.get TL_CA_PPR
  let ppr := if ppr0 = 0 ∨ ppr0 > 65536 then 65536 else ppr0
  let step := a.quadStep
  let el := min (x - a.quadStamp).toNat (step - 1)
  let num : Int := if step = 0 then a.count * 65536 else (a.count * step + el) * 65536
  let den : Int := if step = 0 then ppr else (ppr * step : Nat)
  ((num / den) % 65536).toNat

/-- The angle extrapolated to an instant x [1/256 tick] from T_idx and P, which may lie before T_idx: the quotient is rounded
toward minus infinity (R47, R52); 0 while P is not set (open corners: DEDUCED, log entry 21). -/
def angleOf (p tIdx : Nat) (x : Int) : Nat :=
  if p = 0 then 0 else ((65536 * (x - tIdx) / (p : Int)) % 65536).toNat

/-- The period estimate, 0 until the tracker has set it since it started (R48): the register keeps the one of before. -/
def caPeriod (s : State) : Nat := if s.tl.angle.pSet then s.get TL_CA_PERIOD else 0

/-- The extrapolated angle at instant x [1/256 tick], as the tracker stands (R47). -/
def angleFine (s : State) (x : Int) : Nat :=
  match s.get TL_CA_CFG_MODE with
  | 0 => 0
  | 2 => quadAngle s x
  | _ => angleOf (caPeriod s) s.tl.angle.tIdx x

/-- The extrapolated angle at tick t, as the tracker stands (R47). -/
def angleAt (s : State) (t : Nat) : Nat := angleFine s (256 * t : Nat)

/-- VALID equals LOCKED (R50). -/
def angleValid (s : State) : Bool := s.on TL_CA_STATUS_LOCKED

/-- Cycle Angle window k contains angle x (R51). -/
def inWindow (s : State) (k x : Nat) : Bool :=
  let lo := s.get (TL_CA_WIN_LO k)
  let hi := s.get (TL_CA_WIN_HI k)
  if lo < hi then lo ≤ x && x < hi else if lo > hi then lo ≤ x || x < hi else false

/-- Cycle Angle window k is empty (R51). -/
def windowEmpty (s : State) (k : Nat) : Bool := s.get (TL_CA_WIN_LO k) == s.get (TL_CA_WIN_HI k)

/-- The angle at the tick before t: where an index or a count edge moved it at t, the one that it followed (R51). -/
def angleBefore (s : State) (t : Nat) : Nat :=
  if s.tl.angle.changed = t then s.tl.angle.was else angleAt s (t - 1)

/-- The angle passes from outside window k to inside it at tick t (R51). -/
def entersWindow (s : State) (k t : Nat) : Bool := inWindow s k (angleAt s t) && !inWindow s k (angleBefore s t)

/-- A TIMED pulse that starts at fine stamp st is high at tick t. -/
def pulseHigh (st width t : Nat) : Bool := decide ((32 * t + 2 ^ 64 - st % 2 ^ 64) % 2 ^ 64 < 32 * width)

/-- n divided by d, rounded up; 0 for d = 0. -/
def ceilDiv (n d : Nat) : Nat := if d = 0 then 0 else (n + d - 1) / d

/-- The offset of revolution r's entry into a window from T_idx [ticks]: ceil((LO + 65,536 r) P / 65,536), P in 1/256 tick (R52). -/
def entryOffset (lo p r : Nat) : Nat := ceilDiv ((lo + 65536 * r) * p) (65536 * 256)

/-- The cursor that ALIGN_ANGLE sets for window k at cursor tc: tc inside the window, else the least T at or after tc that
is T_idx plus an entry offset (R52).  T_idx is taken in whole ticks, rounded up. -/
def alignTick (s : State) (k tc : Nat) : Nat :=
  if inWindow s k (angleAt s tc) then tc
  else
    let p := caPeriod s
    let base := ceilDiv s.tl.angle.tIdx 256
    let lo := s.get (TL_CA_WIN_LO k)
    if p = 0 then tc
    else
      let r := (tc - base) * 256 / p
      let at_ := fun j => base + entryOffset lo p j
      if tc ≤ at_ (r - 1) then at_ (r - 1) else if tc ≤ at_ r then at_ r
      else if tc ≤ at_ (r + 1) then at_ (r + 1) else at_ (r + 2)

end Sys2Proof.Machine
end

