-- ==== Sys2Proof/Machine/Records.lean ====
section
/-! DEFINITION. Result records: their production and what it counts (R252, R253). -/

namespace Sys2Proof.Machine

/-- Lauter channel c beside its registers. -/
def State.lau (s : State) (c : Nat) : Lau := Tab.get {} s.laus c
/-- Replace Lauter channel c. -/
def State.setLau (s : State) (c : Nat) (x : Lau) : State := { s with laus := Tab.put {} s.laus c x }

/-- Flag bits of a record, by their place above bit 112 (R254). -/
def recValid : Nat := 0
/-- LOWCONF. -/
def recLowconf : Nat := 1
/-- LEAK. -/
def recLeak : Nat := 2
/-- PX. -/
def recPx : Nat := 3
/-- BUSY. -/
def recBusy : Nat := 4
/-- ABORTED. -/
def recAborted : Nat := 5
/-- OVERRANGE. -/
def recOver : Nat := 6
/-- ACC_SAT. -/
def recAccSat : Nat := 7
/-- RFI_DOWN. -/
def recRfiDown : Nat := 8
/-- CHAN_OFF. -/
def recChanOff : Nat := 9
/-- SETUP. -/
def recSetup : Nat := 10
/-- ANGLE_VALID. -/
def recAngleValid : Nat := 11

/-- Set a sticky flag of channel c and raise the RFI's event (R252, R261). -/
def lauFlag (c : Nat) (f : Fld) (s : State) : State := s.flagAlways f (704 + c / 32)

/-- Set the sticky flags of channel c that an invalid record's flags name; ABORTED records set none (R252). -/
def lauFlags (c flags : Nat) (s : State) : State :=
  if flags.testBit recAborted || flags.testBit recValid then s else
  let s := if flags.testBit recBusy then lauFlag c (LAU_STATUS_BUSY c) s else s
  let s := if flags.testBit recSetup then lauFlag c (LAU_STATUS_SETUP c) s else s
  let s := if flags.testBit recChanOff then lauFlag c (LAU_STATUS_CHAN_OFF c) s else s
  let s := if flags.testBit recAccSat then lauFlag c (LAU_STATUS_ACC_SAT c) s else s
  if flags.testBit recRfiDown then lauFlag c (LAU_STATUS_RFI_DOWN c) s else s

/-- Records wait in the order in which they are produced; those of one tick in ascending channel (R256). -/
def insertRec (r : Rec) : List Rec → List Rec
  | [] => [r]
  | x :: xs => if r.at_ < x.at_ ∨ (r.at_ = x.at_ ∧ r.chan < x.chan) then r :: x :: xs else x :: insertRec r xs

/-- Produce a record: it waits for the router, and the channel's counters, the Meter and the writer's shot count it (R252, R263,
R395). -/
def produce (r : Rec) (s : State) : State :=
  let c := r.chan
  let valid := r.flags.testBit recValid
  let s := { s with recs := insertRec r s.recs }
  let s := s.inc (LAU_MEAS_COUNT c)
  let s := if valid then s else s.incSat (LAU_INVALID_COUNT c)
  let s := if valid && r.flags.testBit recLowconf then s.incSat (LAU_LOWCONF_COUNT c) else s
  let s := if valid && r.flags.testBit recLeak then s.incSat (LAU_LEAK_COUNT c) else s
  let s := if valid then meterRecord (seqPart r.seq s) s else s
  let s := lauFlags c r.flags s
  s.modSeq r.seq fun q => { q with measures := Tab.put 0 q.measures r.shot (Tab.get 0 q.measures r.shot - 1) }

/-- The low 4 bits of RFI_CAL_EPOCH in a record's flags (R254). -/
def epochFlags (c : Nat) (s : State) : Nat := (s.get (RFI_CAL_EPOCH (c / 32)) % 16) * 2 ^ 12

/-- The record of a MEASURE entry that ends without a window (R252): VALID = 0, state 0, I = Q = 0. -/
def emptyRecord (e : Entry) (flags t : Nat) (toRv : Bool) (s : State) : Rec :=
  { chan := e.target, gen := e.gen, state := 0, i := 0, q := 0, 
    flags := flags ||| epochFlags e.target s ||| b2n (angleValid s) * 2 ^ recAngleValid,
    slot := bits e.a 16 16, angle := angleAt s t, epoch := s.get (RFI_CAL_EPOCH (e.target / 32)) % 65536, at_ := t, toRv := toRv,
    seq := e.seq, shot := e.shot }

end Sys2Proof.Machine
end

