-- ==== Sys2Proof/Machine/Recipe.lean ====
section
/-! DEFINITION. The Recipe Store: which words it holds, and which routines run by the rules of image 2.4 (R2, R130, R131, R155,
R157). -/

namespace Sys2Proof.Machine

/-- First byte of microword a of Tun t's Recipe Store (R130). -/
def recipeAddr (t a : Nat) : Nat := recipeBase + 0x20000 * t + 8 * a

/-- Opcodes of image 2.4 (R105). -/
def imageOps : List Nat :=
  [0x00, 0x01, 0x02, 0x08, 0x09, 0x0A, 0x0B, 0x0C, 0x10, 0x11, 0x12, 0x13, 0x18, 0x19, 0x1A, 0x1B, 0x20, 0x21, 0x28, 0x29,
   0x2A, 0x2B, 0x2C, 0x30, 0x31, 0x38, 0x39, 0x3A, 0x3B, 0x3C, 0x3D, 0x3E, 0x3F, 0x40, 0x41, 0x42, 0x48, 0x49, 0x50, 0x51]

/-- The microword ILL with UCOND = AL (R131). -/
def illWord : Nat := 0x1C00000000000000

/-- A microword of image 2.4: PLAY's as listed beside R142, ILL in the vectors of undefined opcodes and unused traps (R131, R143),
unknown elsewhere (DEDUCED, log entry 16). -/
def imageWord (a : Nat) : Nat :=
  match a with
  | 0x010 => 0x040000D000000400
  | 0x400 => 0x680000000000000A
  | 0x401 => 0xB00000A000000000
  | 0x402 => 0x9400000000000000
  | 0x403 => 0x9800000000000001
  | 0x404 => 0xA4002A0C00000000
  | a => if (a < 0xC0 ∧ ¬ imageOps.contains a) ∨ (0x108 ≤ a ∧ a < 0x120) then illWord else Config.factoryWord a % 2 ^ 64

/-- Micro-address a of Tun t still holds what the factory's image 2.4 put there: it is no vector of 0xC0 to 0xFF and no owner
word, and no patch has written it (R131, R155; DEDUCED, log entry 16). -/
def factoryHolds (t a : Nat) (s : State) : Bool :=
  let x := s.tun t
  x.factory && a < 0x3000 && !(0xC0 ≤ a && a ≤ 0xFF) && !x.written.any fun r => r.1 ≤ a && a < r.1 + r.2

/-- Microword a as sequencer k reads it. -/
def microword (k a : Nat) (s : State) : Nat := if factoryHolds (k / 8) a s then imageWord a else s.rd (recipeAddr (k / 8) a) 8

/-- No patch has written a body word that routine r of image 2.4 passes through, outside the vectors: r is an opcode, or 0x100 + n
for trap n.  The spec lists PLAY's body alone (R155, R157; DESIGN CHOICE, log entry 7) (DEDUCED, log entry 16). -/
def bodyHolds (t r : Nat) (s : State) : Bool :=
  !(s.tun t).written.any fun x => (List.range x.2).any fun j =>
    decide (0x120 ≤ x.1 + j) && decide (x.1 + j < 0x3000)
      && (if r = 0x10 then decide (0x400 ≤ x.1 + j ∧ x.1 + j ≤ 0x404) else Config.bodyUses r (x.1 + j))

/-- Machine opcode op of sequencer k runs by the rules of image 2.4: its Tun holds that image, and no patch has rewritten the
opcode's entry vector, nor a word of its body (R2, R155, R157; DEDUCED, log entry 16). -/
def byRule (k op : Nat) (s : State) : Bool :=
  imageOps.contains op && factoryHolds (k / 8) op s && bodyHolds (k / 8) op s

/-- Trap n of sequencer k runs by the rules of image 2.4 (R143, R157; DEDUCED, log entry 16). -/
def trapByRule (k n : Nat) (s : State) : Bool := factoryHolds (k / 8) (0x100 + n) s && bodyHolds (k / 8) (0x100 + n) s

end Sys2Proof.Machine
end

