-- ==== Sys2Proof/Machine/Sequencer.lean ====
section
/-! DEFINITION. Sequencer operations: states, the call and loop stack, retirement, timed event queues, the entry-write
checks, aborts and abort-class traps (R62 to R81, R101 to R104, R116, R117, R126 to R128, R149). -/

namespace Sys2Proof.Machine

/-! ### States (R63) -/

/-- Sequencer states (R63). -/
def stIdle : Nat := 0
/-- RUNNING. -/
def stRunning : Nat := 1
/-- STALLED. -/
def stStalled : Nat := 2
/-- TRAPPED. -/
def stTrapped : Nat := 3
/-- HALTED. -/
def stHalted : Nat := 4
/-- FAULTED. -/
def stFaulted : Nat := 5

/-- Sequencer k's STATE. -/
def seqState (k : Nat) (s : State) : Nat := s.get (SEQ_STATUS_STATE k)

/-- Move sequencer k to a state; each change raises event 128 + k (R63). -/
def setSeqState (k st : Nat) (s : State) : State :=
  if seqState k s = st then s else (s.set (SEQ_STATUS_STATE k) st).event (128 + k)

/-- STALL codes of SEQ_STATUS (R106). -/
def Stall.code : Stall → Nat
  | .teqFull _ => 1 | .result _ => 2 | .msg => 3 | .trig _ _ => 4 | .barrier _ => 5 | .angle => 6
  | .credit => 7 | .ring => 8 | .kiln _ _ => 9
  | .micro uop _ => if uop = 0x3E then 1 else if uop = 0x2E then 2 else if uop = 0x30 then 3
                  else if uop = 0x34 then 4 else if uop = 0x35 then 5 else if uop = 0x24 then 6 else if uop = 0x3F then 7 else 0

/-- Sequencer k stalls at tick t for a cause (R103, R106). -/
def stallSeq (k : Nat) (c : Stall) (t : Nat) (s : State) : State :=
  let s := s.modSeq k fun q => { q with stall := some c, since := t, readyAt := t, freedAt := none }
  setSeqState k stStalled (s.set (SEQ_STATUS_STALL k) c.code)

/-- STATE and STALL that show while the loaded routine of trap n runs (R143; DEDUCED, log entry 34). -/
def trapShown (n : Nat) : Nat × Nat := if n = 4 then (stStalled, 1) else if n = 5 then (stStalled, 7) else (stTrapped, 0)

/-- The stall of sequencer k ends at tick t and it runs on, or its loaded trap routine does (R103, R143) (DEDUCED, log entry 34). -/
def unstall (k t : Nat) (s : State) : State :=
  let s := s.modSeq k fun q => { q with stall := none, readyAt := t, freedAt := none }
  let x := ((s.seq k).micro.trap.map trapShown).getD (stRunning, 0)
  setSeqState k x.1 (s.set (SEQ_STATUS_STALL k) x.2)

/-- The full program counter, which may stand beyond address 8,191 (R104). -/
def pcOf (k : Nat) (s : State) : Nat := s.get (SEQ_PC k) + (if (s.seq k).pcOver then 8192 else 0)

/-- Set the program counter of sequencer k. -/
def setPc (k pc : Nat) (s : State) : State :=
  (s.modSeq k fun q => { q with pcOver := decide (pc ≥ 8192) }).set (SEQ_PC k) pc

/-- The instruction word at the program counter (R98). -/
def fetchWord (k : Nat) (s : State) : Nat := s.rd (instrStoreBase + 0x10000 * k + 8 * s.get (SEQ_PC k)) 8

/-- Program register g(n) of sequencer k. -/
def greg (k n : Nat) (s : State) : Nat := s.get (SEQ_GREG_G k (n % 16))
/-- Write program register g(n) of sequencer k (open corners: DEDUCED, log entry 78). -/
def setGreg (k n v : Nat) (s : State) : State := s.set (SEQ_GREG_G k (n % 16)) v

/-- The time cursor of sequencer k. -/
def cursor (k : Nat) (s : State) : Nat := s.get (SEQ_CURSOR k)
/-- Advance the cursor of sequencer k by n ticks (R77). -/
def advCursor (k n : Nat) (s : State) : State := s.set (SEQ_CURSOR k) (cursor k s + n)
/-- Raise the cursor of sequencer k to t: it never moves backwards. -/
def raiseCursor (k t : Nat) (s : State) : State := s.set (SEQ_CURSOR k) (max (cursor k s) t)

/-- The slack of sequencer k at tick t (R76). -/
def slackAt (k t : Nat) (s : State) : Int := satI 32 ((cursor k s : Int) - t - 48)

/-- The condition of R99 on the flags. -/
def condHolds (q : Seq) : Nat → Bool
  | 0 => true | 1 => q.z | 2 => !q.z | 3 => q.n | 4 => !q.n | 5 => q.c | 6 => !q.c | 7 => q.v | 8 => !q.v
  | 9 => q.c && !q.z | 10 => !q.c || q.z | 11 => q.n == q.v | 12 => q.n != q.v | 13 => !q.z && q.n == q.v
  | 14 => q.z || q.n != q.v | _ => false

/-! ### Shots and timed event queues -/

/-- Shots of sequencer k in flight: the open one, then those closing (R22, R127) (open corners: DEDUCED, log entry 77). -/
def inFlight (k : Nat) (s : State) : List Nat :=
  let q := s.seq k
  (if q.shotOpen then [s.get (SEQ_SHOT k)] else []) ++ q.closing

/-- Entries of queue j of sequencer k. -/
def teq (k j : Nat) (s : State) : List Entry := Tab.get [] (s.seq k).teqs j

/-- Replace the entries of queue j of sequencer k; SEQ_TEQ_STATUS and QM_Q_STATUS show their number (R97). -/
def setTeq (k j : Nat) (es : List Entry) (s : State) : State :=
  let s := (s.modSeq k fun q => { q with teqs := Tab.put [] q.teqs j es }).set (SEQ_TEQ_STATUS_ENTRIES k j) es.length
  (s.set (QM_Q_STATUS_COUNT (32 * k + j)) es.length).setB (QM_Q_STATUS_FULL (32 * k + j)) (decide (es.length ≥ 16))

/-- All entries of sequencer k. -/
def allEntries (k : Nat) (s : State) : List Entry := (s.seq k).teqs.flatMap (·.2)

/-- Produce the ABORTED record of every MEASURE among discarded entries (R79, R252). -/
def abortRecords (es : List Entry) (t : Nat) (toRv : Bool) (s : State) : State :=
  es.foldl (fun s e => if e.kind = 4 then produce (emptyRecord e (2 ^ recAborted) t toRv s) s else s) s

/-! ### Use of a tile's targets (R425) -/

/-- Calibration of tile a beside its registers. -/
def State.cal (s : State) (a : Nat) : Cal := Tab.get {} s.cals a
/-- Replace the calibration of tile a. -/
def State.setCal (s : State) (a : Nat) (x : Cal) : State := { s with cals := Tab.put {} s.cals a x }

/-- The target of an entry lies in tile a. -/
def entryIn (a : Nat) (e : Entry) : Bool :=
  match kindTarget e.kind with
  | none => false
  | some c => targetTile c e.target == some a

/-- A target of tile a is in use up to tick t (R425). -/
def noteTile (a t : Nat) (s : State) : State := s.setCal a { s.cal a with busyTo := max (s.cal a).busyTo t }

/-- A target of an entry's tile is in use up to tick t. -/
def noteEntry (e : Entry) (t : Nat) (s : State) : State :=
  match kindTarget e.kind with
  | none => s
  | some c => match targetTile c e.target with
    | none => s
    | some a => noteTile a t s

/-- Discard the entries of sequencer k that satisfy p at tick t (R79, R80) (DEDUCED, log entry 102). -/
def discardEntries (k : Nat) (p : Entry → Bool) (t : Nat) (toRv : Entry → Bool) (s : State) : State :=
  (s.seq k).teqs.foldl
    (fun s jx =>
      let gone := jx.2.filter p
      let s := setTeq k jx.1 (jx.2.filter fun e => !p e) s
      let x := s.queue (32 * k + jx.1)
      let s := s.setQueue (32 * k + jx.1) { x with dropped := x.dropped + gone.length }
      gone.foldl (fun s e => noteEntry e t (abortRecords [e] t (toRv e) s)) s) s

/-- Abort shot n of sequencer k at tick t: its pending entries are discarded, its MEASUREs yield ABORTED records, and the
Meter counts it (R79, steps 1 to 5). -/
def abortShot (k n t : Nat) (s : State) : State :=
  let s := discardEntries k (fun e => e.shot % 65536 == n % 65536) t (fun _ => true) s
  let s := s.modSeq k fun q =>
    { q with
        shotOpen := q.shotOpen && s.get (SEQ_SHOT k) != n
        closing := q.closing.filter (· != n)
        measures := Tab.put 0 q.measures n 0 }
  meterAbort (seqPart k s) t s

/-- Abort several shots of sequencer k. -/
def abortShots (k : Nat) (ns : List Nat) (t : Nat) (s : State) : State := ns.foldl (fun s n => abortShot k n t s) s

/-! ### Barriers (R82, R87) -/

/-- COUNT of barrier b. -/
def barCount (b : Nat) (s : State) : Nat := s.get (QM_BAR_CFG_COUNT b)

/-- The arrivals that barrier b shows: those of the oldest complete round, else of the open one (R86). -/
def barShown (b : Nat) (s : State) : List (Nat × Nat × Nat) :=
  match (s.bar b).rounds with
  | r :: _ => r.2
  | [] => (s.bar b).arrivals.take (barCount b s)

/-- Show a barrier's arrivals in its registers (R86). -/
def showBarrier (b : Nat) (s : State) : State :=
  let a := barShown b s
  let s := s.set (QM_BAR_STATUS_ARRIVED b) a.length
  if a.isEmpty then s else s.set (QM_BAR_MAX_MAX_CURSOR b) (a.foldl (fun m x => max m x.2.1) 0)

/-- The barrier a stall waits at. -/
def Stall.barrierOf : Stall → Option Nat
  | .barrier b => some b
  | .micro uop arg => if uop = 0x35 then some arg else none
  | _ => none

/-- Close the rounds that were complete before tick t: COUNT arrivals make a round, and later ones begin the next (R82)
(open corners: DEDUCED, log entry 25). -/
def closeRounds (count t : Nat) : Nat → Barrier → Barrier
  | 0, x => x
  | n + 1, x =>
    let r := x.arrivals.take count
    let rest := x.arrivals.drop count
    let last := (r.map (·.2.2)).foldl max 0
    if count = 0 ∨ x.arrivals.length < count ∨ t ≤ last then x
    else closeRounds count t n { arrivals := rest, first := (rest.map (·.2.2)).headD 0, rounds := x.rounds ++ [(last, r)] }

/-- Barrier b as it stands at tick t, before what that tick brings: the rounds completed before it are closed
(DEDUCED, log entry 25). -/
def settle (b t : Nat) (s : State) : State :=
  s.setBar b (closeRounds (barCount b s) t (s.bar b).arrivals.length (s.bar b))

/-- Withdraw sequencer k's arrival at the barrier it waits at, at tick t (R87): a withdrawal comes before an arrival of its
tick, and a round completed before it stays complete for the others (open corners: DEDUCED, log entry 25). -/
def withdraw (k t : Nat) (s : State) : State :=
  match (s.seq k).stall.bind Stall.barrierOf with
  | some b =>
    let s := settle b t s
    let x := s.bar b
    let gone := fun (a : List (Nat × Nat × Nat)) => a.filter (·.1 != k)
    showBarrier b (s.setBar b
      { x with arrivals := gone x.arrivals
               rounds := (x.rounds.map fun r => (r.1, gone r.2)).filter fun r => !r.2.isEmpty })
  | none => s

/-- Arrivals with one more, in the order of their ticks. -/
def addArrival (a : Nat × Nat × Nat) : List (Nat × Nat × Nat) → List (Nat × Nat × Nat)
  | [] => [a]
  | x :: xs => if a.2.2 < x.2.2 then a :: x :: xs else x :: addArrival a xs

/-- Sequencer k arrives at barrier b at tick t (R82): a round that is complete takes no more arrivals (open corners:
DEDUCED, log entry 25). -/
def arrive (k b t : Nat) (s : State) : State :=
  let s := settle b t s
  let x := s.bar b
  showBarrier b (s.setBar b
    { x with arrivals := addArrival (k, cursor k s, t) x.arrivals
             first := if x.arrivals.isEmpty then t else min x.first t })

/-! ### Abort-class traps (R149) -/

/-- The micro-address of cycle `cyc` of an instruction (R149): the entry vector in cycle 1, PLAY's listed body, or a body the
spec does not list (DESIGN CHOICE, log entry 7). -/
def upcOf (op cyc : Nat) : Nat :=
  if cyc ≤ 1 then op else if op = 0x10 then 0x400 + (cyc - 2) else Config.bodyUpc op cyc % 2 ^ 14

/-- The number of an abort-class trap (R143) (DEDUCED, log entry 16). -/
def abortTrapNo (kind : AbortKind) (code : Nat) : Nat :=
  match kind with
  | .fault => if code = 0x01 then 1 else if code = 0x0D then 2 else 3
  | _ => 0

/-- What KILN_SKIPPED counts of a sequencer's present Kiln stall by tick t: its skipped cycles, or its paused ticks (R439). -/
def kilnSoFar (q : Seq) (t : Nat) : Nat :=
  match q.stall with
  | some (.kiln until_ pause) => (min t until_ - q.since) / (if pause = 0 then 2 else 1)
  | _ => 0

/-- An abort-class trap of sequencer k at tick t with its fault code, micro-address, instruction address and COMMIT count (R149):
the abort record and steps 1 to 5 of R79 at the trap's tick; the abort routine then runs for 4 cycles, and one that a patch has
written runs its microwords as they stand (R157; DEDUCED, log entry 16).  STATE keeps its value through the routine, but a stall is
over (open corners: DEDUCED, log entry 77) (DEDUCED, log entry 97). -/
def abortAt (k : Nat) (kind : AbortKind) (code upc pc commits t : Nat) (s : State) : State :=
  let s := s.set (SEQ_ABORT_INFO_UPC k) upc
  let s := s.set (SEQ_ABORT_INFO_IADDR k) pc
  let s := s.set (SEQ_ABORT_INFO_COMMITS k) (satN 8 commits)
  let s := withdraw k t s
  let s := s.inc KILN_SKIPPED (kilnSoFar (s.seq k) t)
  let s := if (s.seq k).reserved then
      meterRelease (seqPart k s) (s.modSeq k fun q => { q with reserved := false }) else s
  let shots := match kind with
    | .fault => if (s.seq k).shotOpen then [s.get (SEQ_SHOT k)] else []
    | _ => inFlight k s
  let s := abortShots k shots t s
  let s := if code = 0x01 then s.incSat (SEQ_MISS_COUNT k) else s
  let n := abortTrapNo kind code
  let loaded := !trapByRule k n s
  let te := if loaded then t else t + 8
  let s := s.modSeq k fun q =>
    { q with stall := none, freedAt := none, readyAt := te, pause := 0,
             abort := some { kind := kind, code := code, pc := pc, ends := te, loaded := loaded },
             micro := { q.micro with active := loaded, upc := if loaded then 0x100 + n else q.micro.upc, nextPc := none, halt := false,
                                     tau := [], trap := none, full := none, commits := 0 } }
  let s := s.set (SEQ_STATUS_STALL k) 0
  let s := if loaded then s else s.later te (.abortEnd k te)
  if seqState k s = stStalled then setSeqState k stRunning s else s

/-- An abort-class trap in the instruction at the program counter (DEDUCED, log entry 77). -/
def abortTrap (k : Nat) (kind : AbortKind) (code upc commits t : Nat) (s : State) : State :=
  abortAt k kind code upc (pcOf k s) commits t s

/-- The abort routine of sequencer k ends at tick t: it has stored the fault code and applies ON_ABORT (R66, R149)
(DEDUCED, log entry 77; DEDUCED, log entry 97). -/
def abortEnd (k t : Nat) (s : State) : State :=
  match (s.seq k).abort with
  | none => s
  | some a =>
    if a.ends = t then
      let s := s.modSeq k fun q => { q with abort := none }
      let s := (s.set (SEQ_FAULT_CODE k) a.code).set (SEQ_FAULT_IADDR k) a.pc
      match a.kind with
      | .hostStop => setSeqState k stIdle s
      | .serviceLoss => setSeqState k stFaulted s
      | .fault =>
        if s.on (SEQ_CTRL_ON_ABORT k) then
          let s := setPc k (s.get (SEQ_RESUME_PC k)) s
          let s := raiseCursor k (t + s.get (SEQ_START_LEAD k)) s
          setSeqState k stRunning s
        else setSeqState k stFaulted s
    else s

/-- The micro-address an abort reports for sequencer k between or within instructions: the shadow's when a trap routine or a
stall trap runs, else that of the instruction's present microword (R149): an instruction of image 2.4 stalls in its third cycle,
SYNC in its second (R82, R114, R121, R125, R144; R53, R126) (DESIGN CHOICE, log entry 7). -/
def presentUpc (k : Nat) (s : State) : Nat :=
  let q := s.seq k
  match q.stall with
  | some (.teqFull _) => bits (q.shadow.headD 0) 0 14
  | some (.credit) => bits (q.shadow.headD 0) 0 14
  | some c => if q.micro.trap.isSome then bits (q.shadow.headD 0) 0 14
              else if q.micro.active then q.micro.upc
              else upcOf (fetchWord k s / 2 ^ 56) (if c.barrierOf.isSome then 2 else 3)
  | none => if seqState k s = stTrapped ∨ q.micro.trap.isSome then bits (q.shadow.headD 0) 0 14
            else if q.micro.active then q.micro.upc
            else fetchWord k s / 2 ^ 56

/-- COMMIT microwords that the present instruction of sequencer k has completed: a routine of image 2.4 has none before its last
cycle in this model (R137, R500). -/
def presentCommits (k : Nat) (s : State) : Nat := if (s.seq k).micro.active then (s.seq k).micro.commits else 0

/-- The end of the cycle that sequencer k executes at tick t (R146). -/
def cycleEnd (k t : Nat) (s : State) : Nat :=
  let r := (s.seq k).readyAt
  if t < r then r else r + 2 * ((t - r) / 2 + 1)

/-- HOST_STOP or SERVICE_LOSS on a sequencer that runs a routine, at tick t (R20, R65): where an abort routine runs already, every shot
still in flight is aborted too, and the routine ends by the new kind and code (R128, R146) (open corners: DEDUCED, log entry 77)
(DEDUCED, log entry 76). -/
def stopTrap (k : Nat) (kind : AbortKind) (t : Nat) (s : State) : State :=
  let code := if kind = .hostStop then 0x09 else 0x0A
  let op := fetchWord k s / 2 ^ 56
  let r := (s.seq k).readyAt
  if (s.seq k).abort.isSome then
    let s := abortShots k (inFlight k s) t s
    s.modSeq k fun q => { q with abort := q.abort.map fun a => { a with kind := kind, code := code } }
  else if (s.seq k).stall.isNone ∧ !(s.seq k).micro.active ∧ r < t then
    abortTrap k kind code (upcOf op ((t - r) / 2)) 0 t s
  else abortTrap k kind code (presentUpc k s) (presentCommits k s) t s

/-! ### Retirement and the stack (R116, R117, R135) -/

/-- Judge the loop entries whose END is address pc at retirement without a transfer: the stack and the next address (R116) (open
corners: DEDUCED, log entry 28). -/
def loopNext (pc : Nat) : List StackItem → List StackItem × Nat
  | .loop first last count :: st =>
    if last = pc then
      if count > 1 then (.loop first last (count - 1) :: st, first) else loopNext pc st
    else (.loop first last count :: st, pc + 1)
  | st => (st, pc + 1)

/-- The instruction at the program counter retires at tick t without transferring control (R116, R135) (open corners:
DEDUCED, log entry 28). -/
def retire (k t : Nat) (s : State) : State :=
  let (st, pc) := loopNext (pcOf k s) (s.seq k).stack
  let at_ := pcOf k s
  setPc k pc (s.modSeq k fun q => { q with stack := st, readyAt := t, lastPc := at_ })

/-- The instruction retires at tick t with the next address pc. -/
def retireTo (k pc t : Nat) (s : State) : State :=
  let at_ := pcOf k s
  setPc k pc (s.modSeq k fun q => { q with readyAt := t, lastPc := at_ })

/-- Pop the loop entries at the top of the stack whose body does not hold a taken target, down to the first CALL entry
(R117). -/
def popLoops (target : Nat) : List StackItem → List StackItem
  | .loop first last count :: st =>
    if first ≤ target ∧ target ≤ last then .loop first last count :: st else popLoops target st
  | st => st

/-- Take a branch to an address at or below 8,191: loops that do not hold it are popped (R117). -/
def branchTo (k target t : Nat) (s : State) : State :=
  retireTo k target t (s.modSeq k fun q => { q with stack := popLoops target q.stack })

/-! ### Entry writes (R67 to R80, R102) -/

/-- The queue a target binds to: the lowest whose binding has the class and holds the number (R68). -/
def boundQueue (k : Nat) (c : Target) (n : Nat) (s : State) : Option Nat :=
  (List.range 32).find? fun j =>
    s.get (SEQ_TEQ_BIND_CLASS k j) == c.code && s.get (SEQ_TEQ_BIND_BASE k j) ≤ n
      && n < s.get (SEQ_TEQ_BIND_BASE k j) + s.get (SEQ_TEQ_BIND_COUNT k j)

/-- The target lies in a fenced tile (R80). -/
def targetFenced (c : Target) (n : Nat) (s : State) : Bool :=
  match targetTile c n with
  | none => false
  | some a => fenced a s

/-- An entry at (tick, fine) would come before the last entry of its queue (R70). -/
def outOfOrder (es : List Entry) (tick fine : Nat) : Bool :=
  match es.getLast? with
  | none => false
  | some e => tick < e.tick || (tick == e.tick && fine < e.fine)

/-- What the checks of a write decide. -/
inductive WriteOutcome where
  | ok (queue : Nat)
  | full (queue : Nat)
  | fault (code : Nat) (atDeadline : Bool)     -- atDeadline: the write reached the check of R75
deriving DecidableEq, Repr

/-- The checks of R102 on a write of kind `kind` for `target` at tick t_w, in their order: R72, R68, the full-queue test of
R69, R70, R73, R75, R80, R88.  A number outside its class is owned by no partition (open corners: DEDUCED, log entry 79). -/
def checkWrite (k kind target fine tw : Nat) (s : State) : WriteOutcome :=
  match kindTarget kind with
  | none => .fault 0x08 false
  | some c =>
    match boundQueue k c target s with
    | none => .fault 0x04 false
    | some j =>
      let tick := cursor k s
      let es := teq k j s
      if es.length ≥ 16 then .full j
      else if outOfOrder es tick fine then .fault 0x03 false
      else if tick ≥ tw + 2 ^ 39 then .fault 0x02 false
      else if tick < tw + minLead k c target then .fault 0x01 true
      else if targetFenced c target s then .fault 0x06 true
      else if targetOk c target = false ∨ targetPart c target s ≠ seqPart k s then .fault 0x05 true
      else .ok j

/-- Record the slack of a write that reaches the check of R75 (R76). -/
def noteSlack (k tw : Nat) (s : State) : State :=
  let sl := slackAt k tw s
  if sl < s.getI (SEQ_SLACK_MIN k) then s.setI (SEQ_SLACK_MIN k) sl else s

/-- The bits of B that a kind uses (R72): the rest are 0. -/
def kindMaskB (kind a : Nat) : Nat :=
  match kind with
  | 0 => 2 ^ 48 - 1
  | 1 => 0xFFFF0000
  | 3 => 2 ^ 32 - 1
  | 6 => if a % 4 = 0 then 2 ^ 48 - 1 else if a % 4 = 1 then 2 ^ 32 - 1 else 0
  | _ => 0

/-- Append the entry of an accepted write to its queue; a MEASURE takes its channel's next generation, which `genReg` may
receive, and names the ring its shot boundary waits on (R93, R112, R253). -/
def putEntry (k : Nat) (w : HeldWrite) (j : Nat) (s : State) : State :=
  let shot := s.get (SEQ_SHOT k)
  let who := w.staged.getD (k, shot % 65536)
  let shot := shot - shot % 65536 + who.2
  let e : Entry := { tick := cursor k s, fine := w.fine, kind := w.kind, seq := who.1, target := w.target, shot := shot,
                     a := w.a, b := w.b &&& kindMaskB w.kind w.a }
  let x := s.queue (32 * k + j)
  let s := s.setQueue (32 * k + j) { x with entered := x.entered + 1 }
  if w.kind = 4 then
    let s := s.inc (LAU_GEN w.target)
    let g := s.get (LAU_GEN w.target)
    let s := setTeq k j (teq k j s ++ [{ e with gen := g }]) s
    let ring := 0x4000 + s.get (LAU_CFG_RING w.target)
    let s := s.modSeq k fun q => { q with rings := if q.rings.contains ring then q.rings else ring :: q.rings }
    let s := s.modSeq who.1 fun q => { q with measures := Tab.put 0 q.measures shot (Tab.get 0 q.measures shot + 1) }
    match w.genReg with
    | none => s
    | some n => setGreg k n g s
  else setTeq k j (teq k j s ++ [e]) s

/-- Remove the head entry of queue j of sequencer k, which fires at tick t; a sequencer stalled on that queue notes the tick
(R78, R103).  A head that is discarded does not fire, and the sequencer waits on for the one that does (open corners:
DEDUCED, log entry 102). -/
def popTeq (k j t : Nat) (s : State) : State :=
  let s := setTeq k j ((teq k j s).drop 1) s
  match (s.seq k).stall with
  | some (.teqFull w) => if w.queue = j then s.modSeq k fun q => { q with freedAt := some t } else s
  | some (.micro uop arg) => if uop = 0x3E ∧ arg = j then s.modSeq k fun q => { q with freedAt := some t } else s
  | _ => s

/-- The lowest queue of sequencer k whose head entry has a kind and target that satisfy p, with that entry (open corners: DEDUCED,
DEDUCED, log entry 37). -/
def headWith (k : Nat) (p : Entry → Bool) (s : State) : Option (Nat × Entry) :=
  (s.seq k).teqs.findSome? fun jx =>
    match jx.2 with
    | e :: _ => if p e then some (jx.1, e) else none
    | [] => none

/-- Timeline-dependent activity (R28): a sequencer is running, a queue holds an entry, a Tap unit is armed, a timed pulse is
armed or a monitor timer is armed. -/
def seqActive (s : State) : Bool :=
  (List.range 512).any (fun k => let st := seqState k s; st == stRunning || st == stStalled || st == stTrapped)
    || s.seqs.any fun kq => kq.2.teqs.any fun jx => !jx.2.isEmpty

end Sys2Proof.Machine
end

