-- ==== Sys2Proof/Machine/Coding.lean ====
section
/-! DEFINITION. The line coding of a Flavas lane: 64b/66b blocks, the scrambler, the blocks of a flit on their lanes, and the test
patterns (R321, R331, R335). -/

namespace Sys2Proof.Machine

/-! ### The scrambler (R321) -/

/-- One bit through x^58 + x^39 + 1: the bit, added to the bits 39 and 58 before it on the line, newest first. -/
def scrBit (line : List Bool) (b : Bool) : Bool := xor b (xor (line.getD 38 false) (line.getD 57 false))

/-- The line's last 58 bits with one more. -/
def lineNext (line : List Bool) (b : Bool) : List Bool := b :: line.take 57

/-- Payload bits scrambled behind the line's last bits: what goes on the line, and its last bits then (R321). -/
def scramble : List Bool → List Bool → List Bool × List Bool
  | line, [] => ([], line)
  | line, b :: bs =>
    let o := scrBit line b
    let r := scramble (lineNext line o) bs
    (o :: r.1, r.2)

/-- The receiver's side of the scrambler: the payload bits of what came on the line (R321). -/
def descramble : List Bool → List Bool → List Bool × List Bool
  | line, [] => ([], line)
  | line, o :: os =>
    let r := descramble (lineNext line o) os
    (scrBit line o :: r.1, r.2)

/-! ### Blocks (R321) -/

/-- A 66-bit block before scrambling: its sync header, which is not scrambled, and its 64 payload bits. -/
structure Block where
  sync    : Nat
  payload : Nat
deriving DecidableEq, Repr

/-- The block between flits. -/
def idleBlock : Block := ⟨2, 0x1E⟩

/-- The 8 blocks of a flit. -/
def flitBlocks (f : Nat) : List Block := (List.range 8).map fun k => ⟨if k = 0 then 2 else 1, bits f (64 * k) 64⟩

/-- The flit of 8 blocks. -/
def blocksFlit (bs : List Block) : Nat := bs.zipIdx.foldl (fun n b => n + b.1.payload * 2 ^ (64 * b.2)) 0

/-- The 8 blocks that a receiver has descrambled, from 528 bits: each its sync header in its two low bits (DEDUCED, log entry 46). -/
def rxBlocks (x : Nat) : List Block := (List.range 8).map fun k => ⟨bits x (66 * k) 2, bits x (66 * k + 2) 64⟩

/-- The flit of 528 received bits. -/
def rxFlit (x : Nat) : Nat := blocksFlit (rxBlocks x)

/-- The lane of block k of a flit on link n of w lanes. -/
def blockLane (n w k : Nat) : Nat := n + k % w

/-- The blocks of a flit that go on lane l of link n, in order. -/
def laneBlocks (n w l f : Nat) : List Block :=
  ((flitBlocks f).zipIdx.filter fun b => blockLane n w b.2 == l).map (·.1)

/-- The 64 payload bits of a block, bit 0 first (PRESUMED, log entry 108). -/
def payloadBits (b : Block) : List Bool := (List.range 64).map b.payload.testBit

/-- The number whose bits, from bit 0 up, are these. -/
def bitsNat (bs : List Bool) : Nat := bs.foldr (fun b n => b2n b + 2 * n) 0

/-- A block as the line carries it behind the line's last bits, as 66 bits with the sync header in the two low ones, and the line's
last bits then (PRESUMED, log entry 108). -/
def codeBlock (line : List Bool) (b : Block) : Nat × List Bool :=
  let r := scramble line (payloadBits b)
  (b.sync + 4 * bitsNat r.1, r.2)

/-- Blocks one behind the other on one lane. -/
def codeBlocks : List Bool → List Block → List Nat × List Bool
  | line, [] => ([], line)
  | line, b :: bs =>
    let c := codeBlock line b
    let r := codeBlocks c.2 bs
    (c.1 :: r.1, r.2)

/-- The line's last bits after n IDLE blocks (R321). -/
def idleRun : Nat → List Bool → List Bool
  | 0, line => line
  | n + 1, line => idleRun n (codeBlock line idleBlock).2

/-- IDLE blocks that fit in n ticks, at 16 bits a tick. -/
def idleCount (n : Nat) : Nat := 16 * n / 66

/-- A sync header is valid. -/
def syncValid (h : Nat) : Bool := h == 1 || h == 2

/-- A lane has block lock: its last 64 sync headers, newest first, are valid (R331). -/
def blockLocked (hs : List Nat) : Bool := decide (64 ≤ hs.length) && (hs.take 64).all syncValid

/-! ### Test patterns (R335) -/

/-- The two taps of a pattern, as distances on the line: PRBS7, PRBS15, PRBS31. -/
def prbsTaps (pattern : Nat) : Nat × Nat := match pattern with | 1 => (7, 6) | 2 => (15, 14) | _ => (31, 28)

/-- The next bit of a pattern behind the line's last bits, newest first. -/
def prbsBit (pattern : Nat) (line : List Bool) : Bool :=
  xor (line.getD ((prbsTaps pattern).1 - 1) false) (line.getD ((prbsTaps pattern).2 - 1) false)

/-- The line's last 31 bits after n bits of a pattern. -/
def prbsRun (pattern : Nat) : Nat → List Bool → List Bool
  | 0, line => line
  | n + 1, line => prbsRun pattern n (prbsBit pattern line :: line.take 30)

/-- The checker locks: the last 64 bits were correct, newest first. -/
def prbsLocks (correct : List Bool) : Bool := decide (64 ≤ correct.length) && (correct.take 64).all id

/-- The checker loses its lock: 64 errors within the last 1,024 bits. -/
def prbsLoses (correct : List Bool) : Bool := decide (64 ≤ ((correct.take 1024).filter fun b => !b).length)

/-! ### Injected errors (R335) -/

/-- INJ_EXP of lane l inverts one bit in so many; none when it is off. -/
def injectPeriod (l : Nat) (s : State) : Option Nat :=
  match s.get (FLV_LANE_TEST_INJ_EXP l) with | 0 => none | e => some (2 ^ max e 10)

/-- INJ_EXP inverts bit j of what lane l sends: one bit in every 2^e bits, at a place the spec leaves open
(DESIGN CHOICE, log entry 112). -/
def injectsAt (l j : Nat) (s : State) : Bool :=
  match injectPeriod l s with | some p => (j + Config.injectPhase l) % p == 0 | none => false

/-- The n bits of x from bit j of lane l's line on, with INJ_EXP's inversions. -/
def injectBits (l j n x : Nat) (s : State) : Nat :=
  (List.range n).foldl (fun x i => if injectsAt l (j + i) s then x ^^^ 2 ^ i else x) x

end Sys2Proof.Machine
end

