-- ==== Sys2Proof/Machine/Flavas.lean ====
section
/-! DEFINITION. Flavas links: states, messages, virtual channels, credits and flits (R319 to R337). -/

namespace Sys2Proof.Machine

/-- Link L beside its registers. -/
def State.link (s : State) (n : Nat) : Link := Tab.get {} s.links n
/-- Replace link L. -/
def State.setLink (s : State) (n : Nat) (x : Link) : State := { s with links := Tab.put {} s.links n x }

/-- Lane l beside its registers. -/
def State.fibre (s : State) (l : Nat) : Lane := Tab.get {} s.fibres l
/-- Replace lane l. -/
def State.setFibre (s : State) (l : Nat) (x : Lane) : State := { s with fibres := Tab.put {} s.fibres l x }

/-- The device's own DEV_ID. -/
def myDev (s : State) : Nat := s.get GLB_DEVID_DEV_ID

/-- Lanes of a link (R319). -/
def linkWidth (n : Nat) (s : State) : Nat := match s.get (FLV_CFG_WIDTH n) with | 0 => 1 | 1 => 2 | 2 => 4 | _ => 1

/-- Link states (R331). -/
def lkDisabled : Nat := 0
/-- DETECT. -/
def lkDetect : Nat := 1
/-- TRAIN. -/
def lkTrain : Nat := 2
/-- LOCK. -/
def lkLock : Nat := 3
/-- CAPS. -/
def lkCaps : Nat := 4
/-- ACTIVE. -/
def lkActive : Nat := 5
/-- EIDLE. -/
def lkEidle : Nat := 6

/-- The state of link L. -/
def linkState (n : Nat) (s : State) : Nat := s.get (FLV_STATUS_STATE n)

/-- Move link L to a state at tick t; each change raises event 768 + L (R331). -/
def setLinkState (n st t : Nat) (s : State) : State :=
  if linkState n s = st then s
  else ((s.setLink n { s.link n with since := t, exitAt := none, quiet := t }).set (FLV_STATUS_STATE n) st).event (768 + n)

/-! ### Messages (R323) -/

/-- The header of a message: TYPE, DST_DEV, HOPS and ALN. -/
def msgHeader (type dst hops : Nat) (s : State) : Nat :=
  type + dst * 2 ^ 4 + hops * 2 ^ 10 + b2n (s.on TL_STATUS_ALIGNED) * 2 ^ 13

/-- A RESULT message (R323). -/
def resultMsg (dst rpair state gen : Nat) (inv : Bool) (send : Nat) (s : State) : Nat :=
  msgHeader 1 dst 0 s + rpair * 2 ^ 16 + state * 2 ^ 26 + b2n inv * 2 ^ 28 + gen * 2 ^ 32 + (send % 2 ^ 48) * 2 ^ 64

/-- A TRIGGER message (R323). -/
def triggerMsg (dst queue value send : Nat) (s : State) : Nat :=
  msgHeader 2 dst 0 s + queue * 2 ^ 16 + value * 2 ^ 32 + (send % 2 ^ 48) * 2 ^ 64

/-- A TIME message (R323). -/
def timeMsg (dst : Nat) (reply : Bool) (num t1 h : Nat) (s : State) : Nat :=
  msgHeader 3 dst 0 s + b2n reply * 2 ^ 16 + num * 2 ^ 24 + (t1 % 2 ^ 48) * 2 ^ 32 + (h % 2 ^ 16) * 2 ^ 80

/-- A MGMT message (R323). -/
def mgmtMsg (dst vc data : Nat) (s : State) : Nat :=
  msgHeader 4 dst 0 s + vc * 2 ^ 16 + (data % 2 ^ 96) * 2 ^ 32

/-- The virtual channel that a message travels on (R324). -/
def msgVc (m : Nat) : Nat :=
  match bits m 0 4 with
  | 1 => 0
  | 2 => 1
  | 3 => 2
  | _ => let v := bits m 16 16; if 3 ≤ v ∧ v ≤ 127 then v else 3

/-- Queue of virtual channel v of link L (R324). -/
def vcQueue (n v : Nat) : Nat := 0x8000 + 128 * n + v

/-! ### Flits (R322, R328, R329) -/

/-- The flit that carries messages, as a 512-bit number (R322) (open corners: DEDUCED, log entry 46). -/
def makeFlit (seq credit src : Nat) (msgs : List Nat) : Nat :=
  let body := 0x78 + (seq % 2 ^ 16) * 2 ^ 8 + credit * 2 ^ 24 + src * 2 ^ 32 + msgs.length * 2 ^ 38
    + (msgs.zipIdx.foldl (fun n m => n + (m.1 % 2 ^ 128) * 2 ^ (64 + 128 * m.2)) 0)
  body + crc32c (toBytes 56 body) * 2 ^ 448

/-- Lanes of link L. -/
def linkLanes (n : Nat) (s : State) : List Nat := (List.range (linkWidth n s)).map (n + ·)

/-- INJECT's pending inversions on the blocks that lane l sends next: each inverts one bit of them, at a place the spec leaves open
(R335) (DESIGN CHOICE, log entry 112). -/
def injectPending : Nat → List Nat → State → List Nat × State
  | 0, bs, s => (bs, s)
  | n + 1, bs, s =>
    let x := s.fresh
    let i := Config.freeValue x.1 % (66 * bs.length)
    injectPending n (bs.modify (i / 66) fun b => b ^^^ 2 ^ (i % 66)) x.2

/-- Lane l of link n carries its blocks of flit f: behind the IDLE blocks since its last flit, coded, scrambled, with the errors that
the lane test injects (R321, R335) (open corners: PRESUMED, log entry 108). -/
def laneSend (n f l : Nat) (s : State) : State :=
  let x := s.fibre l
  let idle := idleCount (s.now - x.sentAt)
  let r := codeBlocks (idleRun idle x.line) (laneBlocks n (linkWidth n s) l f)
  let bs := r.1.zipIdx.map fun b => injectBits l (16 * s.now + 66 * b.2) 66 b.1 s
  let y := injectPending x.injected bs s
  (y.2.setFibre l { x with line := r.2, sentAt := s.now, injected := 0 }).emit (.lane l idle y.1)

/-- Send one flit with messages on link L: it costs a credit and carries the credits owed (R328, R329) (open corners:
DEDUCED, log entry 46). -/
def sendFlit (n : Nat) (msgs : List Nat) (s : State) : State :=
  let x := s.link n
  let c := min x.owed 255
  let s := s.setLink n { x with txSeq := (x.txSeq + 1) % 2 ^ 16, owed := x.owed - c, quiet := s.now }
  let s := s.set (FLV_CREDIT_TX_CREDITS n) (s.get (FLV_CREDIT_TX_CREDITS n) - 1)
  let s := s.inc (FLV_FLITS_SENT n)
  let s := s.inc (FLV_CREDITS_RETURNED n) c
  let f := makeFlit x.txSeq c (myDev s) msgs
  (linkLanes n s).foldl (fun s l => laneSend n f l s) (s.emit (.flit n msgs.length x.txSeq c (toBytes 64 f)))

/-- The channels in the order of service: RESULT, TIME, TRIGGER, then MGMT round-robin, each channel as often as a flit has
slots (R324). -/
def vcOrder (rr : Nat) : List Nat := [0, 2, 1] ++ (List.range 375).map fun k => 3 + (rr - 3 + k) % 125

/-- Take up to `room` waiting messages of link L in the order of service. -/
def takeMsgs (n : Nat) : Nat → List Nat → List Nat × State → List Nat × State
  | _, [], r => r
  | 0, _, r => r
  | room + 1, v :: vs, (ms, s) =>
    match s.popHead (vcQueue n v) with
    | (none, s) => takeMsgs n (room + 1) vs (ms, s)
    | (some it, s) =>
      let s := if v ≥ 3 then s.setLink n { s.link n with rr := if v = 127 then 3 else v + 1 } else s
      takeMsgs n room (if v ≥ 3 then vs else v :: vs) (ms ++ [ofBytes it.bytes], s)

/-- Send the waiting messages of link L while it is ACTIVE and holds credits; `fuel` bounds the flits (R324, R328). -/
def flvPump (n : Nat) : Nat → State → State
  | 0, s => s
  | fuel + 1, s =>
    if linkState n s = lkActive ∧ s.get (FLV_CREDIT_TX_CREDITS n) > 0 then
      match takeMsgs n 3 (vcOrder (s.link n).rr) ([], s) with
      | ([], s) => s
      | (ms, s) => flvPump n fuel (sendFlit n ms s)
    else s

/-- Count a message dropped at TX ingress or for want of a queue: a RESULT under R271, the other types in FLV_TX_DROPS (R325,
R328). -/
def txDrop (m : Nat) (s : State) : State :=
  if bits m 0 4 = 1 then (s.incSat DEC_FWD_DROPS).flag DEC_STATUS_FWD_DROP 740
  else (s.incSat FLV_TX_DROPS).flag FLV_GSTATUS_TX_DROP 768

/-- EIDLE of link L ends with an exit burst of 16 ticks, unless one runs already (R334) (DEDUCED, log entry 46). -/
def startExit (n : Nat) (s : State) : State :=
  if linkState n s = lkEidle ∧ (s.link n).exitAt.isNone then s.setLink n { s.link n with exitAt := some (s.now + 16) } else s

/-- A message for link L's virtual channel waits in its queue, then the link sends what it can; a message that cannot be queued
is dropped (R324, R328).  In EIDLE the message ends the idle state by an exit burst of 16 ticks (R334). -/
def linkSend (n m : Nat) (s : State) : State :=
  let q := vcQueue n (msgVc m)
  if s.full q then txDrop m (s.noteEmpty q)
  else
    let s := s.append q { bytes := toBytes 16 m, tag := bits m 0 4 }
    flvPump n 64 (startExit n s)

/-- R325 drops message m at TX ingress; `from_` is the link a transit message arrived on (R325, R326) (DEDUCED, log entry 46). -/
def txRefused (m : Nat) (from_ : Option Nat) (s : State) : Bool :=
  let dst := bits m 4 6
  let n := s.get (FLV_ROUTE_LINK dst)
  !s.on (FLV_ROUTE_VALID dst) || dst == myDev s || from_ == some n
    || (linkState n s != lkActive && linkState n s != lkEidle)

/-- TX ingress of a message of this device: the link its route names, or a counted drop (R325) (DEDUCED, log entry 46). -/
def txIngress (m : Nat) (s : State) : State :=
  if txRefused m none s then txDrop m s else linkSend (s.get (FLV_ROUTE_LINK (bits m 4 6))) m s

/-- Send a RESULT message (R270, R325). -/
def sendResult (dst rpair state gen : Nat) (inv : Bool) (t : Nat) (s : State) : State :=
  txIngress (resultMsg dst rpair state gen inv t s) s

/-- Count a received message that is not delivered (R326) (open corners: DEDUCED, log entry 57). -/
def rxDrop (s : State) : State := (s.incSat FLV_RX_DROPS).flag FLV_GSTATUS_RX_DROP 768

/-- The proxy that binds queue q, if one does while proxies are enabled (R327). -/
def proxyOf (q : Nat) (s : State) : Option Nat :=
  if s.on FLV_GCTRL_EN then
    (List.range 64).find? fun k => s.on (FLV_PROXY_DST_VALID k) && s.get (FLV_PROXY_SRC_LQUEUE k) == q
  else none

/-- Flits that a receiver holds (R328). -/
def flvDepth : Nat := 64

/-- Ticks that a flit spends in the receiver behind the lanes: recovery, block sync and check, dispatch (R336)
(DESIGN CHOICE, log entry 106). -/
def rxHold : Nat := 19

/-- The receiver counts every credit still owed as returned, and the transmitter every credit not received back as restored;
SEQ restarts (R330) (open corners: DEDUCED, log entry 46). -/
def linkRestore (n depth : Nat) (s : State) : State :=
  let x := s.link n
  let s := s.inc (FLV_CREDITS_RETURNED n) x.owed
  let missing := s.get (FLV_FLITS_SENT n) - s.get (FLV_CREDITS_BACK n) - s.get (FLV_CREDITS_RESTORED n)
  let s := s.setLink n { x with owed := 0, txSeq := 0, rxSeq := none, t1 := none, flushTo := 0 }
  let s := s.inc (FLV_CREDITS_RESTORED n) missing
  let s := s.set (FLV_CREDIT_TX_CREDITS n) depth
  let s := s.set (FLV_CREDIT_PEER_DEPTH n) depth
  if missing > 0 then s.flag (FLV_STATUS_CREDIT_RESTORED n) (768 + n) else s

/-- The link's VALID bits of latency fall when it becomes ACTIVE: they say that a measurement was made since then (R339). -/
def clearLatency (n : Nat) (s : State) : State :=
  let s := s.setB (FLV_LAT_RT_VALID n) false
  let s := s.setB (FLV_LAT_1W_LAST_VALID n) false
  let s := s.setB (FLV_LAT_1W_MIN_VALID n) false
  s.setB (FLV_LAT_1W_MAX_VALID n) false

/-- The lanes of link L show bit and block lock, or neither (R331) (open corners: DEDUCED, log entry 46). -/
def setLocks (n : Nat) (on : Bool) (s : State) : State :=
  (linkLanes n s).foldl (fun s l => (s.setB (FLV_LANE_STATUS_BIT_LOCK l) on).setB (FLV_LANE_STATUS_BLOCK_LOCK l) on) s

/-- The flits that link L's receiver holds at tick t are to be flushed: those that would leave it within the time it holds one
(R330, R336) (open corners: DESIGN CHOICE, log entry 106). -/
def holdFlits (n t : Nat) (s : State) : State :=
  if linkState n s = lkActive then s.setLink n { s.link n with flushTo := t + rxHold } else s

/-- A received flit is consumed: one credit is owed for it (R329, R330) (open corners: DEDUCED, log entry 46). -/
def flitConsume (n : Nat) (s : State) : State :=
  let x := s.link n
  (s.setLink n { x with owed := x.owed + 1, owedAt := if x.owed = 0 then s.now else x.owedAt, quiet := s.now }).inc
    (FLV_FLITS_CONSUMED n)

/-- A flit held as its link left ACTIVE is consumed undelivered and counted in FLUSHED (R330, R331) (DESIGN CHOICE, log entry 106). -/
def flitFlush (n : Nat) (s : State) : State := (flitConsume n s).incSat (FLV_FLUSHED n)

/-- An ACTIVE link retrains at tick t (R330, R333). -/
def retrain (n t : Nat) (s : State) : State :=
  setLinkState n lkLock t (setLocks n false ((holdFlits n t s).incSat (FLV_RETRAINS n)))

/-- A TIME exchange of link L starts at tick t (R332). -/
def startTime (n t : Nat) (s : State) : State :=
  let x := s.link n
  let num := x.num % 256
  let s := s.setLink n { x with num := num + 1, t1 := some (num, t), timeAt := t }
  linkSend n (timeMsg (s.get (FLV_STATUS_PEER_DEV n)) false num t 0 s) s

/-- Link L becomes ACTIVE at tick t: its lanes carry IDLE blocks from then on, a TIME exchange starts, and what waits is sent (R321,
R324, R332) (open corners: DEDUCED, log entry 46). -/
def linkActive (n t : Nat) (s : State) : State :=
  let s := setLinkState n lkActive t (clearLatency n s)
  let s := (linkLanes n s).foldl (fun s l => s.setFibre l { s.fibre l with sentAt := t }) s
  let s := if s.get (FLV_CFG2_TIME_PERIOD n) = 0 then s else startTime n t s
  flvPump n 64 s

/-- Nothing waits in the link's channels, and no credit waits to be returned (R334). -/
def linkQuiet (n : Nat) (s : State) : Bool :=
  (s.link n).owed == 0 && (List.range 128).all fun v => s.depth (vcQueue n v) == 0

/-- Link L goes to EIDLE at tick t; what already waits starts the exit burst (R334) (open corners: DEDUCED, log entry 46). -/
def enterIdle (n t : Nat) (s : State) : State :=
  let s := setLinkState n lkEidle t (s.emit (.flit n 4 0 0 []))
  if linkQuiet n s then s else s.setLink n { s.link n with exitAt := some (t + 16) }

/-- Bits checked by lane l's PRBS checker since its lock, at 16 bits a tick (R321, R335). -/
def laneBits (l t : Nat) (s : State) : Nat :=
  match (s.fibre l).lockAt with
  | some a => 16 * (t - a)
  | none => 0

/-- Lane l's PRBS checker is not locked any more (R335) (open corners: DEDUCED, log entry 46). -/
def laneUnlock (l t : Nat) (s : State) : State :=
  let s := s.inc (FLV_PRBS_BITS l) (laneBits l t s)
  let s := s.setFibre l { s.fibre l with lockAt := none }
  s.setB (FLV_LANE_STATUS_PRBS_LOCK l) false

end Sys2Proof.Machine
end

