-- ==== Sys2Proof/Machine/TapOps.lean ====
section
/-! DEFINITION. Tap units: slots, triggers, captures and records (R304 to R317). -/

namespace Sys2Proof.Machine

/-- Tap unit i beside its registers. -/
def State.tap (s : State) (i : Nat) : Tap := Tab.get {} s.taps i
/-- Replace Tap unit i. -/
def State.setTap (s : State) (i : Nat) (x : Tap) : State := { s with taps := Tab.put {} s.taps i x }

/-- TAP_STATUS.STATE codes (R308). -/
def tapIdle : Nat := 0
/-- WAIT_ROOM. -/
def tapWaitRoom : Nat := 1
/-- ARMED. -/
def tapArmed : Nat := 2
/-- CAPTURING. -/
def tapCapturing : Nat := 3
/-- REARM. -/
def tapRearm : Nat := 4
/-- DONE. -/
def tapDone : Nat := 5

/-- The state of unit i. -/
def tapState (i : Nat) (s : State) : Nat := s.get (TAP_STATUS_STATE i)
/-- Channels of a BB record. -/
def tapChannels (i : Nat) (s : State) : Nat := popcount 32 (s.get (TAP_CH_MASK i))

/-- The write rate of unit i [GB/s] (R304). -/
def tapRate (i : Nat) (s : State) : Nat :=
  match s.get (TAP_CFG_FMT i) with
  | 0 => 20
  | 1 => 32
  | _ => 2 * tapChannels i s

/-- What unit i loads the write path with [GB/s]: it writes while CAPTURING, and while ARMED with PRE > 0 (R314). -/
def tapWriting (i : Nat) (s : State) : Nat :=
  let st := tapState i s
  if st = tapCapturing ∨ (st = tapArmed ∧ s.get (TAP_PRE i) > 0) then tapRate i s else 0

/-- The stretch of unit i's history that holds a fine stamp: the present one where no mark lies behind the stamp (R308) (DEDUCED,
DEDUCED, log entry 45). -/
def tapThen (i stamp : Nat) (s : State) : TapMark :=
  let x := s.tap i
  (x.marks.reverse.find? fun m => decide (stamp < m.until_)).getD ⟨stamp, tapState i s, x.armedAt, x.slot, tapWriting i s⟩

/-- The beginning or end of the Kiln's division of the Tap and HBM clock is noted (R314); what ended more than 2^24 ticks ago is
forgotten. -/
def noteLoad (s : State) : State :=
  let divides := decide (s.get KILN_STATUS_LEVEL ≥ 2)
  let old := s.load.filter fun p => match p.2 with | none => true | some e => decide (s.now < e + 2 ^ 24)
  match old, divides with
  | (a, none) :: rest, false => { s with load := (a, some s.now) :: rest }
  | (a, none) :: rest, true => { s with load := (a, none) :: rest }
  | old, true => { s with load := (s.now, none) :: old }
  | old, false => { s with load := old }

/-- Tick x lies in one of the spans. -/
def inSpans (spans : List (Nat × Option Nat)) (x : Nat) : Bool :=
  spans.any fun p => p.1 ≤ x && (match p.2 with | none => true | some e => decide (x < e))

/-- The conditions of R314 do not both hold at an instant [fine ticks]: the write rates are summed over the units by the states in
which they were at it, a CAPTURING unit from its trigger's stamp on (R308). -/
def tapOverloaded (x : Nat) (s : State) : Bool :=
  decide (1024 < (List.range 32).foldl (fun n i => n + (tapThen i x s).rate) 0) || inSpans s.load (x / 32)

/-- Unit i is in a state from a fine stamp on; the state before it is kept for 2^24 ticks (R307, R308). -/
def setTapState (i st at_ : Nat) (s : State) : State :=
  let x := s.tap i
  let keep := x.marks.filter fun m => decide (m.until_ ≤ at_) && decide (32 * s.now < m.until_ + 2 ^ 29)
  (s.setTap i { x with marks := { tapThen i at_ s with until_ := at_ } :: keep }).set (TAP_STATUS_STATE i) st

/-- The RFI is ACTIVE (R238). -/
def rfiActive (i : Nat) (s : State) : Bool := s.get (RFI_STATUS_PSTATE i) == 3

/-- RFI i was not ACTIVE at a ball instant [fine ticks] (R305). -/
def rfiDownAt (i instant : Nat) (s : State) : Bool := !inSpans (Tab.get {} s.rfis i).spans (instant / 32)

/-- Data bytes of a record (R304). -/
def tapDataBytes (i : Nat) (s : State) : Nat :=
  let len := s.get (TAP_LEN i)
  match s.get (TAP_CFG_FMT i) with
  | 0 => len / 32 * 40
  | 1 => 2 * len
  | _ => 4 * tapChannels i s * len

/-- SLOT (R312). -/
def tapSlotBytes (i : Nat) (s : State) : Nat := 64 + ceilDiv (tapDataBytes i s) 64 * 64

/-- Number of slots of the region (R312). -/
def tapSlots (i : Nat) (s : State) : Nat := s.get (TAP_REGION_SIZE i) * 65536 / tapSlotBytes i s

/-- HBM address of slot j of unit i's region (R312). -/
def tapSlotAddr (i j : Nat) (s : State) : Nat := s.get (TAP_REGION_BASE i) * 65536 + j * tapSlotBytes i s

/-- A descriptor of unit i's queues references a part of slot j: a queue of the unit holds it until it is released, by an export or by
an engine (R297, R312, R389).  It references the bytes of its record, wherever the region lay when it was written. -/
def tapSlotHeld (i j : Nat) (s : State) : Bool :=
  let lo := tapSlotAddr i j s
  (List.range 32).any fun k => (s.queue (0x9000 + 32 * i + k)).items.any fun it =>
    it.tag != 0 && decide (it.tag - 1 < lo + tapSlotBytes i s) && decide (lo < it.tag - 1 + it.bytes.length)

/-- The next slot: ascending from the last one used, wrapping at the end of the region (R312). -/
def tapNextSlot (i : Nat) (s : State) : Nat :=
  match (s.tap i).last with
  | none => 0
  | some j => if j + 1 < tapSlots i s then j + 1 else 0

/-- The next slot is free (R312). -/
def tapSlotFree (i : Nat) (s : State) : Bool := !tapSlotHeld i (tapNextSlot i s) s && !s.full (s.get (TAP_QUEUE i))

/-- ARM or REARM ends at tick t: reserve the next slot and enter ARMED, or wait in WAIT_ROOM (R308, R312). -/
def tapReserve (i t : Nat) (s : State) : State :=
  if tapSlotFree i s then
    let s := setTapState i tapArmed (32 * t) s
    s.setTap i { s.tap i with armedAt := t, slot := tapNextSlot i s }
  else setTapState i tapWaitRoom (32 * t) s

/-- Release the reserved slot and go to IDLE at a fine stamp, with EN cleared where a disable waits for it (R308). -/
def tapRelease (i at_ : Nat) (s : State) : State :=
  let s := setTapState i tapIdle at_ s
  let x := s.tap i
  let s := if x.disable then s.setB (TAP_CTRL_EN i) false else s
  s.setTap i { x with cap := none, disarm := false, disable := false }

/-- DISARM acts at its write: a capture in progress finishes first, and an ARM that has not taken effect is dropped (R308) (open
corners: DEDUCED, log entry 45). -/
def tapDisarm (i : Nat) (s : State) : State :=
  let s := s.setTap i { s.tap i with armAt := none }
  if tapState i s = tapCapturing then s.setTap i { s.tap i with disarm := true } else tapRelease i (32 * s.now) s

/-- An accepted ARM acts at tick `at_` (R308). -/
def tapArmDue (i at_ : Nat) (s : State) : State :=
  if (s.tap i).armAt = some at_ then
    let s := s.setTap i { s.tap i with armAt := none, tones := (s.tap i).tones.filter fun x => at_ < x.until_ }
    tapReserve i at_ ((s.set (TAP_SEG_DONE i) 0).inc (TAP_ACQ_COUNT i))
  else s

/-- The 32 ticks of REARM end at tick t (R309). -/
def tapRearmed (i t : Nat) (s : State) : State :=
  if tapState i s = tapRearm ∧ (s.tap i).rearmAt = t then tapReserve i t s else s

/-- Count and log a missed trigger (R311). -/
def tapMiss (i cause kind detail stamp : Nat) (s : State) : State :=
  let e := s.get (TAP_MISS_WR i)
  let s := s.inc (TAP_MISSED i)
  let s := s.set (TAP_MISS_LOG_STAMP i e) stamp
  let s := s.set (TAP_MISS_INFO_CAUSE i e) cause
  let s := s.set (TAP_MISS_INFO_KIND i e) kind
  let s := s.set (TAP_MISS_INFO_DETAIL i e) detail
  let s := s.inc (TAP_MISS_WR i)
  let s := s.setTap i { s.tap i with missed := satN 32 ((s.tap i).missed + 1) }
  s.flag (TAP_STATUS_MISSED i) (816 + i)

/-- Fine ticks between samples (R309): 4 for RAW, 128 for a BB instant every 4 ticks. -/
def tapStep (i : Nat) (s : State) : Nat := if s.get (TAP_CFG_FMT i) = 2 then 128 else 4

/-- The angle at tick x and its validity, as the tracker stood then (R50, R316). -/
def angleThen (x : Nat) (s : State) : Nat × Bool :=
  match s.tl.angle.past.reverse.find? fun m => x < m.until_ with
  | some m =>
    let a := { s.tl.angle with tIdx := m.tIdx, count := m.count, quadStamp := m.quadStamp, quadStep := m.quadStep }
    (angleAt ({ s with tl := { s.tl with angle := a } }.set TL_CA_PERIOD m.period) x, m.ok)
  | none => (angleAt s x, angleValid s)

/-- RFI_CAL_EPOCH of RFI i at tick x, low 16 bits (R254, R316). -/
def epochThen (i x : Nat) (s : State) : Nat :=
  let e := s.get (RFI_CAL_EPOCH i)
  if x < (Tab.get {} s.rfis i).epochAt then (e + 65535) % 65536 else e % 65536

/-- Begin the capture of a trigger by unit i, which stood ARMED in stretch m of its history at the trigger's stamp (R309, R310, R316).
A DISARM that came between the stamp and the judgement finds the capture in progress (R308) (open corners: DEDUCED, log entry 45). -/
def tapCapture (i : Nat) (m : TapMark) (e : TapEv) (s : State) : State :=
  let x := s.tap i
  let step := tapStep i s
  let len := s.get (TAP_LEN i)
  let pre := s.get (TAP_PRE i)
  let trig := ceilDiv e.stamp step * step
  let hist := (trig - ceilDiv (32 * m.armedAt) step * step) / step
  let angle := angleThen (e.stamp / 32) s
  let c : Capture :=
    { stamp := e.stamp, kind := e.kind, detail := e.detail, tag := e.tag, seq := e.seq
      first := (trig : Int) - (pre * step : Nat), step := step, len := len, pre := pre, preValid := min pre hist, slot := m.slot
      segment := s.get (TAP_SEG_DONE i), missed := x.missed, angle := angle.1, angleOk := angle.2
      epoch := epochThen i (e.stamp / 32) s }
  let s := s.setTap i
    { x with cap := some c, missed := 0, last := some m.slot, disarm := x.disarm || tapState i s == tapIdle }
  setTapState i tapCapturing e.stamp (s.inc (TAP_CAPTURED i))

/-- Judge one trigger by the state of the unit at its stamp (R307, R308) (open corners: DEDUCED, log entry 45). -/
def tapJudge (i : Nat) (e : TapEv) (s : State) : State :=
  let m := tapThen i e.stamp s
  if m.state = tapIdle ∨ m.state ≥ tapDone then s
  else
    let s := s.inc (TAP_SEEN i)
    let twin := decide ((s.tap i).judged = some e.stamp)
    let s := s.setTap i { s.tap i with judged := some e.stamp }
    if twin then tapMiss i 2 e.kind e.detail e.stamp s
    else if m.state = tapWaitRoom then tapMiss i 1 e.kind e.detail e.stamp s
    else if m.state = tapArmed then tapCapture i m e s
    else tapMiss i 0 e.kind e.detail e.stamp s

/-- Place in the order of stamps and, at one stamp, of priority (R307). -/
def TapEv.key (e : TapEv) : Nat := 64 * e.stamp + e.prio

/-- Put e in its place, behind what has the same one: ACQ entries of one stamp keep their firing order (R307). -/
def insertTap (e : TapEv) : List TapEv → List TapEv
  | [] => [e]
  | x :: xs => if e.key < x.key then e :: x :: xs else x :: insertTap e xs

/-- Unit i judges the triggers that wait with a place before `key`, in order (R307) (open corners: DEDUCED, log entry 45). -/
def tapRun (i key : Nat) (s : State) : State :=
  let x := s.tap i
  let go := x.waiting.filter fun e => e.key < key
  let s := s.setTap i { x with waiting := x.waiting.filter fun e => !decide (e.key < key) }
  go.foldl (fun s e => tapJudge i e s) s

/-- What COMP takes off a stamp or a launch of pin n [fine ticks] (R43). -/
def pinComp (n : Nat) (s : State) : Int :=
  if n ≥ 16 ∧ s.get TL_CFG_ROLE = 2 ∧ s.on (TL_PIN_CFG_COMP n) then
    (s.get TL_DELAY_DELAY : Int) + s.getI TL_DELAY_ADJ
  else 0

/-- By how many ticks unit i judges behind the Timeline: the longest time that an edge of its pin takes to reach it after its stamp
(R42, R43, R307); every other source reaches it at its own tick (open corners: DEDUCED, log entry 45). -/
def tapLag (i : Nat) (s : State) : Nat :=
  let n := s.get (TAP_CFG_SRC i)
  if s.on (TAP_CFG_TRIG_EXT i) && decide (n ≤ 21) then
    (if n < 16 then 24 else 16) + s.get (TL_PIN_CFG_FILT n) + ceilDiv (pinComp n s).toNat 32 + 2
  else 0

/-- A trigger for unit i: it is judged when its tick has passed and no earlier one can still come (R306, R307)
(DEDUCED, log entry 45). -/
def tapTrigger (i prio kind detail tag seq stamp : Nat) (s : State) : State :=
  let x := s.tap i
  let s := s.setTap i { x with waiting := insertTap ⟨stamp, prio, kind, detail, tag, seq⟩ x.waiting }
  let t := stamp / 32
  s.later (max s.now (t + tapLag i s)) (.tapRun i (64 * (32 * (t + 1))))

/-- A window of channel c opens at tick w0 (R306) (open corners: DEDUCED, log entry 45). -/
def tapWindow (c w0 : Nat) (s : State) : State :=
  let i := c / 32
  if s.on (TAP_CTRL_EN i) && s.on (TAP_CFG_TRIG_MEAS i) && (s.get (TAP_MEAS_MASK i)).testBit (c % 32) then
    tapTrigger i (3 + c % 32) 2 (c % 32) 0 0xFFFF (32 * w0) s
  else s

/-- Unit i took triggers at a fine stamp: it is enabled, or it stood in a state that sees them and was disabled since (R308)
(DEDUCED, log entry 45). -/
def tapHears (i stamp : Nat) (s : State) : Bool :=
  let st := (tapThen i stamp s).state
  s.on (TAP_CTRL_EN i) || (st != tapIdle && decide (st < tapDone))

/-- Trigger source `code` reaches the Tap units that accept it (R306). -/
def tapSource (code stamp : Nat) (s : State) : State :=
  (List.range 32).foldl
    (fun s i =>
      if tapHears i stamp s && s.on (TAP_CFG_TRIG_EXT i) && s.get (TAP_CFG_SRC i) == code then
        tapTrigger i 2 1 code 0 0xFFFF stamp s
      else s) s

/-- Keep what the angle extrapolates from until tick t, while a Tap unit judges behind the Timeline; what lies longer back than any
edge is late is forgotten (R316). -/
def markAngle (t : Nat) (s : State) : State :=
  let a := s.tl.angle
  let keep := a.past.filter fun m => decide (t < m.until_ + 40000)
  let past := if (List.range 32).any fun i => tapLag i s ≠ 0 then
      ⟨t, s.get TL_CA_PERIOD, angleValid s, a.tIdx, a.count, a.quadStamp, a.quadStep⟩ :: keep
    else keep
  { s with tl := { s.tl with angle := { a with past := past } } }

/-- Number of the bytes of one sample in the RAW16 and BB formats. -/
def tapSampleBytes (i : Nat) (s : State) : Nat := if s.get (TAP_CFG_FMT i) = 1 then 2 else 4 * tapChannels i s

/-- Pack RAW10 codes, 32 in 40 bytes: sample k of the group in bits [10k + 9 : 10k] (R304). -/
def packRaw10 : Nat → List Nat → List Byte
  | 0, _ => []
  | g + 1, codes =>
    let group := (codes.take 32).zipIdx.foldl (fun n c => n + (c.1 % 1024) * 2 ^ (10 * c.2)) 0
    toBytes 40 group ++ packRaw10 g (codes.drop 32)

/-- The data bytes of a record (R304) (open corners: DEDUCED, log entry 45). -/
def tapPack (fmt chans : Nat) (samples : List Nat) : List Byte :=
  match fmt with
  | 0 => packRaw10 (samples.length / 32) samples
  | 1 => samples.flatMap fun v => toBytes 2 (wrap 16 (sgn 10 v))
  | _ => samples.flatMap fun v => toBytes (4 * chans) v

/-- What one sample of a record becomes: written value, lost to a fence, lost to the write path, taken while the RFI was down, over
range. -/
structure TapSample where
  val  : Nat
  cut  : Bool
  lost : Bool
  down : Bool
  overs : Bool
deriving DecidableEq, Repr

/-- Ball instant of sample k of a capture [fine ticks] (R309). -/
def Capture.instant (c : Capture) (k : Nat) : Int := c.first + (k * c.step : Nat)

/-- Judge sample k of a capture (R305, R310, R314, R315): `raw` is what the RFI or the demodulator delivers, none what the
write path did not take, which it leaves only in an overload; samples from tick `cut` on are lost to a fence (open corners:
DEDUCED, log entry 45). -/
def tapSampleOf (i : Nat) (c : Capture) (cut : Option Nat) (k : Nat) (raw : Option Nat) (s : State) : TapSample :=
  let instant := (c.instant k).toNat
  if k < c.pre - c.preValid then ⟨0, false, false, false, false⟩
  else if (match cut with | none => false | some t => decide (32 * t ≤ instant)) then ⟨0, true, false, false, false⟩
  else match raw with
    | none => ⟨0, false, tapOverloaded instant s, rfiDownAt i instant s, false⟩
    | some v =>
      if rfiDownAt i instant s then ⟨0, false, false, true, false⟩
      else
        let rawFmt := decide (s.get (TAP_CFG_FMT i) ≤ 1)
        ⟨v, false, false, false, rawFmt && (v % 1024 == 512 || v % 1024 == 511)⟩

/-- The 64-byte header of a record (R316). -/
def tapHeader (i : Nat) (c : Capture) (flags lost : Nat) (s : State) : List Byte :=
  toBytes 8 (c.stamp / 32) ++ toBytes 1 (c.stamp % 32) ++ toBytes 1 (c.kind + 4 * c.detail) ++ toBytes 1 c.tag
    ++ toBytes 1 (s.get (TAP_CFG_FMT i))
    ++ toBytes 4 (if s.get (TAP_CFG_FMT i) = 2 then s.get (TAP_CH_MASK i) else 0)
    ++ toBytes 4 c.len ++ toBytes 4 c.pre ++ toBytes 4 c.preValid ++ toBytes 2 c.angle ++ toBytes 2 flags
    ++ toBytes 4 c.segment ++ toBytes 4 (s.get (TAP_ACQ_COUNT i)) ++ toBytes 8 (wrap 64 c.first) ++ toBytes 4 lost
    ++ toBytes 2 c.epoch ++ toBytes 2 c.seq ++ toBytes 4 c.missed ++ toBytes 4 0

/-- The instant at which a segment ends [fine ticks] (R309). -/
def Capture.ends (c : Capture) : Nat := (c.instant c.len).toNat

/-- Deliver the record of a capture: header and samples go into the slot, one descriptor to the record queue (R312, R314 to
R316). -/
def tapDeliver (i : Nat) (c : Capture) (cut : Option Nat) (raws : Nat → Option Nat) (s : State) : State :=
  let smp := (List.range c.len).map fun k => tapSampleOf i c cut k (raws k) s
  let lost := (smp.filter fun x => x.lost || x.cut).length
  let loss := smp.any (·.lost)
  let flags := b2n (decide (c.preValid < c.pre)) + 2 * b2n c.angleOk + 4 * b2n (smp.any (·.down))
    + 8 * b2n (smp.any (·.overs)) + 16 * b2n loss + 32 * b2n cut.isSome
  let bytes := tapHeader i c flags lost s ++ tapPack (s.get (TAP_CFG_FMT i)) (tapChannels i s) (smp.map (·.val))
  let at_ := tapSlotAddr i c.slot s
  let s := s.setBytes (hbmBase + at_) bytes
  let q := s.get (TAP_QUEUE i)
  let s := s.append q { bytes := bytes, tag := at_ + 1 }
  let s := s.inc (TAP_SEG_DONE i)
  let s := s.setTap i { s.tap i with cap := none, tones := (s.tap i).tones.filter fun x => decide (c.ends / 32 < x.until_) }
  if loss then s.flag (TAP_STATUS_DATA_LOSS i) (816 + i) else s

/-- Records per acquisition (R313). -/
def tapNseg (i : Nat) (s : State) : Nat := if s.get (TAP_CFG_NSEG i) = 0 then 65536 else s.get (TAP_CFG_NSEG i)

/-- The segment of unit i ends: the record is delivered and the unit goes to REARM, to DONE or, disarmed, to IDLE (R308,
R309) (open corners: DEDUCED, log entry 45). -/
def tapSegmentEnd (i : Nat) (c : Capture) (raws : Nat → Option Nat) (s : State) : State :=
  let s := tapDeliver i c none raws s
  if (s.tap i).disarm then tapRelease i c.ends s
  else if s.get (TAP_SEG_DONE i) ≥ tapNseg i s then
    (setTapState i tapDone c.ends s).flag (TAP_STATUS_DONE i) (816 + i)
  else
    let t := ceilDiv c.ends 32 + 32
    let s := setTapState i tapRearm c.ends s
    let s := s.setTap i { s.tap i with rearmAt := t }
    if t ≤ s.now then tapRearmed i t s else s.later t (.tapRearm i t)

/-- The regions of two units overlap (R313). -/
def tapOverlap (i j : Nat) (s : State) : Bool :=
  s.get (TAP_REGION_BASE i) < s.get (TAP_REGION_BASE j) + s.get (TAP_REGION_SIZE j)
    && s.get (TAP_REGION_BASE j) < s.get (TAP_REGION_BASE i) + s.get (TAP_REGION_SIZE i)

/-- A write of EN = 1 to unit i is refused (R313). -/
def tapEnRefused (i : Nat) (s : State) : Bool :=
  let fmt := s.get (TAP_CFG_FMT i)
  let len := s.get (TAP_LEN i)
  let q := s.get (TAP_QUEUE i)
  let base := s.get (TAP_REGION_BASE i)
  let size := s.get (TAP_REGION_SIZE i)
  fmt == 3 || len == 0 || len > 1048576 || (fmt == 0 && len % 32 != 0) || s.get (TAP_PRE i) > len
    || (fmt == 2 && (tapChannels i s == 0 || tapChannels i s > 8))
    || q < 0x9000 + 32 * i || q > 0x9000 + 32 * i + 31 || s.owner q != nibble GLB_PART_TAP i s
    || base < 0x4000 || base + size > 0x80000 || size == 0
    || (List.range 32).any (fun j => j != i && s.on (TAP_CTRL_EN j) && tapOverlap i j s)
    || tapSlots i s == 0 || fenced (i / 4) s

end Sys2Proof.Machine
end

