-- ==== Sys2Proof/Machine/Tones.lean ====
section
/-! DEFINITION. A frame's frequency and phase words, and those that readout frames had while a Tap unit records basebands (R160,
R305). -/

namespace Sys2Proof.Machine

/-- First byte of frame f. -/
def frameAddr (f : Nat) : Nat := 0x01000000 + 16 * f
/-- Frequency word F of a frame. -/
def frameF (f : Nat) (s : State) : Nat := s.rd (frameAddr f) 6
/-- Phase offset P of a frame. -/
def frameP (f : Nat) (s : State) : Nat := s.rd (frameAddr f + 8) 4

/-- Unit i records the baseband of its channel m, or may soon (R305). -/
def tapListens (i m : Nat) (s : State) : Bool :=
  s.on (TAP_CTRL_EN i) && s.get (TAP_CFG_FMT i) == 2 && (s.get (TAP_CH_MASK i)).testBit m
    && (!((s.tap i).waiting.isEmpty) || (tapState i s != tapIdle && tapState i s != tapDone))

/-- F and P of channel c's readout frame change now: its unit keeps those of `old` for the samples up to here (R305)
(DEDUCED, log entry 45). -/
def markTone (c : Nat) (old s : State) : State :=
  let i := c / 32
  if tapListens i (c % 32) s then
    let f := old.get (LAU_FRAMES_RFRAME c)
    s.setTap i { s.tap i with tones := ⟨s.now, c % 32, frameF f old, frameP f old⟩ :: (s.tap i).tones }
  else s

/-- F or P of frame f is about to change (R305). -/
def markFrame (f : Nat) (s : State) : State :=
  (List.range 32).foldl (fun s i =>
    (setBits 32 (if s.on (TAP_CTRL_EN i) then s.get (TAP_CH_MASK i) else 0)).foldl (fun s m =>
      if s.get (LAU_FRAMES_RFRAME (32 * i + m)) = f then markTone (32 * i + m) s s else s) s) s

/-- F and P of the readout frame of unit i's channel m at tick t (R305) (DEDUCED, log entry 45). -/
def toneAt (i m t : Nat) (s : State) : Nat × Nat :=
  match ((s.tap i).tones.filter fun x => x.chan == m && t < x.until_).getLast? with
  | some x => (x.f, x.p)
  | none =>
    let f := s.get (LAU_FRAMES_RFRAME (32 * i + m))
    (frameF f s, frameP f s)

end Sys2Proof.Machine
end

