-- ==== Sys2Proof/Machine/Turn.lean ====
section
/-! DEFINITION. Cosines of phases, and rounding where the spec leaves the rounding step open (R161, R170, R209, R501). -/

namespace Sys2Proof.Machine

/-- One, in units of 2^-60 (DESIGN CHOICE, log entry 9). -/
def unit60 : Int := 2 ^ 60

/-- 2 pi in units of 2^-60. -/
def tau60 : Int := 7244019458077122842

/-- The power series of cosine (from term 1, k = 0) or sine (from the angle, k = 1), n terms, in units of 2^-60. -/
def series : Nat → Int → Int → Nat → Int
  | 0, _, _, _ => 0
  | n + 1, x2, term, k => term + series n x2 (-(term * x2 / unit60 / ((k + 1) * (k + 2) : Nat))) (k + 2)

/-- Cosine of a phase of less than a quarter turn [2^-48 turn], in units of 2^-60. -/
def cosQuarter (r : Nat) : Int :=
  let x := (r : Int) * tau60 / 2 ^ 48
  series 14 (x * x / unit60) unit60 0

/-- Sine of a phase of less than a quarter turn [2^-48 turn], in units of 2^-60. -/
def sinQuarter (r : Nat) : Int :=
  let x := (r : Int) * tau60 / 2 ^ 48
  series 14 (x * x / unit60) x 1

/-- Cosine of a phase [2^-48 turn], in units of 2^-60 (DESIGN CHOICE, log entry 9). -/
def cosTurn (ph : Nat) : Int :=
  let r := ph % 2 ^ 46
  match ph / 2 ^ 46 % 4 with
  | 0 => cosQuarter r
  | 1 => -sinQuarter r
  | 2 => -cosQuarter r
  | _ => sinQuarter r

/-- Sine of a phase [2^-48 turn], in units of 2^-60. -/
def sinTurn (ph : Nat) : Int := cosTurn (ph + 3 * 2 ^ 46)

/-- An exact value x of step `stage` divided by 2^k: where it is no whole number, one of the two neighbours, since the spec
leaves the rounding to a model that it does not give (DESIGN CHOICE, log entry 9). -/
def roundTo (stage k : Nat) (x : Int) : Int :=
  x / (2 ^ k : Nat) + (if x % (2 ^ k : Nat) = 0 then 0 else b2n (Config.roundUp stage x))

end Sys2Proof.Machine
end

