-- ==== Sys2Proof/Machine/Frames.lean ====
section
/-! DEFINITION. Frames, waveform descriptors, pulses and slots (R160 to R180). -/

namespace Sys2Proof.Machine

/-! ### Frames (R160 to R166) -/

/-- Pauli X bit of a frame. -/
def frameX (f : Nat) (s : State) : Bool := bit (s.byte (frameAddr f + 12)).toNat 0
/-- Pauli Z bit of a frame. -/
def frameZ (f : Nat) (s : State) : Bool := bit (s.byte (frameAddr f + 12)).toNat 1
/-- Write F. -/
def setFrameF (f v : Nat) (s : State) : State := (markFrame f s).wr (frameAddr f) 6 (v % 2 ^ 48)
/-- Write P. -/
def setFrameP (f v : Nat) (s : State) : State := (markFrame f s).wr (frameAddr f + 8) 4 (v % 2 ^ 32)
/-- Write X and Z. -/
def setFrameXZ (f : Nat) (x z : Bool) (s : State) : State :=
  s.setByte (frameAddr f + 12) (BitVec.ofNat 8 (b2n x + 2 * b2n z))

/-- A FRAME entry's operation (R163). -/
def frameOp (f a b : Nat) (s : State) : State :=
  match a % 4 with
  | 0 => setFrameF f b s
  | 1 => setFrameP f (frameP f s + b % 2 ^ 32) s
  | 2 => setFrameXZ f false false (setFrameP f 0 s)
  | _ => setFrameXZ f (xor (frameX f s) (bit a 2)) (xor (frameZ f s) (bit a 3)) s

/-- The phase of a frame at fine time tau, in units of 2^-48 turn, for latched F, P and Z (R161). -/
def framePhase (f p : Nat) (z : Bool) (tau : Nat) : Nat := (f * tau + p * 2 ^ 16 + b2n z * 2 ^ 47) % 2 ^ 48

/-- A host write of one frame dword takes effect (R165): dword 0 was held, dword 1 applies both (open corners:
DEDUCED, log entry 36). -/
def frameDword (f dw v : Nat) (s : State) : State :=
  match dw with
  | 1 => setFrameF f v s
  | 2 => setFrameP f v s
  | 3 => setFrameXZ f (bit v 0) (bit v 1) s
  | _ => s

/-! ### Descriptors (R167 to R169, R177) -/

/-- First byte of descriptor w in a bank. -/
def descAddr (bank w : Nat) : Nat := (if bank = 0 then 0x01100000 else 0x01300000) + 16 * w
/-- Active bank of the region of descriptor w. -/
def descBank (w : Nat) (s : State) : Nat := b2n ((s.get WFT_BANK).testBit (w / 2048))
/-- The active descriptor w, as 128 bits. -/
def descOf (w : Nat) (s : State) : Nat := s.rd (descAddr (descBank w s) w) 16
/-- ADDR. -/
def dAddr (d : Nat) : Nat := bits d 0 18
/-- FMT = REAL. -/
def dReal (d : Nat) : Bool := bit d 18
/-- Interpolation factor. -/
def dInterp (d : Nat) : Nat := 2 ^ bits d 20 2
/-- LENGTH. -/
def dLength (d : Nat) : Nat := bits d 32 16
/-- SCALE. -/
def dScale (d : Nat) : Nat := bits d 48 16
/-- BETA. -/
def dBeta (d : Nat) : Int := sgn 16 (bits d 64 16)
/-- Sample words of a descriptor (R168). -/
def dWords (d : Nat) : Nat := if dReal d then (dLength d + 1) / 2 else dLength d
/-- Ticks of the played envelope, which ADV advances by (R108, R168). -/
def dTicks (d : Nat) : Nat := dLength d * dInterp d

/-- The word at word address x of Tun t's sample memory. -/
def sampleWord (t x : Nat) (s : State) : Nat := s.rd (sampleBase + 0x100000 * t + 4 * x) 4

/-- Sample m of a descriptor in Tun t's memory as I and Q (R167). -/
def sampleAt (t d m : Nat) (s : State) : Int × Int :=
  if dReal d then (sgn 16 (bits (sampleWord t (dAddr d + m / 2) s) (16 * (m % 2)) 16), 0)
  else
    let v := sampleWord t (dAddr d + m) s
    (sgn 16 v, sgn 16 (v / 65536))

/-! ### Fault registers (R168, R172, R174, R175) -/

/-- Record a condition in the last-fault registers (DEDUCED, log entry 53). -/
def wftLast (lane cause seq w t : Nat) (s : State) : State :=
  let s := s.set WFT_LAST_FAULT_LANE lane
  let s := s.set WFT_LAST_FAULT_CAUSE cause
  let s := s.set WFT_LAST_FAULT_SEQ seq
  let s := s.set WFT_LAST_DESC_W w
  s.set WFT_LAST_TICK t

/-! ### Pulses (R168 to R176) -/

/-- Pulses of a lane. -/
def laneOf (n : Nat) (s : State) : List Pulse := Tab.get [] s.lanes n
/-- Replace the pulses of a lane. -/
def setLane (n : Nat) (ps : List Pulse) (s : State) : State := { s with lanes := Tab.put [] s.lanes n ps }

/-- Centre frequency word of the port of a tone lane (R172). -/
def centreWord (lane : Nat) (s : State) : Nat := s.get (RFO_CFG_CENTRE_N (lane / 8)) * 2 ^ 38

/-- |D| of R174. -/
def pulseOffset (lane f : Nat) (s : State) : Nat := absI (sgn 48 (wrap 48 ((f : Int) - centreWord lane s)))

/-- Slots of a lane (R172). -/
def laneSlots (n : Nat) : Nat := if n < 2304 then 4 else 2

/-- A PULSE or ZPULSE entry fires on lane n at tick t: faulty descriptors, aliases and full lanes are counted and play
nothing (R168, R172, R174) (DEDUCED, log entry 53). -/
def firePulse (n : Nat) (e : Entry) (s : State) : State :=
  let t := e.tick
  let w := bits e.a 0 17
  let d := descOf w s
  let tone := decide (n < 2304)
  let frame := bits e.b 0 16
  let fine := if tone then e.fine else 0
  if dLength d = 0 ∨ dAddr d + dWords d > 262144 then
    let inv := decide (dLength d = 0)
    let s := wftLast n (if inv then 1 else 2) e.seq w t (s.incSat WFT_DESC_FAULTS)
    s.flagAlways (if inv then WFT_STATUS_DESC_INVALID else WFT_STATUS_DESC_BOUNDS) 30
  else
    let alias_ := tone && decide (pulseOffset n (frameF frame s) s ≥ 2 ^ 42)
    let s := if alias_ then
        (wftLast n 4 e.seq w t (s.incSat WFT_ALIAS_COUNT)).flagAlways WFT_STATUS_FRAME_ALIAS 30
      else s
    if alias_ && s.on WFT_CFG_ALIAS_POLICY then s
    else
      let live := (laneOf n s).filter fun x => t ≤ x.last
      if live.length ≥ laneSlots n then
        let s := wftLast n 3 e.seq w t (s.incSat WFT_SLOT_DROPS)
        s.flagAlways WFT_STATUS_SLOT_DROP 30
      else
        let x : Pulse :=
          { t0 := t, last := t + dTicks d - 1 + (if fine > 0 then 1 else 0), fine := fine, seq := e.seq,
            frame := if tone then frame else 0, f := if tone then frameF frame s else 0,
            p := if tone then frameP frame s else 0, z := tone && frameZ frame s, a := sgn 16 (bits e.b 16 16),
            o := if tone then bits e.b 32 16 else 0, w := w, desc := d }
        setLane n (live ++ [x]) s

/-! ### Bank swaps and copies (R178, R179) -/

/-- Show whether a swap or copy is pending. -/
def setWftBank (b : Option BankOp) (s : State) : State :=
  ({ s with wft := { s.wft with bank := b } }).setB WFT_STATUS_SWAP_PENDING b.isSome

/-- The shadow bank of descriptor w. -/
def shadowAddr (w : Nat) (s : State) : Nat := descAddr (1 - descBank w s) w

/-- The bits of byte j of a descriptor that it holds; its reserved bits read as zero and ignore writes (R8, R167). -/
def descMask (j : Nat) : Nat := if j = 2 then 0x37 else if j = 3 ∨ 10 ≤ j then 0 else 0xFF

/-- A byte under a mask of the bits that exist (R8). -/
def maskByte (m : Nat) (v : Byte) : Byte := v &&& BitVec.ofNat 8 m

/-- A write of one byte into the shadow bank, held while a copy of its region is pending (R8, R177, R179). -/
def shadowByte (off : Nat) (v : Byte) (s : State) : State :=
  let w := off / 16
  let v := maskByte (descMask (off % 16)) v
  match s.wft.bank with
  | some b =>
    if b.copy && b.mask.testBit (w / 2048) then setWftBank (some { b with held := (off, v) :: b.held }) s
    else s.setByte (shadowAddr w s + off % 16) v
  | none => s.setByte (shadowAddr w s + off % 16) v

/-- The request conditions of R178 and R179: 0 accepted, 1 busy. -/
def wftAccepts (s : State) : Bool := s.on WFT_CTRL_EN && s.wft.bank.isNone

/-- Refuse a request with SWAP_BUSY. -/
def wftBusy (s : State) : State := s.flagAlways WFT_STATUS_SWAP_BUSY 30

/-- A pending swap takes place (R178). -/
def wftSwap (b : BankOp) (s : State) : State :=
  let s := setWftBank none s
  let s := s.set WFT_BANK (s.get WFT_BANK ^^^ b.mask)
  (s.inc WFT_SWAP_COUNT).flagAlways WFT_STATUS_SWAP_DONE 30

/-- A pending copy ends: the selected regions' active banks stand in their shadow banks, then the held writes are applied in
order (R179). -/
def wftCopy (b : BankOp) (s : State) : State :=
  let s := setWftBank none s
  let s := (setBits 64 b.mask).foldl
    (fun s r =>
      let act := b2n ((s.get WFT_BANK).testBit r)
      let src := descAddr act (2048 * r)
      let dst := descAddr (1 - act) (2048 * r)
      { s with mem := Memory.copyRange src dst 0x8000 s.mem }) s
  b.held.reverse.foldl (fun s h => shadowByte h.1 h.2 s) s

/-- A swap or copy of the Waveform Descriptor Table is pending for tick `at_` (R178, R179). -/
def setPending (copy : Bool) (at_ : Nat) (s : State) : State :=
  (setWftBank (some { copy := copy, at_ := at_, mask := s.get WFT_SWAP_MASK }) s).later at_ (.wftBank at_)

/-- The tick of a pending swap or copy has come: the one that was set for it takes place (R178, R179). -/
def wftBankDue (at_ : Nat) (s : State) : State :=
  match s.wft.bank with
  | some b => if b.at_ = at_ then (if b.copy then wftCopy b s else wftSwap b s) else s
  | none => s

end Sys2Proof.Machine
end

