-- ==== Sys2Proof/Machine/Decision.lean ====
section
/-! DEFINITION. The Result Vector and the Decision Engine (R265 to R284). -/

namespace Sys2Proof.Machine

/-! ### Result Vector (R265, R266) -/

/-- Pair n of the Result Vector. -/
def pairOf (n : Nat) (s : State) : Tagged := Tab.get {} s.rv n
/-- Replace pair n. -/
def setPair (n : Nat) (x : Tagged) (s : State) : State := { s with rv := Tab.put {} s.rv n x }

/-- The difference of two generations in the range -32,768..32,767 (R266). -/
def genDiff (a b : Nat) : Int := sgn 16 (wrap 16 ((a : Int) - b))

/-- Bit b of the Result Vector (R265). -/
def rvBit (b : Nat) (s : State) : Nat := bits (pairOf (b / 2) s).val (b % 2) 1

/-! ### Windows (R272 to R277) -/

/-- Decision window d beside its registers. -/
def State.dec (s : State) (d : Nat) : Decision := Tab.get {} s.decs d
/-- Replace decision window d. -/
def State.setDec (s : State) (d : Nat) (x : Decision) : State := { s with decs := Tab.put {} s.decs d x }

/-- The pairs that window d gathers, in the order of its entries. -/
def decPairs (d : Nat) (s : State) : List Nat :=
  (List.range (s.get (DEC_WIN_CFG_NBITS d))).map fun k => s.get (DEC_GATHER_BIT d k) / 2

/-- The bits that window d gathers, as an index without BASE (R272). -/
def decBits (d : Nat) (s : State) : Nat :=
  (List.range (s.get (DEC_WIN_CFG_NBITS d))).foldl (fun x k => x + rvBit (s.get (DEC_GATHER_BIT d k)) s * 2 ^ k) 0

/-- Per entry: the expected generation, the pair's difference from it, and the pair (R273). -/
def decEntries (d : Nat) (s : State) : List (Nat × Int × Tagged) :=
  ((decPairs d s).zip (s.dec d).last).map fun p =>
    let e := (p.2 + 1) % 65536
    let x := pairOf p.1 s
    (e, genDiff x.gen e, x)

/-- Show which entries hold their expected generation. -/
def showDec (d : Nat) (s : State) : State :=
  let es := decEntries d s
  let ready := es.zipIdx.foldl (fun n x => n + b2n (decide (x.1.2.1 = 0)) * 2 ^ x.2) 0
  (s.set (DEC_WIN_STATUS_READY d) ready).setB (DEC_WIN_STATUS_ROUND_OPEN d) (decide (ready ≠ 0))

/-- The round of window d ends: each L_k becomes the later of E_k and t_k (R273), and round r goes down the pipeline. -/
def endRound (d : Nat) (r : Round) (s : State) : State :=
  let x := s.dec d
  let last := (decEntries d s).map fun e => if e.2.1 ≥ 0 then e.2.2.gen else e.1
  let s := s.setDec d
    { x with last := last, start := none, defer := none, rounds := x.rounds ++ [r],
             evalAt := if r.fail = 0 then some r.at_ else x.evalAt }
  let s := if r.fail = 0 then (s.later (r.at_ + 8) (.decIndex d r.at_)).later (r.at_ + 24) (.decRead d r.at_) else s
  showDec d s

/-- Judge the round of window d at tick t (R273, R275) (open corners: DEDUCED, log entry 42; DEDUCED, log entry 87). -/
def judgeDec (d t : Nat) (s : State) : State :=
  if !s.on (DEC_WIN_STATUS_ACTIVE d) then s
  else
    let es := decEntries d s
    let x := s.dec d
    let gen := (es.headD (0, 0, {})).1
    let held := es.any fun e => e.2.1 == 0
    let start := match x.start with
      | some a => some a
      | none => if held then some t else none
    if es.any fun e => e.2.1 ≥ 1 then endRound d ⟨t, gen, 2, 0, 0, 0⟩ s
    else if es.any fun e => e.2.1 == 0 && e.2.2.inv then endRound d ⟨t, gen, 3, 0, 0, 0⟩ s
    else if es.all fun e => e.2.1 == 0 then
      match x.evalAt with
      | some a =>
        if t < a + 8 then
          (showDec d (s.setDec d { x with start := start, defer := some (a + 8) })).later (a + 8) (.decJudge d)
        else endRound d ⟨t, gen, 0, decBits d s, 0, 0⟩ s
      | none => endRound d ⟨t, gen, 0, decBits d s, 0, 0⟩ s
    else match start with
      | some a =>
        if x.tmo ≠ 0 ∧ t ≥ a + 256 * x.tmo then endRound d ⟨t, gen, 1, 0, 0, 0⟩ s
        else
          let s := showDec d (s.setDec d { x with start := start })
          if x.tmo = 0 then s else s.later (a + 256 * x.tmo) (.decJudge d)
      | none => s

/-- Every window that gathers pair n is judged at tick t, when all that this tick changes has changed (R273) (open corners:
DEDUCED, log entry 42). -/
def judgePair (n t : Nat) (s : State) : State :=
  (List.range 64).foldl
    (fun s d => if s.on (DEC_WIN_STATUS_ACTIVE d) && (decPairs d s).contains n then s.later t (.decJudge d) else s) s

/-- Window d is judged at tick t, once; what is written later in that tick is compared at the next (R273) (DEDUCED, log entry 42). -/
def judgeOnce (d t : Nat) (s : State) : State :=
  if (s.dec d).judged = some t then
    if s.due.contains (t + 1, .decJudge d) then s else s.later (t + 1) (.decJudge d)
  else judgeDec d t (s.setDec d { s.dec d with judged := some t })

/-- A result for pair n arrives at tick t; the Bool says that the pair took it (R266) (open corners: DEDUCED, log entry 42). -/
def writePair (n state gen : Nat) (inv : Bool) (t : Nat) (s : State) : Bool × State :=
  if genDiff gen (pairOf n s).gen ≥ 1 then
    (true, judgePair n t (setPair n { val := state, gen := gen, inv := inv } s))
  else (false, (s.incSat DEC_LATE_COUNT).flag DEC_STATUS_LATE_RESULT 739)

/-- The index of a round is formed (R272, R281). -/
def decIndexAt (d at_ : Nat) (s : State) : State :=
  let x := s.dec d
  s.setDec d
    { x with rounds := x.rounds.map fun r => if r.at_ = at_ ∧ r.fail = 0 then { r with index := (x.base + r.bits) % 524288 } else r }

/-- First byte of Decision Table entry x (R283). -/
def decTableAddr (x : Nat) : Nat := 0x01600000 + 4 * x

/-- The action word of a round is read (R281). -/
def decReadAt (d at_ : Nat) (s : State) : State :=
  let x := s.dec d
  s.setDec d
    { x with rounds := x.rounds.map fun r =>
        if r.at_ = at_ ∧ r.fail = 0 then { r with word := s.rd (decTableAddr r.index) 4 } else r }

/-- The sequencers of window d's group, in slot order (R276). -/
def decGroup (d : Nat) (s : State) : List Nat :=
  (List.range 4).flatMap fun j =>
    (if s.on (DEC_WIN_GROUP_VALID_A d j) then [s.get (DEC_WIN_GROUP_SEQ_A d j)] else [])
      ++ (if s.on (DEC_WIN_GROUP_VALID_B d j) then [s.get (DEC_WIN_GROUP_SEQ_B d j)] else [])

/-- Deliver a branch code to the group (R276). -/
def deliverCode (d code gen : Nat) (inv : Bool) (s : State) : State :=
  (decGroup d s).foldl
    (fun s k => s.modSeq k fun q => { q with codes := Tab.put {} q.codes d { val := code, gen := gen, inv := inv } }) s

/-- Show the last round's code (R276). -/
def showCode (d code gen : Nat) (inv : Bool) (s : State) : State :=
  ((s.set (DEC_CODE_CODE d) code).setB (DEC_CODE_INV d) inv).set (DEC_CODE_GEN d) gen

/-- The frame of Pauli slot k of window d (R279). -/
def pauliFrame (d k : Nat) (s : State) : Nat :=
  if k % 2 = 0 then s.get (DEC_WIN_PFRAME_FRAME_A d (k / 2)) else s.get (DEC_WIN_PFRAME_FRAME_B d (k / 2))

/-- Apply a Pauli update to frame f (R279). -/
def pauliUpdate (f : Nat) (x z : Bool) (s : State) : State :=
  if f > 40959 ∨ (!x ∧ !z) then s
  else (setFrameXZ f (xor (frameX f s) x) (xor (frameZ f s) z) s)

/-- The window's forward, where it is enabled (R277, R280). -/
def decForward (d state gen : Nat) (inv : Bool) (t : Nat) (s : State) : State :=
  if s.on (DEC_WIN_CFG_FWD_EN d) && s.on DEC_CTRL_EN then
    sendResult (s.get (DEC_WIN_CFG_FWD_DEV d)) (s.get (DEC_WIN_CFG_FWD_RPAIR d)) state gen inv t s
  else s

/-- A failed round at its action tick (R277). -/
def failAction (d : Nat) (r : Round) (t : Nat) (s : State) : State :=
  let s := deliverCode d 0 r.gen true s
  let s := showCode d 0 r.gen true s
  let s := decForward d 0 r.gen true t s
  let s := (s.incSat (DEC_WIN_FAILS d)).set (DEC_WIN_STATUS_LAST_FAIL d) r.fail
  s.flag DEC_STATUS_ROUND_FAIL 738

/-- An evaluated round at its action tick (R278 to R280). -/
def evalAction (d : Nat) (r : Round) (t : Nat) (s : State) : State :=
  let w := r.word
  let code := bits w 0 4
  let s := if bit w 4 then deliverCode d code r.gen false s else s
  let s := showCode d code r.gen false s
  let s := (List.range 8).foldl
    (fun s k => pauliUpdate (pauliFrame d k s) (bit w (8 + k)) (bit w (16 + k)) s) s
  let s := if bit w 5 then (s.set DEC_HOST_FLAGS (s.get DEC_HOST_FLAGS ||| 2 ^ d)).event 737 else s
  let s := if bit w 6 then decForward d (bits w 24 2) r.gen false t s else s
  let s := s.inc (DEC_WIN_ROUNDS d)
  s.set (DEC_WIN_LAST_LAST_INDEX d) r.index

/-- The action tick of the oldest round of window d (R281). -/
def roundAction (d : Nat) (r : Round) (t : Nat) (s : State) : State :=
  let x := s.dec d
  let s := s.setDec d { x with rounds := x.rounds.drop 1 }
  if r.fail = 0 then evalAction d r t s else failAction d r t s

/-- Window d's EN takes effect at tick t (R273, R274) (open corners: DEDUCED, log entry 87). -/
def decEnable (d : Nat) (on : Bool) (t : Nat) (s : State) : State :=
  if on then
    if s.on (DEC_WIN_STATUS_ACTIVE d) then s
    else
      let last := (decPairs d s).map fun n => (pairOf n s).gen
      let s := s.setDec d { s.dec d with last := last, start := none, defer := none }
      (s.setB (DEC_WIN_STATUS_ACTIVE d) true).later t (.decJudge d)
  else
    let s := s.setDec d { s.dec d with start := none, defer := none }
    let s := s.setB (DEC_WIN_STATUS_ACTIVE d) false
    (s.set (DEC_WIN_STATUS_READY d) 0).setB (DEC_WIN_STATUS_ROUND_OPEN d) false

/-- BASE keeps the table's bound (R274, R283). -/
def baseFits (d base : Nat) (s : State) : Bool := base + 2 ^ s.get (DEC_WIN_CFG_NBITS d) ≤ 524288

/-- A write of EN = 1 to window d is refused (R274). -/
def decRefused (d : Nat) (s : State) : Bool :=
  let n := s.get (DEC_WIN_CFG_NBITS d)
  let part := s.get (DEC_WIN_CFG_PART d)
  n == 0 || n > 19 || !baseFits d (s.get (DEC_WIN_BASE d)) s
    || (decGroup d s).any (fun k => seqPart k s != part)
    || (List.range 8).any (fun k => pauliFrame d k s ≤ 40959 && targetPart .frame (pauliFrame d k s) s != part)
    || (decPairs d s).any fun c => c < 1024 && targetPart .lauter c s != part

/-- A record of channel c, taken by its pair, goes out on Flavas where the channel forwards (R269) (open corners:
DEDUCED, log entry 42). -/
def forwardRecord (c state gen : Nat) (inv : Bool) (t : Nat) (s : State) : State :=
  if s.on DEC_CTRL_EN && s.on (DEC_FWD_EN c) then
    sendResult (s.get (DEC_FWD_DEV c)) (s.get (DEC_FWD_RPAIR c)) state gen inv t s
  else s

end Sys2Proof.Machine
end

