-- ==== Sys2Proof/Machine/Demod.lean ====
section
/-! DEFINITION. The front half of an RFI, the NCO, the mixer and the decimator of a Lauter channel (R235, R241 to R243), and what a
fence leaves of a Tap unit's capture (R315). -/

namespace Sys2Proof.Machine

/-! ### Front half (R235) -/

/-- A sample of an RFI, taken at the ball at fine time tau = 4k, shifted by -4 GHz: times exp(-j 2 pi k / 4) (R235). -/
def shiftDown (tau x : Int) : Int × Int :=
  match (tau / 4 % 4).toNat with
  | 0 => (x, 0)
  | 1 => (0, -x)
  | 2 => (-x, 0)
  | _ => (0, x)

/-- Sum of a filter's taps at distances lo, lo + step, ..., n of them. -/
def tapSum (h : Nat → Int) (lo step n : Nat) : Int := (List.range n).foldl (fun acc k => acc + h (lo + step * k)) 0

/-- Tap of the half-band filter at a distance in 16 GS/s samples [2^-24]: one half at 0, nothing at the other even ones, and odd ones
to 31 that make its gain 1 at 4 GHz; the spec gives no more of it than its image rejection (R235) (DESIGN CHOICE, log entry 9). -/
def halfTap (d : Nat) : Int :=
  if d = 0 then 2 ^ 23
  else if d % 2 = 0 ∨ 31 < d then 0
  else if d = 1 then 2 ^ 22 - tapSum Config.halfTap 3 2 15
  else Config.halfTap d

/-- The front half's output at instant tau, a multiple of 8 fine ticks, from the RFI's samples, one every 4 fine ticks from instant
`first` on: shifted by -4 GHz, filtered and halved in rate (R235) [2^-24 of a code]; samples that are not there count as 0
(DESIGN CHOICE, log entry 9). -/
def frontHalf (first : Int) (xs : List Int) (tau : Int) : Int × Int :=
  xs.zipIdx.foldl
    (fun acc x =>
      let at_ := first + 4 * (x.2 : Int)
      let h := halfTap (absI ((tau - at_) / 4))
      let v := shiftDown at_ x.1
      (acc.1 + h * v.1, acc.2 + h * v.2)) (0, 0)

/-! ### NCO, mixer and decimator (R241 to R243) -/

/-- The NCO's phase at fine time tau for F and P, behind the front half's shift by 4 GHz, which is 2^44 in units of F: with it a sample
taken at tau is turned by -theta(tau) in all (R235, R242) [2^-48 turn]. -/
def ncoPhase (f p : Nat) (tau : Int) : Nat := wrap 48 (((f : Int) - 2 ^ 44) * tau + (p * 2 ^ 16 : Nat))

/-- A sample of the front half times exp(-j 2 pi theta), exactly to 2^-60 of its unit (R242). -/
def mixSample (f p : Nat) (tau : Int) (v : Int × Int) : Int × Int :=
  let c := cosTurn (ncoPhase f p tau)
  let d := sinTurn (ncoPhase f p tau)
  (v.1 * c + v.2 * d, v.2 * c - v.1 * d)

/-- Tap of the decimator at a distance in 8 GS/s samples [2^-24]: a group delay of 40 ticks gives it 160 samples on either side, and
the gain at the NCO's frequency is 1, so that a real tone of full scale there gives the magnitude 0.5; the spec does not give the
other taps (R241, R243) (DESIGN CHOICE, log entry 9). -/
def decimTap (d : Nat) : Int :=
  if d = 0 then 2 ^ 24 - 2 * tapSum Config.decimTap 1 1 160 else if d ≤ 160 then Config.decimTap d else 0

/-- The decimated sample of the ball instant `at_` [fine ticks] from the RFI's samples from instant `first` on, each with the F and P
that `fp` gives for its instant, as signed 16-bit numbers of 2^-15 of full scale (R241 to R243) (DESIGN CHOICE, log entry 9). -/
def decimated (fp : Nat → Nat × Nat) (first : Int) (xs : List Int) (at_ : Nat) : Int × Int :=
  let sum := (List.range 321).foldl
    (fun (acc : Int × Int) (j : Nat) =>
      let tau := (at_ : Int) + 8 * ((j : Int) - 160)
      let h := decimTap (absI ((j : Int) - 160))
      let w := fp tau.toNat
      let m := mixSample w.1 w.2 tau (frontHalf first xs tau)
      (acc.1 + h * m.1, acc.2 + h * m.2)) (0, 0)
  (satI 16 (roundTo 8 102 sum.1), satI 16 (roundTo 9 102 sum.2))

/-- The decimated samples of a window that opens at tick w0 and integrates len of them, from the stream of its RFI with `lead`
samples before the window (R241, R244) (DEDUCED, log entry 41). -/
def demodulate (f p w0 len lead : Nat) (xs : List Int) : List (Int × Int) :=
  (List.range len).map fun n => decimated (fun _ => (f, p)) ((32 * w0 : Nat) - (4 * lead : Nat)) xs (32 * (w0 + 4 * n))

/-- A sample of a BB record: the decimated I and Q of each channel of unit i's mask in ascending m, at the current F and P of its
readout frame (R304, R305).  `first` is the instant of the stream's first sample (DEDUCED, log entry 45). -/
def basebands (i : Nat) (first : Int) (xs : List Int) (instant : Nat) (s : State) : Nat :=
  (setBits 32 (s.get (TAP_CH_MASK i))).foldr
    (fun m n =>
      let v := decimated (fun tau => toneAt i m (tau / 32) s) first xs instant
      wrap 16 v.1 + 2 ^ 16 * wrap 16 v.2 + 2 ^ 32 * n) 0

/-- A stream of a command's operand as numbers. -/
def streamInts (stream : Option (BitVec 12 × List (BitVec 10))) : Option (Nat × List Int) :=
  stream.map fun x => (x.1.toNat, x.2.map BitVec.toInt)

/-- What unit i writes for sample k of capture c: with `stream`, in BB format, what its channels make of the RFI's stream with so many
samples before record sample 0; else what was delivered (R304, R305).  None for a sample that the write path could not take
(DEDUCED, log entry 45). -/
def tapRaw (i : Nat) (c : Capture) (xs : List (Option Nat)) (stream : Option (Nat × List Int)) (s : State) (k : Nat) : Option Nat :=
  match stream with
  | some (lead, zs) =>
    if s.get (TAP_CFG_FMT i) = 2 then
      (xs.getD k none).map fun _ => basebands i (c.first - (4 * lead : Nat)) zs (c.instant k).toNat s
    else xs.getD k none
  | none => xs.getD k none

/-- What RFI i samples at 16 GS/s from instant `first` to tick t, where no command brings it (DESIGN CHOICE, log entry 8). -/
def freeStream (i : Nat) (first : Int) (t : Nat) : List Int :=
  (List.range (((32 * t : Nat) - first) / 4).toNat).map fun (n : Nat) => sgn 10 (Config.tapSample i (first + 4 * (n : Int)).toNat % 1024)

/-- What unit i writes for sample k of a capture that a fence cuts at tick t: RAW samples, or what its channels demodulate from them,
with 400 samples before record sample 0 (R305, R315) (DESIGN CHOICE, log entry 8). -/
def fenceRaw (i t : Nat) (c : Capture) (s : State) (k : Nat) : Option Nat :=
  let x := (c.instant k).toNat
  if tapOverloaded x s && !Config.tapTaken i x then none
  else if s.get (TAP_CFG_FMT i) = 2 then
    let first := c.first - 1600
    some (basebands i first (freeStream i first t) x s)
  else some (Config.tapSample i x % 1024)

/-- The tile of unit i is fenced at tick t: triggers stamped before it are judged first, and a capture in progress is cut (R307, R315)
(DESIGN CHOICE, log entry 8). -/
def tapFence (i t : Nat) (s : State) : State :=
  let s := tapRun i (64 * (32 * t)) s
  let s := match (s.tap i).cap with
    | none => s
    | some c => tapDeliver i c (some t) (fenceRaw i t c s) s
  tapRelease i (32 * t) (s.setTap i { s.tap i with disable := true, waiting := [], armAt := none })

end Sys2Proof.Machine
end

