-- ==== Sys2Proof/Machine/Readout.lean ====
section
/-! DEFINITION. Readout: RFIs, windows, kernels, the integrator and the discriminator, record formats (R235 to R260). -/

namespace Sys2Proof.Machine

/-- RFI i beside its registers. -/
def State.rfi (s : State) (i : Nat) : Rfi := Tab.get {} s.rfis i
/-- Replace RFI i. -/
def State.setRfi (s : State) (i : Nat) (x : Rfi) : State := { s with rfis := Tab.put {} s.rfis i x }

/-! ### RFI power states (R237, R238) -/

/-- PSTATE of RFI i: 0 OFF, 1 POWERING, 2 STANDBY, 3 ACTIVE, 4 CAL (R237). -/
def rfiState (i : Nat) (s : State) : Nat := s.get (RFI_STATUS_PSTATE i)

/-- Move RFI i to a power state at tick t: the stretch in which it is ACTIVE begins or ends there (R238, R252). -/
def setRfiState (i st t : Nat) (s : State) : State :=
  let x := s.rfi i
  let spans := match st == 3, x.spans with
    | true, (a, none) :: rest => (a, none) :: rest
    | true, rest => (t, none) :: rest
    | false, (a, none) :: rest => (a, some t) :: rest
    | false, rest => rest
  (s.setRfi i { x with spans := spans }).set (RFI_STATUS_PSTATE i) st

/-- The power state that RFI i is in, or returns to from CAL (R238, R423). -/
def rfiPower (i : Nat) (s : State) : Nat := if rfiState i s = 4 then (s.rfi i).back else rfiState i s

/-- RFI i takes a power state at tick t; under CAL it is the one that it returns to (R239, R423) (open corners:
DEDUCED, log entry 86). -/
def setRfiPower (i st t : Nat) (s : State) : State :=
  if rfiState i s = 4 then s.setRfi i { s.rfi i with back := st } else setRfiState i st t s

/-- A write of EN = 1 to RFI i at tick t (R238) (open corners: DEDUCED, log entry 86). -/
def rfiEnable (i t : Nat) (s : State) : State :=
  if !s.on (RFI_STATUS_SLICES_OK i) || fenced (i / 4) s then s.flagAlways (RFI_STATUS_EN_REFUSED i) (704 + i)
  else
    let off := decide (rfiPower i s ≤ 1)
    let on_ := if off then t + 400000 else t + 64
    let s := s.setRfi i { s.rfi i with pend := (s.rfi i).pend ++ [on_] }
    let s := s.setB (RFI_CTRL_EN i) true
    let s := if rfiPower i s = 0 then setRfiPower i 1 t s else s
    s.later on_ (.rfiEnable i)

/-- An enable of RFI i takes effect (R238). -/
def rfiEnabled (i t : Nat) (s : State) : State :=
  let x := s.rfi i
  if x.pend.contains t then setRfiPower i 3 t (s.setRfi i { x with pend := x.pend.filter (· != t) }) else s

/-- A disable of RFI i takes effect: STANDBY while an enable is pending, else as IDLE_PWR selects (R238). -/
def rfiDisabled (i t : Nat) (s : State) : State :=
  if rfiPower i s = 0 then s
  else setRfiPower i (if (s.rfi i).pend.isEmpty && s.on (RFI_CFG_IDLE_PWR i) then 0 else 2) t s

/-- RFI i goes to OFF with its tile's fence (R238) (open corners: DEDUCED, log entry 41). -/
def rfiFence (i t : Nat) (s : State) : State :=
  let s := setRfiState i 0 t s
  (s.setRfi i { s.rfi i with pend := [] }).setB (RFI_CTRL_EN i) false

/-! ### Kernel tables (R245, R248, R259, R264) -/

/-- First byte of the kernel tables of channel c. -/
def kernelBase (c : Nat) : Nat := 0x02000000 + 0x4000 * c
/-- Active bank of channel c. -/
def kernelBank (c : Nat) (s : State) : Nat := b2n ((s.get (RFI_KBANK (c / 32))).testBit (c % 32))
/-- First byte of the descriptors of a bank of channel c; its discriminator sets lie 0x100 above. -/
def kernelBankAt (c bank : Nat) : Nat := kernelBase c + 0x2000 + 0x400 * bank
/-- Kernel descriptor k of the active bank. -/
def kernelDesc (c k : Nat) (s : State) : Nat := s.rd (kernelBankAt c (kernelBank c s) + 8 * k) 8
/-- The 16 dwords of discriminator set d of the active bank. -/
def discSet (c d : Nat) (s : State) : List Nat :=
  (List.range 16).map fun j => s.rd (kernelBankAt c (kernelBank c s) + 0x100 + 0x40 * d + 4 * j) 4

/-- Weight n of channel c as window w's integrator read it: bytes that a later write changed are kept with the window
(R246). -/
def weightOf (c n : Nat) (w : Window) (s : State) : Int × Int :=
  let byte := fun a => match w.old.find? fun p => p.1 == a with
    | some p => p.2.toNat
    | none => (s.byte a).toNat
  let a := kernelBase c + 4 * n
  (sgn 16 (byte a + 256 * byte (a + 1)), sgn 16 (byte (a + 2) + 256 * byte (a + 3)))

/-- A write of weight byte b at address a takes effect at tick t: windows that have read the weight keep the old byte
(R246). -/
def weightByte (c a t : Nat) (b : Byte) (s : State) : State :=
  let n := (a - kernelBase c) / 4
  let x := s.lau c
  let s := if x.windows.isEmpty then s else
      s.setLau c { x with windows := x.windows.map fun w =>
        if w.start ≤ n ∧ n < w.start + w.len ∧ w.w0 + 4 * (n - w.start) + 68 < t ∧ !(w.old.any fun p => p.1 == a) then
          { w with old := (a, s.byte a) :: w.old }
        else w }
  s.setByte a b

/-! ### MEASURE firing (R242 to R245, R251, R252) -/

/-- A window of channel c opens at tick t: it collides with a calibration of its RFI, and triggers its Tap unit (R239, R306) (open
corners: DEDUCED, log entry 53). -/
def windowOpens (c t : Nat) (s : State) : State :=
  let i := c / 32
  let s := if rfiState i s = 4 then s.flag (RFI_STATUS_CAL_COLLISION i) (704 + i) else s
  tapWindow c t s

/-- The window of channel c that ends at tick t keeps the angle and the calibration epoch of that tick (R254). -/
def windowEnds (c t : Nat) (s : State) : State :=
  let x := s.lau c
  let keep := fun (w : Window) =>
    { w with angle := angleAt s t, angleOk := angleValid s, epoch := s.get (RFI_CAL_EPOCH (c / 32)) % 65536 }
  s.setLau c { x with windows := x.windows.map fun w => if w.e = t then keep w else w }

/-- A MEASURE entry fires on its channel (R244, R252). -/
def fireMeasure (e : Entry) (s : State) : State :=
  let c := e.target
  let t := e.tick
  let x := s.lau c
  if x.windows.any fun w => t < w.e then produce (emptyRecord e (2 ^ recBusy) t true s) s
  else if !s.on (LAU_STATUS_ACTIVE c) then produce (emptyRecord e (2 ^ recChanOff) t true s) s
  else
    let d := kernelDesc c (bits e.a 0 4) s
    let start := bits d 0 11
    let len := bits d 12 12
    let f := frameF (s.get (LAU_FRAMES_RFRAME c)) s
    if len < 4 ∨ len > 2048 ∨ start + len > 2048 ∨ f ≥ 2 ^ 45 then produce (emptyRecord e (2 ^ recSetup) t true s) s
    else
      let w0 := 4 * ceilDiv (t + bits d 32 16) 4
      let w : Window :=
        { fire := t, w0 := w0, e := w0 + 4 * len, start := start, len := len, shift := bits d 24 4,
          dset := discSet c (bits d 28 2) s, freq := f, phase := frameP (s.get (LAU_FRAMES_RFRAME c)) s,
          px := s.on (LAU_CFG_PX_EN c) && frameX (s.get (LAU_FRAMES_PFRAME c)) s,
          seq := e.seq, shot := e.shot, slot := bits e.a 16 16, gen := e.gen }
      let s := (s.setLau c { x with windows := x.windows ++ [w] }).later w.e (.winEnd c)
      if w0 = t then windowOpens c t s else s.later w0 (.winOpen c)

/-! ### Integration and discrimination (R246, R249, R250) -/

/-- Add with saturation to 32 bits; the Bool says that it saturated. -/
def satAdd (a b : Int) : Int × Bool := (satI 32 (a + b), decide (satI 32 (a + b) ≠ a + b))

/-- Integrate decimated samples against a window's weights: I, Q and whether an addition saturated (R246) (open corners: DEDUCED,
DEDUCED, log entry 41). -/
def integrate (c : Nat) (w : Window) (xs : List (Int × Int)) (s : State) : Int × Int × Bool :=
  (xs.zipIdx.take w.len).foldl
    (fun acc xn =>
      let wt := weightOf c (w.start + xn.2) w s
      let p := (xn.1.1 * wt.1 + xn.1.2 * wt.2) / (2 ^ w.shift : Nat)
      let q := (xn.1.2 * wt.1 - xn.1.1 * wt.2) / (2 ^ w.shift : Nat)
      let i' := satAdd acc.1 p
      let q' := satAdd acc.2.1 q
      (i'.1, q'.1, acc.2.2 || i'.2 || q'.2)) (0, 0, false)

/-- State, LOWCONF and LEAK in LINEAR mode (R249). -/
def discLinear (ds : List Nat) (i q : Int) : Nat × Bool × Bool :=
  let d0 := ds.getD 0 0
  let nb := max 1 (bits d0 1 2)
  let margin := ds.getD 1 0
  let v := fun k =>
    let ab := ds.getD (2 + 3 * k) 0
    sgn 16 ab * i + sgn 16 (ab / 65536) * q - sgn 32 (ds.getD (3 + 3 * k) 0) * 2 ^ 15
  let b := fun k => if k < nb then b2n (decide (v k ≥ 0)) else 0
  let j := 4 * b 2 + 2 * b 1 + b 0
  let st := bits d0 (12 + 2 * j) 2
  let low := (List.range nb).any fun k => decide ((absI (v k) : Int) < margin * 2 ^ 15)
  (st, low, bit d0 (8 + st))

/-- State, LOWCONF and LEAK in CENTROID mode (R250); distances are 2^12 times d_s, exactly. -/
def discCentroid (ds : List Nat) (i q : Int) : Nat × Bool × Bool :=
  let d0 := ds.getD 0 0
  let ns := max 1 (bits d0 3 2)
  let dist := fun k =>
    let di := i - sgn 32 (ds.getD (2 + 3 * k) 0)
    let dq := q - sgn 32 (ds.getD (3 + 3 * k) 0)
    absI (di * di + dq * dq) * bits (ds.getD (4 + 3 * k) 0) 0 16
  let ks := List.range (ns + 1)
  let st := ks.foldl (fun m k => if dist k < dist m then k else m) 0
  let rest := (ks.filter (· != st)).map dist
  let first := dist st
  let second := rest.foldl min (rest.headD 0)
  let ratio := bits (ds.getD 4 0) 16 8
  let out := ds.getD 1 0
  (st, decide (16 * second < ratio * first), bit d0 (8 + st) || (out != 0 && decide (first > out * out * 4096)))

/-- State, LOWCONF and LEAK (R248). -/
def discriminate (ds : List Nat) (i q : Int) : Nat × Bool × Bool :=
  if bit (ds.getD 0 0) 0 then discCentroid ds i q else discLinear ds i q

/-- The RFI was not ACTIVE at some tick of window w (R252) (open corners: DEDUCED, log entry 41). -/
def windowDown (c : Nat) (w : Window) (s : State) : Bool :=
  !(s.rfi (c / 32)).spans.any fun p => p.1 ≤ w.w0 && (match p.2 with | none => true | some e => decide (w.e ≤ e))

/-- The record of window w of channel c, produced at E + 80 (R249 to R252, R254); `overs` says that R236 counted a sample in it
(open corners: DEDUCED, log entry 41). -/
def windowRecord (c : Nat) (w : Window) (xs : List (Int × Int)) (overs : Bool) (s : State) : Rec :=
  let base : Rec :=
    { chan := c, gen := w.gen, state := 0, i := 0, q := 0,
      flags := w.epoch % 16 * 2 ^ 12 ||| b2n w.angleOk * 2 ^ recAngleValid, slot := w.slot, angle := w.angle,
      epoch := w.epoch, at_ := w.e + 80, toRv := true, seq := w.seq, shot := w.shot }
  if windowDown c w s then { base with flags := base.flags ||| 2 ^ recRfiDown }
  else
    let a := integrate c w xs s
    let d := discriminate w.dset a.1 a.2.1
    let st := if w.px ∧ d.1 < 2 then 1 - d.1 else d.1
    let fl := base.flags ||| b2n d.2.1 * 2 ^ recLowconf ||| b2n d.2.2 * 2 ^ recLeak
      ||| b2n w.px * 2 ^ recPx ||| b2n overs * 2 ^ recOver
    if a.2.2 then { base with state := st, flags := fl ||| 2 ^ recAccSat }
    else { base with state := st, i := a.1, q := a.2.1, flags := fl ||| 2 ^ recValid }

/-- The samples that the integrator of window w takes: those that the decimator delivers, or what it makes of the RFI's stream with so
many samples before the window (R235, R241 to R243). -/
def windowSamples (w : Window) (stream : Option (Nat × List Int)) (xs : List (Int × Int)) : List (Int × Int) :=
  match stream with
  | none => xs
  | some z => demodulate w.freq w.phase w.w0 w.len z.1 z.2

/-- A window's record is produced, and a VALID one shows in the last-record registers (R252, R255, R263) (open corners: DEDUCED,
DEDUCED, log entry 41). -/
def produceWindow (c : Nat) (w : Window) (r : Rec) (s : State) : State :=
  let x := s.lau c
  let s := s.setLau c { x with windows := x.windows.drop 1 }
  let s := if r.flags.testBit recValid then
      ((s.setI (LAU_LAST_I c) r.i).setI (LAU_LAST_Q c) r.q).set (LAU_LAST_END c) w.e
    else s
  produce r s

/-! ### Record formats (R254, R255) -/

/-- The exponent of a FULL record (R255). -/
def recExp (i q : Int) : Nat :=
  let fits := fun (e : Nat) =>
    let a := i / (2 ^ e : Nat)
    let b := q / (2 ^ e : Nat)
    decide (-(2 ^ 23) ≤ a ∧ a < 2 ^ 23 ∧ -(2 ^ 23) ≤ b ∧ b < 2 ^ 23)
  ((List.range 9).find? fits).getD 8

/-- The bytes of a record with its ring sequence number (R254). -/
def recBytes (fmt seq : Nat) (r : Rec) : List Byte :=
  let common := seq % 2 ^ 32 + r.gen * 2 ^ 32 + r.chan * 2 ^ 48 + r.state * 2 ^ 58
  match fmt with
  | 1 => toBytes 16 (common + r.angle * 2 ^ 64 + r.slot * 2 ^ 80 + r.epoch * 2 ^ 96 + (r.flags % 2 ^ 16) * 2 ^ 112)
  | 2 => toBytes 4 (r.chan + r.state * 2 ^ 10 + (r.flags % 16) * 2 ^ 12 + (seq % 2 ^ 16) * 2 ^ 16)
  | _ =>
    let e := recExp r.i r.q
    toBytes 16 (common + e * 2 ^ 60 + wrap 24 (r.i / (2 ^ e : Nat)) * 2 ^ 64 + wrap 24 (r.q / (2 ^ e : Nat)) * 2 ^ 88
      + (r.flags % 2 ^ 16) * 2 ^ 112)

/-- A record enters its result ring: numbered, and stored or dropped; a record that finds neither quota nor a descriptor is an
overrun under either policy (R93, R256, R257). -/
def ringWrite (r : Rec) (s : State) : State :=
  let q := 0x4000 + s.get (LAU_CFG_RING r.chan)
  let x := s.queue q
  let fmt := s.get (LAU_CFG_FORMAT r.chan)
  let n := x.nextSeq
  let s := s.setQueue q { x with nextSeq := (n + 1) % 2 ^ 32 }
  let drop := decide (s.get (QM_Q_CFG_FULL_POLICY q) = 1)
  if !s.on (QM_Q_CTRL_Q_EN q) then (s.countDrop q 1).noteEmpty q
  else if s.atQuota q || s.poolEmpty then
    ((s.countDrop q 1).noteEmpty q).flagAlways QM_STATUS_OVERRUN 762
  else if drop && s.full q then (s.countDrop q 1).noteEmpty q
  else s.append q { bytes := recBytes fmt n r, format := fmt, tag := n }

/-- The router writes a record: Result Vector pair, forward, ring; a record of a fenced tile reaches its ring alone (R21, R256, R266,
R269) (open corners: DEDUCED, log entry 42). -/
def routeRecord (r : Rec) (t : Nat) (s : State) : State :=
  let valid := r.flags.testBit recValid
  let state := if valid then r.state else 0
  let s := if r.toRv && !fenced (r.chan / 128) s then
      let p := writePair r.chan state r.gen (!valid) t s
      if p.1 then forwardRecord r.chan state r.gen (!valid) t p.2 else p.2
    else s
  ringWrite r s

/-! ### Bank swaps and copies of an RFI (R259) -/

/-- Show whether a swap or copy of RFI i is pending. -/
def setKBank (i : Nat) (b : Option BankOp) (s : State) : State :=
  (s.setRfi i { s.rfi i with bank := b }).setB (RFI_STATUS_KSWAP_PENDING i) b.isSome

/-- The bits of byte j of a channel's bank that exist: the 16 descriptors, then the 4 discriminator sets from offset 0x100 on
(R245, R248, R264); the reserved bits read as zero and ignore writes (R8).  Dwords 4, 7, 10 and 13 of a set hold W_s in CENTROID
mode, and dword 4 CONF_RATIO too; dwords 4, 7 and 10 are reserved in LINEAR mode (DEDUCED, log entry 105). -/
def kernelMask (linear : Bool) (j : Nat) : Nat :=
  if j < 0x100 then match j % 8 with | 1 => 0xF7 | 3 => 0x3F | 6 | 7 => 0 | _ => 0xFF
  else
    let k := j % 64
    if k = 0 then 0x1F
    else if k = 3 then 0x0F
    else if linear && (k / 4 == 4 || k / 4 == 7 || k / 4 == 10) then 0
    else if k = 18 then 0xFF
    else if k = 19 ∨ k = 30 ∨ k = 31 ∨ k = 42 ∨ k = 43 ∨ k = 54 ∨ k = 55 ∨ 56 ≤ k then 0
    else 0xFF

/-- The set that holds byte j of bank `bank` of channel c stands in LINEAR mode, as its dword 0 says (R248)
(DEDUCED, log entry 105). -/
def kernelLinear (c bank j : Nat) (s : State) : Bool :=
  decide (0x100 ≤ j) && !(s.byte (kernelBankAt c bank + j / 64 * 64)).toNat.testBit 0

/-- Byte j of bank `bank` of channel c as a read shows it: what MODE makes reserved reads as zero (R8, R248)
(DEDUCED, log entry 105). -/
def kernelByte (c bank j : Nat) (s : State) : Byte :=
  maskByte (kernelMask (kernelLinear c bank j s) j) (s.byte (kernelBankAt c bank + j))

/-- A byte written into the shadow descriptors or sets of channel c, at offset off from LK(c) + 0x2000, held while a copy of
the channel is pending (R8, R259, R264) (DEDUCED, log entry 105). -/
def kernelShadowByte (c off : Nat) (v : Byte) (s : State) : State :=
  let i := c / 32
  let put := fun s =>
    let bank := 1 - kernelBank c s
    let mask := kernelMask (kernelLinear c bank (off % 0x400) s) (off % 0x400)
    if mask = 0 then s else s.setByte (kernelBankAt c bank + off) (maskByte mask v)
  match (s.rfi i).bank with
  | some b =>
    if b.copy && b.mask.testBit (c % 32) then setKBank i (some { b with held := (0x4000 * c + off, v) :: b.held }) s else put s
  | none => put s

/-- A swap or copy of RFI i's kernel banks is pending for tick `at_` (R259). -/
def setKPending (i : Nat) (copy : Bool) (at_ : Nat) (s : State) : State :=
  (setKBank i (some { copy := copy, at_ := at_, mask := s.get (RFI_KSWAP_MASK i) }) s).later at_ (.kBank i at_)

/-- A pending KSWAP of RFI i takes place (R259). -/
def kSwap (i : Nat) (b : BankOp) (s : State) : State :=
  let s := setKBank i none s
  let s := s.set (RFI_KBANK i) (s.get (RFI_KBANK i) ^^^ b.mask)
  (s.inc (RFI_KSWAP_COUNT i)).flagAlways (RFI_STATUS_KSWAP_DONE i) (704 + i)

/-- A pending KCOPY of RFI i ends (R259). -/
def kCopy (i : Nat) (b : BankOp) (s : State) : State :=
  let s := setKBank i none s
  let s := (setBits 32 b.mask).foldl
    (fun s m =>
      let c := 32 * i + m
      let act := kernelBank c s
      { s with mem := Memory.copyRange (kernelBankAt c act) (kernelBankAt c (1 - act)) 0x200 s.mem }) s
  b.held.reverse.foldl (fun s h => kernelShadowByte (h.1 / 0x4000) (h.1 % 0x4000) h.2 s) s

/-- The tick of a pending swap or copy of RFI i has come: the one that was set for it takes place (R259). -/
def kBankDue (i at_ : Nat) (s : State) : State :=
  match (s.rfi i).bank with
  | some b => if b.at_ = at_ then (if b.copy then kCopy i b s else kSwap i b s) else s
  | none => s

/-! ### Channel enable (R260) -/

/-- Frame f belongs to partition p. -/
def frameIn (f p : Nat) (s : State) : Bool := f ≤ 40959 && targetPart .frame f s == p

/-- A write of EN = 1 to channel c is refused (R260). -/
def lauRefused (c : Nat) (s : State) : Bool :=
  let p := targetPart .lauter c s
  s.owner (0x4000 + s.get (LAU_CFG_RING c)) != p || !frameIn (s.get (LAU_FRAMES_RFRAME c)) p s
    || (s.on (LAU_CFG_PX_EN c) && !frameIn (s.get (LAU_FRAMES_PFRAME c)) p s) || fenced (c / 128) s

/-- The tile of channel c is fenced at tick t: its open windows end with ABORTED records to the ring only (R252) (open corners:
DEDUCED, log entry 41). -/
def lauFence (c t : Nat) (s : State) : State :=
  let x := s.lau c
  let s := s.setLau c { x with windows := x.windows.filter fun w => w.e ≤ t }
  (x.windows.filter fun w => t < w.e).foldl
    (fun s w =>
      produce
        { chan := c, gen := w.gen, state := 0, i := 0, q := 0,
          flags := 2 ^ recAborted ||| b2n (decide (w.w0 ≤ t)) * 2 ^ recRfiDown ||| epochFlags c s
            ||| b2n (angleValid s) * 2 ^ recAngleValid,
          slot := w.slot, angle := angleAt s t, epoch := s.get (RFI_CAL_EPOCH (c / 32)) % 65536, at_ := t, toRv := false,
          seq := w.seq, shot := w.shot } s) s

end Sys2Proof.Machine
end

