-- ==== Sys2Proof/Machine/Ports.lean ====
section
/-! DEFINITION. RFO ports: power states, gains, enable, Park (R190 to R198, R474, R501), and the minimum service set (R19). -/

namespace Sys2Proof.Machine

/-- RFO port p beside its registers. -/
def State.rfo (s : State) (p : Nat) : Rfo := Tab.get {} s.rfos p
/-- Replace RFO port p. -/
def State.setRfo (s : State) (p : Nat) (x : Rfo) : State := { s with rfos := Tab.put {} s.rfos p x }

/-- PSTATE codes (R190). -/
def psOff : Nat := 0
/-- POWERING. -/
def psPowering : Nat := 1
/-- HOLD. -/
def psHold : Nat := 2
/-- ACTIVE. -/
def psActive : Nat := 3
/-- CAL. -/
def psCal : Nat := 4

/-- PSTATE of port p. -/
def rfoState (p : Nat) (s : State) : Nat := s.get (RFO_STATUS_PSTATE p)
/-- Set PSTATE of port p. -/
def setRfoState (p st : Nat) (s : State) : State := s.set (RFO_STATUS_PSTATE p) st

/-- The RFO event k of port p's tile (R205). -/
def rfoEvent (p k : Nat) : Nat := 896 + 16 * (p / 36) + k

/-- Tile a's analog rails are good. -/
def tilePowered (a : Nat) (s : State) : Bool := s.host.powered.contains a

/-! ### Minimum service set (R19) -/

/-- At least one host path is up (DEDUCED, log entry 107). -/
def hostPath (s : State) : Bool := s.on HOST_STATUS_LINK_UP || s.on (ETH_STATUS_LINK 0) || s.on (ETH_STATUS_LINK 1)

/-- Park logic is active in every powered tile. -/
def parkLogicOk (s : State) : Bool := s.host.parkLost.all fun a => !tilePowered a s

/-- Every item of the minimum service set holds (R19). -/
def serviceOk (s : State) : Bool :=
  s.host.refPresent && s.on TL_STATUS_PLL_LOCKED && s.host.ryvexUp && s.host.kilnUp && hostPath s && parkLogicOk s

/-- READY follows the minimum service set once start-up has reached it; each change raises event 3 (R19, R370) (open corners:
DEDUCED, log entry 71). -/
def deriveReady (s : State) : State :=
  let r := s.host.started && serviceOk s
  if s.on GLB_STATUS_READY = r then s else (s.setB GLB_STATUS_READY r).event 3

/-! ### Gains (R191 to R193, R501) -/

/-- The gain of a ramp at tick t [2^-60]: the one it began from before its tick, then the raised cosine of R501, then its target;
with HARD_MUTE its target at once (R191, R501) (DEDUCED, log entry 38). -/
def Ramp.gain (r : Ramp) (t : Nat) : Nat :=
  let g : Nat := if r.up then 2 ^ 60 else 0
  if t < r.at_ then r.from_
  else if r.hard ∨ r.at_ + 32 ≤ t then g
  else
    let n := t - r.at_
    ((r.from_ : Int) + ((g : Int) - r.from_) * (unit60 - cosTurn ((2 * n + 1) * 2 ^ 41)) / 2 ^ 61).toNat

/-- A ramp of a gain begins at tick t, from the gain at the tick before (R501) (open corners: DEDUCED, log entry 38). -/
def Ramp.next (r : Ramp) (t : Nat) (up hard : Bool) : Ramp :=
  { at_ := t, up := up, hard := hard, from_ := if t = 0 then r.from_ else r.gain (t - 1) }

/-- MUTED: the mute gain of port p is below 1 at tick t (R206). -/
def rfoMuted (p t : Nat) (s : State) : Bool := decide ((s.rfo p).muteGain.gain t < 2 ^ 60)

/-- The gain of the gate of port p at tick t: the product of its enable gain and its mute gain [2^-120] (R193). -/
def gateGain (p t : Nat) (s : State) : Nat := (s.rfo p).enGain.gain t * (s.rfo p).muteGain.gain t

/-- The power state that port p is in, or returns to from CAL (R190, R199, R423). -/
def rfoPower (p : Nat) (s : State) : Nat := if rfoState p s = psCal then (s.rfo p).back else rfoState p s

/-- Port p takes a power state; under CAL it is the one that the port returns to (R199, R423) (open corners: DEDUCED, log entry 38). -/
def setRfoPower (p st : Nat) (s : State) : State :=
  if rfoState p s = psCal then s.setRfo p { s.rfo p with back := st } else setRfoState p st s

/-! ### Enable, disable, mute (R191 to R193) -/

/-- Port p counts as in HOLD for the timing of an enable (R191). -/
def rfoCountsHold (p : Nat) (s : State) : Bool := rfoPower p s == psHold || rfoPower p s == psActive

/-- A write of EN = 1 is refused (R191). -/
def rfoRefused (p : Nat) (s : State) : Bool :=
  s.get (RFO_CFG_CENTRE_N p) < 32 || s.get (RFO_CFG_CENTRE_N p) > 192 || !s.on (RFO_STATUS_CELLS_OK p)
    || s.on (RFO_STATUS_PARKED p) || fenced (p / 36) s

/-- Port p is one of a tile whose rails are good and whose Park Table has been applied: otherwise it is OFF, or held in HOLD
(R190, R468). -/
def rfoFree (p : Nat) (s : State) : Bool := tilePowered (p / 36) s && !s.host.held.contains (p / 36)

/-- A write of EN = 1 at tick t (R191): a power-down that a Park still had to make is dropped (open corners: DEDUCED, log entry 86). -/
def rfoEnable (p t : Nat) (s : State) : State :=
  if rfoRefused p s then
    let bad := s.get (RFO_CFG_CENTRE_N p) < 32 || s.get (RFO_CFG_CENTRE_N p) > 192
    let s := if bad then s.setB (RFO_STATUS_BAD_CENTRE p) true else s
    s.flagAlways (RFO_STATUS_EN_REFUSED p) (rfoEvent p 2)
  else
    let ten := if rfoCountsHold p s then t + 64 else t + 400000
    let s := s.setRfo p { s.rfo p with pend := (s.rfo p).pend ++ [ten], down := none }
    let s := (s.setB (RFO_CTRL_EN p) true).later ten (.rfoEnable p)
    if rfoPower p s = psOff ∧ rfoFree p s then setRfoPower p psPowering s else s

/-- The enable of T_en takes effect, unless a Park came first (R191, R196); a port that is unpowered or held stays as it is
(R190, R468) (open corners: DEDUCED, log entry 86). -/
def rfoEnabled (p t : Nat) (s : State) : State :=
  let x := s.rfo p
  if x.pend.contains t then
    let s := s.setRfo p { x with pend := x.pend.filter (· != t) }
    if rfoFree p s then
      let s := s.setRfo p { s.rfo p with enGain := x.enGain.next t true (s.on (RFO_CFG_HARD_MUTE p)) }
      ((setRfoPower p psActive s).set (RFO_EN_TICK p) t).event (rfoEvent p 6)
    else s
  else s

/-- Port p goes where a disable takes it: HOLD, or OFF as IDLE_PWR selects and no enable is pending (R192) (open corners: DEDUCED,
DEDUCED, log entry 82). -/
def rfoRest (p : Nat) (s : State) : State :=
  setRfoPower p (if (s.rfo p).pend.isEmpty && s.on (RFO_CFG_IDLE_PWR p) then psOff else psHold) s

/-- A disable takes effect at tick t: an ACTIVE port's gain falls, and the port rests when the fall has ended (R192) (open corners:
DEDUCED, log entry 86). -/
def rfoOff (p t : Nat) (s : State) : State :=
  let x := s.rfo p
  let hard := s.on (RFO_CFG_HARD_MUTE p)
  if s.on (RFO_STATUS_PARKED p) || !rfoFree p s then s
  else if rfoPower p s = psActive then
    let s := s.setRfo p { x with enGain := x.enGain.next t false hard }
    if hard then rfoRest p s else s.later (t + 32) (.rfoIdle p t)
  else if rfoPower p s = psHold ∨ rfoPower p s = psPowering then rfoRest p s
  else s

/-- The fall that began at tick `ramp` has ended: the port rests, unless a later ramp or a Park has come (R192) (open corners:
DEDUCED, log entry 82). -/
def rfoIdle (p ramp : Nat) (s : State) : State :=
  let g := (s.rfo p).enGain
  if g.at_ = ramp ∧ !g.up ∧ rfoPower p s = psActive ∧ !s.on (RFO_STATUS_PARKED p) then rfoRest p s else s

/-- A change of MUTE takes effect at tick t (R193) (open corners: DEDUCED, log entry 38). -/
def rfoMute (p : Nat) (on : Bool) (t : Nat) (s : State) : State :=
  let x := s.rfo p
  if x.muteOn = on then s
  else s.setRfo p { x with muteOn := on, muteGain := x.muteGain.next t (!on) (s.on (RFO_CFG_HARD_MUTE p)) }

/-! ### Park (R196, R197, R474) -/

/-- The gate of port p is closed without a ramp at tick t, and no enable is pending (R196) (DEDUCED, log entry 38). -/
def closeGate (p t : Nat) (s : State) : State :=
  s.setRfo p { s.rfo p with enGain := ⟨t, false, true, 0⟩, pend := [], down := none }

/-- The Park request of a cause reaches port p at tick t (R196, R474) (open corners: DEDUCED, log entry 38). -/
def parkRfo (p cause t : Nat) (s : State) : State :=
  let x := s.rfo p
  if s.on (RFO_STATUS_PARKED p) then
    s.setRfo p { x with causes := if x.causes.contains cause then x.causes else x.causes ++ [cause] }
  else
    let s := closeGate p t s
    let s := s.setRfo p { s.rfo p with causes := [cause] }
    let s := s.setB (RFO_CTRL_EN p) false
    let s := s.set (RFO_PARK_PARK_CAUSE p) cause
    let s := if tilePowered (p / 36) s then
        let s := setRfoPower p psHold s
        if s.on (RFO_PARK_PARK_MODE p) then
          (s.setRfo p { s.rfo p with down := some (t + 2000) }).later (t + 2000) (.rfoDown p)
        else s
      else s
    s.flagAlways (RFO_STATUS_PARKED p) (rfoEvent p 0)

/-- The power-down of a Park with PARK_MODE = OFF at tick t, dropped when an enable came first (R191, R196). -/
def rfoDown (p t : Nat) (s : State) : State :=
  if (s.rfo p).down = some t then setRfoPower p psOff (s.setRfo p { s.rfo p with down := none }) else s

/-- A Park cause of a port persists (R197, R230): `own` says it for the causes of the port itself. -/
def causeStands (cause a : Nat) (own : Bool) (s : State) : Bool :=
  match cause with
  | 3 => s.on KILN_STATUS_CRIT_ACTIVE
  | 4 => !serviceOk s
  | 5 => fenced a s
  | _ => own

/-- Some cause recorded for port p persists. -/
def rfoCauseStands (p : Nat) (s : State) : Bool :=
  (s.rfo p).causes.any fun c =>
    causeStands c (p / 36)
      (match c with
       | 1 => (s.rfo p).fault
       | 2 => s.get (RFO_CFG_CRC p) != s.get (RFO_CFG_CRC_REF p)
       | 6 => true
       | _ => false) s

/-- A write of 1 to PARKED (R197). -/
def rfoParkClear (p : Nat) (s : State) : State :=
  if rfoCauseStands p s then s
  else (s.setB (RFO_STATUS_PARKED p) false).setRfo p { s.rfo p with causes := [] }

/-- Release cause 6 of port p (R197). -/
def rfoRelease (p : Nat) (s : State) : State :=
  s.setRfo p { s.rfo p with causes := (s.rfo p).causes.filter (· != 6) }

/-- The driver of port p finds a short or overheating at tick t (R198). -/
def rfoFault (p t : Nat) (s : State) : State :=
  let s := s.setRfo p { s.rfo p with fault := true }
  parkRfo p 1 t (s.flagAlways (RFO_STATUS_DRIVER_FAULT p) (rfoEvent p 1))

end Sys2Proof.Machine
end

