-- ==== Sys2Proof/Machine/ZPorts.lean ====
section
/-! DEFINITION. Z ports: the bias path, range changes, streams, read-back and Park (R207 to R233).

Currents are in units of 16 uA / 2^23, so that a code step is 125, 25 and 5 units in ranges 0, 1 and 2. -/

namespace Sys2Proof.Machine

/-- Z port z beside its registers. -/
def State.zp (s : State) (z : Nat) : Zp := Tab.get {} s.zps z
/-- Replace Z port z. -/
def State.setZp (s : State) (z : Nat) (x : Zp) : State := { s with zps := Tab.put {} s.zps z x }

/-- The correction chain of a Z port with its state cleared (R209, R227). -/
def Zp.clear (x : Zp) : Zp := { x with iir := [], fir := [], q := 0 }

/-- The correction chain holds nothing. -/
def Zp.quiet (x : Zp) : Bool := x.iir.isEmpty && x.fir.isEmpty && x.q == 0

/-- The Z event k of port z's tile (R233). -/
def zEvent (z k : Nat) : Nat := 896 + 16 * (z / 96) + k

/-! ### Currents (R211 to R214) -/

/-- Units of one code step of a range (R211); range 3 acts as 2. -/
def rangeStep (r : Nat) : Nat := match r with | 0 => 125 | 1 => 25 | _ => 5

/-- The current of a code in a range. -/
def codeCurrent (r : Nat) (code : Int) : Frac := fracI (code * rangeStep r)

/-- Full scale of a range. -/
def fullScale (r : Nat) : Frac := fracI ((2 ^ 23 * rangeStep r : Nat) : Int)

/-- The code that drives a current in a range: nearest, saturated (R213) (open corners: DEDUCED, log entry 39). -/
def currentCode (r : Nat) (i : Frac) : Int := satI 24 (i.scale 1 (rangeStep r)).round

/-- The overlap limit L of two ranges (R211): 360 uA for ranges 0 and 1, 72 uA with range 2. -/
def overlap (r r' : Nat) : Frac := if r = 2 ∨ r' = 2 then frac (9 * 2 ^ 23) 2 else frac (45 * 2 ^ 23) 2

/-- The tick at which modulator cycle n begins, rounded up to a whole tick (R212). -/
def cycleTick (n : Nat) : Nat := ceilDiv (500 * n) 32
/-- The first modulator cycle that begins at or after tick t. -/
def cycleAfter (t : Nat) : Nat := ceilDiv (32 * t) 500
/-- The last modulator cycle that begins at or before tick t. -/
def cycleBefore (t : Nat) : Nat := 32 * t / 500

/-- A piece of current at fine time 32 u + ..., from its cycle n: linear from a to b (R214). -/
def Seg.atFine (g : Seg) (fine : Nat) : Frac :=
  if g.d = 0 ∨ fine ≥ 32 * (g.at_ + g.d) then g.b
  else if fine ≤ 32 * g.at_ then g.a
  else g.a.add ((g.b.sub g.a).scale ((fine - 32 * g.at_ : Nat) : Int) (32 * g.d))

/-- The current of a piece at tick t: the value of the last modulator cycle, the final one from at_ + d on (R214). -/
def Seg.at (g : Seg) (t : Nat) : Frac :=
  if t ≥ g.at_ + g.d then g.b else g.atFine (500 * cycleBefore t)

/-- The commanded current at tick t (R214) (open corners: DEDUCED, log entry 39). -/
def commandedOf (segs : List Seg) (t : Nat) : Frac :=
  match segs.find? fun g => g.at_ ≤ t with
  | none => fracI 0
  | some g => g.at t

/-- The commanded current of port z at tick t. -/
def commanded (z t : Nat) (s : State) : Frac := commandedOf (s.zp z).segs t

/-- Add a piece of current; pieces that begin later end, and pieces older than the read-back looks are forgotten (R214, R223). -/
def addSeg (segs : List Seg) (g : Seg) : List Seg :=
  let old := segs.filter fun h => h.at_ ≤ g.at_
  let recent := old.takeWhile fun h => decide (h.at_ + 100000 > g.at_)
  g :: recent ++ ((old.drop recent.length).take 1)

/-- The stretches of ticks a..b between the starts of pieces, oldest first, first and last tick of each: the commanded current
is monotone in each. -/
def stretches (segs : List Seg) (a b : Nat) : List (Nat × Nat) :=
  let starts := a :: ((segs.filter fun g => a < g.at_ && g.at_ ≤ b).reverse.map fun g => g.at_)
  (starts.zip (starts.drop 1 ++ [b + 1])).map fun p => (p.1, p.2 - 1)

/-- The commanded current at the ends of the stretches of ticks a..b, oldest first. -/
def turning (segs : List Seg) (a b : Nat) : List Frac :=
  (stretches segs a b).flatMap fun p => [commandedOf segs p.1, commandedOf segs p.2]

/-- Largest and smallest commanded current over the ticks a..b (R223). -/
def currentSpan (segs : List Seg) (a b : Nat) : Frac × Frac :=
  let v := commandedOf segs a
  let all := turning segs a b
  (all.foldl Frac.max v, all.foldl Frac.min v)

/-- The first excursion of the commanded current beyond -l..l over the ticks a..b: is it on the positive side? (R220) -/
def excursion (segs : List Seg) (l : Frac) (a b : Nat) : Option Bool :=
  (turning segs a b).findSome? fun v =>
    if l.lt v then some true else if l.lt ((fracI 0).sub v) then some false else none

/-- Range in force (R213). -/
def zRange (z : Nat) (s : State) : Nat := s.get (ZP_STATUS_RANGE z)
/-- Put a range in force. -/
def setZRange (z r : Nat) (s : State) : State := (s.set (ZP_STATUS_RANGE z) r).set (ZB_CODE_RANGE z) r
/-- The pending range; 3 = none (R219). -/
def zPend (z : Nat) (s : State) : Nat := s.get (ZP_STATUS_PEND_RANGE z)
/-- The target range (R213). -/
def zTarget (z : Nat) (s : State) : Nat := if zPend z s = 3 then zRange z s else zPend z s

/-- The driven current at tick t: the commanded one, but for a hold at ±L in a window (R220) or at I_x in a Park transfer
(R228). -/
def driven (z t : Nat) (s : State) : Frac :=
  let x := s.zp z
  let c := commanded z t s
  let hold := match x.park with
    | some k => (match k.open_ with
      | some o => if o ≤ t ∧ t < o + 4000 then some k.ix else none
      | none => none)
    | none => none
  match hold with
  | some i => i
  | none =>
    match x.window with
    | some w =>
      let l := overlap (zRange z s) w.range
      if w.abandon then c
      else match excursion x.segs l w.opened t with
        | some true => l
        | some false => (fracI 0).sub l
        | none => c
    | none => c

/-- ZB_CODE: the signed code in the range in force (R213, R234) (open corners: DEDUCED, log entry 88). -/
def zbCode (z t : Nat) (s : State) : Nat := wrap 24 (currentCode (zRange z s) (driven z t s))

/-! ### Range requests (R219, R221) -/

/-- The first tick at or after t, at a modulator cycle, at which the current in force lies within -l..l, as the pieces stand:
now, at the first cycle at which a running ramp lies within the limits, or never (R219). -/
def firstWithin (segs : List Seg) (l : Frac) (t : Nat) : Option Nat :=
  let c := cycleTick (cycleAfter t)
  let inside := fun u => !l.lt (commandedOf segs u).abs
  if inside c then some c
  else match segs.head? with
    | none => none
    | some g =>
      if g.d = 0 then none
      else
        let lim := if g.a.lt g.b then ((fracI 0).sub l) else l
        let span := g.b.sub g.a
        let num := (lim.sub g.a).num * span.den * g.d * 32
        let den := (lim.sub g.a).den * span.num
        let fine := 32 * g.at_ + (if den = 0 then 0 else ((num + (if den > 0 then den - 1 else 0)) / den).toNat)
        let u := max c (min (cycleTick (ceilDiv fine 500)) (cycleTick (cycleAfter (g.at_ + g.d))))
        if inside u then some u else none

/-- The tick at which the transfer window of port z opens, as the current stands: none where no change is pending, a window is open
or the current does not come within the limits (R219) (open corners: DEDUCED, log entry 39). -/
def windowTick (z : Nat) (s : State) : Option Nat :=
  let x := s.zp z
  if zPend z s = 3 ∨ x.window.isSome then none
  else firstWithin x.segs (overlap (zRange z s) (zPend z s)) x.reqAt

/-- Look for the opening of a transfer window from tick t on (R219). -/
def seekWindow (z t : Nat) (s : State) : State :=
  let s := s.setZp z { s.zp z with reqAt := t }
  match windowTick z s with
  | some u => s.later u (.zWindowOpen z)
  | none => s

/-- A request for range r at tick t (open corners: DEDUCED, log entry 39). -/
def rangeRequest (z r t : Nat) (s : State) : State :=
  let x := s.zp z
  match x.window with
  | some w =>
    if r = w.range then s
    else s.setZp z { x with window := some { w with abandon := true, after := if r = zRange z s then 3 else r } }
  | none => seekWindow z t (s.set (ZP_STATUS_PEND_RANGE z) (if zPend z s ≠ 3 ∧ r = zRange z s then 3 else r))

/-- A Park transfer window of sequence k is open at tick t (R228). -/
def ZPark.transfers (k : ZPark) (t : Nat) : Bool :=
  match k.open_ with | some o => o ≤ t && decide (t < o + 4000) | none => false

/-- An acting entry or sample names range r (0..3): judged as a range request, at the end of a Park transfer window if one is
open (R213, R228) (open corners: DEDUCED, log entry 88). -/
def nameRange (z r t : Nat) (s : State) : State :=
  let x := s.zp z
  if r = 3 then s
  else match x.park with
    | some k =>
      if k.transfers t then s.setZp z { x with park := some { k with after := r } }
      else if r = zTarget z s then s
      else rangeRequest z r t s
    | none => if r = zTarget z s then s else rangeRequest z r t s

/-- An entry or sample ends a Park sequence: during a Park ramp at once; during the transfer window the window runs on
(R228). -/
def endPark (z t : Nat) (s : State) : State :=
  let x := s.zp z
  match x.park with
  | none => s
  | some k =>
    if k.transfers t then s.setZp z { x with park := some { k with live := false, again := false } }
    else s.setZp z { x with park := none }

/-! ### Bias entries and stream samples (R78, R214, R215, R218) -/

/-- A new current acts on port z at tick t: a step (d = 0) or a ramp to i, with the range it names (open corners:
DEDUCED, log entry 39). -/
def bias (z d : Nat) (i : Frac) (r t : Nat) (s : State) : State :=
  let s := endPark z t s
  let start := commanded z t s
  let x := s.zp z
  let s := s.setZp z { x with segs := addSeg x.segs ⟨t, d, if d = 0 then i else start, i⟩ }
  let s := seekWindow z t (nameRange z r t s)
  let s := s.setB (ZP_STATUS_RAMPING z) (d > 0)
  if d > 0 then s.later (t + d) (.zRampEnd z t) else s

/-- The ramp of port z that began at tick `ramp` reaches its last tick t, unless something else has moved the current since
(R214). -/
def zRampEnd (z ramp t : Nat) (s : State) : State :=
  match (s.zp z).segs with
  | g :: _ =>
    if g.at_ = ramp ∧ ramp + g.d = t ∧ !((s.zp z).park.any fun k => k.live) then s.setB (ZP_STATUS_RAMPING z) false else s
  | [] => s

/-- A BIAS_SET or BIAS_RAMP entry of kind 2 or 3 fires on port z at its tick (R78, R214, R218) (open corners:
DEDUCED, log entry 39). -/
def fireBias (z : Nat) (e : Entry) (s : State) : State :=
  let t := e.tick
  let stream := s.on (ZP_CFG_ZB_MODE z)
  if stream || !s.on (ZP_STATUS_ACTIVE z) || s.on (ZP_STATUS_PARKED z) then
    let s := s.incSat (ZB_DISCARDS z)
    if stream then s.flagAlways (ZP_STATUS_MODE_CONFLICT z) (zEvent z 12) else s
  else
    let x := s.zp z
    let s := if x.lastAt = some t then
        let s := s.setZp z { x with segs := x.undo, window := x.undoWin, park := x.undoPark, reqAt := x.undoReq }
        (s.set (ZP_STATUS_PEND_RANGE z) x.undoPend).flagAlways (ZP_STATUS_BIAS_COLLISION z) (zEvent z 12)
      else s.setZp z { x with lastAt := some t, undo := x.segs, undoPend := zPend z s, undoWin := x.window, undoPark := x.park,
                              undoReq := x.reqAt }
    let code := sgn 24 e.a
    if e.kind = 2 then
      let r := bits e.a 24 2
      bias z 0 (codeCurrent (if r = 3 then zTarget z s else r) code) r t s
    else bias z (bits e.b 0 32) (codeCurrent (zTarget z s) code) 3 t s

/-- The sample of port z's stream that comes next: the first 4 bytes of its queue's head buffer, which stays until its last sample
is taken (R215); none where the queue is empty or its head message is not yet visible (R94, R217). -/
def nextSample (z t : Nat) (s : State) : Option Nat × State :=
  let q := s.get (ZP_STREAM_Q_QUEUE z)
  match (s.queue q).items with
  | [] => (none, s)
  | it :: rest =>
    if t < it.visible then (none, s)
    else if it.bytes.length ≤ 4 then (some (ofBytes it.bytes), (s.popHead q).2)
    else (some (ofBytes (it.bytes.take 4)), s.setQueue q { s.queue q with items := { it with bytes := it.bytes.drop 4 } :: rest })

/-- The stream sample instant of modulator cycle c at tick t (R215, R217) (DEDUCED, log entry 26). -/
def streamSample (z c t : Nat) (s : State) : State :=
  let x := s.zp z
  if x.stream = some c then
    let next := c + max 1 (s.get (ZP_CFG_STREAM_DIV z))
    let s := (s.setZp z { x with stream := some next }).later (cycleTick next) (.zStream z next)
    match nextSample z t s with
    | (none, s) => (s.incSat (ZB_UNDERRUNS z)).flagAlways (ZP_STATUS_UNDERRUN z) (zEvent z 12)
    | (some v, s) =>
      let r := bits v 24 2
      bias z 0 (codeCurrent (if r = 3 then zTarget z s else r) (sgn 24 v)) r t s
  else s

/-! ### Transfer windows (R219 to R221) -/

/-- Tick t, at which the current of port z may come within the limits of its pending change: where it does, the transfer window
opens (R219) (open corners: DEDUCED, log entry 39). -/
def openWindow (z t : Nat) (s : State) : State :=
  if windowTick z s = some t then
    let x := s.zp z
    let s := s.setZp z { x with window := some { opened := t, ends := t + 4000, range := zPend z s } }
    (s.setB (ZP_STATUS_TRANSFER z) true).later (t + 4000) (.zWindowEnd z t)
  else s

/-- Note a window that has ended, for the read-back. -/
def noteWindow (x : Zp) (a b : Nat) : Zp :=
  { x with window := none, windows := (a, b) :: x.windows.filter fun w => decide (w.2 + 100000 > b) }

/-- The transfer window w of port z ends (R219 step 4, R220, R221, R227) (open corners: DEDUCED, log entry 39;
DEDUCED, log entry 88). -/
def closeWindow (z : Nat) (w : ZWindow) (s : State) : State :=
  let x := s.zp z
  let s := (s.setZp z (noteWindow x w.opened (w.ends - 1))).setB (ZP_STATUS_TRANSFER z) false
  let s :=
    if w.abandon then s.set (ZP_STATUS_PEND_RANGE z) w.after
    else if (excursion x.segs (overlap (zRange z s) w.range) w.opened (w.ends - 1)).isSome then
      (s.incSat (ZB_DEFERRALS z)).flagAlways (ZP_STATUS_RANGE_DEFERRED z) (zEvent z 11)
    else (setZRange z w.range s).set (ZP_STATUS_PEND_RANGE z) 3
  seekWindow z w.ends s

/-! ### Park (R227, R228) -/

/-- The Park in progress keeps the Park Table values that port z shows now: PARK_CODE, PARK_RANGE, SLEW (R458)
(DEDUCED, log entry 88). -/
def latchPark (z : Nat) (s : State) : State :=
  s.setZp z { s.zp z with parkVal := (s.get (ZP_PARK_VAL_PARK_CODE z), s.get (ZP_PARK_VAL_PARK_RANGE z), s.get (ZP_PARK_SLEW z)) }

/-- Ticks of a move by i at the slew rate of the Park in progress (R228): nA/us, 0 acts as 1. -/
def slewTicks (z : Nat) (i : Frac) (s : State) : Nat :=
  let slew := max 1 (s.zp z).parkVal.2.2
  ((i.abs.scale 32000000 (2 ^ 23 * slew)).ceil).toNat

/-- R_p: PARK_RANGE, 3 acts as 2. -/
def parkRange (z : Nat) (s : State) : Nat := min 2 (s.zp z).parkVal.2.1

/-- I_p. -/
def parkCurrent (z : Nat) (s : State) : Frac := codeCurrent (parkRange z s) (sgn 24 (s.zp z).parkVal.1)

/-- Begin the sequence of R228 at tick t: the pieces of current are laid out ahead. -/
def startPark (z t : Nat) (s : State) : State :=
  let x := s.zp z
  let i0 := driven z t s
  let ip := parkCurrent z s
  let rp := parkRange z s
  let s := s.setB (ZP_STATUS_PARK_DONE z) false
  let s := s.set (ZP_STATUS_PEND_RANGE z) 3
  if rp = zRange z s then
    let d := slewTicks z (ip.sub i0) s
    let s := s.setZp z { x with segs := addSeg x.segs ⟨t, d, i0, ip⟩, window := none
                                park := some { from_ := t, range := rp, open_ := none, ix := ip, ends := t + d } }
    (s.setB (ZP_STATUS_RAMPING z) (d > 0)).later (t + d) (.zParkDone z t)
  else
    let ix := ip.clamp (overlap (zRange z s) rp)
    let d1 := slewTicks z (ix.sub i0) s
    let o := t + d1
    let d2 := slewTicks z (ip.sub ix) s
    let segs := addSeg (addSeg x.segs ⟨t, d1, i0, ix⟩) ⟨o + 4000, d2, ix, ip⟩
    let s := s.setZp z { x with segs := segs, window := none
                                park := some { from_ := t, range := rp, open_ := some o, ix := ix, ends := o + 4000 + d2 } }
    let s := s.setB (ZP_STATUS_RAMPING z) (d1 > 0)
    ((s.later o (.zParkOpen z t)).later (o + 4000) (.zParkEnd z t)).later (o + 4000 + d2) (.zParkDone z t)

/-- The Park transfer window that began its sequence at `from_` opens (R228). -/
def zParkOpen (z from_ : Nat) (s : State) : State :=
  match (s.zp z).park with
  | some k => if k.from_ = from_ then (s.setB (ZP_STATUS_TRANSFER z) true).setB (ZP_STATUS_RAMPING z) false else s
  | none => s

/-- The Park transfer window ends: R_p comes into force; then a further Park begins, the ramp to I_p runs on, or an entry's range
is judged (R227, R228) (open corners: DEDUCED, log entry 88) (DEDUCED, log entry 39). -/
def zParkEnd (z from_ t : Nat) (s : State) : State :=
  match (s.zp z).park with
  | some k =>
    if k.from_ = from_ then
      let o := match k.open_ with | some o => o | none => t
      let x := s.zp z
      let s := s.setZp z { noteWindow x o (t - 1) with park := if k.live then some { k with open_ := none } else none }
      let s := setZRange z k.range (s.setB (ZP_STATUS_TRANSFER z) false)
      if k.again then startPark z t s
      else if k.live then s.setB (ZP_STATUS_RAMPING z) (decide (k.ends > t))
      else if k.after = 3 ∨ k.after = k.range then s else rangeRequest z k.after t s
    else s
  | none => s

/-- The Park sequence that began at tick `from_` reaches I_p, unless an entry has ended it (R228) (open corners:
DEDUCED, log entry 88). -/
def zParkDone (z from_ : Nat) (s : State) : State :=
  match (s.zp z).park with
  | some k =>
    if k.from_ = from_ ∧ k.live ∧ !k.again then
      ((s.setZp z { s.zp z with park := none }).setB (ZP_STATUS_PARK_DONE z) true).setB (ZP_STATUS_RAMPING z) false
    else s
  | none => s

/-- Port z is one of a tile whose rails are good and whose Park Table has been applied: otherwise it is unpowered, or held at zero
current in range 2 and code 0 (R468). -/
def zFree (z : Nat) (s : State) : Bool := tilePowered (z / 96) s && !s.host.held.contains (z / 96)

/-- ZB of port z begins its Park sequence at tick t, or at the end of the transfer window that is open (R227) (open corners:
DEDUCED, log entry 39) (DEDUCED, log entry 88). -/
def beginPark (z t : Nat) (s : State) : State :=
  let s := (latchPark z s).setB (ZP_STATUS_PARK_DONE z) false
  let x := s.zp z
  match x.window with
  | some w => s.setZp z { x with window := some { w with abandon := true, after := 3, park := true } }
  | none =>
    match x.park with
    | some k =>
      if k.transfers t then s.setZp z { x with park := some { k with after := 3, again := true } }
      else startPark z t s
    | none => startPark z t s

/-- The Park request of a cause reaches Z port z at tick t (R227, R474) (open corners: DEDUCED, log entry 39). -/
def parkZ (z cause t : Nat) (s : State) : State :=
  let x := s.zp z
  if s.on (ZP_STATUS_PARKED z) then
    s.setZp z { x with causes := if x.causes.contains cause then x.causes else x.causes ++ [cause] }
  else
    let s := s.setZp z { x.clear with pend := [], stream := none, causes := [cause], parkAt := some t }
    let s := (s.setB (ZP_CTRL_EN z) false).setB (ZP_STATUS_ACTIVE z) false
    let s := s.set (ZP_PARK_PARK_CAUSE z) cause
    let s := s.flagAlways (ZP_STATUS_PARKED z) (zEvent z 8)
    if zFree z s then beginPark z t s else s

/-- The transfer window of port z that opened at tick `opened` ends at tick t; where a Park has abandoned it, ZB begins its sequence
(R219, R227) (open corners: DEDUCED, log entry 39). -/
def zWindowEnd (z opened t : Nat) (s : State) : State :=
  match (s.zp z).window with
  | some w =>
    if w.opened = opened then
      let s := closeWindow z w s
      if w.park then startPark z t s else s
    else s
  | none => s

/-- Some cause recorded for port z persists (R230). -/
def zCauseStands (z : Nat) (s : State) : Bool :=
  (s.zp z).causes.any fun c =>
    causeStands c (z / 96)
      (match c with
       | 1 => (s.zp z).fault
       | 2 => s.get (ZP_CFG_CRC z) != s.get (ZP_CFG_CRC_REF z)
       | 6 => true
       | 7 => s.on (ZP_STATUS_READBACK_FAULT z)
       | _ => false) s

/-- A write of 1 to PARKED (R230). -/
def zParkClear (z : Nat) (s : State) : State :=
  if zCauseStands z s then s
  else (s.setB (ZP_STATUS_PARKED z) false).setZp z { s.zp z with causes := [] }

/-- Release cause 6 of port z. -/
def zRelease (z : Nat) (s : State) : State := s.setZp z { s.zp z with causes := (s.zp z).causes.filter (· != 6) }

/-- The ZF driver of port z finds a short or overheating at tick t (R226). -/
def zFault (z t : Nat) (s : State) : State :=
  let s := s.setZp z { s.zp z with fault := true }
  parkZ z 1 t (s.flagAlways (ZP_STATUS_DRIVER_FAULT z) (zEvent z 9))

/-! ### Enable and disable (R208, R216) -/

/-- The stream settings break R216. -/
def streamBad (z : Nat) (s : State) : Bool :=
  let q := s.get (ZP_STREAM_Q_QUEUE z)
  s.on (ZP_CFG_ZB_MODE z)
    && (s.get (ZP_CFG_STREAM_DIV z) < 512 || s.get (ZP_CFG_STREAM_DIV z) > 128000 || q < 0x9800
        || s.owner q != nibble GLB_PART_ZP z s)

/-- A write of EN = 1 at tick t (R208) (open corners: DEDUCED, log entry 86). -/
def zEnable (z t : Nat) (s : State) : State :=
  if s.on (ZP_STATUS_PARKED z) || fenced (z / 96) s || streamBad z s then
    s.flagAlways (ZP_STATUS_EN_REFUSED z) (zEvent z 13)
  else
    let s := s.setZp z { s.zp z with pend := (s.zp z).pend ++ [t + 64] }
    (s.setB (ZP_CTRL_EN z) true).later (t + 64) (.zEnable z)

/-- EN takes effect at T_en, unless a Park came first (R208, R215, R227); a port that is unpowered or held stays as it is (R468)
(open corners: DEDUCED, log entry 86). -/
def zEnabled (z t : Nat) (s : State) : State :=
  let x := s.zp z
  if x.pend.contains t ∧ !zFree z s then s.setZp z { x with pend := x.pend.filter (· != t) }
  else if x.pend.contains t then
    let first := cycleAfter (max t (s.get (ZP_STREAM_AT z)))
    let stream := s.on (ZP_CFG_ZB_MODE z)
    let s := s.setZp z { x with pend := x.pend.filter (· != t), enAt := some t, stream := if stream then some first else none }
    let s := s.setB (ZP_STATUS_ACTIVE z) true
    if stream then s.later (cycleTick first) (.zStream z first) else s
  else s

/-- A disable takes effect (R208, R218). -/
def zDisabled (z : Nat) (s : State) : State :=
  (s.setZp z { s.zp z with stream := none }).setB (ZP_STATUS_ACTIVE z) false

/-! ### Read-back (R222 to R224) -/

/-- A read-back conversion of port z at tick t that measured m [FS/2,048] (R223, R224) (open corners: DEDUCED, log entry 40). -/
def readback (z t : Nat) (m : Int) (s : State) : State :=
  let x := s.zp z
  let from_ := t - 96000
  let parkWin := match x.park with
    | some k => (match k.open_ with | some o => o ≤ t && from_ < o + 4000 | none => false)
    | none => false
  let skip := x.window.isSome || parkWin || x.windows.any (fun w => from_ ≤ w.2)
    || (match x.parkAt with | some p => from_ ≤ p | none => false)
    || (match x.enAt with | some p => from_ ≤ p | none => false)
  if skip then s.incSat (RB_SKIPS z)
  else
    let unit : Nat := 2 ^ 12 * rangeStep (zRange z s)
    let r := commanded z (t - 32000) s
    let span := currentSpan x.segs from_ t
    let tol := fracI ((s.get (ZP_RB_CFG_TOL (z / 96)) * unit : Nat) : Int)
    let diff := ((fracI (m * unit)).sub r).abs
    if (tol.add (span.1.sub span.2)).lt diff then
      let s := s.incSat (RB_MISMATCHES z)
      let s := (s.setI (ZP_RB_LAST_M z) m).setI (ZP_RB_LAST_R z) (satI 12 (r.scale 1 unit).round)
      let s := s.setZp z { x with misses := x.misses + 1 }
      if x.misses + 1 ≥ max 1 (s.get (ZP_RB_CFG_N (z / 96))) then
        parkZ z 7 t (s.flagAlways (ZP_STATUS_READBACK_FAULT z) (zEvent z 10))
      else s
    else s.setZp z { x with misses := 0 }

/-! ### The fast path (R207 to R210) -/

/-- A calibration step of the ZF group of port z that does not skip it is in progress (R423). -/
def zfCalibrating (z : Nat) (s : State) : Bool :=
  match (s.cal (z / 96)).step with
  | some st => st.step == 40 + z % 96 / 16 && !st.skips.contains (z % 16)
  | none => false

/-- The gate of the ZF path passes the lane sum (R207, R423). -/
def zfGate (z : Nat) (s : State) : Bool := s.on (ZP_STATUS_ACTIVE z) && !zfCalibrating z s

/-- Forget what is all zero. -/
def trimZeros (xs : List Int) : List Int := if xs.all (· == 0) then [] else xs

/-- One sample x [2^-15] goes through the correction chain of port z: the four sections, their sum and the 32 taps (R209); each
product is rounded to units of 2^-47 (DESIGN CHOICE, log entry 9). -/
def zfChain (z : Nat) (x : Int) (s : State) : Zp :=
  let p := s.zp z
  let xi := x * 2 ^ 32
  let iir := (List.range 4).map fun k =>
    let old := p.iir.getD k 0
    old + roundTo 3 32 ((s.get (ZF_IIR_ALPHA z k) : Int) * (xi - old))
  let y := xi + ((List.range 4).map fun k => roundTo 4 16 (s.getI (ZF_IIR_A z k) * (xi - iir.getD k 0))).foldl (· + ·) 0
  let ys := y :: p.fir
  let q := ((List.range 32).map fun j => roundTo 5 16 (s.getI (ZF_FIR_H z j) * ys.getD j 0)).foldl (· + ·) 0
  { p with iir := trimZeros iir, fir := trimZeros (ys.take 31), q := q }

/-- The code of a chain output: floor(q x 8,192) held to 14 bits (R210). -/
def zfCode (q : Int) : Int := satI 14 (q / 2 ^ 34)

/-- The chain output lies outside -1.0 to 1.0 (R210). -/
def zfClips (q : Int) : Bool := decide (q ≥ 2 ^ 47 ∨ q < -2 ^ 47)

end Sys2Proof.Machine
end

