-- ==== Sys2Proof/Machine/Cal.lean ====
section
/-! DEFINITION. Calibration operations: requests, steps, selections (R423 to R428), and monitor triggers (R414). -/

namespace Sys2Proof.Machine

/-- Converter x beside its registers. -/
def State.mon (s : State) (x : Nat) : Mon := Tab.get {} s.mons x
/-- Replace converter x. -/
def State.setMon (s : State) (x : Nat) (m : Mon) : State := { s with mons := Tab.put {} s.mons x m }

/-- The last tick of what an entry that has fired put on its target (R425). -/
def entryEnd (e : Entry) (s : State) : Nat :=
  match e.kind with
  | 0 | 1 => ((laneOf e.target s).map (·.last)).foldl max e.tick
  | 4 => ((s.lau e.target).windows.map (·.e)).foldl max e.tick
  | _ => e.tick

/-- An entry for tile a is pending (R425). -/
def tilePending (a : Nat) (s : State) : Bool := (s.seqs.flatMap fun kq => kq.2.teqs.flatMap (·.2)).any (entryIn a)

/-- The sequencers whose Tun's partition holds a port or channel of tile a (R425). -/
def calSeqs (a : Nat) (s : State) : List Nat :=
  let parts := ((List.range 36).map fun j => targetPart .tone (8 * (36 * a + j)) s)
    ++ ((List.range 96).map fun j => targetPart .zlane (2304 + 96 * a + j) s)
    ++ ((List.range 128).map fun j => targetPart .lauter (128 * a + j) s)
  (List.range 512).filter fun k => parts.contains (seqPart k s)

/-- A calibration trigger of tile a at tick t (R424, R425): `cause` is that of CAL_STATE, plus 8 for IMMEDIATE (open corners:
DEDUCED, log entry 62). -/
def calRequest (a cause t : Nat) (s : State) : State :=
  if fenced a s then s
  else
    let x := s.cal a
    match s.get (CAL_STATE_STATE a) with
    | 0 =>
      let s := (s.set (CAL_STATE_STATE a) 1).set (CAL_STATE_CAUSE a) (cause % 8)
      let s := s.setCal a
        { x with reqAt := t, started := false, next := 0, offers := [], now_ := decide (8 ≤ cause), cancel := false }
      (calSeqs a s).foldl (fun s k => s.modSeq k fun q => { q with calReq := q.calReq.filter (· != a) ++ [a] }) s
    | 1 => if 8 ≤ cause then s.setCal a { x with now_ := true } else s
    | _ =>
      let again := if s.on (CAL_STATE_AGAIN a) && cause < 8 then x.again else cause
      (s.setB (CAL_STATE_AGAIN a) true).setCal a { x with again := again }

/-- Ryvex no longer requests calibration of tile a from any sequencer (R143, R425) (open corners: DEDUCED, log entry 62). -/
def calWithdraw (a : Nat) (s : State) : State :=
  (s.seqs.map (·.1)).foldl
    (fun s k => if (s.seq k).calReq.contains a then s.modSeq k fun q => { q with calReq := q.calReq.filter (· != a) } else s) s

/-- Kind and index of step n: 0 RFI, 1 RFO, 2 ZF group (R423). -/
def stepKind (n : Nat) : Nat × Nat := if n < 4 then (0, n) else if n < 40 then (1, n - 4) else (2, n - 40)
/-- Duration of step n [ticks] (R423). -/
def stepTicks (n : Nat) : Nat := if n < 4 then 120000 else if n < 40 then 40000 else 20000

/-- Elements of step n: one RFI, one RFO port or the 16 Z ports of a group (R423). -/
def stepElements (n : Nat) : Nat := if n < 40 then 1 else 16

/-- The elements of step n that are skipped, by their place in the step: parked, fenced or OFF (R423) (DEDUCED, log entry 62). -/
def stepSkips (a n : Nat) (s : State) : List Nat :=
  (List.range (stepElements n)).filter fun e => fenced a s ||
    match stepKind n with
    | (0, i) => rfiState (4 * a + i) s == 0
    | (1, j) => s.on (RFO_STATUS_PARKED (36 * a + j)) || rfoState (36 * a + j) s == psOff
    | (_, g) => s.on (ZP_STATUS_PARKED (96 * a + 16 * g + e))

/-- Every element of step n is skipped (R423). -/
def stepSkipped (a n : Nat) (s : State) : Bool := (stepSkips a n s).length == stepElements n

/-- The run of tile a ends: a completed run is recorded, then a trigger kept by AGAIN raises a new request (R424, R428) (open
corners: DEDUCED, log entry 62). -/
def calFinish (a t : Nat) (s : State) : State :=
  let s := calWithdraw a s
  let x := s.cal a
  let s := (s.set (CAL_STATE_STATE a) 0).set (CAL_STATE_CAUSE a) 0
  let s := s.inc (CAL_COUNT a)
  let s := s.set (CAL_LAST_TL a) t
  let s := s.set (CAL_LAST_NT a) (s.get NT_NOW / 2 ^ 32)
  let s := s.set (CAL_LAST_WRAPS a) (s.get NT_WRAPS)
  let s := s.set (CAL_T_REF a) x.temp0
  let s := s.setB (CAL_STATE_CAL_STALE a) false
  let s := s.setCal a { x with step := none, next := 0, offers := [], now_ := false, cancel := false, lastEnd := t }
  let s := s.flagAlways (CAL_STATE_DONE a) (864 + a)
  if s.on (CAL_STATE_AGAIN a) then calRequest a x.again t (s.setB (CAL_STATE_AGAIN a) false) else s

/-- The run of tile a is given up without being counted (R428, R476). -/
def calDrop (a : Nat) (s : State) : State :=
  let s := ((calWithdraw a s).set (CAL_STATE_STATE a) 0).set (CAL_STATE_CAUSE a) 0
  let s := s.setB (CAL_STATE_AGAIN a) false
  s.setCal a { s.cal a with step := none, next := 0, offers := [], now_ := false, cancel := false }

/-- Fencing of tile a: the request is dropped, and a run ends after no further step (R476). -/
def calFence (a : Nat) (s : State) : State :=
  match (s.cal a).step with
  | none => calDrop a s
  | some _ => (s.setB (CAL_STATE_AGAIN a) false).setCal a { s.cal a with cancel := true }

/-- The first step from n on whose element is not skipped, 46 for none (R423). -/
def calFirst (a n : Nat) (s : State) : Nat :=
  (((List.range 46).drop n).find? fun k => !stepSkipped a k s).getD 46

/-- Start step n of tile a at tick t (R423). -/
def calStart (a n t : Nat) (s : State) : State :=
  let x := s.cal a
  let s := match stepKind n with
    | (0, i) =>
      let i := 4 * a + i
      let open_ := (List.range 32).any fun m => (s.lau (32 * i + m)).windows.any fun w => w.w0 ≤ t && t < w.e
      let s := setRfiState i 4 t (s.setRfi i { s.rfi i with back := rfiState i s })
      if open_ then s.flag (RFI_STATUS_CAL_COLLISION i) (704 + i) else s
    | (1, j) =>
      let p := 36 * a + j
      setRfoState p psCal (s.setRfo p { s.rfo p with back := rfoState p s })
    | _ => s
  let s := s.set (CAL_STATE_STATE a) 2
  s.setCal a { x with step := some ⟨n, t, if n < 40 then [] else stepSkips a n s⟩, next := n, started := true,
                      temp0 := if x.started then x.temp0 else s.get (KILN_TILE_TEMP_T a) }

/-- The element of step n leaves CAL (R423). -/
def calBack (a : Nat) (st : CalStep) (t : Nat) (s : State) : State :=
  match stepKind st.step with
  | (0, i) => if rfiState (4 * a + i) s = 4 then setRfiState (4 * a + i) (s.rfi (4 * a + i)).back t s else s
  | (1, j) => if rfoState (36 * a + j) s = psCal then setRfoState (36 * a + j) (s.rfo (36 * a + j)).back s else s
  | _ => s

/-- Record a failed step (R427) (open corners: DESIGN CHOICE, log entry 63). -/
def calFail (a n : Nat) (timeout : Bool) (s : State) : State :=
  let k := stepKind n
  let s := s.incSat (CAL_FAILS a)
  let s := s.set (CAL_LAST_FAIL_KIND a) k.1
  let s := s.set (CAL_LAST_FAIL_INDEX a) k.2
  let s := s.setB (CAL_LAST_FAIL_TIMEOUT a) timeout
  s.flagAlways (CAL_STATE_CAL_FAIL a) (864 + a)

/-- Apply the outcome of a step: the elements outside limits, the choice among the good ones, the delay residual; a ZF port that was
skipped keeps its trims (R187, R188, R200, R239, R423, R427) (open corners: DESIGN CHOICE, log entry 63). -/
def calApply (a : Nat) (st : CalStep) (sel bad res : Nat) (s : State) : State :=
  let n := st.step
  match stepKind n with
  | (0, i) =>
    let i := 4 * a + i
    let s := s.set (RFI_SLICE_BAD i) bad
    if popcount 68 (sel % 2 ^ 68) = 64 ∧ sel &&& bad = 0 then
      ((((s.set (RFI_SLICE_SEL i) sel).setB (RFI_STATUS_SLICES_OK i) true).inc (RFI_CAL_EPOCH i)).setRfi i
        { s.rfi i with epochAt := s.now })
    else calFail a n false s
  | (1, j) =>
    let p := 36 * a + j
    let s := s.set (RFO_CELL_BAD p) bad
    if popcount 72 (sel % 2 ^ 72) = 63 ∧ sel &&& bad = 0 then
      (((s.set (RFO_CELL_SEL p) sel).setB (RFO_STATUS_CELLS_OK p) true).set (RFO_DELAY_RES p) res).inc (RFO_CAL_EPOCH p)
    else calFail a n false s
  | (_, g) =>
    if bad = 0 then
      ((List.range 16).filter fun e => !st.skips.contains e).foldl
        (fun s e => s.setCal a { s.cal a with trims := Tab.put 0 (s.cal a).trims (16 * g + e) sel }) s
    else calFail a n false s

/-- A step of tile a has ended at tick t: the element goes back, and the run goes on, completes or is given up (R423, R428) (open
corners: DEDUCED, log entry 62). -/
def calNext (a : Nat) (st : CalStep) (t : Nat) (s : State) : State :=
  let s := calBack a st t s
  let x := s.cal a
  if x.cancel then calDrop a s
  else if st.step + 1 ≥ 46 then calFinish a t s
  else s.setCal a { x with step := none, next := st.step + 1 }

/-- The stored selection of element n of tile a, 0..3 its RFIs, 4..39 its RFO ports, 40..135 its Z ports; where the tile never
stored one, the lowest elements (DESIGN CHOICE, log entry 10). -/
def calStored (a n : Nat) (s : State) : Nat :=
  match Tab.find? (s.cal a).stored n with
  | some v => v
  | none => if n < 4 then 2 ^ 64 - 1 else if n < 40 then 2 ^ 63 - 1 else 0

/-- Ryvex loads the stored selections of tile a from the Cellar (R188, R239, R470) (DESIGN CHOICE, log entry 10). -/
def calLoad (a : Nat) (s : State) : State :=
  (List.range 46).foldl
    (fun s n =>
      if (s.cal a).bad.contains n then s.event 16 (a + 256 * (stepKind n).1)
      else match stepKind n with
        | (0, i) => (s.set (RFI_SLICE_SEL (4 * a + i)) (calStored a n s)).setB (RFI_STATUS_SLICES_OK (4 * a + i)) true
        | (1, j) => (s.set (RFO_CELL_SEL (36 * a + j)) (calStored a n s)).setB (RFO_STATUS_CELLS_OK (36 * a + j)) true
        | (_, g) => (List.range 16).foldl
            (fun s e => s.setCal a { s.cal a with trims := Tab.put 0 (s.cal a).trims (16 * g + e) (calStored a (40 + 16 * g + e) s) }) s) s

/-- CAL_STORE: the present selections of tile a go to the Cellar (R429). -/
def calStore (a : Nat) (s : State) : State :=
  let sel := fun n => if n < 4 then s.get (RFI_SLICE_SEL (4 * a + n))
    else if n < 40 then s.get (RFO_CELL_SEL (36 * a + (n - 4)))
    else Tab.get 0 (s.cal a).trims (n - 40)
  let has := fun n => match stepKind n with
    | (0, i) => s.on (RFI_STATUS_SLICES_OK (4 * a + i))
    | (1, j) => s.on (RFO_STATUS_CELLS_OK (36 * a + j))
    | _ => true
  s.setCal a { s.cal a with
    stored := (List.range 136).map fun n => (n, sel n), bad := (List.range 46).filter fun n => !has n }

/-- Ticks for which a tile must have been idle (R425). -/
def idleTicks : Nat := 400000

/-- The tick at which a step of `dur` ticks of tile a may start: at once under IMMEDIATE, in an offered interval that holds it, or
in an idle gap, whichever comes first (R425) (open corners: DEDUCED, log entry 62). -/
def calWhen (a dur : Nat) (s : State) : Option Nat :=
  let x := s.cal a
  if x.now_ then some s.now
  else
    let offered := (x.offers.filter fun o => max s.now o.1 + dur ≤ o.2).map fun o => max s.now o.1
    let idle := if tilePending a s then [] else [max s.now (x.busyTo + idleTicks)]
    (offered ++ idle).min?

/-! ### Monitor converters (R412 to R416) -/

/-- The test DAC of converter x drives input i (R416) (open corners: DEDUCED, log entry 64). -/
def tdacOn (x i : Nat) (s : State) : Bool :=
  (s.get (MON_TDAC_MODE x) == 1 || s.get (MON_TDAC_MODE x) == 2) && s.get (MON_TDAC_TD_INPUT x) == i

/-- Input i of converter x is listed (R412). -/
def inputListed (x i : Nat) : Bool := i == 63 || decide (i < if x < 8 then 47 else 12)

/-- The first 2,000-tick slot at or after t that converter x may use for a request: on an environment converter slots 0..3 of each
frame belong to the bridges (R413, R418) (open corners: DEDUCED, log entry 64). -/
def slotAt (x t : Nat) : Nat :=
  let u := (t + 1999) / 2000 * 2000
  if 8 ≤ x ∧ u / 2000 % 8 < 4 then u / 16000 * 16000 + 8000 else u

/-- The slot in which converter x starts its next sequence entry, with the entry and the tick at which it fired: entries that have
fired by the slot's start, the lowest j first (R413, R414) (open corners: DEDUCED, log entry 64). -/
def monNext (x : Nat) (s : State) : Option (Nat × Nat × Nat) :=
  let m := s.mon x
  match (m.waiting.map (·.2)).min? with
  | none => none
  | some first =>
    let t := slotAt x (max m.freeAt first)
    match ((m.waiting.filter fun w => w.2 ≤ t).map (·.1)).min? with
    | none => none
    | some j => (m.waiting.find? fun w => w.1 == j).map fun w => (j, w.2, t)

/-- A conversion of the bridge channels runs on converter x at the present tick: a channel that was enabled by the start of its slot
(R418) (DEDUCED, log entry 64). -/
def bridgeBusy (x : Nat) (s : State) : Bool :=
  let k := s.now / 2000 % 8
  let n := 4 * (x - 8) + k
  decide (8 ≤ x) && decide (k < 4) && s.on (BRG_CTRL_EN n) && decide ((Tab.get {} s.brgs n).since ≤ s.now / 2000 * 2000)

/-- Converter x is converting (MON_SAR_STATUS.BUSY): for a sequence entry, a read-back, an excitation check or a bridge channel
(DEDUCED, log entry 64). -/
def monBusy (x : Nat) (s : State) : Bool :=
  (decide (s.now < (s.mon x).freeAt) && decide ((s.mon x).freeAt ≤ s.now + 2000)) || bridgeBusy x s

/-! ### Monitor triggers (R414) -/

/-- Entry j of converter x is to fire at tick t. -/
def monDue (x j t : Nat) (s : State) : State :=
  let m := s.mon x
  s.setMon x { m with fires := Tab.put [] m.fires j (Tab.get [] m.fires j ++ [t]) }

/-- Something that fires entries with trigger code `trig` and source `src` happens at tick t: they fire DELAY later. -/
def monTrigger (trig src t : Nat) (s : State) : State :=
  if s.on MON_CTRL_EN then
    (List.range 80).foldl
      (fun s n =>
        let x := n / 8
        let j := n % 8
        if s.get (MON_SEQ_TRIG x j) = trig ∧ s.get (MON_SEQ_SRC x j) = src then monDue x j (t + s.get (MON_SEQ_DELAY x j)) s
        else s) s
  else s

/-- The next Timeline value at which entry j of converter x fires (R414): for PERIOD the first multiple of DELAY, from the present tick
on, at which it has not fired (DEDUCED, log entry 64). -/
def monTimed (x j : Nat) (s : State) : Option Nat :=
  match s.get (MON_SEQ_TRIG x j) with
  | 1 =>
    let d := s.get (MON_SEQ_DELAY x j)
    if d = 0 then none
    else
      let t := (s.now + (d - 1)) / d * d
      some (if (s.mon x).done.contains (j, t) then t + d else t)
  | 2 =>
    let t := s.get (MON_SEQ_AT x j)
    if t < s.now ∨ (s.mon x).done.contains (j, t) then none else some t
  | _ => none

/-- The next tick at which entry j of converter x fires: a Timeline value, or a trigger's tick plus DELAY (R414)
(DEDUCED, log entry 64). -/
def monFires (x j : Nat) (s : State) : Option Nat :=
  match s.get (MON_SEQ_TRIG x j) with
  | 3 | 4 => (Tab.get [] (s.mon x).fires j).head?
  | _ => monTimed x j s

/-- The firing of entry j of converter x at tick t is taken from what waits to fire. -/
def monTaken (x j t : Nat) (s : State) : State :=
  let m := s.mon x
  if s.get (MON_SEQ_TRIG x j) ≤ 2 then s.setMon x { m with done := (j, t) :: m.done.filter (·.1 != j) }
  else s.setMon x { m with fires := Tab.put [] m.fires j ((Tab.get [] m.fires j).drop 1) }

/-- Entry j of converter x fires at tick t: it requests a conversion, in the place of a request of its own that has not started
(R414). -/
def monRequest (x j t : Nat) (s : State) : State :=
  let m := s.mon x
  let again := m.waiting.any fun w => w.1 == j
  let s := s.setMon x { m with waiting := m.waiting.filter (·.1 != j) ++ [(j, t)] }
  if again then (s.incSat (MON_OVERRUNS x)).flag (MON_SAR_STATUS_OVERRUN x) 856 else s

/-- Entry j of converter x fires at tick t (R414) (DEDUCED, log entry 64). -/
def monFire (x j t : Nat) (s : State) : State := monRequest x j t (monTaken x j t s)

/-- Converter x starts the conversion whose slot has come (R413) (DEDUCED, log entry 64). -/
def monStart (x : Nat) (s : State) : State :=
  match monNext x s with
  | none => s
  | some (j, fire, t) =>
    let m := s.mon x
    s.setMon x { m with
      waiting := m.waiting.filter (·.1 != j)
      begun := m.begun ++ [{ entry := j, fire := fire, at_ := t, input := s.get (MON_SEQ_INPUT x j) }]
      freeAt := t + 2000 }

/-- Firings that time brings about: tick, converter, entry (R414). -/
def monFirings (s : State) : List (Nat × Nat × Nat) :=
  if s.on MON_CTRL_EN then
    (List.range 80).filterMap fun n => (monFires (n / 8) (n % 8) s).map fun t => (t, n / 8, n % 8)
  else []

/-- Conversions that time starts: tick, converter (R413). -/
def monStarts (s : State) : List (Nat × Nat) := s.mons.filterMap fun m => (monNext m.1 s).map fun n => (n.2.2, m.1)

/-- How often entries can fire by tick t. -/
def monCount (t : Nat) (s : State) : Nat :=
  let waits := s.mons.foldl (fun n m => n + m.2.waiting.length + m.2.fires.foldl (fun n f => n + f.2.length) 0) 0
  waits + if s.on MON_CTRL_EN then
    (List.range 80).foldl (fun n e => n + 1 + (t - s.now) / max 1 (s.get (MON_SEQ_DELAY (e / 8) (e % 8)))) 0 else 0

end Sys2Proof.Machine
end

