-- ==== Sys2Proof/Machine/Fence.lean ====
section
/-! DEFINITION. Fencing a tile, its analog supplies, Park of many ports (R21, R80, R231, R468, R475, R476). -/

namespace Sys2Proof.Machine

/-- RFO ports of tile a. -/
def tileRfos (a : Nat) : List Nat := (List.range 36).map (36 * a + ·)
/-- Z ports of tile a. -/
def tileZps (a : Nat) : List Nat := (List.range 96).map (96 * a + ·)

/-- Park every port of tile a with a cause (R196, R227). -/
def parkTile (a cause t : Nat) (s : State) : State :=
  (tileZps a).foldl (fun s z => parkZ z cause t s) ((tileRfos a).foldl (fun s p => parkRfo p cause t s) s)

/-- Park every port of the device with a cause. -/
def parkAll (cause t : Nat) (s : State) : State := (List.range 8).foldl (fun s a => parkTile a cause t s) s

/-- Z port z loses its supply: its current falls to zero (R231) (DEDUCED, log entry 72). -/
def zSupplyOff (z t : Nat) (s : State) : State :=
  let x := s.zp z
  let s := s.setZp z
    { x with segs := [⟨t, 0, fracI 0, fracI 0⟩], window := none, park := none, stream := none, pend := [], iir := [], fir := [], q := 0 }
  let s := setZRange z 2 (s.set (ZP_STATUS_PEND_RANGE z) 3)
  let s := (s.setB (ZP_STATUS_TRANSFER z) false).setB (ZP_STATUS_RAMPING z) false
  (s.setB (ZP_STATUS_ACTIVE z) false).setB (ZP_STATUS_PARK_DONE z) false

/-- The analog supplies of tile a are off and its enables low (R231, R490): RFO ports and RFIs OFF, ZB currents at zero. -/
def tileOff (a t : Nat) (s : State) : State :=
  let s := { s with host := { s.host with
    powered := s.host.powered.filter (· != a), enTiles := s.host.enTiles.filter (· != a) } }
  let s := (tileRfos a).foldl
    (fun s p => setRfoState p psOff (closeGate p t (s.setRfo p { s.rfo p with back := psOff }))) s
  let s := (List.range 4).foldl (fun s i => setRfiState (4 * a + i) 0 t s) s
  let s := (tileZps a).foldl (fun s z => zSupplyOff z t s) s
  deriveReady s

/-- Pending entries for tile a leave sequencer k's queues, and every shot that owned one is aborted; the open shot takes the
fault FENCED_TARGET (R80, R252). -/
def fenceSeq (a k t : Nat) (s : State) : State :=
  let gone := (allEntries k s).filter (entryIn a)
  if gone.isEmpty then s
  else
    let owners := (inFlight k s).filter fun n => gone.any fun e => e.shot == n
    let openHit := (s.seq k).shotOpen && owners.contains (s.get (SEQ_SHOT k))
    let s := discardEntries k (entryIn a) t (fun _ => false) s
    let s := abortShots k (owners.filter fun n => !(openHit && n == s.get (SEQ_SHOT k))) t s
    if openHit then abortTrap k .fault 0x06 (presentUpc k s) (presentCommits k s) t s else s

/-- Fence tile a at tick t for a cause of R475; `off` switches its analog supplies off at once (R21, R231, R476) (open corners:
DEDUCED, log entry 72). -/
def fenceTile (a cause : Nat) (off : Bool) (t : Nat) (s : State) : State :=
  if fenced a s then (if off && tilePowered a s then tileOff a t s else s)
  else
    let s := s.set GLB_STATUS_FENCED (s.get GLB_STATUS_FENCED ||| 2 ^ a)
    let s := { s with fences := Tab.put 0 s.fences a (cause + 256 * t) }
    let s := s.event 12 (a + 256 * cause)
    let s := parkTile a 5 t s
    let s := (List.range 512).foldl (fun s k => fenceSeq a k t s) s
    let s := (List.range 128).foldl (fun s c => lauFence (128 * a + c) t s) s
    let s := (List.range 4).foldl (fun s i => tapFence (4 * a + i) t s) s
    let s := (List.range 4).foldl (fun s i => rfiFence (4 * a + i) t s) s
    let s := calFence a s
    if off then tileOff a t s else s

end Sys2Proof.Machine
end

