-- ==== Sys2Proof/Machine/Micro.lean ====
section
/-! DEFINITION. Recipe microwords: the Recipe Store, which routines run by it, what a microword's end does (R130 to R137, R142). -/

namespace Sys2Proof.Machine

/-! ### Microwords (R132 to R137) -/

/-- Micro-opcode of a microword (R132). -/
def uopOf (w : Nat) : Nat := bits w 58 6
/-- COMMIT of a microword. -/
def uCommit (w : Nat) : Bool := w.testBit 35
/-- LAST of a microword. -/
def uLast (w : Nat) : Bool := w.testBit 34

/-- Change the micro-state of sequencer k. -/
def modMicro (k : Nat) (f : Micro → Micro) (s : State) : State := s.modSeq k fun q => { q with micro := f q.micro }

/-- A fault of the microword in execution, at tick t (R149, R150); from a trap routine it names the interrupted microword. -/
def microFault (k code t : Nat) (s : State) : State :=
  let m := (s.seq k).micro
  abortTrap k .fault code (if m.trap.isSome then bits ((s.seq k).shadow.headD 0) 0 14 else m.upc) m.commits t s

/-- The instruction of a routine of microwords retires at tick t (R135); an abort routine that a patch has written ends so, and the
fault code and ON_ABORT take effect (R149; DEDUCED, log entry 16). -/
def microRetire (k t : Nat) (s : State) : State :=
  let m := (s.seq k).micro
  match (s.seq k).abort with
  | some a =>
    abortEnd k t (s.modSeq k fun q => { q with readyAt := t, abort := some { a with ends := t }, micro := { q.micro with active := false } })
  | none =>
    let s := modMicro k (fun m => { m with active := false, nextPc := none, halt := false, commits := 0, past := m.commits }) s
    let s := match m.nextPc with | some pc => retireTo k pc t s | none => retire k t s
    if m.halt then setSeqState k stHalted s else s

/-- Go to micro-address a in the cycle that begins at tick t. -/
def microGoto (k a t : Nat) (s : State) : State :=
  s.modSeq k fun q => { q with readyAt := t, micro := { q.micro with upc := a } }

/-- The microword w of sequencer k has completed at tick t: its COMMIT is counted, and it retires the instruction or is
followed by the next micro-address (R134, R135, R137). -/
def microAfter (k w t : Nat) (s : State) : State :=
  let s := if uCommit w then modMicro k (fun m => { m with commits := m.commits + 1 }) s else s
  if uLast w then microRetire k t s
  else
    let a := (s.seq k).micro.upc
    if a ≥ 0x3FFF then microFault k 0x41 t s else microGoto k (a + 1) t s

/-! ### TAU results (R59, R139, R142) -/

/-- Put a TAU result p0, p1 where it belongs: TSCL into bits [31:16] of its destination, TMUL2 into TAUR0 and TAUR1. -/
def tauPut (k dest : Nat) (tscl : Bool) (p0 p1 : Nat) (s : State) : State :=
  if !tscl then modMicro k (fun m => { m with taur0 := p0, taur1 := p1 }) s
  else if dest ≤ 0x07 then modMicro k (fun m => { m with u := m.u.set dest (putBits (m.u.getD dest 0) 16 16 p0) }) s
  else if dest ≤ 0x17 then setGreg k (dest - 8) (putBits (greg k (dest - 8) s) 16 16 p0) s
  else match dest with
    | 0x20 => modMicro k (fun m => { m with e0 := putBits m.e0 16 16 p0 }) s
    | 0x21 => modMicro k (fun m => { m with e1 := putBits m.e1 16 16 p0 }) s
    | _ => modMicro k (fun m => { m with e2 := putBits m.e2 16 16 p0 }) s

/-- The same in the saved copy of the shadow (R142, R148). -/
def tauShadow (dest : Nat) (tscl : Bool) (p0 p1 : Nat) (w : List Nat) : List Nat :=
  let put := fun n => w.set n (putBits (w.getD n 0) 16 16 p0)
  if !tscl then (w.set 14 p0).set 15 p1
  else if dest ≤ 0x07 then put (1 + dest)
  else if 0x20 ≤ dest ∧ dest ≤ 0x22 then put (10 + (dest - 0x20)) else w

/-- A non-abort trap of sequencer k is taken: its micro-state stands in the shadow. -/
def shadowed (k : Nat) (s : State) : Bool :=
  let q := s.seq k
  q.micro.trap.isSome || seqState k s == stTrapped || match q.stall with
    | some (.teqFull _) => true
    | some .credit => true
    | _ => false

/-- The TAU results of sequencer k that are due at tick t land, in issue order; while a trap routine or its stall runs, in the
saved copy (R142) and, for image 2.4's own routines, in the state that the return restores. -/
def landTau (k t : Nat) (s : State) : State :=
  let q := s.seq k
  let due := q.micro.tau.filter fun r => r.1 ≤ t
  let s := modMicro k (fun m => { m with tau := m.tau.filter fun r => t < r.1 }) s
  due.foldl
    (fun s r =>
      match r with
      | (_, dest, tscl, p0, p1) =>
        let s := if shadowed k s then s.modSeq k fun q => { q with shadow := tauShadow dest tscl p0 p1 q.shadow } else s
        if q.micro.trap.isSome ∧ (!tscl ∨ dest ≤ 0x07 ∨ 0x17 < dest) then s else tauPut k dest tscl p0 p1 s) s

/-! ### The shadow (R148) -/

/-- The 17 words of the shadow at trap `trap`, taken at tick t (R148). -/
def shadowWords (k trap t : Nat) (s : State) : List Nat :=
  let m := (s.seq k).micro
  let tau := m.tau.take 2
  let dest := fun (r : Nat × Nat × Bool × Nat × Nat) => r.2.1
  let w13 := satN 8 m.commits + tau.length * 2 ^ 8
    + ((tau.map fun r => min 3 ((r.1 - t + 1) / 2)).headD 0) * 2 ^ 10
    + ((tau.map dest).headD 0 % 64) * 2 ^ 12 + ((tau.map dest).getD 1 0 % 64) * 2 ^ 18
    + b2n ((tau.map fun r => r.2.2.1).headD false) * 2 ^ 24 + b2n ((tau.map fun r => r.2.2.1).getD 1 false) * 2 ^ 25
  [m.upc + (8 * b2n m.uz + 4 * b2n m.un + 2 * b2n m.uc + b2n m.uv) * 2 ^ 14 + b2n m.mretOk * 2 ^ 18
      + m.mret * 2 ^ 32 + trap * 2 ^ 48]
    ++ m.u ++ [fetchWord k s, m.e0, m.e1, m.e2, w13, m.taur0 % 2 ^ 36, m.taur1 % 2 ^ 36, t]

/-- The micro-state that a return from a trap restores from the shadow (R148). -/
def Micro.restore (w : List Nat) (m : Micro) : Micro :=
  let w0 := w.headD 0
  { m with
      upc := bits w0 0 14, uz := w0.testBit 17, un := w0.testBit 16, uc := w0.testBit 15, uv := w0.testBit 14,
      mretOk := w0.testBit 18, mret := bits w0 32 14, u := (w.drop 1).take 8,
      e0 := w.getD 10 0, e1 := w.getD 11 0, e2 := w.getD 12 0, commits := bits (w.getD 13 0) 0 8,
      taur0 := w.getD 14 0, taur1 := w.getD 15 0 }

/-- n values of 64 bits that the spec leaves open (DESIGN CHOICE, log entry 3). -/
def freeWords (n : Nat) (s : State) : List Nat × State :=
  ((List.range n).map fun i => Config.freeValue (s.free + i) % 2 ^ 64, { s with free := s.free + n })

/-- The trap shadow of trap `trap` taken at tick t from a routine of image 2.4, in the layout of R148.  Micro-address, trap number,
IR, the TAU results in flight and the tick are known, and what the routine has staged by R141 (`known`: word and value); `open_`
says that the rest of the micro-state is not, since the spec lists no such routine but PLAY's: free values
(DESIGN CHOICE, log entry 98). -/
def ruleShadow (k trap upc t : Nat) (open_ : Bool) (known : List (Nat × Nat)) (s : State) : State :=
  let w := shadowWords k trap t (modMicro k (fun m => { m with upc := upc, commits := 0 }) s)
  let f := freeWords 17 s
  let x := f.1
  let x := x.set 0 (upc + bits (x.headD 0) 14 5 * 2 ^ 14 + bits (x.headD 0) 32 14 * 2 ^ 32 + trap * 2 ^ 48)
  let x := (x.set 9 (fetchWord k s)).set 13 (w.getD 13 0)
  let x := ((x.set 14 (x.getD 14 0 % 2 ^ 36)).set 15 (x.getD 15 0 % 2 ^ 36)).set 16 t
  let r := if open_ then (x, f.2) else (w, s)
  r.2.modSeq k fun q => { q with shadow := known.foldl (fun w x => w.set x.1 x.2) r.1 }

/-- What a routine of image 2.4 has staged for an entry as it tries to write it (R141, R148) (DESIGN CHOICE, log entry 98). -/
def stagedWords (k : Nat) (w : HeldWrite) (s : State) : List (Nat × Nat) :=
  let e0 := bits w.fine 0 5 * 2 ^ 40 + w.kind * 2 ^ 45 + k * 2 ^ 49
  let e1 := w.target + (s.get (SEQ_SHOT k) % 65536) * 2 ^ 16 + w.a * 2 ^ 32
  (if w.kind = 0 then [(1, w.b)] else []) ++ [(10, e0), (11, e1)]

/-- A routine of microwords begins at the entry vector of opcode op (R135, R137).  After an instruction of image 2.4 whose routine the
spec does not list, what it left in the micro-state is not known: free values (DESIGN CHOICE, log entry 98). -/
def microBegin (k op t : Nat) (s : State) : State :=
  let f := freeWords 16 s
  let s := if (s.seq k).micro.stale then
      f.2.modSeq k fun q => { q with micro := { q.micro.restore (f.1.take 13 ++ [0] ++ f.1.drop 13) with stale := false } }
    else s
  s.modSeq k fun q =>
    { q with readyAt := t,
             micro := { q.micro with active := true, upc := op, commits := 0, nextPc := none, halt := false, trap := none } }

/-- The loaded routine of trap n of sequencer k begins at tick t, and its return will go back to `r` (R143, R148). -/
def trapBegin (k n : Nat) (r : Resume) (t : Nat) (s : State) : State :=
  unstall k t (modMicro k (fun m => { m with active := true, upc := 0x100 + n, trap := some n, resume := r }) s)

/-- The micro-condition of a microword (R133) (open corners: DEDUCED, log entry 34). -/
def uCond (q : Seq) (w c : Nat) : Bool :=
  let m := q.micro
  match c with
  | 0 => true | 1 => m.uz | 2 => !m.uz | 3 => m.un | 4 => !m.un | 5 => m.uc | 6 => !m.uc | 7 => m.uv | 8 => !m.uv
  | 9 => w.testBit 48 | 10 => w.testBit 49 | 11 => w.testBit 50 | 12 => w.testBit 51
  | 13 => condHolds q (bits w 52 4) | 14 => m.resval.testBit 0 | _ => false

/-- The first TAU request that the microwords of sequencer j from micro-address a on make, the first of them in the cycle that
begins at tick t: the cycle of the request.  Micro-conditions are taken as they stand (DEDUCED, log entry 32). -/
def microTau (j : Nat) : Nat → Nat → Nat → State → Option Nat
  | 0, _, _, _ => none
  | n + 1, a, t, s =>
    let mw := microword j a s
    let uop := uopOf mw
    if !uCond (s.seq j) (fetchWord j s) (bits mw 36 4) then microTau j n (a + 1) (t + 2) s
    else if uop = 0x2B ∨ uop = 0x2C then some t
    else if uLast mw then none
    else if uop = 0x01 then (if condHolds (s.seq j) (bits (fetchWord j s) 52 4) then microTau j n (bits mw 0 14) (t + 2) s else none)
    else if uop = 0x02 ∨ uop = 0x03 then microTau j n (bits mw 0 14) (t + 2) s
    else microTau j n (a + 1) (t + 2) s

end Sys2Proof.Machine
end

