-- ==== Sys2Proof/Machine/Triggers.lean ====
section
/-! DEFINITION. Trigger sources (R46) and what a fired source does: stalled WAITTRIGs, Tap units, monitor entries, MIRROR
pins; the virtual indices of the Cycle Angle tracker (R49); and the end of the ALIGN_ANGLE stalls when it locks (R53, R114). -/

namespace Sys2Proof.Machine

/-- The micro-op a sequencer stalls in completes in the cycle that begins at tick t (R139). -/
def microDone (k t : Nat) (f : Micro → Micro) (s : State) : State :=
  let s := unstall k t s
  let s := s.modSeq k fun q => { q with micro := f q.micro }
  microAfter k (microword k (s.seq k).micro.upc s) (t + 2) s

/-- The CAL_REQUEST routine of sequencer k, taken at tick at_ - 4, returns (R143). -/
def trapReturn (k at_ : Nat) (s : State) : State :=
  if seqState k s = stTrapped ∧ (s.seq k).readyAt = at_ ∧ (s.seq k).abort.isNone then setSeqState k stRunning s else s

/-- Source `code` reaches sequencer k at tick t, with its stamp: a WAITTRIG armed on it sets the cursor and retires one cycle
later (R114).  An edge seen at the very tick at which the instruction armed does not come after arming (open corners:
DEDUCED, log entry 96).  A routine of microwords that has armed keeps the first edge for its TWAIT (DESIGN CHOICE, log entry 98). -/
def wakeTrig (code stamp t k : Nat) (s : State) : State :=
  match (s.seq k).stall with
  | some (.trig src offset) =>
    if src = code ∧ (s.seq k).since < t then
      let s := modMicro k (fun m => { m with tstamp := stamp }) (unstall k t s)
      retire k (t + 2) (raiseCursor k (ceilDiv stamp 32 + offset) s)
    else s
  | some (.micro uop src) =>
    if uop = 0x34 ∧ src = code ∧ (s.seq k).since < t then microDone k t (fun m => { m with tstamp := stamp }) s else s
  | none =>
    let m := (s.seq k).micro
    if m.active ∧ m.edgeSrc = some code ∧ m.edge.isNone ∧ m.armed < t then
      s.modSeq k fun q => { q with micro := { q.micro with edge := some stamp } }
    else s
  | _ => s

/-- Pins that repeat source `code` (R43, R45). -/
def mirrorPins (code t : Nat) (s : State) : State :=
  (List.range 22).foldl
    (fun s n =>
      if s.on TL_CTRL_EN && s.get (TL_PIN_CFG_DIR n) == 1 && s.get (TL_PIN_CFG_OUT_SRC n) == 2
          && s.get (TL_PIN_CFG_SEL n) == code then
        s.emit (.pinMirror n (fineStamp ((32 * (t + 16) : Nat) - pinComp n s)))
      else s) s

/-- Trigger source `code` fires: its stamp [fine ticks], and the tick at which its consumers see it (R42, R46) (open corners:
DEDUCED, log entry 22). -/
def fireSource (code stamp t : Nat) (s : State) : State :=
  let s := s.seqs.foldl (fun s kq => wakeTrig code stamp t kq.1 s) s
  let s := tapSource code stamp s
  let s := monTrigger 4 code t s
  mirrorPins code t s

/-! ### The Cycle Angle tracker (R47 to R49) -/

/-- The tracker runs (R47, R57). -/
def caOn (s : State) : Bool := s.on TL_CTRL_EN && s.get TL_CA_CFG_MODE != 0

/-- Change the tracker. -/
def modAngle (f : Angle → Angle) (s : State) : State := { s with tl := { s.tl with angle := f s.tl.angle } }

/-- LOCKED is cleared (R49). -/
def caUnlock (s : State) : State := ((markAngle s.now s).setB TL_CA_STATUS_LOCKED false).event 107

/-- The first tick with T - T_idx > P (1 + TOL / 65,536) (R49). -/
def caMissTick (s : State) : Nat :=
  (65536 * s.tl.angle.tIdx + s.get TL_CA_PERIOD * (65536 + s.get TL_CA_TOL_TOL)) / (256 * 65536) + 1

/-- The tick at which the next index is missed: none while the tracker does not run or has not set P (R48, R49). -/
def caMissAt (s : State) : Option Nat :=
  if caOn s && s.tl.angle.started && s.tl.angle.pSet then some (max s.now (caMissTick s)) else none

/-- An index is missed at tick t: a virtual one is placed at T_idx + P (R48, R49).  Source 32 fires at the tick at which the miss is
found (open corners: DEDUCED, log entry 95) (DESIGN CHOICE, log entry 2). -/
def caMiss (t : Nat) (s : State) : State :=
  let p := s.get TL_CA_PERIOD
  let n := s.tl.angle.misses + 1
  let was := angleBefore s t
  let s := markAngle t s
  let s := modAngle (fun a => { a with tIdx := a.tIdx + p, misses := n, good := 0, changed := t, was := was }) s
  let s := ((s.setB TL_CA_STATUS_COASTING true).setB TL_CA_STATUS_MISSED_INDEX true).incSat TL_CA_MISS_COUNT
  let s := s.event 108
  let s := if s.on TL_CA_STATUS_LOCKED && n ≥ max 1 (s.get TL_CA_CFG_MISS_MAX) then caUnlock s else s
  fireSource 32 (32 * t) t s

/-- The tracker locks at tick t: every sequencer that waits for LOCKED resumes: an ALIGN_ANGLE sets its cursor and has its third and
fourth cycle left (R53, R105, R114) (open corners: DEDUCED, log entry 90) (DESIGN CHOICE, log entry 98). -/
def wakeAngle (t : Nat) (s : State) : State :=
  s.seqs.foldl
    (fun s kq =>
      let k := kq.1
      let w := bits (fetchWord k s) 0 3
      match (s.seq k).stall with
      | some .angle =>
        let t := max t (s.seq k).since
        let at_ := alignTick s w (cursor k s)
        let s := modMicro k (fun m => { m with angt := at_ }) (unstall k t s)
        retire k (t + 4) (s.set (SEQ_CURSOR k) at_)
      | some (.micro 0x24 _) =>
        let at_ := alignTick s w (cursor k s)
        microDone k t (fun m => { m with angt := at_ }) s
      | _ => s) s

end Sys2Proof.Machine
end

