-- ==== Sys2Proof/Machine/Bus.lean ====
section
/-! DEFINITION. The trigger bus as a master drives it: frames on MSG_DN, the timing points of SYNC and SYNC_CHECK, and the echo
procedure as far as time alone moves it on (R33, R36, R37, R39). -/

namespace Sys2Proof.Machine

/-- The device is a master that may send (R31, R57). -/
def masterReady (s : State) : Bool := s.on TL_CTRL_EN && s.get TL_CFG_ROLE == 1 && s.on TL_STATUS_ALIGNED

/-- Bits [lo + n - 1 : lo] of a frame in the order sent, the most significant first (R33). -/
def frameField (f lo : Nat) : Nat → Nat
  | 0 => 0
  | n + 1 => 2 * frameField f lo n + b2n (f.testBit (lo + n))

/-- The bits of a field of n bits that stands at bit lo of a frame, the most significant sent first (R33). -/
def placeField (lo v : Nat) : Nat → Nat
  | 0 => 0
  | n + 1 => placeField (lo + 1) v n + 2 ^ lo * b2n (v.testBit n)

/-- CRC-8 with polynomial x^8 + x^2 + x + 1 over n bits of a frame from bit lo on, from value c (R33). -/
def crc8 (f : Nat) : Nat → Nat → Nat → Nat
  | _, 0, c => c
  | lo, n + 1, c =>
    let top := c / 128 % 2
    let c := (2 * c) % 256
    crc8 f (lo + 1) n (if top = b2n (f.testBit lo) then c else c ^^^ 0x07)

/-- The 84 bits of a frame: START, the fields, and the CRC over bits 1..75 (R33). -/
def frameBits (type bcast addr payload : Nat) : Nat :=
  let f := 1 + placeField 1 type 4 + placeField 5 bcast 1 + placeField 6 addr 6 + placeField 12 payload 64
  f + placeField 76 (crc8 f 1 75 0) 8

/-- A frame of 84 bits at 2 ticks each and 16 ticks of idle after it [fine ticks] (R33). -/
def frameSpan : Nat := 32 * (168 + 16)

/-- The line is taken by a frame whose timing point is the fine stamp st. -/
def holdLine (st : Nat) (s : State) : State :=
  { s with tl := { s.tl with lineFree := max s.tl.lineFree (st + frameSpan) } }

/-- The timing points [ticks] at which a SYNC or SYNC_CHECK is to leave (R39) (DEDUCED, log entry 80). -/
def launchTicks (s : State) : List Nat :=
  (s.due.filterMap fun x => match x.2 with | .busLaunch _ t => some t | _ => none)
    ++ (if masterReady s && s.on TL_CFG_AUTO_CHECK then [s.tl.checkNext] else [])

/-- A frame that would begin at fine stamp st begins behind the one that is to leave at tick t, where the two would not be 16 ticks of
idle apart (R33) (DEDUCED, log entry 80). -/
def clearOf (st t : Nat) : Nat := if st < 32 * t + frameSpan ∧ 32 * t < st + frameSpan then 32 * t + frameSpan else st

/-- The timing point of a frame that may leave now: no earlier than 16 ticks after the end of the frame before it, and clear of every
SYNC and SYNC_CHECK that has a timing point of its own (R33) (DEDUCED, log entry 20) (DEDUCED, log entry 80). -/
def lineStart (s : State) : Nat :=
  let ts := launchTicks s
  ts.foldl (fun st _ => ts.foldl clearOf st) (max (32 * s.now) s.tl.lineFree)

/-- A frame of the echo procedure leaves as soon as the line is free; while EN = 0 none leaves (R33, R57) (DEDUCED, log entry 80). -/
def busSend (type bcast addr payload : Nat) (s : State) : State :=
  if s.on TL_CTRL_EN then
    holdLine (lineStart s) (s.emit (.busFrame (frameBits type bcast addr payload) (fineStamp (lineStart s))))
  else s

/-- The timing point of a SYNC or SYNC_CHECK at tick `at_` (R39); source 33 fires there (R46).  The message leaves at its timing point
also where a frame that began before SEND_SYNC was written is still on the line: R39's timing point goes before R33's idle (open
corners: DEDUCED, log entry 80). -/
def busLaunch (type at_ : Nat) (s : State) : State :=
  if s.on TL_CTRL_EN then
    fireSource 33 (32 * at_) at_ (holdLine (32 * at_)
      (s.emit (.busFrame (frameBits type 1 (myDev s) at_) (fineStamp (32 * at_ : Nat)))))
  else s

/-- Exchange x with the first device of `rest` begins, after exchanges that gave `ds` (R36) (DEDUCED, log entry 20). -/
def echoRequest (rest : List Nat) (x : Nat) (ds : List Int) (s : State) : State :=
  let s := { s with tl := { s.tl with echo := some ⟨rest, x, lineStart s, ds⟩ } }
  busSend 3 0 (rest.headD 64) x s

/-- The procedure ends, or measures the next device (R36, R37). -/
def echoNext (rest : List Nat) (s : State) : State :=
  if rest.isEmpty then (({ s with tl := { s.tl with echo := none } }).setB TL_STATUS_ECHO_BUSY false).event 98
  else echoRequest rest 0 [] s

/-- The last tick at which the response to the outstanding request counts (R37). -/
def echoLimit (e : Echo) : Nat := e.reqStamp / 32 + 16808

/-- The outstanding request has found no response in time: the device is abandoned (R36, R37) (open corners: DEDUCED, log entry 20). -/
def echoExpire (s : State) : State :=
  match s.tl.echo with
  | none => s
  | some e => echoNext (e.rest.drop 1)
      ((s.setB (TL_ECHO_RESULT_VALID (e.rest.headD 64)) false).flagAlways TL_STATUS_ECHO_NO_REPLY 99)

/-- The Timeline stands at a multiple of 1 s: the automatic SYNC_CHECK (R39). -/
def secondCheck (s : State) : State :=
  let m := s.tl.checkNext
  let s := { s with tl := { s.tl with checkNext := m + 2000000000 } }
  if masterReady s && s.on TL_CFG_AUTO_CHECK then busLaunch 2 m s else s

end Sys2Proof.Machine
end

