-- ==== Sys2Proof/Machine/CrcRegs.lean ====
section
/-! DEFINITION. The registers of configuration integrity and its state by block (R366, R367). -/

namespace Sys2Proof.Machine

/-- What a block's configuration CRC uses (R366, R367). -/
structure CrcRegs where
  crc   : Fld
  ref   : Fld
  en    : Fld        -- comparing EN
  flag  : Fld        -- CFG_INTEGRITY
  event : Nat
deriving DecidableEq, Repr

/-- The registers, the comparing EN, the flag and the event of each block. -/
def crcRegs : CfgBlock → CrcRegs
  | .tun t => ⟨TUN_CFG_CRC t.val, TUN_CFG_CRC_REF t.val, TUN_CTRL_EN t.val, TUN_STATUS_CFG_INTEGRITY t.val, 640 + t.val⟩
  | .qm => ⟨QM_CFG_CRC, QM_CFG_CRC_REF, QM_CTRL_EN, QM_STATUS_CFG_INTEGRITY, 767⟩
  | .wft => ⟨WFT_CFG_CRC, WFT_CFG_CRC_REF, WFT_CTRL_EN, WFT_STATUS_CFG_INTEGRITY, 30⟩
  | .rfo p => ⟨RFO_CFG_CRC p.val, RFO_CFG_CRC_REF p.val, RFO_CTRL_EN p.val, RFO_STATUS_CFG_INTEGRITY p.val,
      rfoEvent p.val 5⟩
  | .zp z => ⟨ZP_CFG_CRC z.val, ZP_CFG_CRC_REF z.val, ZP_CTRL_EN z.val, ZP_STATUS_CFG_INTEGRITY z.val, zEvent z.val 14⟩
  | .rfi i => ⟨RFI_CFG_CRC i.val, RFI_CFG_CRC_REF i.val, RFI_CTRL_EN i.val, RFI_STATUS_CFG_INTEGRITY i.val, 704 + i.val⟩
  | .lau c => ⟨LAU_CFG_CRC c.val, LAU_CFG_CRC_REF c.val, LAU_CTRL_EN c.val, LAU_STATUS_CFG_INTEGRITY c.val,
      704 + c.val / 32⟩
  | .dec => ⟨DEC_CFG_CRC, DEC_CFG_CRC_REF, DEC_CTRL_EN, DEC_STATUS_CFG_INTEGRITY, 736⟩
  | .ana a => ⟨ANA_CFG_CRC a.val, ANA_CFG_CRC_REF a.val, ANA_CTRL_EN a.val, ANA_STATUS_CFG_INTEGRITY a.val,
      801 + 2 * a.val⟩
  | .tap i => ⟨TAP_CFG_CRC i.val, TAP_CFG_CRC_REF i.val, TAP_CTRL_EN i.val, TAP_STATUS_CFG_INTEGRITY i.val, 816 + i.val⟩
  | .flv n => ⟨FLV_CFG_CRC n.val, FLV_CFG_CRC_REF n.val, FLV_CTRL_EN n.val, FLV_STATUS_CFG_INTEGRITY n.val, 768 + n.val⟩
  | .flvGlobal => ⟨FLV_GCFG_CRC, FLV_GCFG_CRC_REF, FLV_GCTRL_EN, FLV_GSTATUS_CFG_INTEGRITY, 768⟩
  | .nt => ⟨NT_CFG_CRC, NT_CFG_CRC_REF, NT_CTRL_EN, NT_STATUS_CFG_INTEGRITY, 115⟩
  | .eth e => ⟨ETH_CFG_CRC e.val, ETH_CFG_CRC_REF e.val, ETH_CTRL_EN e.val, ETH_STATUS_CFG_INTEGRITY e.val, 120 + e.val⟩
  | .host => ⟨HOST_CFG_CRC, HOST_CFG_CRC_REF, HOST_CTRL_EN, HOST_STATUS_CFG_INTEGRITY, 2⟩
  | .mon => ⟨MON_CFG_CRC, MON_CFG_CRC_REF, MON_CTRL_EN, MON_STATUS_CFG_INTEGRITY, 857⟩
  | .cal => ⟨CAL_CFG_CRC, CAL_CFG_CRC_REF, CAL_CTRL_EN, CAL_STATUS_CFG_INTEGRITY, 872⟩
  | .kiln => ⟨KILN_CFG_CRC, KILN_CFG_CRC_REF, KILN_CTRL_EN, KILN_STATUS_CFG_INTEGRITY, 42⟩

/-- The block's number in the table of integrity states: the place of its CRC register. -/
def crcKey (b : CfgBlock) : Nat := (crcRegs b).crc.key / 32

/-- The integrity state of a block. -/
def State.crcOf (s : State) (b : CfgBlock) : Crc := Tab.get {} s.host.crcs (crcKey b)
/-- Replace the integrity state of a block. -/
def State.setCrc (s : State) (b : CfgBlock) (x : Crc) : State :=
  { s with host := { s.host with crcs := Tab.put {} s.host.crcs (crcKey b) x } }

/-- A covered field has changed under another EN than the comparing one: while the comparing EN is 1, comparison is suspended until the
reference is next set (R367). -/
def suspendCrc (b : CfgBlock) (s : State) : State :=
  if s.on (crcRegs b).en then s.setCrc b { s.crcOf b with suspend := true } else s

/-- A write of a field that waited takes effect; where it changes a field that `block`'s CRC covers under another EN, comparison is
suspended (R362, R367). -/
def cfgLater (f : Fld) (v : Nat) (block : Option CfgBlock) (s : State) : State :=
  let differs := s.get f != v
  let s := match (List.range 1024).find? fun c => LAU_FRAMES_RFRAME c == f with
    | some c => markTone c s (s.set f v)
    | none => s.set f v
  match block with
  | some b => if differs then suspendCrc b s else s
  | none => s

end Sys2Proof.Machine
end

