-- ==== Sys2Proof/Machine/Engines.lean ====
section
/-! DEFINITION. The analysis engines: memories, banks, address generation, results in flight, branches, interrupts, streams
(R286 to R301). -/

namespace Sys2Proof.Machine

/-- Engine a beside its registers. -/
def State.ana (s : State) (a : Nat) : Engine := Tab.get {} s.anas a
/-- Replace engine a. -/
def State.setAna (s : State) (a : Nat) (x : Engine) : State := { s with anas := Tab.put {} s.anas a x }
/-- Change engine a. -/
def State.modAna (s : State) (a : Nat) (f : Engine → Engine) : State := s.setAna a (f (s.ana a))

/-- STATE codes (R303): IDLE. -/
def anIdle : Nat := 0
/-- RUNNING. -/
def anRunning : Nat := 1
/-- WAITING. -/
def anWaiting : Nat := 2
/-- FAULTED. -/
def anFaulted : Nat := 3
/-- STATE of engine a. -/
def anaState (a : Nat) (s : State) : Nat := s.get (ANA_STATUS_STATE a)

/-- First byte of data memory word w of engine a (R296). -/
def engDataAddr (a w : Nat) : Nat := 0x03000000 + 0x80000 * a + 4 * (w % 65536)
/-- First byte of program word n of engine a (R296). -/
def engProgAddr (a n : Nat) : Nat := 0x03040000 + 0x80000 * a + 4 * n
/-- A word of data memory. -/
def engWord (a w : Nat) (s : State) : Nat := s.rd (engDataAddr a w) 4
/-- Write a word of data memory. -/
def setEngWord (a w v : Nat) (s : State) : State := s.wr (engDataAddr a w) 4 v

/-- Ticks of one engine cycle under the Kiln's clock division (R286). -/
def engCycle (a : Nat) (s : State) : Nat := 2 * 2 ^ s.get (ANA_STATUS_CLKDIV a)

/-! ### Banks -/

/-- A bank of engine a. -/
def engBankOf (a : Nat) (shadow : Bool) (s : State) : EngBank := if shadow then (s.ana a).shadow else (s.ana a).main
/-- Replace a bank. -/
def setEngBankOf (a : Nat) (shadow : Bool) (b : EngBank) (s : State) : State :=
  s.modAna a fun e => if shadow then { e with shadow := b } else { e with main := b }
/-- The shadow bank is the active one. -/
def engShadow (a : Nat) (s : State) : Bool := s.on (ANA_STATUS_SHADOW a)
/-- The active bank. -/
def engBank (a : Nat) (s : State) : EngBank := engBankOf a (engShadow a s) s
/-- Replace the active bank. -/
def setEngBank (a : Nat) (b : EngBank) (s : State) : State := setEngBankOf a (engShadow a s) b s

/-- Register V(r) of a bank, signed. -/
def EngBank.vI (b : EngBank) (r : Nat) : Int := sgn 24 (b.v.getD r 0)
/-- A bank with V(r) written. -/
def EngBank.setV (b : EngBank) (r : Nat) (i : Int) : EngBank := { b with v := b.v.set r (wrap 24 i) }
/-- Sum register k. -/
def EngBank.getS (b : EngBank) (k : Nat) : Int := b.sum.getD k 0
/-- A bank with a result written. -/
def EngBank.put (b : EngBank) (d : EngDest) (i : Int) : EngBank :=
  match d with
  | .v r => b.setV r i
  | .sum k => { b with sum := b.sum.set k i }
/-- A bank with Z and N of a 24-bit result (R291). -/
def EngBank.flags (b : EngBank) (i : Int) : EngBank := { b with z := decide (i = 0), n := decide (i < 0) }

/-- Put a result of latency l in flight for the active bank, issued in the present cycle (R292). -/
def engResult (a l : Nat) (d : EngDest) (i : Int) (s : State) : State :=
  let sh := engShadow a s
  let n := s.get (ANA_CYCLES a)
  s.modAna a fun e => { e with flight := e.flight ++ [⟨n + l - 1, sh, d, i⟩] }

/-- Write the results that are due at the end of cycle n, in order of issue (R292). -/
def engLand (a n : Nat) (s : State) : State :=
  let e := s.ana a
  let s := s.setAna a { e with flight := e.flight.filter fun f => decide (n < f.due) }
  (e.flight.filter fun f => f.due ≤ n).foldl
    (fun s f => setEngBankOf a f.shadow ((engBankOf a f.shadow s).put f.dest f.val) s) s

/-- The sum register as the instruction sees it: the result of a MAC, MSB or ADDS issued one cycle before, when the
instruction is one of these itself (R292). -/
def engAccIn (a k : Nat) (s : State) : Int :=
  match (s.ana a).acc with
  | some (n, sh, j, v) =>
    if n + 1 = s.get (ANA_CYCLES a) ∧ sh = engShadow a s ∧ j = k then v else (engBank a s).getS k
  | none => (engBank a s).getS k

/-! ### Address units (R294) -/

/-- The k of a window: 0 acts as 16; values above 16 act as 16. -/
def auK (w : Nat) : Nat := let k := bits w 0 5; if k = 0 ∨ k > 16 then 16 else k

/-- The low k bits of n in reverse order. -/
def revBits (k n : Nat) : Nat := (List.range k).foldl (fun r j => r + b2n (n.testBit j) * 2 ^ (k - 1 - j)) 0

/-- A pointer moved by a step under window w (R294). -/
def auMove (w p step : Nat) : Nat :=
  let k := auK w
  let high := p / 2 ^ k * 2 ^ k
  match bits w 16 2 with
  | 1 => high + (p + step) % 2 ^ k
  | 2 => high + revBits k ((revBits k (p % 2 ^ k) + revBits k (step % 2 ^ k)) % 2 ^ k)
  | _ => (p + step) % 65536

/-- Address unit u of the active bank. -/
def engAu (a u : Nat) (s : State) : AddrUnit := (engBank a s).au.getD u {}

/-- Replace address unit u of the active bank. -/
def setEngAu (a u : Nat) (x : AddrUnit) (s : State) : State :=
  let b := engBank a s
  setEngBank a { b with au := b.au.set u x } s

/-- Post-modify the pointer of unit u as pm selects (R290, R294). -/
def postMod (a u pm : Nat) (s : State) : State :=
  let x := engAu a u s
  match pm with
  | 1 => setEngAu a u { x with p := auMove x.w x.p 1 } s
  | 2 => setEngAu a u { x with p := auMove x.w x.p x.oa } s
  | 3 => setEngAu a u { x with p := auMove x.w x.p x.ob } s
  | _ => s

/-! ### Interrupts, faults, enable (R295, R300, R301) -/

/-- The enabled pending sources. -/
def engPending (a : Nat) (s : State) : Nat := (s.ana a).irq &&& s.get (ANA_CFG_IRQ_EN a)

/-- An interrupt is to be taken at the present issue boundary (R295) (open corners: DEDUCED, log entry 44). -/
def engIrqDue (a : Nat) (s : State) : Bool :=
  anaState a s == anRunning && !engShadow a s && (s.ana a).slots == 0 && engPending a s != 0

/-- Engine a faults with a code at its present address (R301, R302). -/
def engFault (a code : Nat) (s : State) : State :=
  let s := (s.set (ANA_STATUS_STATE a) anFaulted).set (ANA_FAULT_CODE a) code
  (s.set (ANA_FAULT_FPC a) (s.get (ANA_PC a))).flag (ANA_STATUS_FAULT a) (801 + 2 * a)

/-- EN = 1 of engine a takes effect at tick t (R300). -/
def engStart (a t : Nat) (s : State) : State :=
  let e := s.ana a
  if e.startAt = some t then
    let s := s.setAna a { tlMid := e.tlMid, timerLo := e.timerLo, timer := e.timer, at_ := t }
    let s := (s.set (ANA_PC a) 0).setB (ANA_STATUS_SHADOW a) false
    (s.set (ANA_CYCLES a) 0).set (ANA_STATUS_STATE a) anRunning
  else s

/-- Input stream j of engine a is on (R297). -/
def engInOn (a j : Nat) (s : State) : Bool := s.get (ANA_IN_CFG_MODE a j) == 1 || s.get (ANA_IN_CFG_MODE a j) == 2

/-- A write of EN = 1 to engine a is refused (R300). -/
def engRefused (a : Nat) (s : State) : Bool :=
  let part := s.get (ANA_CFG_PART a)
  let out := s.get (ANA_OUT_CFG_OUT_QUEUE a)
  let inOk := fun q => (0x4000 ≤ q && q ≤ 0x7FFF) || (0x9000 ≤ q && q ≤ 0x93FF) || 0x9800 ≤ q
  (List.range 2).any (fun j =>
      let q := s.get (ANA_IN_CFG_QUEUE a j)
      let len := s.get (ANA_IN_BUF_LEN a j)
      s.get (ANA_IN_BUF_BASE a j) + len > 65536
        || (engInOn a j s && (!inOk q || s.owner q != part || len == 0
              || (List.range 8).any (fun b => b != a && s.on (ANA_CTRL_EN b)
                  && (List.range 2).any fun i => engInOn b i s && s.get (ANA_IN_CFG_QUEUE b i) == q))))
    || out < 0x9400 || s.owner out != part

/-! ### Issue (R290 to R293) -/

/-- What an instruction does to the flow of control. -/
inductive EngFlow where
  | seq
  | branch (target : Option Nat) (rti : Bool)
  | skip (pc : Nat)
  | hold
  | stop (state : Nat)
deriving DecidableEq, Repr

/-- The instruction word at the engine's program counter. -/
def engFetch (a : Nat) (s : State) : Nat := s.rd (engProgAddr a (s.get (ANA_PC a))) 4

/-- A control transfer that has delay slots (R293). -/
def isBranchOp (op : Nat) : Bool := op == 0x20 || op == 0x21 || op == 0x22 || op == 0x24

/-- The engine goes on at address pc; a step to 0x4000 faults with PC_RANGE (R293). -/
def engGoto (a pc : Nat) (s : State) : State := if pc > 0x3FFF then engFault a 2 s else s.set (ANA_PC a) pc

/-- The next address in sequence, with the loop entries that end here judged (R293) (open corners: DEDUCED, log entry 43). -/
def engSequential (a : Nat) (s : State) : State :=
  let b := engBank a s
  let (st, pc) := loopNext (s.get (ANA_PC a)) b.loops
  engGoto a pc (setEngBank a { b with loops := st } s)

/-- The instruction leaves a delay slot or none: the next address (R293, R295) (open corners: DEDUCED, log entry 43). -/
def engNext (a : Nat) (skip : Option Nat) (s : State) : State :=
  let e := s.ana a
  let onward := fun s => match skip with | some pc => engGoto a pc s | none => engSequential a s
  match e.slots with
  | 0 => onward s
  | 1 =>
    let s := s.setAna a { e with slots := 0, target := none, rti := false }
    match e.target with
    | none => onward s
    | some pc =>
      let s := if e.rti then s.setB (ANA_STATUS_SHADOW a) false else s
      engGoto a pc s
  | n + 2 => onward (s.setAna a { e with slots := n + 1 })

/-- One cycle of engine a has been used: results land, and the clock moves on (R292, R303) (open corners: DEDUCED, log entry 43). -/
def engClock (a : Nat) (s : State) : State :=
  let n := s.get (ANA_CYCLES a)
  let s := engLand a n s
  let d := engCycle a s
  let s := s.modAna a fun e => { e with at_ := e.at_ + d, held := false }
  s.inc (ANA_CYCLES a)

/-- Engine a executes nothing while EN = 1: it waits, has halted or has faulted, and its cycles go on (R303)
(DEDUCED, log entry 43). -/
def engRests (a : Nat) (s : State) : Bool :=
  s.on (ANA_CTRL_EN a) && (s.ana a).startAt.isNone && anaState a s != anRunning

/-- CYCLES as it reads at tick t: cycles go on while EN = 1 (R303). -/
def engCycles (a t : Nat) (s : State) : Nat :=
  s.get (ANA_CYCLES a) + (if engRests a s then (t - (s.ana a).at_) / engCycle a s else 0)

/-- The cycles that engine a has rested by tick t are counted; the clock goes on from the cycle under way (R286, R303)
(DEDUCED, log entry 43). -/
def engSettle (a t : Nat) (s : State) : State :=
  let n := engCycles a t s
  let d := (n - s.get (ANA_CYCLES a)) * engCycle a s
  (s.set (ANA_CYCLES a) n).modAna a fun e => { e with at_ := e.at_ + d }

/-- Raise interrupt source src of engine a at tick t; an enabled source ends WAIT, the cycles slept being counted, and the
engine steps from the WAIT to the next address (R295, R303) (open corners: DEDUCED, log entry 43). -/
def engRaise (a src t : Nat) (s : State) : State :=
  let s := s.modAna a fun e => { e with irq := e.irq ||| 2 ^ src }
  if anaState a s = anWaiting ∧ (s.get (ANA_CFG_IRQ_EN a)).testBit src then
    let d := engCycle a s
    let n := ceilDiv (t - (s.ana a).at_) d
    let s := (s.inc (ANA_CYCLES a) n).modAna a fun e => { e with at_ := e.at_ + n * d }
    engNext a none (engLand a (s.get (ANA_CYCLES a) - 1) (s.set (ANA_STATUS_STATE a) anRunning))
  else s

/-- Finish the instruction's cycle with its flow of control; an engine that stops takes no further step (R291) (open corners:
DEDUCED, log entry 43). -/
def engFinish (a : Nat) (flow : EngFlow) (s : State) : State :=
  let s := engClock a s
  match flow with
  | .seq => engNext a none s
  | .skip pc => engNext a (some pc) s
  | .hold => s.modAna a fun e => { e with held := true }
  | .stop st => s.set (ANA_STATUS_STATE a) st
  | .branch target rti =>
    engSequential a (s.modAna a fun e => { e with slots := 2, target := target, rti := rti })

/-- A branch instruction that may not stand where it does (R293). -/
def branchMisplaced (a : Nat) (s : State) : Bool :=
  (s.ana a).slots != 0
    || (match (engBank a s).loops with
        | .loop _ last _ :: _ => last == s.get (ANA_PC a)
        | _ => false)

/-- Issue the instruction at engine a's program counter, when it has opcode op and the engine is to issue one: `f` gives the
state after its effect with its flow of control, or the code of its fault (open corners: DEDUCED, log entry 44). -/
def engIssue (op a : Nat) (s : State) (f : Nat → State → Except Nat (State × EngFlow)) : State :=
  let w := engFetch a s
  if anaState a s = anRunning ∧ !engIrqDue a s ∧ bits w 26 6 = op then
    if isBranchOp op ∧ branchMisplaced a s then engFault a 3 s
    else match f w s with
      | .ok (s, flow) => engFinish a flow s
      | .error code => engFault a code s
  else s

/-- COND of R290; none where it is no condition. -/
def engCond (b : EngBank) : Nat → Option Bool
  | 0 => some true
  | 1 => some b.z
  | 2 => some (!b.z)
  | 3 => some b.n
  | 4 => some (!b.n)
  | 5 => some (!b.z && !b.n)
  | 6 => some (b.z || b.n)
  | 7 => some b.o
  | 8 => some b.sat
  | _ => none

/-- The instruction word is ILLEGAL: no opcode of R291, a COND of none, or an LDD whose units R290 forbids. -/
def engIllegal (w : Nat) : Bool :=
  let op := bits w 26 6
  let defined := op ≤ 3 || op == 5 || (8 ≤ op && op ≤ 0x19) || op == 0x1B || (0x20 ≤ op && op ≤ 0x2A)
  !defined
    || (op == 3 && (bits w 21 2 > 1 || bits w 14 2 < 2))
    || ((op == 0x20 || op == 0x21) && bits w 22 4 > 8)

end Sys2Proof.Machine
end

