-- ==== Sys2Proof/Machine/Ether.lean ====
section
/-! DEFINITION. Ethernet frames: station addresses, PTP recognition, stamps, the one-step correction, transmission and the timed
queues (R341, R347 to R350, R383). -/

namespace Sys2Proof.Machine

/-- The number that big-endian bytes spell. -/
def ofBytesBe (bs : List Byte) : Nat := ofBytes bs.reverse

/-- n as k big-endian bytes. -/
def toBytesBe (k n : Nat) : List Byte := (toBytes k n).reverse

/-- n big-endian bytes of a frame, from offset o on. -/
def frameBe (f : List Byte) (o n : Nat) : Nat := ofBytesBe ((f.drop o).take n)

/-- The frame with bytes from offset o on replaced. -/
def framePut (f : List Byte) (o : Nat) (bs : List Byte) : List Byte := f.take o ++ bs ++ f.drop (o + bs.length)

/-- The station address of port e, as a 48-bit number with the first byte highest (R383). -/
def station (e : Nat) (s : State) : Nat :=
  let uid := s.get GLB_UID
  ofBytesBe [0x02, 0x4E, BitVec.ofNat 8 (bits uid 24 8), BitVec.ofNat 8 (bits uid 16 8), BitVec.ofNat 8 (bits uid 8 8),
    BitVec.ofNat 8 (2 * bits uid 1 7 + e)]

/-- A VLAN Ethertype (R340). -/
def isVlan (n : Nat) : Bool := n == 0x8100 || n == 0x88A8

/-- The number of VLAN tags of a frame, 0 to 2 (R340). -/
def vlanTags (f : List Byte) : Nat :=
  if isVlan (frameBe f 12 2) then (if isVlan (frameBe f 16 2) then 2 else 1) else 0

/-- The offset of a frame's Ethertype after its VLAN tags. -/
def typeOffset (f : List Byte) : Nat := 12 + 4 * vlanTags f

/-- The Ethertype after up to two VLAN tags. -/
def etherType (f : List Byte) : Nat := frameBe f (typeOffset f) 2

/-- A PTP frame's transport (0 Layer 2, 1 UDP/IPv4, 2 UDP/IPv6) and the offset of its PTP header, if R347 recognises it. -/
def ptpOf (f : List Byte) : Option (Nat × Nat) :=
  let o := typeOffset f + 2
  let port := fun u => let p := frameBe f (u + 2) 2; p == 319 || p == 320
  let cand :=
    if etherType f = 0x88F7 then some (0, o)
    else if etherType f = 0x0800 then
      let u := o + 4 * (frameBe f o 1 % 16)
      if frameBe f (o + 9) 1 = 17 ∧ frameBe f (o + 6) 2 % 0x4000 = 0 ∧ port u then some (1, u + 8) else none
    else if etherType f = 0x86DD then
      let u := o + 40
      if frameBe f (o + 6) 1 = 17 ∧ port u then some (2, u + 8) else none
    else none
  match cand with
  | some (k, h) => if h + 2 ≤ f.length ∧ frameBe f (h + 1) 1 % 16 = 2 then some (k, h) else none
  | none => none

/-- The frame is a PTP Sync (R349): its transport and the offset of its PTP header. -/
def syncOf (f : List Byte) : Option (Nat × Nat) :=
  match ptpOf f with
  | some (k, h) => if frameBe f h 1 % 16 = 0 then some (k, h) else none
  | none => none

/-- One's-complement sum of 16 bits. -/
def onesFold (n : Nat) : Nat :=
  let a := n % 65536 + n / 65536
  a % 65536 + a / 65536

/-- A UDP checksum updated for the change of words from `old` to `new_` (R349). -/
def udpUpdate (sum : Nat) (old new_ : List Nat) : Nat :=
  let n := 65535 - onesFold ((65535 - sum) + (old.map fun w => 65535 - w).foldl (· + ·) 0 + new_.foldl (· + ·) 0)
  if n = 0 then 65535 else n

/-- The 16-bit words of 8 bytes. -/
def words16 (n : Nat) : List Nat := [bits n 48 16, bits n 32 16, bits n 16 16, bits n 0 16]

/-- The one-step correction of a Sync for an egress stamp [1/256 ns of 40 bits] and T_REF [ns] (R349) (open corners:
DEDUCED, log entry 48). -/
def oneStep (f : List Byte) (k h stamp tRef : Nat) : List Byte :=
  let diff := sgn 40 (wrap 40 ((stamp : Int) - (tRef * 256 : Nat)))
  let old := frameBe f (h + 8) 8
  let new_ := wrap 64 ((old : Int) + diff * 256)
  let f := framePut f (h + 8) (toBytesBe 8 new_)
  if k = 0 then f
  else
    let c := h - 2
    let sum := frameBe f c 2
    if k = 1 ∧ sum = 0 then f else framePut f c (toBytesBe 2 (udpUpdate sum (words16 old) (words16 new_)))

/-- A free error of a stamp, at most `lim` [1/256 ns] to either side (DESIGN CHOICE, log entry 3) (open corners:
DESIGN CHOICE, log entry 50). -/
def stampError (lim : Nat) (s : State) : Int × State :=
  let f := s.fresh
  ((Config.freeValue f.1 % (2 * lim + 1) : Nat) - (lim : Int), f.2)

/-- Network time interpolated to tick t of the present cycle [2^-32 ns] (R54) (DESIGN CHOICE, log entry 11). -/
def ntAt (t : Nat) (s : State) : Nat := (s.get NT_NOW + s.get NT_INC * (s.upOf t % 4) / 4) % 2 ^ 64

/-- Network time at the present tick [1/256 ns of 40 bits]. -/
def ntFine (s : State) : Nat := ntAt s.now s / 2 ^ 24 % 2 ^ 40

/-- The egress stamp of a frame whose timestamp point crosses the ball now, within 0.8 ns (R348) (open corners:
DESIGN CHOICE, log entry 50). -/
def txStamp (e : Nat) (s : State) : Nat × State :=
  let x := stampError 204 s
  (wrap 40 ((ntFine s : Int) + s.getI (ETH_TX_LAT e) + x.1), x.2)

/-- The ingress stamp of a frame whose timestamp point crosses the ball now, within 0.8 ns (R348) (open corners:
DESIGN CHOICE, log entry 50). -/
def rxStamp (e : Nat) (s : State) : Nat × State :=
  let x := stampError 204 s
  (wrap 40 ((ntFine s : Int) - s.getI (ETH_RX_LAT e) + x.1), x.2)

/-- The transmit line of port e. -/
def State.eth (s : State) (e : Nat) : EthLine := Tab.get {} s.host.eths e
/-- State with the transmit line of port e replaced. -/
def State.setEth (s : State) (e : Nat) (x : EthLine) : State :=
  { s with host := { s.host with eths := Tab.put {} s.host.eths e x } }

/-- The line time of a frame of n bytes, with preamble and FCS, in units of 0.02 ns: 0.08 ns a byte (R340, R351). -/
def ethTime (n : Nat) : Nat := 4 * (n + 12)

/-- The first tick since the lock at which the line of port e is free (DEDUCED, log entry 48). -/
def ethFreeUp (e : Nat) (s : State) : Nat := ceilDiv (s.eth e).free 25

/-- A frame leaves port e with an egress stamp, behind the one on the line: one in transmission is never cut (R351). -/
def ethOut (e stamp : Nat) (f : List Byte) (s : State) : State :=
  let x := s.eth e
  let s := s.setEth e { x with free := max x.free (25 * s.up) + ethTime f.length }
  (s.inc (ETH_TX_FRAMES e)).emit (.ethFrame e stamp f)

/-- A frame of the device's own to a station: Ethertype 0x88B5 and a body (R383). -/
def mgmtFrame (e dest : Nat) (body : List Byte) (s : State) : State :=
  let f := toBytesBe 6 dest ++ toBytesBe 6 (station e s) ++ toBytesBe 2 0x88B5 ++ body
  let f := f ++ List.replicate (60 - f.length) 0
  let x := txStamp e s
  ethOut e x.1 f x.2

/-- Content relayed to a device as MGMT messages on virtual channel 3 (R384): fragments of 10 bytes. -/
def relayContent (dev : Nat) (content : List Byte) (s : State) : State :=
  let n := ceilDiv content.length 10
  (List.range n).foldl (fun s k =>
    let part := (content.drop (10 * k)).take 10
    let data := k % 256 + b2n (k == 0) * 2 ^ 8 + b2n (k + 1 == n) * 2 ^ 9 + ofBytes part * 2 ^ 16
    txIngress (mgmtMsg dev 3 data s) s) s

/-! ### Transmission (R341, R348 to R351) -/

/-- Queue k of port e: 0 general transmit, 1 timed transmit, 2 transmit completion, 3 receive (R341). -/
def ethQueue (e k : Nat) : Nat := 0x97F0 + 4 * e + k

/-- LEN of a transmit header. -/
def txLen (b : List Byte) : Nat := le b 0 2
/-- LAUNCH. -/
def txLaunch (b : List Byte) : Nat := le b 4 4
/-- A header that can be sent: LEN in 60..9,212 (R341). -/
def txLenOk (b : List Byte) : Bool := decide (60 ≤ txLen b ∧ txLen b ≤ 9212)

/-- The head of transmit queue q goes to port e's completion queue with its header rewritten: STATUS, and the egress stamp where
TS_REQ asks for one (R341) (open corners: DEDUCED, log entry 48). -/
def ethComplete (e q st : Nat) (stamp : Option Nat) (b : List Byte) (s : State) : State :=
  let s := (s.popHead q).2
  let hdr := b.take 16
  let hdr := framePut hdr 3 (toBytes 1 st)
  let hdr := match stamp with
    | some v => if (le b 2 1).testBit 0 then framePut (framePut hdr 8 (toBytes 4 (v / 256))) 14 (toBytes 1 v) else hdr
    | none => hdr
  s.appendRaw (ethQueue e 2) { bytes := hdr ++ b.drop 16 }

/-- The frame of the head of queue q leaves port e with a stamp; ONE_STEP corrects a Sync (R349). -/
def ethSend (e q st stamp : Nat) (b : List Byte) (s : State) : State :=
  let f := slice b 16 (txLen b)
  let one := (le b 2 1).testBit 1
  match if one then syncOf f else none with
  | some (k, h) => ethComplete e q st (some stamp) b (ethOut e stamp (oneStep f k h stamp (le b 8 4)) s)
  | none => ethComplete e q (if one ∧ st = 0 then 3 else st) (some stamp) b (ethOut e stamp f s)

/-- The head of a queue. -/
def ethHead (q : Nat) (s : State) : Option (List Byte) := (s.queue q).items.head?.map fun it => it.bytes

/-- LAUNCH minus NT_NS, signed [ns] (R350) (open corners: DEDUCED, log entry 48). -/
def launchIn (b : List Byte) (s : State) : Int := sgn 32 ((txLaunch b + 2 ^ 32 - s.get NT_NOW / 2 ^ 32 % 2 ^ 32) % 2 ^ 32)

/-- The timed head is launched: its stamp lies within 1.0 ns of LAUNCH (R350) (open corners: DEDUCED, log entry 48). -/
def ethLaunch (e : Nat) (b : List Byte) (s : State) : State :=
  let x := stampError 256 s
  ethSend e (ethQueue e 1) 0 (wrap 40 ((txLaunch b * 256 : Nat) + x.1)) b x.2

/-- The timed head is late (R350) (open corners: DEDUCED, log entry 48). -/
def ethLate (e : Nat) (b : List Byte) (s : State) : State :=
  let q := ethQueue e 1
  if s.on (ETH_CFG_LATE_POLICY e) then
    (ethComplete e q 2 none b (s.incSat (ETH_LATE_DROPS e))).flagAlways (ETH_STATUS_LATE e) (118 + e)
  else
    let x := txStamp e s
    (ethSend e q 1 x.1 b (x.2.incSat (ETH_LATE_SENT e))).flagAlways (ETH_STATUS_LATE e) (118 + e)

/-- Ticks from now to the first network-time cycle that begins at tick u since the lock, or later (R342) (DEDUCED, log entry 48). -/
def cyclesFrom (u : Nat) (s : State) : Nat := ceilDiv (max u s.up) 4 * 4 - s.up

/-- The cycle at which the timed head of port e is judged away, in ticks from now: the first cycle at which the line is free and its
LEN is bad or its launch time is reached or past, at the present rate of network time (R350) (open corners: DEDUCED, log entry 48). -/
def timedIn (e : Nat) (b : List Byte) (s : State) : Nat :=
  let first := cyclesFrom (max (ethFreeUp e s) (s.eth e).judge) s
  let d := launchIn b s
  if txLenOk b ∧ 0 < d then
    max first (4 * ceilDiv (d.toNat * 2 ^ 32 - s.get NT_NOW % 2 ^ 32) (s.get NT_INC) - s.up % 4)
  else first

/-- The tick at which the timed head of port e is judged away; none while the link is down, network time stands or nothing waits
(R350, R351) (open corners: DEDUCED, log entry 48). -/
def timedDue (e : Nat) (s : State) : Option Nat :=
  if !s.on (ETH_STATUS_LINK e) || !s.tl.counting then none
  else (ethHead (ethQueue e 1) s).map fun b => s.now + timedIn e b s

/-- The timed head of port e is judged: returned where its LEN is bad, launched at d = 0, late at d < 0, and left waiting at d > 0;
the next head has its turn at a later cycle (R350) (open corners: DEDUCED, log entry 48). -/
def timedJudge (e : Nat) (s : State) : State :=
  match ethHead (ethQueue e 1) s with
  | none => s
  | some b =>
    let d := launchIn b s
    let s := s.setEth e { s.eth e with judge := s.up + 1 }
    if !txLenOk b then ethComplete e (ethQueue e 1) 4 none b s
    else if 0 < d then s
    else if d = 0 then ethLaunch e b s
    else ethLate e b s

end Sys2Proof.Machine
end

