-- ==== Sys2Proof/Machine/Crypto.lean ====
section
/-! DEFINITION. The cryptographic functions that the spec names and does not define, as their public standards define them:
SHA-256 and SHA-384 (FIPS 180-4), HMAC (FIPS 198-1), and ECDSA on curve P-384 (FIPS 186) (PRESUMED, log entry 110). -/

namespace Sys2Proof.Machine

/-! ### SHA-2 -/

/-- The greatest r + x, x below 2^bits, whose kth power is at most n. -/
def rootFrom (k n : Nat) : Nat → Nat → Nat
  | 0, r => r
  | bits + 1, r => rootFrom k n bits (if (r + 2 ^ bits) ^ k ≤ n then r + 2 ^ bits else r)

/-- The first w bits after the point of the kth root of p, for a root below 8 (PRESUMED, log entry 110). -/
def rootBits (k w p : Nat) : Nat := rootFrom k (p * 2 ^ (k * w)) (w + 3) 0 % 2 ^ w

/-- The primes up to 409, eighty of them (PRESUMED, log entry 110). -/
def primes : List Nat :=
  (List.range' 2 408).filter fun n => (List.range' 2 19).all fun d => decide (n ≤ d) || n % d != 0

/-- Round constants of a SHA-2 function of w-bit words and n rounds: from the cube roots of the first n primes
(PRESUMED, log entry 110). -/
def shaRounds (w n : Nat) : List Nat := (primes.take n).map (rootBits 3 w)

/-- Initial hash value of a SHA-2 function of w-bit words: from the square roots of eight primes, from the nth on
(PRESUMED, log entry 110). -/
def shaStart (w n : Nat) : List Nat := ((primes.drop n).take 8).map (rootBits 2 w)

/-- One function of the SHA-2 family: word width [bits], the rotations of its four sums, its round constants and initial value
(PRESUMED, log entry 110). -/
structure ShaKind where
  w  : Nat
  e0 : Nat × Nat × Nat      -- rotations of the sum over a
  e1 : Nat × Nat × Nat      -- rotations of the sum over e
  s0 : Nat × Nat × Nat      -- two rotations and a shift, for the schedule
  s1 : Nat × Nat × Nat
  k  : List Nat
  iv : List Nat

/-- SHA-384 (PRESUMED, log entry 110). -/
def kind384 : ShaKind := ⟨64, (28, 34, 39), (14, 18, 41), (1, 8, 7), (19, 61, 6), shaRounds 64 80, shaStart 64 8⟩
/-- SHA-256 (PRESUMED, log entry 110). -/
def kind256 : ShaKind := ⟨32, (2, 13, 22), (6, 11, 25), (7, 18, 3), (17, 19, 10), shaRounds 32 64, shaStart 32 0⟩

/-- A word rotated right by n. -/
def ShaKind.rot (v : ShaKind) (n x : Nat) : Nat := (x / 2 ^ n + x * 2 ^ (v.w - n)) % 2 ^ v.w

/-- Three rotations, added without carry. -/
def ShaKind.big (v : ShaKind) (c : Nat × Nat × Nat) (x : Nat) : Nat := v.rot c.1 x ^^^ v.rot c.2.1 x ^^^ v.rot c.2.2 x

/-- Two rotations and a shift, added without carry. -/
def ShaKind.small (v : ShaKind) (c : Nat × Nat × Nat) (x : Nat) : Nat := v.rot c.1 x ^^^ v.rot c.2.1 x ^^^ x / 2 ^ c.2.2

/-- The message schedule, newest word first, with n more words. -/
def ShaKind.schedule (v : ShaKind) : Nat → List Nat → List Nat
  | 0, ws => ws
  | n + 1, ws =>
    v.schedule n ((v.small v.s1 (ws.getD 1 0) + ws.getD 6 0 + v.small v.s0 (ws.getD 14 0) + ws.getD 15 0) % 2 ^ v.w :: ws)

/-- One round with round constant and schedule word. -/
def ShaKind.round (v : ShaKind) (h : List Nat) (kw : Nat × Nat) : List Nat :=
  let g := fun i => h.getD i 0
  let ch := (g 4 &&& g 5) ^^^ ((2 ^ v.w - 1 - g 4) &&& g 6)
  let maj := (g 0 &&& g 1) ^^^ (g 0 &&& g 2) ^^^ (g 1 &&& g 2)
  let t1 := g 7 + v.big v.e1 (g 4) + ch + kw.1 + kw.2
  let t2 := v.big v.e0 (g 0) + maj
  [(t1 + t2) % 2 ^ v.w, g 0, g 1, g 2, (g 3 + t1) % 2 ^ v.w, g 4, g 5, g 6]

/-- The hash value after one block of 16 words. -/
def ShaKind.block (v : ShaKind) (h ws : List Nat) : List Nat :=
  let sched := (v.schedule (v.k.length - 16) ws.reverse).reverse
  let r := (v.k.zip sched).foldl v.round h
  (h.zip r).map fun x => (x.1 + x.2) % 2 ^ v.w

/-- n words of b bytes each, big-endian, from the bytes. -/
def beWords (b : Nat) : Nat → List Byte → List Nat
  | 0, _ => []
  | n + 1, bs => ofBytes (bs.take b).reverse :: beWords b n (bs.drop b)

/-- The message with its padding: a 1 bit, zeros, and its length in bits. -/
def ShaKind.pad (v : ShaKind) (m : List Byte) : List Byte :=
  let len := v.w / 4
  let size := 2 * v.w
  let z := (2 * size - 1 - len - m.length % size) % size
  m ++ [0x80] ++ List.replicate z 0 ++ (toBytes len (8 * m.length)).reverse

/-- The hash value of n blocks. -/
def ShaKind.blocks (v : ShaKind) : Nat → List Byte → List Nat → List Nat
  | 0, _, h => h
  | n + 1, bs, h => v.blocks n (bs.drop (2 * v.w)) (v.block h (beWords (v.w / 8) 16 (bs.take (2 * v.w))))

/-- The hash value of a message as bytes, all words of it. -/
def ShaKind.hash (v : ShaKind) (m : List Byte) : List Byte :=
  let p := v.pad m
  (v.blocks (p.length / (2 * v.w)) p v.iv).flatMap fun x => (toBytes (v.w / 8) x).reverse

/-- The SHA-384 digest (R152, R449; PRESUMED, log entry 110). -/
def sha384 (m : List Byte) : List Byte := (kind384.hash m).take 48

/-- The SHA-256 digest (PRESUMED, log entry 110). -/
def sha256 (m : List Byte) : List Byte := kind256.hash m

/-- HMAC-SHA-256 of a message under a key (R380, R383; PRESUMED, log entry 110): key, message. -/
def hmac (key m : List Byte) : List Byte :=
  let k := if 64 < key.length then sha256 key else key
  let k := k ++ List.replicate (64 - k.length) 0
  sha256 (k.map (· ^^^ 0x5C) ++ sha256 (k.map (· ^^^ 0x36) ++ m))

/-! ### ECDSA on curve P-384 -/

/-- The prime of the field (PRESUMED, log entry 110). -/
def p384P : Nat := 2 ^ 384 - 2 ^ 128 - 2 ^ 96 + 2 ^ 32 - 1

/-- The order of the group (PRESUMED, log entry 110). -/
def p384N : Nat :=
  0xffffffffffffffffffffffffffffffffffffffffffffffffc7634d81f4372ddf581a0db248b0a77aecec196accc52973

/-- The curve is y^2 = x^3 - 3 x + b (PRESUMED, log entry 110). -/
def p384B : Nat :=
  0xb3312fa7e23ee7e4988e056be3f82d19181d9c6efe8141120314088f5013875ac656398d8a2ed19d2a85c8edd3ec2aef

/-- The base point (PRESUMED, log entry 110). -/
def p384G : Nat × Nat :=
  (0xaa87ca22be8b05378eb1c71ef320ad746e1d3b628ba79b9859f741e082542a385502f25dbf55296c3a545e3872760ab7,
   0x3617de4a96262c6f5d9e98bf9292dc29f8f41dbd289a147ce9da3113b5f0b8c00a60b1ce1d7e819d7a431d7c90ea0e5f)

/-- b to the power e modulo m, for exponents below 2^fuel. -/
def powMod (m : Nat) : Nat → Nat → Nat → Nat
  | 0, _, _ => 1
  | fuel + 1, b, e =>
    let r := powMod m fuel (b * b % m) (e / 2)
    if e % 2 = 1 then b * r % m else r

/-- The inverse modulo a prime below 2^384. -/
def invMod (m x : Nat) : Nat := powMod m 384 (x % m) (m - 2)

/-- A point of the curve; none is the neutral one. -/
abbrev Point := Option (Nat × Nat)

/-- The sum of two points. -/
def addPoint (a b : Point) : Point :=
  match a, b with
  | none, b => b
  | a, none => a
  | some (x1, y1), some (x2, y2) =>
    let chord := fun l =>
      let x := (l * l + 2 * p384P - x1 - x2) % p384P
      some (x, (l * (x1 + p384P - x) + p384P - y1) % p384P)
    if x1 = x2 then
      if (y1 + y2) % p384P = 0 then none
      else chord ((3 * x1 * x1 + p384P - 3) * invMod p384P (2 * y1) % p384P)
    else chord ((y2 + p384P - y1) * invMod p384P (x2 + p384P - x1) % p384P)

/-- A point added k times, for k below 2^fuel. -/
def mulPoint : Nat → Nat → Point → Point
  | 0, _, _ => none
  | fuel + 1, k, a =>
    let r := mulPoint fuel (k / 2) (addPoint a a)
    if k % 2 = 1 then addPoint a r else r

/-- The points with abscissa x. -/
def liftPoint (x : Nat) : List (Nat × Nat) :=
  let c := (x * x * x + p384B + 3 * (p384P - x)) % p384P
  let y := powMod p384P 384 c ((p384P + 1) / 4)
  if x < p384P ∧ y * y % p384P = c then [(x, y), (x, (p384P - y) % p384P)] else []

/-- A public key in uncompressed SEC1 form, 97 bytes. -/
def sec1 (q : Nat × Nat) : List Byte := 4 :: ((toBytes 48 q.1).reverse ++ (toBytes 48 q.2).reverse)

/-- The public keys under which a signature r, s of a digest z verifies: s R = z G + r Q for a point R with abscissa r modulo
the order. -/
def signers (r s z : Nat) : List (Nat × Nat) :=
  if r = 0 ∨ s = 0 ∨ p384N ≤ r ∨ p384N ≤ s then []
  else
    let i := invMod p384N r
    let zg := mulPoint 384 ((p384N - z % p384N) * i % p384N) (some p384G)
    (liftPoint r ++ liftPoint (r + p384N)).filterMap fun p => addPoint (mulPoint 384 (s * i % p384N) (some p)) zg

/-- The name of a public key: the digest of its uncompressed SEC1 form (R446) (PRESUMED, log entry 110). -/
def keyId (pub : List Byte) : List Byte := sha384 pub

/-- A signature of 96 bytes, r then s big-endian, over a digest verifies under the public key that a KEY_ID names (R152, R446;
PRESUMED, log entry 110). -/
def ecdsaVerify (id digest sig : List Byte) : Bool :=
  (signers (ofBytes (sig.take 48).reverse) (ofBytes (sig.drop 48).reverse) (ofBytes digest.reverse)).any fun q =>
    keyId (sec1 q) == id

end Sys2Proof.Machine
end

