-- ==== Sys2Proof/Machine/Island.lean ====
section
/-! DEFINITION. The Excise island: accounts, feeds, limits, commits, the audit log and the EXC view (R392 to R411). -/

namespace Sys2Proof.Machine

/-- Account n on the island. -/
def State.account (s : State) (n : Nat) : Account := Tab.get {} s.exc.cur.accounts n
/-- Replace account n. -/
def State.setAccount (s : State) (n : Nat) (a : Account) : State :=
  { s with exc := { s.exc with cur := { s.exc.cur with accounts := Tab.put {} s.exc.cur.accounts n a } } }

/-- Change what the island holds. -/
def State.modIsland (s : State) (f : IslandData → IslandData) : State :=
  { s with exc := { s.exc with cur := f s.exc.cur } }

/-- The bytes of an audit-log entry (R406). -/
def AuditEntry.bytes (e : AuditEntry) : List Byte :=
  toBytes 8 e.index ++ toBytes 8 e.tick ++ toBytes 4 e.nt ++ toBytes 4 e.wraps ++ toBytes 2 e.type_
    ++ toBytes 1 e.account ++ toBytes 1 0 ++ toBytes 8 e.arg0 ++ toBytes 8 e.arg1 ++ e.chain

/-- Audit-log entry types (R407). -/
def audVoucherLoaded : Nat := 1
/-- VOUCHER_REFUSED. -/
def audVoucherRefused : Nat := 2
/-- ENFORCE. -/
def audEnforce : Nat := 3
/-- VOUCHER_KEY. -/
def audVoucherKey : Nat := 4
/-- SEAL_CHANGE. -/
def audSealChange : Nat := 5
/-- SEALED. -/
def audSealed : Nat := 6
/-- LEDGER_BREAK. -/
def audLedgerBreak : Nat := 7
/-- NT_LOAD. -/
def audNtLoad : Nat := 8
/-- DEBUG_REOPEN. -/
def audDebugReopen : Nat := 9
/-- PART_CHANGE. -/
def audPartChange : Nat := 10
/-- POWER_UP (open corners: DEDUCED, log entry 61). -/
def audPowerUp : Nat := 11

/-- Enter an audit-log entry (R406); nothing while the island does not run (R398). -/
def audit (type_ account arg0 arg1 : Nat) (s : State) : State :=
  if !s.exc.up then s
  else
    let d := s.exc.cur
    let chain := match d.log with
      | [] => List.replicate 20 0
      | e :: _ => (sha384 e.bytes).take 20
    let e : AuditEntry :=
      { index := d.nextIndex, tick := s.now, nt := s.get NT_NOW / 2 ^ 32, wraps := s.get NT_WRAPS, type_ := type_,
        account := account, arg0 := arg0 % 2 ^ 64, arg1 := arg1 % 2 ^ 64, chain := chain }
    { s with exc := { s.exc with cur := { d with
        log := (e :: d.log).take 1024, nextIndex := d.nextIndex + 1,
        ledger := (d.ledger || type_ == audLedgerBreak) && type_ != audPowerUp } } }

/-- A LEDGER_BREAK of the island (R24, R393, R407): cause 0 commit lost, 1 epoch gap, 2 memory error (open corners:
DEDUCED, log entry 61). -/
def ledgerBreak (account cause arg1 : Nat) (s : State) : State := (audit audLedgerBreak account cause arg1 s).event 75 account

/-- The island's image identity (R402). -/
def sealId (s : State) : List Byte := sha384 s.exc.cur.image

/-- Charge k shots counted as begun (R396). -/
def Account.charge (a : Account) (k : Nat) : Account :=
  { a with begun := a.begun + k, balance := a.balance - k, uncharged := a.uncharged + (k - a.balance) }

/-- The island takes one partition's totals (R394, R396): `same` says that the epoch of the last totals is this one. -/
def Account.feed (a : Account) (p : Part) (aborted : Nat) (same : Bool) : Account :=
  let d := fun (now last : Nat) => if same then now - last else now
  let a := a.charge (d p.begun a.lBegun)
  { a with
      completed := a.completed + d p.completed a.lCompleted
      aborted := a.aborted + d aborted a.lAborted
      meas := a.meas + d p.meas a.lMeas
      active := a.active + d p.active a.lActive
      lBegun := p.begun, lCompleted := p.completed, lAborted := aborted, lMeas := p.meas, lActive := p.active }

/-- A count feed (R394); in the final feed of an epoch every shot in flight counts as aborted. An enforced balance that
reaches 0 raises event 73 (R410). -/
def islandFeed (final : Bool) (s : State) : State :=
  if !s.exc.up then s
  else
    let same := s.exc.cur.epoch == s.exc.epoch
    let s := (List.range 16).foldl
      (fun s n =>
        let p := (s.part n).upTo s.now
        let was := (s.account n).balance
        let a := (s.account n).feed p (p.aborted + (if final then p.inflight else 0)) same
        let s := s.setAccount n a
        if s.exc.cur.enforce.testBit n && was > 0 && a.balance == 0 then s.event 73 else s) s
    s.modIsland fun d => { d with epoch := s.exc.epoch }

/-- The limit messages of the enforced accounts (R397). -/
def limitFeed (s : State) : State :=
  if !s.exc.up || !s.on GLB_REV_VARIANT then s
  else
    (List.range 16).foldl
      (fun s n =>
        let p := s.part n
        let a := s.account n
        if s.exc.cur.enforce.testBit n then
          s.setPart n { p with enforced := true, limit := a.begun + a.balance, limitAt := s.up }
        else s.setPart n { p with enforced := false }) s

/-- The Cellar die lies within 0 to 85 degrees C (R393, R440). -/
def cellarWarm (s : State) : Bool := !s.on KILN_STATUS_CEL_INHIBIT

/-- The island commits, or waits for the temperature (R393). -/
def islandCommit (s : State) : State :=
  if !s.exc.up then s
  else if cellarWarm s then { s with exc := { s.exc with saved := s.exc.cur, dirty := false } }
  else { s with exc := { s.exc with dirty := true } }

/-- The island goes down (R398, R410). -/
def islandDown (s : State) : State :=
  if s.on EXC_STATUS_ISLAND_UP then (s.setB EXC_STATUS_ISLAND_UP false).event 76 else s

/-- The island starts from its last completed commit (R393, R398); an epoch that has advanced since it went down breaks every account's
ledger (R394) (DEDUCED, log entry 60). -/
def islandStart (s : State) : State :=
  let s := { s with exc := { s.exc with up := true, cur := s.exc.saved, dirty := false } }
  if s.exc.downAt = s.exc.epoch then s
  else (List.range 16).foldl (fun s n => ledgerBreak n 1 0 s) s

/-- What the EXC view shows of the island's data: the fields that the Cellar holds through a reset (R411) (DEDUCED, log entry 60). -/
def excShow (d : IslandData) (s : State) : State :=
  let s := s.setB EXC_STATUS_SEALED d.sealed
  let s := s.set EXC_STATUS_ENFORCE d.enforce
  let s := s.set EXC_SEAL_BREAKS d.breaks
  let s := s.set EXC_LOG_INDEX d.nextIndex
  let s := s.set EXC_FEED_EPOCH d.epoch
  let id := sha384 d.image
  let s := (List.range 12).foldl (fun s j => s.set (EXC_SEAL_ID j) (ofBytes ((id.drop (4 * j)).take 4))) s
  (List.range 16).foldl
    (fun s n =>
      let a : Account := Tab.get {} d.accounts n
      [a.begun, a.completed, a.aborted, a.meas, a.active, a.loaded, a.balance, a.uncharged].zipIdx.foldl
        (fun s v => s.set (EXC_ACC_COUNT n v.2) v.1) s) s

/-- Refresh the EXC view (R411) (open corners: DEDUCED, log entry 60). -/
def excView (s : State) : State :=
  if !s.exc.up then s
  else
    let d := s.exc.cur
    let s := (s.setB EXC_STATUS_ISLAND_UP true).setB EXC_STATUS_LEDGER_BREAK d.ledger
    excShow d (s.set EXC_VIEW_TICK s.now)

end Sys2Proof.Machine
end

