-- ==== Sys2Proof/Machine/Samples.lean ====
section
/-! DEFINITION. The samples that lanes, RFO ports and ZF ports form at each tick: envelopes, carriers, sums, clips, limits and
discarded sums (R169 to R176, R193, R194, R199, R207 to R210). -/

namespace Sys2Proof.Machine

/-! ### One pulse (R170, R171, R173) -/

/-- Sample m of a pulse, on a tone lane or a Z lane: a Z lane plays the I part (R167, R169). -/
def pulseU (tone : Bool) (x : Pulse) (m : Nat) (s : State) : Int × Int :=
  let u := sampleAt (x.seq / 8) x.desc m s
  (u.1, if tone then u.2 else 0)

/-- Sum of the pairs that f gives for 0..n - 1. -/
def sumTo (n : Nat) (f : Nat → Int × Int) : Int × Int :=
  (List.range n).foldl (fun acc m => (acc.1 + (f m).1, acc.2 + (f m).2)) (0, 0)

/-- The interpolated samples v[n] of a pulse [2^-39], 0 outside 0..L k - 1: the samples themselves at multiples of k, and between
them a filter of linear phase whose taps the spec does not give (R170) (DESIGN CHOICE, log entry 9). -/
def pulseV (tone : Bool) (x : Pulse) (n : Int) (s : State) : Int × Int :=
  let k := dInterp x.desc
  if n < 0 ∨ (dTicks x.desc : Int) ≤ n then (0, 0)
  else
    let n := n.toNat
    if n % k = 0 then
      let u := pulseU tone x (n / k) s
      (u.1 * 2 ^ 24, u.2 * 2 ^ 24)
    else sumTo (dLength x.desc) fun m =>
      let h := Config.interpTap k (absI ((n : Int) - (k * m : Nat)))
      let u := pulseU tone x m s
      (h * u.1, h * u.2)

/-- The envelope e[n] of a pulse [2^-82]: derivative quadrature, then both scales (R170); a Z lane has no quadrature (R176)
(DESIGN CHOICE, log entry 9). -/
def pulseE (tone : Bool) (x : Pulse) (n : Int) (s : State) : Int × Int :=
  let v := pulseV tone x n s
  let next := pulseV tone x (n + 1) s
  let prev := pulseV tone x (n - 1) s
  let beta := if tone then dBeta x.desc else 0
  let g := x.a * (dScale x.desc : Int)
  (g * (2 ^ 13 * v.1 - beta * (next.2 - prev.2)), g * (2 ^ 13 * v.2 + beta * (next.1 - prev.1)))

/-- The envelope of a pulse at tick t [2^-106], delayed by its FINE / 32 tick: the spec does not give the taps of that filter
(R171) (DESIGN CHOICE, log entry 9). -/
def pulseEnv (tone : Bool) (x : Pulse) (t : Nat) (s : State) : Int × Int :=
  if x.fine = 0 then
    let e := pulseE tone x ((t : Int) - x.t0) s
    (e.1 * 2 ^ 24, e.2 * 2 ^ 24)
  else sumTo (dTicks x.desc) fun m =>
    let h := Config.delayTap x.fine ((t : Int) - x.t0 - m)
    let e := pulseE tone x m s
    (h * e.1, h * e.2)

/-- The baseband phase of a pulse on a lane whose port has the centre word fc, at tick t [2^-48 turn] (R173). -/
def pulsePhase (x : Pulse) (fc t : Nat) : Nat :=
  wrap 48 (((x.f : Int) - fc) * (32 * t : Nat) + (x.p * 2 ^ 16 + x.o * 2 ^ 32 + b2n x.z * 2 ^ 47 : Nat))

/-- What a pulse contributes to its tone lane at tick t, I and Q [2^-15] (R173) (DESIGN CHOICE, log entry 9). -/
def toneSample (x : Pulse) (fc t : Nat) (s : State) : Int × Int :=
  let e := pulseEnv true x t s
  let ph := pulsePhase x fc t
  let c := cosTurn ph
  let d := sinTurn ph
  (roundTo 0 151 (e.1 * c - e.2 * d), roundTo 1 151 (e.1 * d + e.2 * c))

/-- What a pulse contributes to its Z lane at tick t [2^-15] (R176) (DESIGN CHOICE, log entry 9). -/
def zSample (x : Pulse) (t : Nat) (s : State) : Int := roundTo 2 91 (pulseEnv false x t s).1

/-! ### Lane and port sums (R175, R176) -/

/-- The pulses of lane n that play at tick t. -/
def playing (n t : Nat) (s : State) : List Pulse := (laneOf n s).filter fun q => q.t0 ≤ t && t ≤ q.last

/-- The sum of a tone lane at tick t, with whether it was clipped: each of I and Q to -4.0..+4.0 - 2^-15 (R175). -/
def toneSum (n t : Nat) (s : State) : (Int × Int) × Bool :=
  let v := (playing n t s).foldl
    (fun acc x =>
      let u := toneSample x (centreWord n s) t s
      (acc.1 + u.1, acc.2 + u.2)) (0, 0)
  let c := (satI 18 v.1, satI 18 v.2)
  (c, c != v)

/-- The sum of Z lane 2,304 + z at tick t, with whether it was clipped to -1.0..+1.0 - 2^-15 (R176). -/
def zSum (z t : Nat) (s : State) : Int × Bool :=
  let v := (playing (2304 + z) t s).foldl (fun acc x => acc + zSample x t s) 0
  (satI 16 v, satI 16 v != v)

/-- The sum of the eight lanes of RFO port p at tick t, before the limit (R175). -/
def portSum (p t : Nat) (s : State) : Int × Int :=
  (List.range 8).foldl
    (fun acc j =>
      let u := (toneSum (8 * p + j) t s).1
      (acc.1 + u.1, acc.2 + u.2)) (0, 0)

/-- A port sum whose magnitude exceeds 1.0 is limited (R175). -/
def portLimits (v : Int × Int) : Bool := decide (v.1 * v.1 + v.2 * v.2 > 2 ^ 30)

/-- The limited port sum: magnitude 1.0 with the phase kept; a component that is no whole number of 2^-15 is one of its neighbours
(R175) (DESIGN CHOICE, log entry 9). -/
def limitSum (v : Int × Int) : Int × Int :=
  if portLimits v then
    let m := absI (v.1 * v.1 + v.2 * v.2)
    let part := fun (stage : Nat) (x : Int) =>
      let sq := absI x * absI x * 2 ^ 30
      let r := Nat.sqrt (sq / m)
      let up := if r * r * m = sq then 0 else b2n (Config.roundUp stage x)
      if x < 0 then -((r + up : Nat) : Int) else ((r + up : Nat) : Int)
    (part 6 v.1, part 7 v.2)
  else v

/-- What the gate of RFO port p passes at tick t, I and Q [2^-135]: nothing unless the port is ACTIVE, else the limited sum times
both gains (R175, R182, R190, R193, R194). -/
def gatedSum (p t : Nat) (s : State) : Int × Int :=
  if rfoState p s = psActive then
    let v := limitSum (portSum p t s)
    let g : Int := gateGain p t s
    (v.1 * g, v.2 * g)
  else (0, 0)

/-! ### The effects of one tick -/

/-- A clipped sample of lane n at tick t is counted (R175, R176, R181) (open corners: DEDUCED, log entry 53). -/
def countClip (n t : Nat) (s : State) : State :=
  (wftLast n 5 0 0 t (s.incSat WFT_SAT_COUNT)).flag WFT_STATUS_LANE_SAT 30

/-- Tone lane n at tick t (R175). -/
def toneTick (t n : Nat) (s : State) : State := if (toneSum n t s).2 then countClip n t s else s

/-- RFO port p at tick t: its gated sum goes on to the interpolator (R182), and a limited sum and a discarded sum are counted
(R175, R194, R199) (open corners: DEDUCED, log entry 53). -/
def portTick (t p : Nat) (s : State) : State :=
  let v := portSum p t s
  let x := s.rfo p
  let s := s.setRfo p { x with past := (t, gatedSum p t s) :: x.past.filter fun g => decide (t < g.1 + 128) }
  let s := if portLimits v then
      (wftLast (8 * p) 6 0 0 t (s.incSat WFT_LIMIT_COUNT)).flag WFT_STATUS_PORT_LIMIT 30
    else s
  if rfoState p s = psActive ∨ v = (0, 0) then s
  else
    let s := if (s.rfo p).muteOn then s else s.incSat (RFO_DISCARD_TICKS p)
    if rfoState p s = psCal then s.flag (RFO_STATUS_CAL_COLLISION p) (rfoEvent p 3) else s

/-- ZF port z at tick t: the lane sum is clipped, passed or discarded, and goes through the correction chain (R176, R208 to
R210, R423) (open corners: DEDUCED, log entry 53). -/
def zTick (t z : Nat) (s : State) : State :=
  let v := zSum z t s
  let s := if v.2 then countClip (2304 + z) t s else s
  let gate := zfGate z s
  let s := if gate ∨ v.1 = 0 then s
    else
      let s := s.incSat (ZF_DISCARD_TICKS z)
      if zfCalibrating z s then s.setB (CAL_STATE_Z_COLLISION (z / 96)) true else s
  let x := zfChain z (if gate then v.1 else 0) s
  let s := s.setZp z x
  if zfClips x.q then (s.incSat (ZF_CLIP_COUNT z)).flag (ZP_STATUS_ZF_CLIP z) (zEvent z 15) else s

/-- Lane n plays at tick t. -/
def lanePlays (n t : Nat) (s : State) : Bool := !(playing n t s).isEmpty

/-- ZF port z has a sample to form at tick t: its lane plays, or its chain holds something. -/
def zWorks (t z : Nat) (s : State) : Bool := lanePlays (2304 + z) t s || !(s.zp z).quiet

/-- The samples of tick t, lane by lane, port by port (DESIGN CHOICE, log entry 9). -/
def sampleTick (t : Nat) (s : State) : State :=
  let tones := (List.range 2304).filter fun n => lanePlays n t s
  let ports := (List.range 288).filter fun p => (List.range 8).any fun j => lanePlays (8 * p + j) t s
  let zs := (List.range 768).filter fun z => zWorks t z s
  let s := tones.foldl (fun s n => toneTick t n s) s
  let s := ports.foldl (fun s p => portTick t p s) s
  zs.foldl (fun s z => zTick t z s) s

/-- Nothing plays at tick t or later, and every correction chain is empty. -/
def samplesQuiet (t : Nat) (s : State) : Bool :=
  s.lanes.all (fun l => l.2.all fun x => decide (x.last < t)) && s.zps.all fun z => z.2.quiet

/-- The samples of n ticks from tick t on. -/
def runSamples : Nat → Nat → State → State
  | 0, _, s => s
  | n + 1, t, s => if samplesQuiet t s then s else runSamples n (t + 1) (sampleTick t s)

/-- Pulses whose last sample lies before tick t have left their slots (R172). -/
def dropEnded (t : Nat) (s : State) : State :=
  s.lanes.foldl (fun s lp => setLane lp.1 (lp.2.filter fun x => t ≤ x.last) s) s

end Sys2Proof.Machine
end

