-- ==== Sys2Proof/Machine/Deferred.lean ====
section
/-! DEFINITION. Network time (R342 to R346, R54) and what the effects that wait for a tick do (Action). -/

namespace Sys2Proof.Machine

/-! ### Network time -/

/-- Move network time to the 64-bit value v + 2^64 w: each carry counts in NT_WRAPS, each borrow counts down, and either
raises event 112 (R343). -/
def setNt (v : Int) (s : State) : State :=
  let w := v / (2 ^ 64 : Nat)
  let s := s.set NT_NOW (wrap 64 v)
  if w = 0 then s else (s.set NT_WRAPS (wrap 32 (s.get NT_WRAPS + w))).event 112

/-- Cycles of the 500 MHz clock that begin in the ticks (t0, t1]: one every 4 ticks that the Timeline has counted, whatever loads and
steps have made of its value (R17, R342) (DESIGN CHOICE, log entry 11). -/
def ntCycles (t0 t1 : Nat) (s : State) : Nat := s.upOf t1 / 4 - s.upOf t0 / 4

/-- Network time advances over the ticks (t0, t1] (R342) (DESIGN CHOICE, log entry 11). -/
def ntTime (t0 t1 : Nat) (s : State) : State :=
  let n := ntCycles t0 t1 s
  if n = 0 then s else setNt (s.get NT_NOW + s.get NT_INC * n : Nat) s

/-- The first 500 MHz cycle that begins at least 8 ticks after now (R345) (DESIGN CHOICE, log entry 11). -/
def ntCycleAfter (t : Nat) (s : State) : Nat := t + 8 + (4 - s.upOf (t + 8) % 4) % 4

/-- Capture a pair of Timeline and network time (R54); src 0 periodic, 1 command. -/
def pairCapture (src : Nat) (s : State) : State :=
  let nt := ntAt s.now s
  let s := s.set TL_PAIR_TL s.now
  let s := s.set TL_PAIR_NT (nt / 2 ^ 32)
  let s := s.set TL_PAIR_NTF_NT_FRAC (bits nt 24 8)
  let s := s.set TL_PAIR_NTF_SRC src
  (s.inc TL_PAIR_SEQ).event 100

/-- Network time has moved by a step or a load: the timed heads are judged by it from the next cycle on (R350)
(DEDUCED, log entry 48). -/
def timedAfresh (s : State) : State :=
  [0, 1].foldl (fun s e => s.setEth e { s.eth e with judge := max (s.eth e).judge (s.up + 1) }) s

/-- A pending STEP takes effect (R345) (open corners: DEDUCED, log entry 48). -/
def ntStep (s : State) : State :=
  let s := timedAfresh (s.setB NT_STATUS_STEP_PENDING false)
  let step := sgn 64 (s.get NT_STEP)
  if absI step ≤ s.get NT_STEP_MAX * 2 ^ 32 then
    ((setNt (s.get NT_NOW + step) s).incSat NT_STEPS).event 113
  else
    ((s.setB NT_STATUS_STEP_REFUSED true).incSat NT_REFUSALS).event 114

/-- A pending LOAD takes effect: it is entered in the Excise audit log (R345, R407) (open corners: DEDUCED, log entry 48). -/
def ntLoad (s : State) : State :=
  let s := timedAfresh (s.setB NT_STATUS_STEP_PENDING false)
  let v := s.get NT_LOAD
  audit audNtLoad 0xFF v 0 (((setNt v s).incSat NT_STEPS).event 113)

/-! ### Timeline loads (R28, R31) -/

/-- Timeline-dependent activity is present (R28).  A Tap unit is armed from the tick at which ARM acts to the end of the acquisition;
an armed Timeline timer is a monitor entry with TRIG = AT that has not fired, and one with TRIG = PERIOD is none, though it fires at
Timeline values too (open corners: DEDUCED, log entry 81). -/
def tlActive (s : State) : Bool :=
  seqActive s
    || (List.range 32).any (fun i => tapState i s != tapIdle && decide (tapState i s < tapDone))
    || s.tl.pins.any (fun p => p.2.armed.isSome)
    || (s.on MON_CTRL_EN && (List.range 10).any fun x => (List.range 8).any fun j =>
          s.get (MON_SEQ_TRIG x j) == 2 && !(s.mon x).done.contains (j, s.get (MON_SEQ_AT x j)) && s.get (MON_SEQ_AT x j) ≥ s.now)

/-- A tick moved by d (DEDUCED, log entry 13). -/
def shiftTick (d : Int) (t : Nat) : Nat := ((t : Int) + d).toNat

/-- A ramp moved by d; one that has ended keeps its end. -/
def Ramp.shift (d : Int) (now : Nat) (r : Ramp) : Ramp :=
  { r with at_ := shiftTick d r.at_, hard := r.hard || decide (r.at_ + 32 ≤ now) }

/-- A piece of a current moved by d; one that has ended keeps its end. -/
def Seg.shift (d : Int) (now : Nat) (g : Seg) : Seg :=
  if g.at_ + g.d ≤ now then ⟨shiftTick d g.at_, 0, g.b, g.b⟩ else ⟨shiftTick d g.at_, g.d, g.a, g.b⟩

/-- An instant where there is one. -/
def shiftOpt (d : Int) (t : Option Nat) : Option Nat := t.map (shiftTick d)

/-- An RFO port's instants move by d. -/
def Rfo.shift (d : Int) (now : Nat) (x : Rfo) : Rfo :=
  { x with enGain := x.enGain.shift d now, muteGain := x.muteGain.shift d now,
           pend := x.pend.map (shiftTick d), down := shiftOpt d x.down, past := x.past.map fun g => (shiftTick d g.1, g.2) }

/-- A Z port's instants move by d. -/
def Zp.shift (d : Int) (now : Nat) (x : Zp) : Zp :=
  { x with
      segs := x.segs.map (Seg.shift d now)
      window := x.window.map fun w => { w with opened := shiftTick d w.opened, ends := shiftTick d w.ends }
      windows := x.windows.map fun w => (shiftTick d w.1, shiftTick d w.2)
      park := x.park.map fun p =>
        { p with from_ := shiftTick d p.from_, open_ := shiftOpt d p.open_, ends := shiftTick d p.ends }
      parkAt := shiftOpt d x.parkAt
      enAt := shiftOpt d x.enAt
      pend := x.pend.map (shiftTick d)
      stream := x.stream.map fun c => cycleAfter (shiftTick d (cycleTick c))
      reqAt := shiftTick d x.reqAt
      lastAt := none }

/-- An effect to come keeps its distance in time; those that name an instant have it moved with them (DEDUCED, log entry 13). -/
def Action.shift (d : Int) : Action → Action
  | .source code stamp => .source code (((stamp : Int) + 32 * d).toNat)
  | .decIndex w t => .decIndex w (shiftTick d t)
  | .decRead w t => .decRead w (shiftTick d t)
  | .abortEnd k t => .abortEnd k (shiftTick d t)
  | .tauLand k t => .tauLand k (shiftTick d t)
  | .trapReturn k t => .trapReturn k (shiftTick d t)
  | .tapRun i key => .tapRun i (((key : Int) + 64 * 32 * d).toNat)
  | .tapArm i t => .tapArm i (shiftTick d t)
  | .tapRearm i t => .tapRearm i (shiftTick d t)
  | .busLaunch type t => .busLaunch type (shiftTick d t)
  | .zParkOpen z t => .zParkOpen z (shiftTick d t)
  | .zParkEnd z t => .zParkEnd z (shiftTick d t)
  | .zParkDone z t => .zParkDone z (shiftTick d t)
  | .zWindowEnd z t => .zWindowEnd z (shiftTick d t)
  | .zRampEnd z t => .zRampEnd z (shiftTick d t)
  | .zStream z c => .zStream z (cycleAfter (shiftTick d (cycleTick c)))
  | .rfoIdle p t => .rfoIdle p (shiftTick d t)
  | .wftBank t => .wftBank (shiftTick d t)
  | .kBank i t => .kBank i (shiftTick d t)
  | a => a

/-- A Tap unit's instants move by d. -/
def Tap.shift (d : Int) (x : Tap) : Tap :=
  let fine := fun (t : Nat) => ((t : Int) + 32 * d).toNat
  { x with
      armedAt := shiftTick d x.armedAt, armAt := shiftOpt d x.armAt, rearmAt := shiftTick d x.rearmAt
      cap := x.cap.map fun c => { c with stamp := fine c.stamp, first := c.first + 32 * d }
      judged := x.judged.map fine
      waiting := x.waiting.map fun e => { e with stamp := fine e.stamp }
      marks := x.marks.map fun m => { m with until_ := fine m.until_, armedAt := shiftTick d m.armedAt }
      tones := x.tones.map fun m => { m with until_ := shiftTick d m.until_ } }

/-- A pin's pulse moves by d with the Timeline; one that has ended by now is forgotten. -/
def Pin.shift (d : Int) (now : Nat) (x : Pin) : Pin :=
  { x with pulse := match x.pulse with
      | some p => if pulseHigh p.1 p.2 now then some (wrap 64 ((p.1 : Int) + 32 * d), p.2) else none
      | none => none }

/-- The first multiple of 2,000,000,000 ticks at or after tick t. -/
def secondFrom (t : Nat) : Nat := ceilDiv t 2000000000 * 2000000000

/-- The Timeline is moved by d ticks while nothing depends on it (R28): every instant that the units hold keeps its distance
in time; registers that hold Timeline values keep them (DEDUCED, log entry 13). -/
def moveTimeline (d : Int) (s : State) : State :=
  let now := s.now
  let m := shiftTick d
  let s := s.set TL_NOW (wrap 64 ((now : Int) + d))
  { s with
      due := s.due.map fun a => (m a.1, a.2.shift d)
      tl := { s.tl with
        moved := s.tl.moved + ((wrap 64 ((now : Int) + d) : Nat) - (now : Int))
        pins := s.tl.pins.map fun p => (p.1, p.2.shift d now)
        angle := { s.tl.angle with
          tIdx := ((s.tl.angle.tIdx : Int) + 256 * d).toNat, reading := none,
          quadStamp := ((s.tl.angle.quadStamp : Int) + 256 * d).toNat, changed := m s.tl.angle.changed, past := [] }
        echo := s.tl.echo.map fun e => { e with reqStamp := ((e.reqStamp : Int) + 32 * d).toNat }
        lineFree := ((s.tl.lineFree : Int) + 32 * d).toNat
        pairNext := secondFrom (m now), checkNext := secondFrom (m now) }
      seqs := s.seqs.map fun kq =>
        (kq.1, { kq.2 with readyAt := m kq.2.readyAt, abort := kq.2.abort.map fun a => { a with ends := m a.ends } })
      tuns := s.tuns.map fun x => (x.1, { x.2 with tauGrants := [] })
      recs := s.recs.map fun r => { r with at_ := m r.at_ }
      taps := s.taps.map fun x => (x.1, x.2.shift d)
      exc := { s.exc with
        parts := s.exc.parts.map fun x =>
        (x.1, { x.2 with since := m x.2.since }) }
      rfis := s.rfis.map fun x =>
        (x.1, { x.2 with
          pend := x.2.pend.map m, spans := x.2.spans.map fun p => (m p.1, shiftOpt d p.2), epochAt := m x.2.epochAt,
          bank := x.2.bank.map fun b => { b with at_ := m b.at_ } })
      laus := s.laus.map fun x =>
        (x.1, { x.2 with windows := x.2.windows.map fun w => { w with fire := m w.fire, w0 := m w.w0, e := m w.e } })
      lanes := s.lanes.map fun x => (x.1, x.2.map fun p => { p with t0 := m p.t0, last := m p.last })
      wft := { s.wft with bank := s.wft.bank.map fun b => { b with at_ := m b.at_ } }
      links := s.links.map fun x =>
        (x.1, { x.2 with
          owedAt := m x.2.owedAt, since := m x.2.since, crcAt := x.2.crcAt.map m, exitAt := shiftOpt d x.2.exitAt,
          quiet := m x.2.quiet, timeAt := m x.2.timeAt, flushTo := m x.2.flushTo })
      fibres := s.fibres.map fun x => (x.1, { x.2 with lockAt := shiftOpt d x.2.lockAt, sentAt := m x.2.sentAt })
      decs := s.decs.map fun x =>
        (x.1, { x.2 with
          start := shiftOpt d x.2.start, evalAt := shiftOpt d x.2.evalAt, defer := shiftOpt d x.2.defer,
          judged := shiftOpt d x.2.judged,
          rounds := x.2.rounds.map fun r => { r with at_ := m r.at_ } })
      rfos := s.rfos.map fun x => (x.1, x.2.shift d now)
      zps := s.zps.map fun x => (x.1, x.2.shift d now)
      cals := s.cals.map fun x =>
        (x.1, { x.2 with
          reqAt := m x.2.reqAt, lastEnd := m x.2.lastEnd, fired := shiftOpt d x.2.fired, busyTo := m x.2.busyTo,
          offers := x.2.offers.map fun o => (m o.1, m o.2), step := x.2.step.map fun st => { st with at_ := m st.at_ } })
      mons := s.mons.map fun x =>
        (x.1, { x.2 with
          fires := x.2.fires.map fun f => (f.1, f.2.map m), waiting := x.2.waiting.map fun w => (w.1, m w.2),
          begun := x.2.begun.map fun c => { c with fire := m c.fire, at_ := m c.at_ },
          freeAt := m x.2.freeAt,
          done := x.2.done.filter fun p => s.get (MON_SEQ_TRIG x.1 p.1) == 2, sweep := x.2.sweep.map fun p => (m p.1, p.2) })
      brgs := s.brgs.map fun x =>
        (x.1, { x.2 with since := m x.2.since, passAt := m x.2.passAt, dueAt := m x.2.dueAt, codes := x.2.codes.map fun c => (c.1, c.2.1, m c.2.2) })
      kiln := { s.kiln with
        levelAt := m s.kiln.levelAt
        sensors := s.kiln.sensors.map fun x =>
          (x.1, { x.2 with readAt := m x.2.readAt, past := x.2.past.map fun p => (m p.1, p.2) }) }
      anas := s.anas.map fun x => (x.1, { x.2 with at_ := m x.2.at_, startAt := shiftOpt d x.2.startAt })
      queues := s.queues.map fun x => (x.1, { x.2 with items := x.2.items.map fun it => { it with visible := m it.visible } })
      load := s.load.map fun p => (m p.1, shiftOpt d p.2)
      fences := s.fences.map fun x => (x.1, x.2 % 256 + 256 * m (x.2 / 256)) }

/-- A load or step is refused (R28, R31). -/
def stepRefused (s : State) : State := (s.setB TL_STATUS_STEP_REFUSED true).event 97

/-- The Timeline takes a new value, and the device is aligned (R31, R40) (DEDUCED, log entry 13). -/
def setTimeline (v : Nat) (s : State) : State :=
  let s := moveTimeline ((v : Int) - s.now) s
  (s.setB TL_STATUS_ALIGNED true).incSat TL_STEP_COUNT

/-- A load is carried out or refused (R28, R31) (open corners: DEDUCED, log entry 81). -/
def tlLoad (s : State) : State :=
  if s.get TL_CFG_ROLE = 2 ∨ tlActive s then stepRefused s else setTimeline (s.get TL_LOAD_VALUE) s

/-! ### Effects that wait for a tick -/

/-- A write of memory byte a takes effect: the tables with banks, the weights, the Decision Table, whose reserved bits do not exist,
and the rest (R8, R165, R177, R246, R278, R283). -/
def memWrite (a t : Nat) (b : Byte) (s : State) : State :=
  if 0x01100000 ≤ a ∧ a < 0x01300000 then shadowByte (a - 0x01100000) b s
  else if 0x02000000 ≤ a ∧ a < 0x03000000 then
    let c := (a - 0x02000000) / 0x4000
    let off := (a - 0x02000000) % 0x4000
    if off < 0x2000 then weightByte c a t b s else kernelShadowByte c (off - 0x2000) b s
  else if 0x01600000 ≤ a ∧ a < 0x01800000 then
    s.setByte a (maskByte (match a % 4 with | 0 => 0x7F | 3 => 0x03 | _ => 0xFF) b)
  else s.setByte a b

/-- What an effect does at tick t (DESIGN CHOICE, log entry 2). -/
def act (a : Action) (t : Nat) (s : State) : State :=
  match a with
  | .memByte x b => memWrite x t b s
  | .source code stamp => fireSource code stamp t s
  | .busLaunch type at_ => busLaunch type at_ s
  | .tlLoad => tlLoad s
  | .capture => pairCapture 1 s
  | .abortEnd k at_ => abortEnd k at_ s
  | .tauLand k at_ => landTau k at_ s
  | .trapReturn k at_ => trapReturn k at_ s
  | .frameDword f dw v => frameDword f dw v s
  | .zEnable z => zEnabled z t s
  | .zDisable z => zDisabled z s
  | .rfiEnable i => rfiEnabled i t s
  | .rfiDisable i => rfiDisabled i t s
  | .lauEn c on => s.setB (LAU_STATUS_ACTIVE c) on
  | .decEn d on => decEnable d on t s
  | .decBase d v => s.setDec d { s.dec d with base := v }
  | .decTmo d v => (s.setDec d { s.dec d with tmo := v }).later t (.decJudge d)
  | .decIndex d at_ => decIndexAt d at_ s
  | .decRead d at_ => decReadAt d at_ s
  | .tapRun i key => tapRun i key s
  | .tapArm i at_ => tapArmDue i at_ s
  | .tapRearm i at_ => tapRearmed i at_ s
  | .winOpen c => windowOpens c t s
  | .winEnd c => windowEnds c t s
  | .decJudge d => judgeOnce d t s
  | .rfoOff p => rfoOff p t s
  | .rfoEnable p => rfoEnabled p t s
  | .rfoIdle p ramp => rfoIdle p ramp s
  | .rfoDown p => rfoDown p t s
  | .rfoMute p on => rfoMute p on t s
  | .zParkOpen z from_ => zParkOpen z from_ s
  | .zParkEnd z from_ => zParkEnd z from_ t s
  | .zParkDone z from_ => zParkDone z from_ s
  | .zWindowOpen z => openWindow z t s
  | .zWindowEnd z opened => zWindowEnd z opened t s
  | .zRampEnd z ramp => zRampEnd z ramp t s
  | .zStream z c => streamSample z c t s
  | .wftBank at_ => wftBankDue at_ s
  | .kBank i at_ => kBankDue i at_ s
  | .ntStep => ntStep s
  | .ntLoad => ntLoad s
  | .ntInc v => s.set NT_INC v
  | .anaStart a => engStart a t s
  | .cfg f v b => cfgLater f v b s

/-! ### Named events that time brings about -/

/-- The periodic pair capture at a multiple of 1 s (R54). -/
def secondPair (s : State) : State :=
  pairCapture 0 { s with tl := { s.tl with pairNext := s.tl.pairNext + 2000000000 } }

/-- What an entry does in its target as it fires (R72, R78) (DEDUCED, log entry 37). -/
def entryAct (e : Entry) (s : State) : State :=
  match e.kind with
  | 0 => firePulse e.target e s
  | 1 => firePulse e.target e s
  | 2 => fireBias (e.target - 2304) e s
  | 3 => fireBias (e.target - 2304) e s
  | 4 => fireMeasure e s
  | 5 => tapTrigger e.target 1 0 0 (bits e.a 0 8) e.seq (32 * e.tick + e.fine) s
  | _ => frameOp e.target e.a e.b s

/-- The head entry of queue j of sequencer k fires: it leaves the queue and acts (R78) (DEDUCED, log entry 37). -/
def fireEntry (k j : Nat) (s : State) : State :=
  match teq k j s with
  | [] => s
  | e :: _ =>
    let s := entryAct e (popTeq k j e.tick s)
    noteEntry e (entryEnd e s) s

/-- The router writes the oldest record that waits (R252, R256). -/
def routeHead (s : State) : State :=
  match s.recs with
  | r :: rest => routeRecord r (r.at_ + 8) { s with recs := rest }
  | [] => s

/-- The oldest round of window d that is under way acts, 32 ticks after it became ready or failed (R281). -/
def actRound (d : Nat) (s : State) : State :=
  match (s.dec d).rounds with
  | r :: _ => roundAction d r (r.at_ + 32) s
  | [] => s

/-- Effects that time brings about: one that waits in `due`, the head entry of a queue, a round's action, the oldest record, the end
of an echo request's wait, the two things that happen at a multiple of 1 s, the head of a timed Ethernet queue, a virtual index of
the Cycle Angle, a monitor entry that fires and a monitor conversion that starts. -/
inductive Ev where
  | due (a : Action) (rest : List (Nat × Action))
  | entry (k j : Nat)
  | round (d : Nat)
  | record
  | echo
  | check
  | pair
  | launch (e : Nat)
  | miss
  | monFire (x j : Nat)
  | monStart (x : Nat)

/-- The place of an effect in the order of the model: its tick, then its rank among the effects of one tick
(DESIGN CHOICE, log entry 2). -/
def keyOf (t rank : Nat) : Nat := 65536 * t + rank

/-- Rank of an entry with SEQ field k in queue j: FRAME entries come before the Pauli updates of their tick, these before every
other entry
(R78, R164); within each, ascending sequencer, then ascending queue (R78) (DESIGN CHOICE, log entry 2). -/
def rankEntry (k j kind : Nat) : Nat := (if kind = 6 then 2 else 30000) + 32 * k + j
/-- Rank of a record's way into the Result Vector and its ring (DESIGN CHOICE, log entry 2; DEDUCED, log entry 42). -/
def rankRecord : Nat := 1

/-- Rank of an effect that waits in `due`: a decision window is judged, a round's index formed and its word read, and a Tap unit
takes up the triggers of a tick, when everything else of the tick has taken place (R273, R283, R307) (DESIGN CHOICE, log entry 2). -/
def Action.rank : Action → Nat
  | .decJudge d => 48000 + d
  | .decIndex .. => 48100
  | .decRead .. => 48101
  | .tapRun i _ => 50000 + i
  | _ => 0

/-- Rank of window d's action (DESIGN CHOICE, log entry 2). -/
def rankRound (d : Nat) : Nat := 20000 + d
/-- Rank of a timed Ethernet head, which comes before the other effects of its rank: a step of network time in its cycle is judged at
the next (R350) (DESIGN CHOICE, log entry 2). -/
def rankLaunch : Nat := 0
/-- Rank of the end of an echo request's wait (DESIGN CHOICE, log entry 2). -/
def rankEcho : Nat := 60000
/-- Rank of the automatic SYNC_CHECK (DESIGN CHOICE, log entry 2). -/
def rankCheck : Nat := 60001
/-- Rank of the periodic pair capture (DESIGN CHOICE, log entry 2). -/
def rankPair : Nat := 60002
/-- Rank of a virtual index: an index that is seen at the same tick comes first (R49) (DESIGN CHOICE, log entry 2). -/
def rankMiss : Nat := 60003

/-- Rank of the firing of a monitor entry (DESIGN CHOICE, log entry 2). -/
def rankFire : Nat := 55000
/-- Rank of the start of a monitor conversion: an entry that fires at its tick takes part in its slot (R413)
(DESIGN CHOICE, log entry 2). -/
def rankStart : Nat := 55001

/-- Place of a waiting effect in the order of the model. -/
def dueKey (x : Nat × Action) : Nat := keyOf x.1 x.2.rank

/-- The effect that falls due first, with the rest: the first place, in the order of entry at one place. -/
def firstDue : List (Nat × Action) → Option ((Nat × Action) × List (Nat × Action))
  | [] => none
  | x :: xs =>
    match firstDue xs with
    | none => some (x, [])
    | some (y, ys) => if dueKey y < dueKey x then some (y, x :: ys) else some (x, xs)

/-- The earlier of two effects. -/
def earlier (a : Option (Nat × Ev)) (key : Nat) (e : Ev) : Option (Nat × Ev) :=
  match a with
  | none => some (key, e)
  | some b => if key < b.1 then some (key, e) else some b

/-- The waiting effect that comes first (DESIGN CHOICE, log entry 2). -/
def nextEv (s : State) : Option (Nat × Ev) :=
  let a := [0, 1].foldl (fun a e =>
    match timedDue e s with
    | some t => earlier a (keyOf t rankLaunch) (.launch e)
    | none => a) none
  let a := match firstDue s.due with
    | some x => earlier a (dueKey x.1) (.due x.1.2 x.2)
    | none => a
  let a := s.seqs.foldl (fun a q => q.2.teqs.foldl (fun a x =>
    match x.2 with
    | e :: _ => earlier a (keyOf e.tick (rankEntry e.seq x.1 e.kind)) (.entry q.1 x.1)
    | [] => a) a) a
  let a := s.decs.foldl (fun a x =>
    match x.2.rounds with
    | r :: _ => earlier a (keyOf (r.at_ + 32) (rankRound x.1)) (.round x.1)
    | [] => a) a
  let a := match s.recs with
    | r :: _ => earlier a (keyOf (r.at_ + 8) rankRecord) .record
    | [] => a
  let a := match s.tl.echo with
    | some e => earlier a (keyOf (echoLimit e) rankEcho) .echo
    | none => a
  let a := match caMissAt s with
    | some t => earlier a (keyOf t rankMiss) .miss
    | none => a
  let a := (monFirings s).foldl (fun a m => earlier a (keyOf m.1 rankFire) (.monFire m.2.1 m.2.2)) a
  let a := (monStarts s).foldl (fun a m => earlier a (keyOf m.1 rankStart) (.monStart m.2)) a
  earlier (earlier a (keyOf s.tl.checkNext rankCheck) .check) (keyOf s.tl.pairNext rankPair) .pair

/-- Carry out an effect at tick t (DESIGN CHOICE, log entry 2). -/
def doEv (e : Ev) (t : Nat) (s : State) : State :=
  match e with
  | .due a rest => act a t { s with due := rest }
  | .entry k j => fireEntry k j s
  | .round d => actRound d s
  | .record => routeHead s
  | .echo => echoExpire s
  | .check => secondCheck s
  | .pair => secondPair s
  | .launch e => timedJudge e s
  | .miss => caMiss t s
  | .monFire x j => monFire x j t s
  | .monStart x => monStart x s

end Sys2Proof.Machine
end

