-- ==== Sys2Proof/Machine/Time.lean ====
section
/-! DEFINITION. The passage of time: the Timeline counts (R27), network time with it (R342), outputs play, and what the spec
places at a tick takes place at it. -/

namespace Sys2Proof.Machine

/-- Let the ticks from now to t pass, with no waiting effect in them: the samples of each tick before t are formed, and network
time advances. -/
def passTo (t : Nat) (s : State) : State :=
  let t0 := s.now
  if t ≤ t0 then s
  else ntTime t0 t ((dropEnded t (runSamples (t - t0) t0 s)).set TL_NOW t)

/-- Carry out the effects whose place in the order comes before `key`, in order, and let time pass to the tick of `key`; `fuel`
bounds their number.  An effect that moves the Timeline (R31) moves `key` with it (DESIGN CHOICE, log entry 2). -/
def runEvs : Nat → Nat → State → State
  | 0, key, s => passTo (key / 65536) s
  | fuel + 1, key, s =>
    match nextEv s with
    | none => passTo (key / 65536) s
    | some (k, e) =>
      if k < key then
        let s := passTo (k / 65536) s
        let now := s.now
        let s := doEv e (max (k / 65536) now) s
        runEvs fuel (shiftTick (65536 * ((s.now : Int) - now)) key) s
      else passTo (key / 65536) s

/-- How many effects can take place before tick t: each waiting one brings about at most four others, at most three deep, a stream
one every 512 modulator cycles, each second two, a virtual index one every 20,000 ticks, and a monitor entry two at each
firing (DESIGN CHOICE, log entry 2). -/
def evFuel (t : Nat) (s : State) : Nat :=
  let entries := s.seqs.foldl (fun n q => q.2.teqs.foldl (fun n x => n + x.2.length) n) 0
  let rounds := s.decs.foldl (fun n x => n + x.2.rounds.length) 0
  let streams := (s.zps.filter fun x => x.2.stream.isSome || !x.2.pend.isEmpty).length
  let frames := s.depth (ethQueue 0 1) + s.depth (ethQueue 1 1)
  64 * (s.due.length + frames + entries + rounds + streams * ((t - s.now) / 16 + 1) + (t - s.now) / 500000000 + (t - s.now) / 20000 + monCount t s + 2)

/-- Time passes up to a place in the order of effects: a Timeline that does not count stays where it is (R27)
(DESIGN CHOICE, log entry 2). -/
def runTo (key : Nat) (s : State) : State :=
  if s.tl.counting then runEvs (evFuel (key / 65536) s) key s else s

/-- Time passes up to tick t: every effect that waits for a tick up to t takes place, and every entry, round and echo limit of a
tick before t (DESIGN CHOICE, log entry 2). -/
def advanceTo (t : Nat) (s : State) : State := runTo (keyOf t 1) s

/-- What waits for tick t takes place there, after everything of the ticks before; a Timeline that does not count never reaches a
later tick (R27) (DESIGN CHOICE, log entry 2). -/
def atTick (t : Nat) (f : State → State) (s : State) : State :=
  let s := runTo (keyOf t 0) s
  if s.now < t then s else f s

/-- What waits for tick t has taken place there, in its order among the other waiting effects of that tick; f is what is left of it
(R27) (DESIGN CHOICE, log entry 2). -/
def withTick (t : Nat) (f : State → State) (s : State) : State :=
  let s := advanceTo t s
  if s.now < t then s else f s

/-- One tick passes (DESIGN CHOICE, log entry 2). -/
def tick (s : State) : State := advanceTo (s.now + 1) s

end Sys2Proof.Machine
end

