-- ==== Sys2Proof/Machine/Timeline.lean ====
section
/-! DEFINITION. Commands of the Timeline, the trigger bus, the trigger pins and the Cycle Angle (R26 to R57). -/

namespace Sys2Proof.Machine

/-- What a meaning answers. -/
abbrev Ans := Host.Outcome State Fault Refusal

/-! ### Loads, captures, master messages -/

/-- TL_CTRL.LOAD (R31) (open corners: DEDUCED, log entry 81). -/
def execTlLoad (r : Req) (s : State) : Ans :=
  .next (privileged r TL_CTRL_LOAD 1 s fun s => s.later (s.now + 8) .tlLoad)

/-- A SYNC or SYNC_CHECK is to be launched with its timing point at tick `at_` (R39): the frame leaves there, and echo frames
keep clear of it (R33) (open corners: DEDUCED, log entry 80). -/
def syncSend (type at_ : Nat) (s : State) : State := s.later at_ (.busLaunch type at_)

/-- SEND_SYNC and SEND_CHECK (R31, R39) (open corners: DEDUCED, log entry 80). -/
def masterSend (type : Nat) (s : State) : State :=
  if masterReady s then
    if s.get TL_SYNC_AT < s.now + 64 then s.flagAlways TL_STATUS_SYNC_LATE 97
    else syncSend type (s.get TL_SYNC_AT) s
  else s

/-- TL_CTRL.SEND_SYNC (R39). -/
def execSendSync (r : Req) (s : State) : Ans := .next (privileged r TL_CTRL_SEND_SYNC 1 s (masterSend 1))

/-- TL_CTRL.SEND_CHECK (R39). -/
def execSendCheck (r : Req) (s : State) : Ans := .next (privileged r TL_CTRL_SEND_CHECK 1 s (masterSend 2))

/-- The automatic SYNC_CHECK at the next multiple of 1 s at which none has been looked for (R39). -/
def execAutoSyncCheck (s : State) : Ans :=
  .next (if s.tl.counting then secondCheck (runTo (keyOf s.tl.checkNext rankCheck) s) else s)

/-- TL_CTRL.CAPTURE (R54). -/
def execTlCapture (s : State) : Ans := .next (s.later (s.now + 1) .capture)

/-- The pair capture at the next multiple of 1 s whose pair has not been captured (R54). -/
def execPairCaptured (s : State) : Ans :=
  .next (if s.tl.counting then secondPair (runTo (keyOf s.tl.pairNext rankPair) s) else s)

/-! ### Trigger-bus frames (R33, R35) -/

/-- TYPE of a frame. -/
def frType (f : Nat) : Nat := frameField f 1 4
/-- BCAST. -/
def frBcast (f : Nat) : Bool := f.testBit 5
/-- ADDR. -/
def frAddr (f : Nat) : Nat := frameField f 6 6
/-- PAYLOAD. -/
def frPayload (f : Nat) : Nat := frameField f 12 64

/-- A frame is in error on its line (R35): `up` is MSG_UP. -/
def frError (f : Nat) (up : Bool) : Bool :=
  let ty := frType f
  crc8 f 1 75 0 != frameField f 76 8 || ty == 0 || ty > 5 || (up != (ty == 4)) || (frBcast f != (ty == 1 || ty == 2))

/-- The device listens to a line (R30, R57): a follower to MSG_DN, a master to MSG_UP. -/
def busListens (up : Bool) (s : State) : Bool := s.on TL_CTRL_EN && s.get TL_CFG_ROLE == (if up then 1 else 2)

/-- A frame of TYPE `type` arrives with its timing point at fine stamp `stamp`: a frame in error is reported, one for another
device is discarded, and a good one is handled by k (R35).  A frame of another TYPE is another row's.  It acts at its timing
point, though its last bit arrives 168 ticks later (open corners: DEDUCED, log entry 92). -/
def busReceive (up : Bool) (type f stamp : Nat) (s : State) (k : State → State) : State :=
  if !f.testBit 0 || !busListens up s then s
  else
    let s := advanceTo (ceilDiv (s.instant stamp) 32) s
    if frError f up then s.flagAlways TL_STATUS_BUS_FRAME_ERR 102
    else if frType f ≠ type then s
    else if !up && !frBcast f && frAddr f != myDev s then s
    else k s

/-! ### Echo delay measurement (R36 to R38) -/

/-- TL_CTRL.ECHO_START (R31, R36) (open corners: DEDUCED, log entry 20). -/
def execEchoStart (r : Req) (s : State) : Ans :=
  .next (privileged r TL_CTRL_ECHO_START 1 s fun s =>
    if masterReady s && s.tl.echo.isNone then
      echoNext ((setBits 64 (s.get TL_ECHO_MASK)).filter (· != myDev s)) (s.setB TL_STATUS_ECHO_BUSY true)
    else s)

/-- A follower answers an ECHO_REQ 256 ticks after its arrival (R36). -/
def execEchoReqRx (f : BitVec 84) (stamp : BitVec 64) (s : State) : Ans :=
  .next (busReceive false 3 f.toNat stamp.toNat s fun s =>
    s.emit (.busFrame (frameBits 4 0 (myDev s) (frPayload f.toNat % 256)) (fineStamp (stamp.toNat + 32 * 256 : Nat))))

/-- The greatest of the values. -/
def maxI (ds : List Int) : Int := ds.foldl max (ds.headD 0)
/-- The least of the values. -/
def minI (ds : List Int) : Int := ds.foldl min (ds.headD 0)

/-- All 64 exchanges with device n are done; `ds` holds twice their delays (R36, R37) (open corners: DEDUCED, log entry 20). -/
def echoDone (n : Nat) (ds : List Int) (s : State) : State :=
  let d := ((ds.foldl (· + ·) 0) + 64) / 128
  let spread2 := (maxI ds - minI ds).toNat
  if d > 262143 then (s.setB (TL_ECHO_RESULT_VALID n) false).flagAlways TL_STATUS_ECHO_RANGE 99
  else
    let noisy := decide (spread2 > 2 * s.get TL_CFG_ECHO_SPREAD_MAX)
    let s := (s.set (TL_ECHO_RESULT_DELAY n) d.toNat).set (TL_ECHO_RESULT_SPREAD n) (min 255 ((spread2 + 1) / 2))
    let s := (s.setB (TL_ECHO_RESULT_NOISY n) noisy).setB (TL_ECHO_RESULT_VALID n) true
    let s := busSend 5 0 n (d.toNat + b2n noisy * 2 ^ 63) s
    if noisy then s.flagAlways TL_STATUS_ECHO_NOISY 99 else s

/-- The master takes an ECHO_RSP (R36).  One from another device is discarded (R35), and so is one that echoes another exchange
number (open corners: DEDUCED, log entry 93) (DEDUCED, log entry 20). -/
def echoResponse (f stamp : Nat) (s : State) : State :=
  match s.tl.echo with
  | none => s
  | some e =>
    let n := e.rest.headD 64
    if frAddr f ≠ n ∨ frPayload f % 256 ≠ e.exchange then s
    else
      let ds := ((s.instant stamp : Int) - e.reqStamp - 8192) :: e.delays
      if e.exchange = 63 then echoNext (e.rest.drop 1) (echoDone n ds s)
      else echoRequest e.rest (e.exchange + 1) ds s

/-- An ECHO_RSP arrives on MSG_UP (R36); one that arrives after the limit of R37 finds its exchange over. -/
def execEchoRspRx (f : BitVec 84) (stamp : BitVec 64) (s : State) : Ans :=
  .next (busReceive true 4 f.toNat stamp.toNat s (echoResponse f.toNat stamp.toNat))

/-- No response within 16,808 ticks of the outstanding request (R37) (open corners: DEDUCED, log entry 20). -/
def execEchoTimeout (s : State) : Ans :=
  .next (match s.tl.echo with
    | none => s
    | some e => echoExpire (runTo (keyOf (echoLimit e) rankEcho) s))

/-- A follower takes a DELAY_SET (R38); NOISY raises event 99 beside the flag (open corners: DEDUCED, log entry 94). -/
def execDelaySetRx (f : BitVec 84) (stamp : BitVec 64) (s : State) : Ans :=
  .next (busReceive false 5 f.toNat stamp.toNat s fun s =>
    let p := frPayload f.toNat
    let s := (s.set TL_DELAY_DELAY p).setB TL_STATUS_DELAY_VALID true
    if p.testBit 63 then s.flagAlways TL_STATUS_ECHO_NOISY 99 else s)

/-! ### SYNC and SYNC_CHECK (R40) -/

/-- The correction C for a message with Timeline V stamped at L [fine ticks] (R40). -/
def syncError (v l : Nat) (s : State) : Int :=
  (32 * v : Nat) + (s.get TL_DELAY_DELAY : Int) + s.getI TL_DELAY_ADJ - l

/-- A follower steps by C: whole ticks to the counter, the rest to the tick-clock phase (R40). -/
def syncStep (c : Int) (s : State) : State :=
  let s := moveTimeline (c / 32) s
  let s := { s with tl := { s.tl with phase := (s.tl.phase + (c % 32).toNat) % 32 } }
  let s := (s.setB TL_STATUS_ALIGNED true).incSat TL_STEP_COUNT
  (s.set TL_SYNC_ERR 0).event 96

/-- A follower takes a SYNC (R40). -/
def execSyncRx (f : BitVec 84) (stamp : BitVec 64) (s : State) : Ans :=
  .next (busReceive false 1 f.toNat stamp.toNat s fun s =>
    let c := syncError (frPayload f.toNat) (s.instant stamp.toNat) s
    let s := fireSource 33 (32 * s.now) s.now s
    if !s.on TL_STATUS_DELAY_VALID then s.flagAlways TL_STATUS_SYNC_NO_DELAY 97
    else if tlActive s then stepRefused (s.setI TL_SYNC_ERR (satI 32 c))
    else syncStep c s)

/-- A follower takes a SYNC_CHECK (R40). -/
def execSyncCheckRx (f : BitVec 84) (stamp : BitVec 64) (s : State) : Ans :=
  .next (busReceive false 2 f.toNat stamp.toNat s fun s =>
    let c := syncError (frPayload f.toNat) (s.instant stamp.toNat) s
    let s := fireSource 33 (32 * s.now) s.now s
    let s := s.setI TL_SYNC_ERR (satI 32 c)
    if absI c > s.get TL_CFG_DRIFT_TOL then s.flagAlways TL_STATUS_ALIGN_DRIFT 101 else s)

/-! ### Trigger pins (R42 to R46) -/

/-- Show the stamps of pin n in its registers (R44). -/
def showPin (n : Nat) (s : State) : State :=
  let q := (s.pin n).fifo
  let head := q.headD (0, 0)
  ((s.set (TL_PIN_STAMP n) head.1).set (TL_PIN_FIFO_COUNT n) q.length).set (TL_PIN_FIFO_HEAD_EDGE n) head.2

/-- Keep a stamp of pin n, or count it lost (R44). -/
def pinStamp (n stamp edge : Nat) (s : State) : State :=
  let p := s.pin n
  if p.fifo.length ≥ 16 then (s.incSat (TL_PIN_FIFO_OVERFLOW n)).event 105
  else showPin n (s.setPin n { p with fifo := p.fifo ++ [(stamp, edge)] })

/-- Pin n takes edges of this polarity: 0 rising, 1 falling (R42, R45). -/
def pinAccepts (n edge : Nat) (s : State) : Bool :=
  s.on TL_CTRL_EN && s.get (TL_PIN_CFG_DIR n) == 0
    && (s.get (TL_PIN_CFG_EDGE n) == 3 || s.get (TL_PIN_CFG_EDGE n) == edge + 1)

/-- The tick at which consumers see an edge of pin n that crossed the ball at a fine stamp (R42). -/
def pinArrival (n stamp : Nat) (s : State) : Nat :=
  ceilDiv stamp 32 + (if n < 16 then 24 else 16) + s.get (TL_PIN_CFG_FILT n)

/-- An edge on pin n that persists for max(FILT, 1) ticks (R42). -/
def execTrigEdge (n : Fin 22) (falling : Bool) (stamp : BitVec 64) (s : State) : Ans :=
  .next (if pinAccepts n.val (b2n falling) s then
      let at_ := pinArrival n.val (s.instant stamp.toNat) s
      let st := fineStamp (stamp.toNat - pinComp n.val s)
      let s := advanceTo at_ s
      fireSource n.val st at_ (pinStamp n.val st (b2n falling) s)
    else s)

/-- A write to TL_PIN_POP (R44). -/
def execTlPinPop (pin : BitVec 5) (s : State) : Ans :=
  .next (if pin.toNat ≥ 22 then s
    else showPin pin.toNat (s.setPin pin.toNat { s.pin pin.toNat with fifo := (s.pin pin.toNat).fifo.drop 1 }))

/-- Pin n is a timed output (R45) (open corners: DEDUCED, log entry 23). -/
def pinTimed (n : Nat) (s : State) : Bool :=
  s.on TL_CTRL_EN && s.get (TL_PIN_CFG_DIR n) == 1 && s.get (TL_PIN_CFG_OUT_SRC n) == 1

/-- TL_PIN_AT(n) takes a tick by the write of its HI half, which arms a timed pulse (R45) (open corners: DEDUCED, log entry 23). -/
def pinArm (n at_ : Nat) (s : State) : State :=
  let s := s.set (TL_PIN_AT n) at_
  if pinTimed n s then
    if at_ < s.now + 32 then
      (s.setPin n { s.pin n with armed := none }).flagAlways TL_STATUS_PIN_LATE 104
    else s.setPin n { s.pin n with armed := some at_ }
  else s

/-- Writing TL_PIN_AT with its HI half (R45). -/
def execPinArm (n : Fin 22) (at_ : BitVec 64) (s : State) : Ans := .next (pinArm n.val at_.toNat s)

/-- The armed tick of pin n is reached (R43, R45) (open corners: DEDUCED, log entry 23). -/
def execPinPulse (n : Fin 22) (s : State) : Ans :=
  match (s.pin n.val).armed with
  | none => .next s
  | some at_ =>
    let s := advanceTo at_ s
    let w := s.get (TL_PIN_CFG_PULSE_W n.val)
    let s' := s.setPin n.val { s.pin n.val with armed := none }
    .next (if pinTimed n.val s then
        let st := fineStamp ((32 * at_ : Nat) - pinComp n.val s)
        let w := if w = 0 then 256 else w
        (s'.setPin n.val { s'.pin n.val with pulse := some (st, w) }).emit (.pinPulse n.val st w)
      else s')

/-! ### Cycle Angle (R47 to R52) -/

/-- An index in tolerance counts towards LOCK_N (R49) (open corners: DEDUCED, log entry 21). -/
def caGood (t : Nat) (s : State) : State :=
  let n := s.tl.angle.good + 1
  let s := modAngle (fun a => { a with good := n }) s
  if !s.on TL_CA_STATUS_LOCKED && n ≥ max 1 (s.get TL_CA_CFG_LOCK_N) then
    wakeAngle t (((markAngle t s).setB TL_CA_STATUS_LOCKED true).event 106)
  else s

/-- The angle restarts at the instant st [1/256 tick] of an index that is seen at tick t: in QUAD mode the count and its fraction
with it (open corners: DEDUCED, log entry 91). -/
def caRestart (st t : Nat) (s : State) : State :=
  let was := angleBefore s t
  let s := markAngle t s
  modAngle (fun a => { a with tIdx := st, count := 0, quadStamp := st, changed := t, was := was }) s

/-- A used index: it updates P, restarts the angle, and is judged against TOL by e, the angle extrapolated for its instant
(R48, R49) (open corners: DEDUCED, log entry 21) (DEDUCED, log entry 91). -/
def caUsed (st m : Nat) (e : Int) (t : Nat) (s : State) : State :=
  let a := s.tl.angle
  let p := s.get TL_CA_PERIOD
  let p' : Nat := if a.pSet && !a.remeasure then
    ((p : Int) + ((m : Int) - p) / ((2 ^ s.get TL_CA_CFG_ALPHA : Nat) : Int)).toNat else m
  let s := (caRestart st t s).setB TL_CA_STATUS_COASTING false
  let s := modAngle (fun a => { a with pSet := true, remeasure := false, misses := 0 }) (s.set TL_CA_PERIOD p')
  if absI e ≤ s.get TL_CA_TOL_TOL then caGood t (s.set TL_CA_LAST_ERR (wrap 16 e))
  else
    let s := modAngle (fun a => { a with remeasure := true, good := 0 }) s
    ((caUnlock s).setB TL_CA_STATUS_OUT_OF_TOL true).event 109

/-- A real index with instant x [fine ticks], seen at tick t (R48, R49): the first starts the tracker, one out of range is not
used (open corners: DEDUCED, log entry 21). -/
def caIndex (x t : Nat) (s : State) : State :=
  let st := 8 * x
  let a := s.tl.angle
  let s := (s.set TL_CA_LAST_IDX x).inc TL_CA_INDEX_COUNT
  if !a.started then
    fireSource 32 (32 * t) t (caRestart st t (modAngle (fun a => { a with started := true }) s))
  else
    let m := st - a.tIdx
    if m < 20000 * 256 ∨ m > 2 ^ 36 * 256 then
      (modAngle (fun a => { a with good := 0 }) s).flagAlways TL_CA_STATUS_PERIOD_RANGE 110
    else
      fireSource 32 (32 * t) t (caUsed st m (sgn 16 (angleFine s st)) t s)

/-- An index edge on CYC_IDX (R47 to R49); in SENSOR mode indices come from the bridge channel (open corners:
DEDUCED, log entry 22). -/
def execCaIndex (stamp : BitVec 64) (s : State) : Ans :=
  .next (if caOn s && s.get TL_CA_CFG_MODE != 3 then
      let x := s.instant stamp.toNat
      let t := ceilDiv x 32
      caIndex x t (advanceTo t s)
    else s)

/-- No index came (R48, R49): the virtual index at the first tick at which one is missed has taken place (DEDUCED, log entry 95). -/
def execCaMissedIndex (s : State) : Ans :=
  .next (match caMissAt s with
    | none => s
    | some t =>
      let s := runTo (keyOf t rankMiss) s
      match caMissAt s with
      | none => s
      | some t => if t ≤ s.now then caMiss s.now s else s)

/-- A quadrature edge: the count moves forward while CYC_A leads CYC_B, inverted by DIR_INV (R47) (open corners:
DEDUCED, log entry 91). -/
def execCaQuadEdge (aLeads : Bool) (stamp : BitVec 64) (s : State) : Ans :=
  .next (if caOn s && s.get TL_CA_CFG_MODE == 2 then
      let x := s.instant stamp.toNat
      let s := advanceTo (ceilDiv x 32) s
      let st := 8 * x
      let d : Int := if aLeads != s.on TL_CA_CFG_DIR_INV then 1 else -1
      let was := angleBefore s s.now
      let s := markAngle s.now s
      let t := s.now
      modAngle (fun a => { a with
        count := a.count + d, quadStep := st - a.quadStamp, quadStamp := st, changed := t, was := was }) s
    else s)

/-- The angle passes into window k at tick `at_` (R51) (open corners: DEDUCED, log entry 22; DEDUCED, log entry 90). -/
def execCaWindowEntry (k : Fin 8) (at_ : BitVec 64) (s : State) : Ans :=
  let s' := advanceTo at_.toNat s
  .next (if caOn s && angleValid s' && entersWindow s' k.val s'.now then
      fireSource (24 + k.val) (32 * s'.now) s'.now s'
    else s)

end Sys2Proof.Machine
end

