-- ==== Sys2Proof/Machine/DecisionCmds.lean ====
section
/-! DEFINITION. Commands of the decision windows (R272 to R283). -/

namespace Sys2Proof.Machine

/-- Time passes to the place in tick t at which window d is judged, and it is (R273). -/
def judgeAt (d t : Nat) (s : State) : State :=
  let s := runTo (keyOf t (48000 + d)) s
  judgeOnce d (max t s.now) s

/-- A ready round that R275 puts off is judged at the tick it was put off to (open corners: DEDUCED, log entry 42;
DEDUCED, log entry 87). -/
def execRoundDeferredEval (d : Fin 64) (s : State) : Ans :=
  .next (match (s.dec d.val).defer with | some t => judgeAt d.val t s | none => s)

/-- An open round reaches its TIMEOUT (R273). -/
def execRoundTimeout (d : Fin 64) (s : State) : Ans :=
  .next (
    match (s.dec d.val).start with
    | some a => if (s.dec d.val).tmo = 0 then s else judgeAt d.val (a + 256 * (s.dec d.val).tmo) s
    | none => s)

/-- The oldest round of window d that is under way reaches its action tick, 32 ticks after it became ready or failed (R281). -/
def execRoundAction (d : Fin 64) (s : State) : Ans :=
  .next (
    match (s.dec d.val).rounds with
    | r :: _ =>
      actRound d.val (runTo (keyOf (r.at_ + 32) (rankRound d.val)) s)
    | [] => s)

/-- Window d's EN takes a value, 8 ticks from now (R274). -/
def decEnWrite (d : Nat) (on : Bool) (s : State) : State :=
  if on && decRefused d s then s.flag DEC_STATUS_EN_REFUSED 741
  else (s.setB (DEC_WIN_CTRL_EN d) on).later (s.now + 8) (.decEn d on)

/-- A write of a decision window's EN (R274). -/
def execDecWinEnable (r : Req) (d : Fin 64) (on : Bool) (s : State) : Ans :=
  .next (privileged r (DEC_WIN_CTRL_EN d.val) (b2n on) s (decEnWrite d.val on))

/-- BASE of window d takes a value (R283). -/
def decBaseWrite (d v : Nat) (s : State) : State :=
  if baseFits d v s then (s.set (DEC_WIN_BASE d) v).later (s.now + 8) (.decBase d v)
  else s.flag DEC_STATUS_EN_REFUSED 741

/-- A write of DEC_WIN_BASE (R283). -/
def execDecBaseWrite (r : Req) (d : Fin 64) (v : BitVec 19) (s : State) : Ans :=
  .next (privileged r (DEC_WIN_BASE d.val) v.toNat s (decBaseWrite d.val v.toNat))

/-- The bytes of a dword written to memory address a take effect together 8 ticks from now (R246, R283). -/
def delayedDword (a v : Nat) (s : State) : State :=
  (List.range 4).foldl (fun s k => s.later (s.now + 8) (.memByte (a + k) (BitVec.ofNat 8 (bits v (8 * k) 8)))) s

/-- A host write of a Decision Table word (R283); a partial one is ignored and flagged (R358). -/
def execDecTableWrite (r : Req) (x : Fin 524288) (be : BitVec 4) (v : Dword) (s : State) : Ans :=
  .next (
    if be = 0xF then delayedDword (decTableAddr x.val) v.toNat s
    else accessFault r .width true be.toNat (decTableAddr x.val) v.toNat s)

end Sys2Proof.Machine
end

