-- ==== Sys2Proof/Machine/EngineInstrs.lean ====
section
/-! DEFINITION. The analysis engines' instructions and events (R286 to R301): one command per opcode of R291.  Each issues the
instruction at the engine's program counter when it has that opcode; otherwise nothing happens. -/

namespace Sys2Proof.Machine

/-! ### Enable, interrupts, streams -/

/-- A write of 1 to engine a's EN at the present tick (R300). -/
def anaEnable (a : Nat) (s : State) : State :=
  if engRefused a s then s.flag (ANA_STATUS_EN_REFUSED a) (801 + 2 * a)
  else
    let t := s.now + 8
    let s := (s.modAna a fun e => { e with startAt := some t }).setB (ANA_CTRL_EN a) true
    s.later t (.anaStart a)

/-- A write of 0 to engine a's EN (R300) (open corners: DEDUCED, log entry 44). -/
def anaDisable (a : Nat) (s : State) : State :=
  let s := (engSettle a s.now s).modAna a fun e =>
    { e with startAt := none, flight := [], slots := 0, target := none, rti := false, acc := none, sends := [], held := false }
  (s.setB (ANA_CTRL_EN a) false).set (ANA_STATUS_STATE a) anIdle

/-- A write of ANA EN = 1 (R300). -/
def execAnaEnable (r : Req) (a : Fin 8) (s : State) : Ans := .next (privileged r (ANA_CTRL_EN a.val) 1 s (anaEnable a.val))

/-- A write of ANA EN = 0 (R300). -/
def execAnaDisable (r : Req) (a : Fin 8) (s : State) : Ans := .next (privileged r (ANA_CTRL_EN a.val) 0 s (anaDisable a.val))

/-- ANA_CTRL.DOORBELL (R295). -/
def execAnaDoorbell (a : Fin 8) (s : State) : Ans := .next (engRaise a.val 4 s.now s)

/-- The lowest bit set below w. -/
def lowBit (w n : Nat) : Nat := (setBits w n).headD 0

/-- An enabled pending source is taken: one cycle switches to the shadow bank (R295) (open corners: DEDUCED, log entry 44). -/
def execAnaInterrupt (a : Fin 8) (s : State) : Ans :=
  .next (
    if engIrqDue a.val s then
      let src := lowBit 5 (engPending a.val s)
      let pc := s.get (ANA_PC a.val)
      let s := engClock a.val (s.modAna a.val fun e => { e with ira := pc })
      (s.setB (ANA_STATUS_SHADOW a.val) true).set (ANA_PC a.val) (0x10 + 4 * src)
    else s)

/-- The 32-bit words of a buffer (open corners: DEDUCED, log entry 43). -/
def bufferWords (bs : List Byte) : List Nat :=
  (List.range (ceilDiv bs.length 4)).map fun k => ofBytes ((bs.drop (4 * k)).take 4)

/-- A FULL record's four words under LAU_FULL (R254, R297) (open corners: DEDUCED, log entry 43). -/
def lauWords (r : List Nat) : List Nat :=
  let n := r.getD 0 0 + r.getD 1 0 * 2 ^ 32 + r.getD 2 0 * 2 ^ 64 + r.getD 3 0 * 2 ^ 96
  [wrap 32 (sgn 24 (bits n 64 24)), wrap 32 (sgn 24 (bits n 88 24)),
   bits n 60 4 + bits n 58 2 * 2 ^ 4 + bits n 48 10 * 2 ^ 6 + bits n 112 8 * 2 ^ 16, bits n 0 24]

/-- The words of a buffer of queue q as conversion conv copies them, with the conversion that the header shows (R297) (open
corners: DEDUCED, log entry 43). -/
def convWords (conv q : Nat) (it : Item) : List Nat × Nat :=
  let ws := bufferWords it.bytes
  if conv = 1 then (ws.flatMap fun w => [bits w 0 16 * 2 ^ 8, bits w 16 16 * 2 ^ 8], 1)
  else if conv = 2 ∧ 0x4000 ≤ q ∧ q ≤ 0x7FFF ∧ (it.format = 0 ∨ it.format = 3) then
    ((List.range (ws.length / 4)).flatMap fun k => lauWords (ws.drop (4 * k)), 2)
  else (ws, 0)

/-- The header word of a copied buffer (R297). -/
def inHeader (q conv n : Nat) (it : Item) : Nat :=
  n % 65536 + conv * 2 ^ 16 + (if 0x4000 ≤ q ∧ q ≤ 0x7FFF then it.format % 4 else 0) * 2 ^ 18 + it.records % 4096 * 2 ^ 20

/-- Write words into a circular region of engine a: base, length, place of the first word. -/
def putCircular (a base len : Nat) : Nat → List Nat → State → State
  | _, [], s => s
  | p, w :: ws, s => putCircular a base len (p + 1) ws (setEngWord a (base + p % len) w s)

/-- The item of queue q that an input stream takes next: the head that TEE has not passed yet (R297). -/
def nextBuffer (q : Nat) (s : State) : Option Item := (s.queue q).items.find? fun it => !it.teed

/-- The first item that TEE has not passed is passed to software. -/
def passFirst : List Item → List Item
  | [] => []
  | it :: rest => if it.teed then it :: passFirst rest else { it with teed := true } :: rest

/-- Remove the first item that TEE has not passed; the Bool says that it counts as dropped. -/
def removeFirst : List Item → List Item
  | [] => []
  | it :: rest => if it.teed then it :: removeFirst rest else rest

/-- TEE lets the buffer go to software. -/
def teeNext (q : Nat) (s : State) : State := s.setQueue q { s.queue q with items := passFirst (s.queue q).items }

/-- CONSUME frees the buffer's descriptor, its records delivered or dropped (R297). -/
def consumeNext (q : Nat) (it : Item) (drop : Bool) (s : State) : State :=
  let x := s.queue q
  let s := s.setQueue q
    { x with items := removeFirst x.items, delivered := x.delivered + (if drop then 0 else it.records),
             dropped := x.dropped + (if drop then it.records else 0) }
  let s := if drop then s.inc (QM_Q_DROPS q) it.records else s
  (s.giveBack q 1).showQueue q

/-- Count a buffer that is passed or dropped uncopied (R303). -/
def inSkip (a : Nat) (s : State) : State := s.incSat (ANA_IN_SKIPS a)

/-- Input stream j of engine a takes the next buffer of its queue, when it has room for it (R297). -/
def execAnaInCopy (a : Fin 8) (j : Fin 2) (s : State) : Ans :=
  .next (
    let q := s.get (ANA_IN_CFG_QUEUE a.val j.val)
    let tee := s.get (ANA_IN_CFG_MODE a.val j.val) == 1
    let len := s.get (ANA_IN_BUF_LEN a.val j.val)
    if !engInOn a.val j.val s then s
    else
      match nextBuffer q s with
      | none => s
      | some it =>
        let st := anaState a.val s
        if st ≠ anRunning ∧ st ≠ anWaiting then (if tee then inSkip a.val (teeNext q s) else s)
        else
          let c := convWords (s.get (ANA_IN_CFG_CONV a.val j.val)) q it
          let n := c.1.length
          if n > len - 1 then
            let s := inSkip a.val (if tee then teeNext q s else consumeNext q it true s)
            s.flag (ANA_STATUS_IN_SKIP a.val) (801 + 2 * a.val)
          else
            let wp := s.get (ANA_IN_WP a.val j.val)
            let used := (wp + 2 ^ 24 - s.get (ANA_IN_RP a.val j.val)) % 2 ^ 24
            if used + n + 1 > len then s
            else
              let s := putCircular a.val (s.get (ANA_IN_BUF_BASE a.val j.val)) len wp (inHeader q c.2 n it :: c.1) s
              let s := s.set (ANA_IN_WP a.val j.val) (wp + n + 1)
              let s := if tee then teeNext q s else consumeNext q it false s
              engRaise a.val j.val s.now s)

/-- The armed timer is reached and raises TIMER: the low 48 bits of the Timeline are compared in a window of 2^47 ticks either
way, and a tick already past raises it at once (R298). -/
def execAnaTimer (a : Fin 8) (s : State) : Ans :=
  .next (
    match (s.ana a.val).timer with
    | some v =>
      let ahead := sgn 48 (wrap 48 ((v : Int) - s.now))
      let s := if 0 < ahead then advanceTo (s.now + ahead.toNat) s else s
      engRaise a.val 3 s.now (s.modAna a.val fun e => { e with timer := none })
    | none => s)

/-- The copy of the oldest SEND completes: the words, as they stand, become one buffer of the output queue (R299) (open corners:
DEDUCED, log entry 44). -/
def execAnaSendDone (a : Fin 8) (s : State) : Ans :=
  .next (
    match (s.ana a.val).sends with
    | (p, len) :: rest =>
      let q := s.get (ANA_OUT_CFG_OUT_QUEUE a.val)
      if s.full q then s.noteEmpty q
      else
        let bytes := (List.range len).flatMap fun k => s.getBytes (engDataAddr a.val (p + k)) 4
        let s := s.append q { bytes := bytes, records := 1 }
        engRaise a.val 2 s.now (s.modAna a.val fun e => { e with sends := rest })
    | [] => s)

/-! ### Instructions -/

/-- V field [25:23]. -/
def fVd (w : Nat) : Nat := bits w 23 3
/-- Sum field [23]. -/
def fSum (w : Nat) : Nat := bits w 23 1
/-- VA [22:20]. -/
def fVa (w : Nat) : Nat := bits w 20 3
/-- IMM, signed. -/
def fImm (w : Nat) : Int := sgn 16 (bits w 0 16)
/-- Unit U [22:21]. -/
def fUnit (w : Nat) : Nat := bits w 21 2

/-- Operand B: VB, or IMM with I = 1 (R290). -/
def operandB (a w : Nat) (s : State) : Int :=
  if bit w 16 then fImm w else (engBank a s).vI (bits w 17 3)

/-- The word that a pointer names, as a V value. -/
def loadV (a u : Nat) (s : State) : Int := sgn 24 (engWord a (engAu a u s).p s)

/-- The instruction goes on in sequence. -/
def seqFlow (s : State) : Except Nat (State × EngFlow) := .ok (s, .seq)

/-- A result of latency 1 with its flags (R291). -/
def result1 (a d : Nat) (i : Int) (s : State) : State :=
  engResult a 1 (.v d) i (setEngBank a ((engBank a s).flags i) s)

/-- V of the active bank. -/
def setO (a : Nat) (o : Bool) (s : State) : State := setEngBank a { engBank a s with o := o } s

/-- SAT becomes 1 when a sum saturates (R287). -/
def stickSat (a : Nat) (sat : Bool) (s : State) : State := if sat then setEngBank a { engBank a s with sat := true } s else s

/-- A sum register's new value, saturated to 56 bits, with SAT (R287). -/
def sumResult (a k : Nat) (i : Int) (s : State) : State :=
  let v := satI 56 i
  stickSat a (decide (v ≠ i)) (engResult a 2 (.sum k) v s)

/-- A result that the next MAC, MSB or ADDS on the sum may use (R292). -/
def accumulate (a k : Nat) (i : Int) (s : State) : State :=
  let v := satI 56 i
  let n := s.get (ANA_CYCLES a)
  let sh := engShadow a s
  (sumResult a k i s).modAna a fun e => { e with acc := some (n, sh, k, v) }

/-- NOP (R291). -/
def execAnaNop (a : Fin 8) (s : State) : Ans := .next (engIssue 0x00 a.val s fun _ s => seqFlow s)

/-- LD (R291). -/
def execAnaLd (a : Fin 8) (s : State) : Ans :=
  .next (engIssue 0x01 a.val s fun w s =>
    seqFlow (postMod a.val (fUnit w) (bits w 19 2) (engResult a.val 3 (.v (fVd w)) (loadV a.val (fUnit w) s) s)))

/-- ST (R287, R291). -/
def execAnaSt (a : Fin 8) (s : State) : Ans :=
  .next (engIssue 0x02 a.val s fun w s =>
    let v := (engBank a.val s).vI (fVd w)
    let s := setEngWord a.val (engAu a.val (fUnit w) s).p (wrap 32 v) s
    seqFlow (postMod a.val (fUnit w) (bits w 19 2) s))

/-- LDD (R290, R291) (open corners: DEDUCED, log entry 43). -/
def execAnaLdd (a : Fin 8) (s : State) : Ans :=
  .next (engIssue 0x03 a.val s fun w s =>
    if engIllegal w then .error 1
    else
      let u2 := bits w 14 2
      let x := loadV a.val (fUnit w) s
      let y := loadV a.val u2 s
      let s := engResult a.val 3 (.v (bits w 16 3)) y (engResult a.val 3 (.v (fVd w)) x s)
      seqFlow (postMod a.val u2 (bits w 12 2) (postMod a.val (fUnit w) (bits w 19 2) s)))

/-- The value that STS stores (R288). -/
def stsValue (sum k : Int) : Int :=
  let up := (23 - k).toNat
  (sum + 2 ^ (up - 1)) / (2 ^ up : Nat)

/-- STS (R288). -/
def execAnaSts (a : Fin 8) (s : State) : Ans :=
  .next (engIssue 0x05 a.val s fun w s =>
    let x := stsValue ((engBank a.val s).getS (fSum w)) (sgn 4 (bits w 8 4))
    let v := satI 24 x
    let s := setEngWord a.val (engAu a.val (fUnit w) s).p (wrap 32 v) s
    seqFlow (postMod a.val (fUnit w) (bits w 19 2) (setO a.val (decide (v ≠ x)) s)))

/-- Va times Vb. -/
def product (a w : Nat) (s : State) : Int := (engBank a s).vI (fVa w) * operandB a w s

/-- MUL (R287). -/
def execAnaMul (a : Fin 8) (s : State) : Ans :=
  .next (engIssue 0x08 a.val s fun w s => seqFlow (sumResult a.val (fSum w) (product a.val w s) s))

/-- MAC (R287, R292). -/
def execAnaMac (a : Fin 8) (s : State) : Ans :=
  .next (engIssue 0x09 a.val s fun w s =>
    seqFlow (accumulate a.val (fSum w) (engAccIn a.val (fSum w) s + product a.val w s) s))

/-- MSB (R287, R292). -/
def execAnaMsb (a : Fin 8) (s : State) : Ans :=
  .next (engIssue 0x0A a.val s fun w s =>
    seqFlow (accumulate a.val (fSum w) (engAccIn a.val (fSum w) s - product a.val w s) s))

/-- ADDS (R291, R292). -/
def execAnaAdds (a : Fin 8) (s : State) : Ans :=
  .next (engIssue 0x0B a.val s fun w s =>
    seqFlow (accumulate a.val (fSum w) (engAccIn a.val (fSum w) s + (engBank a.val s).vI (fVa w) * 2 ^ 23) s))

/-- CLRS (R291). -/
def execAnaClrs (a : Fin 8) (s : State) : Ans :=
  .next (engIssue 0x0C a.val s fun w s =>
    seqFlow (engResult a.val 2 (.sum (fSum w)) 0 (setEngBank a.val { engBank a.val s with sat := false } s)))

/-- SHS (R291). -/
def execAnaShs (a : Fin 8) (s : State) : Ans :=
  .next (engIssue 0x0D a.val s fun w s =>
    let n := sgn 6 (bits w 0 6)
    let x := (engBank a.val s).getS (fSum w)
    seqFlow (sumResult a.val (fSum w) (if n ≥ 0 then x * 2 ^ n.toNat else x / (2 ^ (-n).toNat : Nat)) s))

/-- Bits of a 56-bit sum below bit 55 that equal bit 55 (R289) (open corners: DEDUCED, log entry 43). -/
def leadBits (x : Int) : Nat :=
  let m := if x ≥ 0 then x.toNat else (-x - 1).toNat
  ((List.range 56).find? fun k => decide (m ≥ 2 ^ (54 - k)) && decide (k ≤ 54)).getD 55

/-- The exponent of R289 (open corners: DEDUCED, log entry 43). -/
def leadExp (x : Int) : Int := (leadBits x : Int) - 9

/-- NORM (R289); the sum is the one that bit 23 names (open corners: DEDUCED, log entry 43). -/
def execAnaNorm (a : Fin 8) (s : State) : Ans :=
  .next (engIssue 0x0E a.val s fun w s =>
    let x := (engBank a.val s).getS (fSum w)
    let e := leadExp x
    let y := if e ≥ 0 then x * 2 ^ e.toNat else x / (2 ^ (-e).toNat : Nat)
    seqFlow (engResult a.val 2 (.sum (fSum w)) y (engResult a.val 2 (.v (fVd w)) e s)))

/-- LEAD (R289) (open corners: DEDUCED, log entry 43). -/
def execAnaLead (a : Fin 8) (s : State) : Ans :=
  .next (engIssue 0x0F a.val s fun w s =>
    let e := leadExp ((engBank a.val s).getS (fSum w))
    seqFlow (engResult a.val 2 (.v (fVd w)) e (setEngBank a.val ((engBank a.val s).flags e) s)))

/-- A 24-bit result that saturates and sets V (R291). -/
def satResult (a d : Nat) (x : Int) (s : State) : State :=
  let v := satI 24 x
  result1 a d v (setO a (decide (v ≠ x)) s)

/-- ADD (R291). -/
def execAnaAdd (a : Fin 8) (s : State) : Ans :=
  .next (engIssue 0x10 a.val s fun w s =>
    seqFlow (satResult a.val (fVd w) ((engBank a.val s).vI (fVa w) + operandB a.val w s) s))

/-- SUB (R291). -/
def execAnaSub (a : Fin 8) (s : State) : Ans :=
  .next (engIssue 0x11 a.val s fun w s =>
    seqFlow (satResult a.val (fVd w) ((engBank a.val s).vI (fVa w) - operandB a.val w s) s))

/-- A bitwise operation on 24 bits. -/
def bitwise (a w : Nat) (f : Nat → Nat → Nat) (s : State) : State :=
  let x := (engBank a s).v.getD (fVa w) 0
  result1 a (fVd w) (sgn 24 (f x (wrap 24 (operandB a w s)))) s

/-- AND (R291). -/
def execAnaAnd (a : Fin 8) (s : State) : Ans := .next (engIssue 0x12 a.val s fun w s => seqFlow (bitwise a.val w (· &&& ·) s))

/-- OR (R291). -/
def execAnaOr (a : Fin 8) (s : State) : Ans := .next (engIssue 0x13 a.val s fun w s => seqFlow (bitwise a.val w (· ||| ·) s))

/-- XOR (R291). -/
def execAnaXor (a : Fin 8) (s : State) : Ans := .next (engIssue 0x14 a.val s fun w s => seqFlow (bitwise a.val w (· ^^^ ·) s))

/-- SHF (R291) (open corners: DEDUCED, log entry 43). -/
def execAnaShf (a : Fin 8) (s : State) : Ans :=
  .next (engIssue 0x15 a.val s fun w s =>
    let n := sgn 5 (bits w 0 5)
    let x := (engBank a.val s).vI (fVa w)
    seqFlow (if n ≥ 0 then satResult a.val (fVd w) (x * 2 ^ n.toNat) s
      else result1 a.val (fVd w) (x / (2 ^ (-n).toNat : Nat)) s))

/-- LDI (R291). -/
def execAnaLdi (a : Fin 8) (s : State) : Ans :=
  .next (engIssue 0x16 a.val s fun w s => seqFlow (result1 a.val (fVd w) (fImm w) s))

/-- LDIH (R291). -/
def execAnaLdih (a : Fin 8) (s : State) : Ans :=
  .next (engIssue 0x17 a.val s fun w s =>
    let x := (engBank a.val s).v.getD (fVd w) 0
    seqFlow (result1 a.val (fVd w) (sgn 24 (putBits x 16 8 (bits w 0 8))) s))

/-- SETAU (R291, R294). -/
def execAnaSetau (a : Fin 8) (s : State) : Ans :=
  .next (engIssue 0x18 a.val s fun w s =>
    let v := if bit w 16 then fImm w else (engBank a.val s).vI (fVa w)
    let u := bits w 23 2
    let x := engAu a.val u s
    seqFlow (setEngAu a.val u
      (match bits w 17 2 with
       | 0 => { x with p := wrap 16 v }
       | 1 => { x with oa := wrap 16 v }
       | 2 => { x with ob := wrap 16 v }
       | _ => let n := wrap 18 v; { x with w := bits n 16 2 * 2 ^ 16 + bits n 0 5 }) s))

/-- ABS (R291). -/
def execAnaAbs (a : Fin 8) (s : State) : Ans :=
  .next (engIssue 0x19 a.val s fun w s =>
    seqFlow (satResult a.val (fVd w) (absI ((engBank a.val s).vI (fVa w))) s))

/-- CMP (R291). -/
def execAnaCmp (a : Fin 8) (s : State) : Ans :=
  .next (engIssue 0x1B a.val s fun w s =>
    let x := (engBank a.val s).vI (fVa w) - operandB a.val w s
    let v := satI 24 x
    seqFlow (setEngBank a.val ({ engBank a.val s with o := decide (v ≠ x) }.flags v) s))

/-- BR (R290, R293). -/
def execAnaBr (a : Fin 8) (s : State) : Ans :=
  .next (engIssue 0x20 a.val s fun w s =>
    match engCond (engBank a.val s) (bits w 22 4) with
    | none => .error 1
    | some c => .ok (s, .branch (if c then some (bits w 0 14) else none) false))

/-- CALL (R291, R293): the return address is that after the delay slots (open corners: DEDUCED, log entry 43). -/
def execAnaCall (a : Fin 8) (s : State) : Ans :=
  .next (engIssue 0x21 a.val s fun w s =>
    match engCond (engBank a.val s) (bits w 22 4) with
    | none => .error 1
    | some false => .ok (s, .branch none false)
    | some true =>
      if (s.ana a.val).calls.length ≥ 8 then .error 5
      else
        let ret := s.get (ANA_PC a.val) + 3
        .ok (s.modAna a.val fun e => { e with calls := ret :: e.calls }, .branch (some (bits w 0 14)) false))

/-- RET (R291, R293). -/
def execAnaRet (a : Fin 8) (s : State) : Ans :=
  .next (engIssue 0x22 a.val s fun _ s =>
    match (s.ana a.val).calls with
    | [] => .error 6
    | ret :: rest => .ok (s.modAna a.val fun e => { e with calls := rest }, .branch (some ret) false))

/-- LOOPH (R291, R293) (open corners: DEDUCED, log entry 43). -/
def execAnaLooph (a : Fin 8) (s : State) : Ans :=
  .next (engIssue 0x23 a.val s fun w s =>
    let last := bits w 0 14
    let count := bits w 14 12
    let b := engBank a.val s
    if count = 0 then .ok (s, .skip (last + 1))
    else if b.loops.length ≥ 4 then .error 4
    else
      let first := s.get (ANA_PC a.val) + 1
      .ok (setEngBank a.val { b with loops := .loop first last count :: b.loops } s, .skip first))

/-- RTI (R295). -/
def execAnaRti (a : Fin 8) (s : State) : Ans :=
  .next (engIssue 0x24 a.val s fun _ s =>
    if engShadow a.val s then .ok (s, .branch (some (s.ana a.val).ira) true) else .error 7)

/-- WAIT (R295): it sleeps unless an enabled source is pending. -/
def execAnaWait (a : Fin 8) (s : State) : Ans :=
  .next (engIssue 0x25 a.val s fun _ s => .ok (s, if engPending a.val s = 0 then .stop anWaiting else .seq))

/-- HFLAG (R291, R302). -/
def execAnaHflag (a : Fin 8) (s : State) : Ans :=
  .next (engIssue 0x26 a.val s fun w s =>
    seqFlow ((s.set (ANA_HOST_VAL_VALUE a.val) (bits w 0 16)).flagAlways (ANA_STATUS_HOST_FLAG a.val) (800 + 2 * a.val)))

/-- SEND (R299): a cycle in which the output queue is full is a stall cycle (open corners: DEDUCED, log entry 44). -/
def execAnaSend (a : Fin 8) (s : State) : Ans :=
  .next (engIssue 0x27 a.val s fun w s =>
    let q := s.get (ANA_OUT_CFG_OUT_QUEUE a.val)
    let len := bits w 0 16
    if len = 0 then .error 8
    else if s.full q || !s.on (QM_Q_CTRL_Q_EN q) then .ok ((s.incSat (ANA_OUT_STALLS a.val)).noteEmpty q, .hold)
    else
      let p := (engAu a.val (fUnit w) s).p
      seqFlow (s.modAna a.val fun e => { e with sends := e.sends ++ [(p, len)] }))

/-- What an I/O register reads as at tick t (R298). -/
def ioRead (a io t : Nat) (s : State) : Nat :=
  match io with
  | 0 => s.get (ANA_IN_WP a 0)
  | 1 => s.get (ANA_IN_RP a 0)
  | 2 => s.get (ANA_IN_WP a 1)
  | 3 => s.get (ANA_IN_RP a 1)
  | 4 => bits t 0 24
  | 5 => (s.ana a).tlMid
  | 8 => (s.ana a).irq
  | _ => 0

/-- IORD (R298). -/
def execAnaIord (a : Fin 8) (s : State) : Ans :=
  .next (engIssue 0x28 a.val s fun w s =>
    let t := (s.ana a.val).at_
    let io := bits w 0 6
    let v := ioRead a.val io t s
    let s := if io = 4 then s.modAna a.val fun e => { e with tlMid := bits t 24 24 } else s
    seqFlow (engResult a.val 1 (.v (fVd w)) (sgn 24 v) s))

/-- A write of RP: false when it would leave more than LEN words (R298). -/
def rpFits (a j v : Nat) (s : State) : Bool :=
  (s.get (ANA_IN_WP a j) + 2 ^ 24 - v) % 2 ^ 24 ≤ s.get (ANA_IN_BUF_LEN a j)

/-- IOWR (R298). -/
def execAnaIowr (a : Fin 8) (s : State) : Ans :=
  .next (engIssue 0x29 a.val s fun w s =>
    let v := (engBank a.val s).v.getD (fVd w) 0
    let t := (s.ana a.val).at_
    match bits w 0 6 with
    | 1 => if rpFits a.val 0 v s then seqFlow (s.set (ANA_IN_RP a.val 0) v) else .error 8
    | 3 => if rpFits a.val 1 v s then seqFlow (s.set (ANA_IN_RP a.val 1) v) else .error 8
    | 6 => seqFlow (s.modAna a.val fun e => { e with timerLo := v })
    | 7 =>
      let at_ : Nat := (s.ana a.val).timerLo + v * 2 ^ 24
      if sgn 48 (wrap 48 ((at_ : Int) - t)) ≤ 0 then
        seqFlow (engRaise a.val 3 t (s.modAna a.val fun e => { e with timer := none }))
      else seqFlow (s.modAna a.val fun e => { e with timer := some at_ })
    | 9 => seqFlow (s.modAna a.val fun e => { e with irq := e.irq - (e.irq &&& v) })
    | _ => seqFlow s)

/-- HALT (R291). -/
def execAnaHalt (a : Fin 8) (s : State) : Ans := .next (engIssue 0x2A a.val s fun _ s => .ok (s, .stop anIdle))

/-- An undefined opcode or a field that R290 forbids: the engine faults with ILLEGAL (R290, R291, R301). -/
def execAnaIllegal (a : Fin 8) (s : State) : Ans :=
  .next (
    if anaState a.val s = anRunning ∧ !engIrqDue a.val s ∧ engIllegal (engFetch a.val s) then engFault a.val 1 s
    else s)

end Sys2Proof.Machine
end

