-- ==== Sys2Proof/Machine/FlavasCmds.lean ====
section
/-! DEFINITION. Commands of the Flavas links but for received flits (R319 to R335). -/

namespace Sys2Proof.Machine

/-! ### Enable and bring-up (R320, R331) -/

/-- Lane l belongs to an enabled link other than n. -/
def laneTaken (n l : Nat) (s : State) : Bool :=
  (List.range 32).any fun m => m != n && s.on (FLV_CTRL_EN m) && m ≤ l && decide (l < m + linkWidth m s)

/-- A write of EN = 1 to link n is refused (R320). -/
def linkRefused (n : Nat) (s : State) : Bool :=
  s.get (FLV_CFG_WIDTH n) == 3 || n % linkWidth n s != 0
    || (linkLanes n s).any fun l => laneTaken n l s || s.get (FLV_LANE_TEST_PATTERN l) != 0

/-- A write of 1 to link n's EN (R320). -/
def linkEnable (n : Nat) (s : State) : State :=
  if linkRefused n s then s.flag (FLV_STATUS_EN_REFUSED n) (768 + n)
  else
    let s := s.setB (FLV_CTRL_EN n) true
    if linkState n s = lkDisabled then setLinkState n lkDetect s.now s else s

/-- A write of 0 to link n's EN (R331). -/
def linkDisable (n : Nat) (s : State) : State :=
  let s := setLocks n false (holdFlits n s.now (s.setB (FLV_CTRL_EN n) false))
  setLinkState n lkDisabled s.now (s.setLink n { s.link n with t1 := none })

/-- A write of link EN = 1 (R320). -/
def execFlvEnable (r : Req) (n : Fin 32) (s : State) : Ans := .next (privileged r (FLV_CTRL_EN n.val) 1 s (linkEnable n.val))

/-- A write of link EN = 0 (R331). -/
def execFlvDisable (r : Req) (n : Fin 32) (s : State) : Ans :=
  .next (privileged r (FLV_CTRL_EN n.val) 0 s (linkDisable n.val))

/-- The far-end termination test of link n's lanes; bit k of `found` is lane n + k (R331). -/
def execFlvDetect (n : Fin 32) (found : BitVec 4) (s : State) : Ans :=
  .next (
    if linkState n.val s = lkDetect then
      let w := linkWidth n.val s
      let s := (List.range w).foldl (fun s k => s.setB (FLV_LANE_STATUS_DETECTED (n.val + k)) (found.getLsbD k)) s
      if (List.range w).all fun k => found.getLsbD k then setLinkState n.val lkTrain s.now s else s
    else s)

/-- The peer reports trained (R331). -/
def execFlvTrained (n : Fin 32) (s : State) : Ans :=
  .next (if linkState n.val s = lkTrain then setLinkState n.val lkLock s.now s else s)

/-- TRAIN has lasted 2 ms (R331). -/
def execFlvTrainTimeout (n : Fin 32) (s : State) : Ans :=
  .next (
    if linkState n.val s = lkTrain then
      let t := (s.link n.val).since + 4000000
      let s := advanceTo t s
      let s := (s.incSat (FLV_TRAIN_FAILS n.val)).flag (FLV_STATUS_TRAIN_FAIL n.val) (768 + n.val)
      setLinkState n.val lkDetect t s
    else s)

/-- The capability flit that link n sends in CAPS (R328, R331). -/
def sendCaps (n : Nat) (s : State) : State := s.emit (.caps n (myDev s) (s.get (FLV_CFG_WIDTH n)) flvDepth)

/-- Bit and block lock and deskew are gained, and the link sends its capability flit (R328, R331). -/
def execFlvLocked (n : Fin 32) (s : State) : Ans :=
  .next (
    if linkState n.val s = lkLock then setLinkState n.val lkCaps s.now (setLocks n.val true (sendCaps n.val s)) else s)

/-- LOCK has lasted 100 us (R331). -/
def execFlvLockTimeout (n : Fin 32) (s : State) : Ans :=
  .next (
    if linkState n.val s = lkLock then
      let t := (s.link n.val).since + 200000
      setLinkState n.val lkTrain t (advanceTo t s)
    else s)

/-- A capability flit from device `peer` with its WIDTH and receiver depth is exchanged (R328, R330, R331). -/
def execFlvCaps (n : Fin 32) (peer : Fin 64) (width : BitVec 2) (depth : BitVec 8) (s : State) : Ans :=
  .next (
    if linkState n.val s = lkCaps then
      let s := s.set (FLV_STATUS_PEER_DEV n.val) peer.val
      let back := fun s => setLinkState n.val lkTrain s.now (setLocks n.val false s)
      if s.on (FLV_CFG_PEER_CHK n.val) && s.get (FLV_CFG_PEER n.val) != peer.val then
        back (s.flag (FLV_STATUS_PEER_MISMATCH n.val) (768 + n.val))
      else if width.toNat ≠ s.get (FLV_CFG_WIDTH n.val) then back s
      else linkActive n.val s.now (linkRestore n.val depth.toNat s)
    else s)

/-- CAPS has lasted 10 us (R331). -/
def execFlvCapsTimeout (n : Fin 32) (s : State) : Ans :=
  .next (
    if linkState n.val s = lkCaps then
      let t := (s.link n.val).since + 20000
      setLinkState n.val lkTrain t (setLocks n.val false (advanceTo t s))
    else s)

/-! ### Credits, time, retraining (R329, R332, R333) -/

/-- Credits have waited 64 ticks for a flit to carry them: a credit-only flit is sent (R329). -/
def execCreditFlit (n : Fin 32) (s : State) : Ans :=
  .next (
    if linkState n.val s = lkActive ∧ (s.link n.val).owed > 0 then
      let s := advanceTo ((s.link n.val).owedAt + 64) s
      if (s.link n.val).owed > 0 ∧ s.get (FLV_CREDIT_TX_CREDITS n.val) > 0 then sendFlit n.val [] s else s
    else s)

/-- The next periodic TIME exchange of link n (R332). -/
def execTimeExchange (n : Fin 32) (s : State) : Ans :=
  .next (
    let p := s.get (FLV_CFG2_TIME_PERIOD n.val)
    if linkState n.val s = lkActive ∧ p ≠ 0 then
      let s := advanceTo ((s.link n.val).timeAt + 2000 * p) s
      startTime n.val s.now s
    else s)

/-- Lane n + k of link n has seen 16 invalid sync headers within 1,024 blocks: those that no flit has brought are counted too (R333,
R339) (open corners: DEDUCED, log entry 46). -/
def execFlvLockLost (n : Fin 32) (k : Fin 4) (s : State) : Ans :=
  .next (
    if linkState n.val s = lkActive then
      let x := s.fibre (n.val + k.val)
      let s := (s.setFibre (n.val + k.val) { x with bad := 0 }).incSat (FLV_SYNC_ERRORS (n.val + k.val)) (16 - x.bad)
      retrain n.val s.now (s.flag (FLV_STATUS_LOCK_LOST n.val) (768 + n.val))
    else s)

/-- FLV_CTRL.RETRAIN takes effect (R333). -/
def retrainWrite (n : Nat) (s : State) : State := if linkState n s = lkActive then retrain n s.now s else s

/-- FLV_CTRL.RETRAIN (R333). -/
def execFlvRetrain (r : Req) (n : Fin 32) (s : State) : Ans :=
  .next (privileged r (FLV_CTRL_RETRAIN n.val) 1 s (retrainWrite n.val))

/-! ### EIDLE (R334) -/

/-- FLV_CTRL.IDLE_REQ takes effect (R334). -/
def idleWrite (n : Nat) (s : State) : State := if linkState n s = lkActive then enterIdle n s.now s else s

/-- FLV_CTRL.IDLE_REQ (R334). -/
def execIdleReq (r : Req) (n : Fin 32) (s : State) : Ans :=
  .next (privileged r (FLV_CTRL_IDLE_REQ n.val) 1 s (idleWrite n.val))

/-- The link has been quiet for IDLE_AFTER us, or an idle ordered set is received (R334). -/
def execEidleEntry (n : Fin 32) (received : Bool) (s : State) : Ans :=
  .next (
    if linkState n.val s = lkActive then
      if received then enterIdle n.val s.now s
      else if s.on (FLV_CFG_AUTO_IDLE n.val) && linkQuiet n.val s then
        let quiet := (s.link n.val).quiet
        let t := quiet + 2000 * max 1 (s.get (FLV_CFG_IDLE_AFTER n.val))
        let s := advanceTo t s
        if linkState n.val s = lkActive ∧ linkQuiet n.val s ∧ (s.link n.val).quiet + (t - quiet) ≤ s.now then enterIdle n.val s.now s
        else s
      else s
    else s)

/-- The exit burst of EIDLE ends, 16 ticks after the message or credit that began it, or after the present tick where the
peer began it (R334). -/
def execEidleExit (n : Fin 32) (s : State) : Ans :=
  .next (
    if linkState n.val s = lkEidle then
      let t := match (s.link n.val).exitAt with | some t => t | none => s.now + 16
      let s := advanceTo t s
      linkActive n.val s.now (s.incSat (FLV_IDLE_EXITS n.val))
    else s)

/-! ### Lane test (R335) -/

/-- FLV_LANE_TEST.INJECT takes effect (R335). -/
def injectWrite (l : Nat) (s : State) : State :=
  let x := s.fibre l
  s.setFibre l { x with injected := x.injected + 1 }

/-- FLV_LANE_TEST.INJECT (R335). -/
def execPrbsInject (r : Req) (l : Fin 32) (s : State) : Ans :=
  .next (privileged r (FLV_LANE_TEST_INJECT l.val) 1 s (injectWrite l.val))

/-- A lane's checker sees 64 consecutive correct bits (R335). -/
def execPrbsLock (l : Fin 32) (s : State) : Ans :=
  .next (
    if s.on (FLV_LANE_TEST_CHK l.val) && s.get (FLV_LANE_TEST_PATTERN l.val) != 0
        && !s.on (FLV_LANE_STATUS_PRBS_LOCK l.val) then
      let x := s.fibre l.val
      (s.setFibre l.val { x with lockAt := some s.now }).setB
        (FLV_LANE_STATUS_PRBS_LOCK l.val) true
    else s)

/-- A locked checker has seen `errors` errors that are not counted yet: 64 of them within 1,024 bits lose its lock, and fewer are
counted as it goes on (R335) (open corners: DESIGN CHOICE, log entry 112). -/
def execPrbsLoss (l : Fin 32) (errors : BitVec 32) (s : State) : Ans :=
  .next (
    if s.on (FLV_LANE_STATUS_PRBS_LOCK l.val) then
      let s := s.incSat (FLV_PRBS_ERRORS l.val) errors.toNat
      if errors.toNat < 64 then s else (laneUnlock l.val s.now s).flag (FLV_LANE_STATUS_PRBS_LOSS l.val) (768 + l.val)
    else s)

end Sys2Proof.Machine
end

