-- ==== Sys2Proof/Machine/Lookup.lean ====
section
/-! DEFINITION. The registers and windows behind BAR0: which register and instance an offset names, what its dword shows,
and the per-requester slots of 64-bit reads and writes (R356 to R359, R364). -/

namespace Sys2Proof.Machine

/-! ### Offsets -/

/-- Where a dword of BAR0 leads: a register, its two indices, and the dword within it. -/
structure Place where
  reg    : Reg
  i      : Nat
  j      : Nat
  dw     : Nat
  dwords : Nat
deriving DecidableEq, Repr

/-- The indices and the rest of an offset under strides and counts, outermost first. -/
def splitDims : List (Nat × Nat) → Nat → Option (List Nat × Nat)
  | [], off => some ([], off)
  | (stride, count) :: ds, off =>
    if off / stride < count then (splitDims ds (off % stride)).map fun x => (off / stride :: x.1, x.2) else none

/-- The place of an offset in one row of the register map. -/
def RegRow.place (r : RegRow) (addr : Nat) : Option Place :=
  if addr < r.base then none else
    match splitDims r.dims (addr - r.base) with
    | none => none
    | some (ix, rest) =>
      if 4 * r.dwords ≤ rest then none else
        let seq := r.dims.take 2 == [(0x4000, 64), (0x400, 8)]
        let i := if seq then 8 * ix.getD 0 0 + ix.getD 1 0 else ix.getD 0 0 + r.first
        some ⟨r.reg, i, if seq then ix.getD 2 0 else ix.getD 1 0, rest / 4, r.dwords⟩

/-- The register dword at a PF0 offset, if one is implemented there (R356). -/
def regPlace (addr : Nat) : Option Place := regMap.findSome? fun r => r.place addr

/-- The PF0 offset that a PF1 offset maps to (R357). -/
def pf1Offset (addr : Nat) : Option Nat :=
  if addr < 0x40_0000 then some (if 0xC_0000 ≤ addr ∧ addr < 0xC_2000 then addr - 0xC_0000 + 0x180_0000 else addr)
  else if addr < 0x80_0000 then some (addr - 0x40_0000 + 0x300_0000)
  else if addr < 0x100_0000 then some (addr - 0x80_0000 + 0x100_0000)
  else if addr < 0x200_0000 then some (addr - 0x100_0000 + 0x200_0000)
  else none

/-- The PF0 offset of a requester's access; none where its function has no such offset. -/
def pf0Offset (r : Req) (addr : Nat) : Option Nat :=
  if r.sup ∨ r.fn = 0 then (if addr < 0x400_0000 then some addr else none) else pf1Offset addr

/-! ### Fields of a dword -/

/-- The fields of a register whose privilege depends on the instance (R390): mailboxes 4 to 11 have none. -/
def placeFields (p : Place) : List RegField :=
  let fs := regFields p.reg p.i p.j
  if p.reg = .MBX_DB ∧ 4 ≤ p.i ∧ p.i ≤ 11 then fs.map fun f => { f with priv := false } else fs

/-- The lowest bit of a field within its register instance. -/
def Place.bitOf (p : Place) (f : Fld) : Nat :=
  f.key - 32 * (match regFields p.reg p.i p.j with | [] => 0 | x :: _ => x.fld.key / 32)

/-- The part of a field that lies in the place's dword: lowest bit in the dword, lowest bit in the field, width; width 0 when
none does. -/
def Place.slice (p : Place) (f : Fld) : Nat × Nat × Nat :=
  let lo := p.bitOf f
  let a := max lo (32 * p.dw)
  let b := min (lo + f.width) (32 * p.dw + 32)
  (a - 32 * p.dw, a - lo, b - a)

/-- The fields that have bits in the place's dword. -/
def Place.fields (p : Place) : List RegField := (placeFields p).filter fun f => (p.slice f.fld).2.2 != 0

/-- A LO/HI pair that holds one quantity wider than 32 bits (R364). -/
def Place.isPair (p : Place) : Bool :=
  p.dwords == 2 && match regFields p.reg p.i p.j with | [f] => decide (32 < f.fld.width) | _ => false

/-- The bits of a dword's data that belong to a field, at their place in the field. -/
def Place.data (p : Place) (f : Fld) (v : Nat) : Nat :=
  let x := p.slice f
  bits v x.1 x.2.2 * 2 ^ x.2.1

/-- A field's value with the bits in the dword replaced by the dword's data. -/
def Place.merge (p : Place) (f : Fld) (v : Nat) (s : State) : Nat :=
  let x := p.slice f
  putBits (s.get f) x.2.1 x.2.2 (bits v x.1 x.2.2)

/-! ### What a register shows -/

/-- Bit k of n is set when a sticky flag of unit k is (R205, R233, R261). -/
def stickyMask (n : Nat) (fields : Nat → List RegField) (s : State) : Nat :=
  (List.range n).foldl (fun m k => m + b2n ((fields k).any fun f => f.acc == .w1c && s.on f.fld) * 2 ^ k) 0

/-- A producer of queue q is held back by it: a sequencer at a full result ring or a full timed event queue, or an analysis engine in
SEND at its full output queue (R93, R97, R103, R299). -/
def queueStalls (q : Nat) (s : State) : Bool :=
  (s.anas.any fun x => x.2.held && s.get (ANA_OUT_CFG_OUT_QUEUE x.1) == q && s.full q) || s.seqs.any fun x => match x.2.stall with
    | some .ring => x.2.rings.contains q && s.get (QM_Q_CFG_FULL_POLICY q) == 0 && s.full q
    | some (.teqFull w) => q == 32 * x.1 + w.queue
    | some (.micro 0x3E j) => q == 32 * x.1 + j
    | _ => false

/-- A session has gone 3,600 s without an accepted command, t ticks after the lock, and is over (R382). -/
def Session.over (e : Session) (t : Nat) : Bool := decide (e.at_ + 7200000000000 < t)

/-- A lockout of mailbox m is running (R381). -/
def lockedOut (m : Nat) (s : State) : Bool := match (s.mbx m).lockEnd with | some t => decide (s.up < t) | none => false

/-- Writes that wait for the Cellar's temperature: fault-log entries, the island's commit, and the command that a change of
temperature has caught (R386, R393, R455, R480). -/
def celQueued (s : State) : Nat := satN 8 (s.host.logHeld + b2n s.exc.dirty + b2n s.cel.late)

/-- The state with the fields of a register that show what the block does at this tick (DEDUCED, log entry 17) (open corners:
DEDUCED, log entry 85). -/
def shownState (r : Reg) (i : Nat) (s : State) : State :=
  match r with
  | .TL_STATUS => s.setB TL_STATUS_ACTIVE (tlActive s)
  | .TL_CA_ANGLE => (s.set TL_CA_ANGLE_ANGLE (angleAt s s.now)).setB TL_CA_ANGLE_VALID (angleValid s)
  | .TUN_STATUS => s.set (TUN_STATUS_PART i) (nibble GLB_PART_TUN i s)
  | .SEQ_SLACK => s.setI (SEQ_SLACK i) (satI 32 (slackAt i s.now s))
  | .QM_Q_STATUS =>
    let s := if 0x4000 ≤ i then s.setB (QM_Q_STATUS_FULL i) (s.full i) else s
    s.setB (QM_Q_STATUS_STALLING i) (queueStalls i s)
  | .KILN_SKIPPED => s.set KILN_SKIPPED (s.get KILN_SKIPPED + s.seqs.foldl (fun n x => n + kilnSoFar x.2 s.now) 0)
  | .ANA_CYCLES => s.set (ANA_CYCLES i) (engCycles i s.now s)
  | .RFO_STATUS => s.setB (RFO_STATUS_MUTED i) (rfoMuted i s.now s)
  | .RFO_TILE_PENDING => s.set (RFO_TILE_PENDING i) (stickyMask 36 (fun k => regFields .RFO_STATUS (36 * i + k) 0) s)
  | .ZB_CODE => s.setI (ZB_CODE_CODE i) (sgn 24 (zbCode i s.now s))
  | .ZP_TILE_PENDING => s.set (ZP_TILE_PENDING i) (stickyMask 96 (fun k => regFields .ZP_STATUS (96 * i + k) 0) s)
  | .RFI_LAU_PENDING => s.set (RFI_LAU_PENDING i) (stickyMask 32 (fun k => regFields .LAU_STATUS (32 * i + k) 0) s)
  | .MON_SAR_STATUS => s.setB (MON_SAR_STATUS_BUSY i) (monBusy i s)
  | .LAU_STATUS => s.setB (LAU_STATUS_BUSY_NOW i) ((s.lau i).windows.any fun w => w.fire ≤ s.now && s.now < w.e)
  | .FLV_PRBS_BITS => s.set (FLV_PRBS_BITS i) (s.get (FLV_PRBS_BITS i) + laneBits i s.now s)
  | .CEL_QUEUED => s.set CEL_QUEUED (celQueued s)
  | .MBX_DB =>
    let s := s.setB (MBX_DB_LOCKOUT i) (lockedOut i s)
    let s := s.setB (MBX_DB_SESSION_OPEN i) (match (s.mbx i).session with | some e => !e.over s.up | none => false)
    s.set (MBX_DB_LOCK_S i)
      (match (s.mbx i).lockEnd with | some t => satN 16 (ceilDiv (t - s.up) 2000000000) | none => 0)
  | _ => s

/-- The dword that a place shows; fields that `see` rejects, and write-only ones, read as 0 (DEDUCED, log entry 17). -/
def placeRead (p : Place) (see : RegField → Bool) (s : State) : Nat :=
  let s := shownState p.reg p.i s
  p.fields.foldl (fun n f =>
    if see f && f.acc != .wo then
      let x := p.slice f.fld
      n + bits (s.get f.fld) x.2.1 x.2.2 * 2 ^ x.1
    else n) 0

/-! ### Slots per requester (R95, R364) -/

/-- The slot of a requester, moved to the front; a new requester takes the least recently used of the 16. -/
def snapOf (who : Nat) (s : State) : Snap := (s.host.snaps.find? fun x => x.who == who).getD ⟨who, 0, none, 0, none⟩

/-- Put a requester's slot back as the one used last. -/
def setSnap (x : Snap) (s : State) : State :=
  { s with host := { s.host with snaps := (x :: s.host.snaps.filter fun y => y.who != x.who).take 16 } }

/-- The queue a requester has selected (R95). -/
def qmSel (who : Nat) (s : State) : Nat := ((s.host.qmSel.find? fun x => x.1 == who).map (·.2)).getD 0

/-- Select a queue for a requester, its slot becoming the one used last (R95). -/
def setQmSel (who q : Nat) (s : State) : State :=
  { s with host := { s.host with qmSel := ((who, q) :: s.host.qmSel.filter fun x => x.1 != who).take 16 } }

/-- The place with the queue that the requester has selected as its index, for the registers of the selected queue. -/
def Place.forReq (p : Place) (who : Nat) (s : State) : Place :=
  if p.reg = .QM_Q_CFG ∨ p.reg = .QM_Q_CTRL ∨ p.reg = .QM_Q_STATUS ∨ p.reg = .QM_Q_DROPS then { p with i := qmSel who s }
  else p

/-! ### Windows -/

/-- What a memory window holds at a PF0 offset: the model's address of the dword, for windows that show bytes as they stand
(R165, R177, R264, R283, R296, R390); none outside them. -/
def windowAddr (addr : Nat) (s : State) : Option Nat :=
  if 0x100_0000 ≤ addr ∧ addr < 0x10A_0000 then some (frameAddr ((addr - 0x100_0000) / 16) + addr % 16)
  else if 0x110_0000 ≤ addr ∧ addr < 0x130_0000 then some (shadowAddr ((addr - 0x110_0000) / 16) s + addr % 16)
  else if 0x130_0000 ≤ addr ∧ addr < 0x150_0000 then
    let w := (addr - 0x130_0000) / 16
    some (descAddr (descBank w s) w + addr % 16)
  else if 0x160_0000 ≤ addr ∧ addr < 0x180_0000 then some (decTableAddr ((addr - 0x160_0000) / 4))
  else if 0x200_0000 ≤ addr ∧ addr < 0x300_0000 then
    let c := (addr - 0x200_0000) / 0x4000
    let off := (addr - 0x200_0000) % 0x4000
    if off < 0x2000 then some addr
    else
      let bank := if off < 0x2400 then 1 - kernelBank c s else kernelBank c s
      let at_ := off % 0x400
      if off < 0x2800 ∧ (at_ < 0x80 ∨ (0x100 ≤ at_ ∧ at_ < 0x200)) then some (kernelBankAt c bank + at_) else none
  else if 0x300_0000 ≤ addr ∧ addr < 0x340_0000 then (if (addr - 0x300_0000) % 0x8_0000 < 0x5_0000 then some addr else none)
  else if 0x4_0000 ≤ addr ∧ addr < 0x6_0000 then (if addr % 0x2000 = 0xC then none else some addr)
  else none

/-- The dword that a window shows, held at the model's address a: bits that a discriminator set's MODE makes reserved read as zero
(R8, R248). -/
def windowDword (a : Nat) (s : State) : Nat :=
  if 0x200_0000 ≤ a ∧ a < 0x300_0000 ∧ 0x2000 ≤ a % 0x4000 then
    let off := a % 0x4000 - 0x2000
    ofBytes ((List.range 4).map fun k => kernelByte ((a - 0x200_0000) / 0x4000) (off / 0x400) (off % 0x400 + k) s)
  else s.rd a 4

/-- Every field of the window dword is privileged (R296, R373). -/
def windowPriv (addr : Nat) : Bool :=
  (decide (0x300_0000 ≤ addr ∧ addr < 0x340_0000) && decide (0x4_0000 ≤ addr % 0x8_0000)) ||
  (decide (0x4_0000 ≤ addr ∧ addr < 0x6_0000) &&
    (decide ((addr - 0x4_0000) / 0x2000 < 4) || decide (12 ≤ (addr - 0x4_0000) / 0x2000)))

/-- The Result Vector pair that a window dword shows (R268). -/
def rvDword (n : Nat) (s : State) : Nat :=
  let x := pairOf n s
  x.val % 4 + b2n x.inv * 4 + x.gen % 65536 * 65536

/-! ### Reads -/

/-- A write that waits to be applied to its register or table word (R165, R246, R283, R344, R359, R362). -/
def Action.isWrite : Action → Bool
  | .memByte .. | .frameDword .. | .cfg .. | .ntInc .. => true
  | _ => false

/-- The tick at which the writes that a copy of a bank holds are applied (R179, R259) (DEDUCED, log entry 51). -/
def heldUntil (b : Option BankOp) : Nat :=
  match b with
  | some b => if b.held.isEmpty then 0 else b.at_
  | none => 0

/-- The tick by which every write that has reached the device is applied (R359). -/
def writesDone (s : State) : Nat :=
  let t := (s.due.filter fun d => d.2.isWrite).foldl (fun t d => max t d.1) s.now
  s.rfis.foldl (fun t x => max t (heldUntil x.2.bank)) (max t (heldUntil s.wft.bank))

/-- A read waits until every earlier write has been applied (R359). -/
def applyWrites (s : State) : State := advanceTo (writesDone s) s

/-- A read of one dword by a requester at a PF0 offset: its data and the state after the read's side effects (R358, R361,
R364).  A partial read has none (open corners: DEDUCED, log entry 51). -/
def readDword (r : Req) (be addr : Nat) (s : State) : Nat × State :=
  let addr := addr - addr % 4
  let full := be == 0xF
  let who := reqId r
  let priv := isPriv r s
  let refuse := fun s => if full then accessFault r .privilege false be addr 0 s else s
  if 0x180_0000 ≤ addr ∧ addr < 0x180_2000 then (rvDword ((addr - 0x180_0000) / 4) s, s)
  else match windowAddr addr s with
  | some a =>
    if windowPriv addr && !priv then (0, refuse s)
    else
      let v := windowDword a s
      if 0x100_0000 ≤ addr ∧ addr < 0x10A_0000 ∧ full then
        let f := (addr - 0x100_0000) / 16
        if addr % 16 = 0 then
          (v, { s with host := { s.host with
            frameRead := ((who, f, s.rd (a + 4) 4) :: s.host.frameRead.filter fun x => x.1 != who).take 16 } })
        else if addr % 16 = 4 then
          match s.host.frameRead.find? fun x => x.1 == who with
          | some (_, g, hi) => (if g = f then hi else v, s)
          | none => (v, s)
        else (v, s)
      else (v, s)
  | none =>
    match regPlace addr with
    | none => (0, s)
    | some p =>
      if p.reg = .QM_SEL then (qmSel who s, if full then setQmSel who (qmSel who s) s else s)
      else
        let p := p.forReq who s
        let v := placeRead p (fun f => priv || !f.priv) s
        let s := if !priv && !p.fields.isEmpty && p.fields.all (·.priv) then refuse s else s
        if p.isPair && full then
          let x := snapOf who s
          if p.dw = 0 then
            let hi := placeRead { p with dw := 1 } (fun f => priv || !f.priv) s
            (v, setSnap { x with pair := addr, hi := some hi } s)
          else
            (if x.pair + 4 = addr then x.hi.getD v else v, setSnap x s)
        else (v, s)

end Sys2Proof.Machine
end

