-- ==== Sys2Proof/Machine/Cellar.lean ====
section
/-! DEFINITION. The Cellar: its regions, its error correction and its commits (R454 to R456, R464, R466). -/

namespace Sys2Proof.Machine

/-! ### Regions (R454) -/

/-- The regions of the Cellar. -/
inductive CellarRegion where
  | lifecycle
  | keyStore
  | park
  | ryvex (slot : Nat)
  | recipe
  | cal
  | faultLog
  | island
  | reserved
deriving DecidableEq, Repr

/-- The region of a byte address (R454) (DESIGN CHOICE, log entry 74). -/
def cellarRegion (a : Nat) : CellarRegion :=
  if a < 0x1000 then .lifecycle
  else if a < 0x1_0000 then .keyStore
  else if a < 0x2_0000 then .park
  else if a < 0x10_0000 then .reserved
  else if a < 0x90_0000 then .ryvex 0
  else if a < 0x110_0000 then .ryvex 1
  else if a < 0x130_0000 then .recipe
  else if a < 0x170_0000 then .cal
  else if a < 0x1B0_0000 then .faultLog
  else if a < 0x1F0_0000 then .island
  else .reserved

/-! ### Error correction (R456) -/

/-- A corrected error (R456) (open corners: DESIGN CHOICE, log entry 74). -/
def cellarCorrected (s : State) : State := (s.incSat CEL_ECC_CORR).flagAlways CEL_STATUS_ECC_CORR 81

/-- An uncorrectable error is counted and its address recorded (R456) (open corners: DESIGN CHOICE, log entry 74). -/
def cellarCount (addr : Nat) (s : State) : State :=
  ((s.incSat CEL_ECC_UNCORR).set CEL_ERR_ADDR addr).flagAlways CEL_STATUS_ECC_UNCORR 82

/-- An entry of the key store is lost: the role opens no session, the slot is not trusted (R456) (DESIGN CHOICE, log entry 74). -/
def loseKey (n : Nat) (s : State) : State :=
  if n < 4 then { s with cel := { s.cel with roles := Tab.drop s.cel.roles n, lost := n :: s.cel.lost.filter (· != n) } }
  else if n < 12 then s.setB (SEC_SLOT_VALID (n - 4)) false
  else s

/-- A word of the island's region is lost: an account's ledger breaks, or the stored image fails at the next start (R24, R393, R453,
R456) (DESIGN CHOICE, log entry 74). -/
def loseIsland (n addr : Nat) (s : State) : State :=
  if n < 16 then ledgerBreak n 2 addr s
  else if n = 16 then
    { s with exc := { s.exc with
      cur := { s.exc.cur with imageBad := true }, saved := { s.exc.saved with imageBad := true } } }
  else ledgerBreak 0xFF 2 addr s

/-- An uncorrectable error of the word at a Cellar address, and what it does by its region (R456) (open corners:
DESIGN CHOICE, log entry 74). -/
def cellarUncorrectable (addr : Nat) (s : State) : State :=
  let s := cellarCount addr s
  let cel := s.cel
  match cellarRegion addr with
  | .keyStore => loseKey (Config.keyEntry addr) s
  | .ryvex 0 => { s with cel := { cel with ryvexA := .empty } }
  | .ryvex _ => { s with cel := { cel with ryvexB := .empty } }
  | .park =>
    if Config.parkSecond addr then { s with cel := { cel with parkB := { cel.parkB with valid := false } } }
    else { s with cel := { cel with parkA := { cel.parkA with valid := false } } }
  | .island => loseIsland (Config.islandWord addr) addr s
  | .lifecycle | .recipe | .cal | .faultLog | .reserved => s

/-- An error that the Cellar finds (R456) (DESIGN CHOICE, log entry 74). -/
def cellarError (e : CellarError) (s : State) : State :=
  if e.fixed then cellarCorrected s else cellarUncorrectable e.addr.toNat s

end Sys2Proof.Machine
end

