-- ==== Sys2Proof/Machine/Integrity.lean ====
section
/-! DEFINITION. Configuration integrity: what each block's CRC covers, its passes, its reference and its comparison (R366,
R367). -/

namespace Sys2Proof.Machine

/-- The block whose CRC register, reference or COMMIT a place holds, by the register's name. -/
def crcBlock (r : Reg) (i : Nat) : Option CfgBlock :=
  match r with
  | .TUN_CFG_CRC_REF | .TUN_CFG_CRC_COMMIT => some (.tun (Fin.ofNat 64 i))
  | .QM_CFG_CRC_REF | .QM_CFG_CRC_COMMIT => some .qm
  | .WFT_CFG_CRC_REF | .WFT_CFG_CRC_COMMIT => some .wft
  | .RFO_CFG_CRC_REF | .RFO_CFG_CRC_COMMIT => some (.rfo (Fin.ofNat 288 i))
  | .ZP_CFG_CRC_REF | .ZP_CFG_CRC_COMMIT => some (.zp (Fin.ofNat 768 i))
  | .RFI_CFG_CRC_REF | .RFI_CFG_CRC_COMMIT => some (.rfi (Fin.ofNat 32 i))
  | .LAU_CFG_CRC_REF | .LAU_CFG_CRC_COMMIT => some (.lau (Fin.ofNat 1024 i))
  | .DEC_CFG_CRC_REF | .DEC_CFG_CRC_COMMIT => some .dec
  | .ANA_CFG_CRC_REF | .ANA_CFG_CRC_COMMIT => some (.ana (Fin.ofNat 8 i))
  | .TAP_CFG_CRC_REF | .TAP_CFG_CRC_COMMIT => some (.tap (Fin.ofNat 32 i))
  | .FLV_CFG_CRC_REF | .FLV_CFG_CRC_COMMIT => some (.flv (Fin.ofNat 32 i))
  | .FLV_GCFG_CRC_REF | .FLV_GCFG_CRC_COMMIT => some .flvGlobal
  | .NT_CFG_CRC_REF | .NT_CFG_CRC_COMMIT => some .nt
  | .ETH_CFG_CRC_REF | .ETH_CFG_CRC_COMMIT => some (.eth (Fin.ofNat 2 i))
  | .HOST_CFG_CRC_REF | .HOST_CFG_CRC_COMMIT => some .host
  | .MON_CFG_CRC_REF | .MON_CFG_CRC_COMMIT => some .mon
  | .CAL_CFG_CRC_REF | .CAL_CFG_CRC_COMMIT => some .cal
  | .KILN_CFG_CRC_REF | .KILN_CFG_CRC_COMMIT => some .kiln
  | _ => none

/-! ### Coverage -/

/-- The dwords of a register instance that hold a CFG field, their other bits 0 (R366) (open corners: DEDUCED, log entry 78). -/
def covered (r : Reg) (i j dwords : Nat) (s : State) : List Nat :=
  ((List.range dwords).map fun d => (⟨r, i, j, d, dwords⟩ : Place)).filterMap fun p =>
    if p.fields.any fun f => f.acc == .cfg then some (placeRead p (fun f => f.acc == .cfg) s) else none

/-- The dwords that a block's CRC covers, in ascending address order; queues in ascending number (R97, R366). -/
def coveredDwords (b : CfgBlock) (s : State) : List Nat :=
  let one := fun (r : Reg) (i : Nat) => covered r i 0 1 s
  let each := fun (r : Reg) (i n : Nat) => (List.range n).flatMap fun j => covered r i j 1 s
  match b with
  | .tun t => (List.range 8).flatMap fun k =>
      let q := 8 * t.val + k
      one .SEQ_CTRL q ++ one .SEQ_RESUME_PC q ++ each .SEQ_GREG q 16
        ++ (List.range 32).flatMap fun j => covered .SEQ_TEQ_BIND q j 2 s
  | .qm => one .QM_CTRL 0 ++ ((List.range 16).flatMap fun k => one .QM_PART_QUOTA k)
      ++ (List.range 0xC000).flatMap fun k => one .QM_Q_CFG (0x4000 + k)
  | .wft => one .WFT_CFG 0
  | .rfo p => one .RFO_CFG p.val
  | .zp z => one .ZP_CFG z.val ++ one .ZP_STREAM_Q z.val
      ++ ((List.range 4).flatMap fun j => covered .ZF_IIR_ALPHA z.val j 1 s ++ covered .ZF_IIR_A z.val j 1 s)
      ++ each .ZF_FIR z.val 32
  | .rfi i => one .RFI_CFG i.val
  | .lau c => one .LAU_CFG c.val ++ one .LAU_FRAMES c.val
  | .dec => ((List.range 1024).flatMap fun c => one .DEC_FWD c) ++ (List.range 64).flatMap fun d =>
      one .DEC_WIN_CFG d ++ each .DEC_WIN_GROUP d 4 ++ each .DEC_WIN_PFRAME d 4 ++ each .DEC_GATHER d 19
  | .ana a => one .ANA_CFG a.val
      ++ ((List.range 2).flatMap fun j => covered .ANA_IN_CFG a.val j 1 s ++ covered .ANA_IN_BUF a.val j 1 s)
      ++ one .ANA_OUT_CFG a.val ++ (List.range 16384).map fun n => s.rd (engProgAddr a.val n) 4
  | .tap i => one .TAP_CFG i.val ++ one .TAP_LEN i.val ++ one .TAP_PRE i.val ++ one .TAP_CH_MASK i.val
      ++ one .TAP_MEAS_MASK i.val ++ one .TAP_QUEUE i.val ++ one .TAP_REGION_BASE i.val ++ one .TAP_REGION_SIZE i.val
  | .flv n => one .FLV_CFG n.val ++ one .FLV_CFG2 n.val ++ (linkLanes n.val s).flatMap fun l => one .FLV_LANE_TEST l
  | .flvGlobal => ((List.range 64).flatMap fun k => one .FLV_PROXY_SRC k)
      ++ (List.range 64).flatMap fun k => one .FLV_PROXY_DST k
  | .nt => one .NT_STEP_MAX 0
  | .eth e => one .ETH_CFG e.val
  | .host => one .HOST_CFG 0
  | .mon => ((List.range 10).flatMap fun x => (List.range 8).flatMap fun j =>
      covered .MON_SEQ x j 1 s ++ covered .MON_SEQ_DELAY x j 1 s ++ covered .MON_SEQ_AT x j 2 s)
      ++ (List.range 8).flatMap fun n => one .BRG_CFG n
  | .cal => (List.range 8).flatMap fun a => one .CAL_CFG a ++ one .CAL_PERIOD a ++ one .CAL_WAIT a ++ one .CAL_STEP_TMO a
  | .kiln => one .KILN_CFG 0 ++ one .KILN_RATE 0 ++ one .KILN_PROC_MIN 0
      ++ ((List.range 4).flatMap fun k => one .KILN_SKIP (k + 1))
      ++ ((List.range 49).flatMap fun n => covered .KILN_THR n 0 2 s)
      ++ (List.range 24).flatMap fun r => one .KILN_RAIL_LIM r

/-- The result of a pass over a block's configuration as it stands (R366) (open corners: DEDUCED, log entry 52). -/
def crcOfBlock (b : CfgBlock) (s : State) : Nat := crc32c ((coveredDwords b s).flatMap fun d => toBytes 4 d)

/-! ### References, passes, comparison -/

/-- CRC_REF is set: the block is compared from now on (R367). -/
def setRef (b : CfgBlock) (v : Nat) (s : State) : State :=
  (s.set (crcRegs b).ref v).setCrc b { s.crcOf b with refSet := true, suspend := false }

/-- A write of 1 to COMMIT: the first pass that begins after it sets the reference (R367) (open corners: DEDUCED, log entry 52). -/
def crcCommit (b : CfgBlock) (s : State) : State :=
  let x := s.crcOf b
  s.setCrc b { x with commit := if x.commit = 0 then 1 else if x.commit = 2 then 3 else x.commit }

/-- A mismatch at the end of a pass: CFG_INTEGRITY, the event each time, and the Park of a port with PARK_ON_CRC (R367, R196,
R227). -/
def crcMismatch (b : CfgBlock) (s : State) : State :=
  let r := crcRegs b
  let s := s.flagAlways r.flag r.event
  match b with
  | .rfo p => if s.on (RFO_CFG_PARK_ON_CRC p.val) then parkRfo p.val 2 s.now s else s
  | .zp z => if s.on (ZP_CFG_PARK_ON_CRC z.val) then parkZ z.val 2 s.now s else s
  | _ => s

/-- A pass of block b ends and the next one begins (R367) (open corners: DEDUCED, log entry 52; DEDUCED, log entry 78). -/
def crcPass (b : CfgBlock) (s : State) : State :=
  let r := crcRegs b
  let v := crcOfBlock b s
  let s := s.set r.crc v
  let x := s.crcOf b
  let en := s.on r.en
  let began := x.began
  let s := s.setCrc b { x with commit := if x.commit = 1 ∨ x.commit = 3 then 2 else 0, began := en }
  let s := if x.commit ≥ 2 then setRef b v s else s
  let y := s.crcOf b
  if y.refSet && !y.suspend && began && en && v != s.get r.ref then crcMismatch b s else s

/-- The block whose comparison a change of a covered field suspends: a field gated by another EN than the comparing one,
changed while the comparing EN is 1 (R367). -/
def suspends (r : Reg) (i : Nat) : Option CfgBlock :=
  match r with
  | .SEQ_CTRL | .SEQ_RESUME_PC | .SEQ_GREG | .SEQ_TEQ_BIND => some (.tun (Fin.ofNat 64 (i / 8)))
  | .QM_Q_CFG => some .qm
  | .DEC_WIN_CFG | .DEC_WIN_GROUP | .DEC_WIN_PFRAME | .DEC_GATHER => some .dec
  | .BRG_CFG => some .mon
  | _ => none

/-- Suspend the comparison after a change of a covered field of register r (R367) (open corners: DEDUCED, log entry 78). -/
def noteChange (r : Reg) (i : Nat) (s : State) : State :=
  match suspends r i with
  | some b => suspendCrc b s
  | none => s

end Sys2Proof.Machine
end

