-- ==== Sys2Proof/Machine/Mailbox.lean ====
section
/-! DEFINITION. The mailbox protocol: doorbells, the checks on taking a command, sessions, DMA lists, responses, and replies to
management frames (R373 to R385). -/

namespace Sys2Proof.Machine

/-! ### Buffers and states -/

/-- MBX_DB states (R375). -/
def mbIdle : Nat := 0
/-- POSTED. -/
def mbPosted : Nat := 1
/-- BUSY. -/
def mbBusy : Nat := 2
/-- DONE. -/
def mbDone : Nat := 3

/-- First byte of mailbox m's window (R373). -/
def mbBase (m : Nat) : Nat := 0x4_0000 + 0x2000 * m

/-- The state of mailbox m. -/
def mbState (m : Nat) (s : State) : Nat := s.get (MBX_DB_STATE m)

/-- Field of n bytes at offset o of the command header. -/
def cmdField (m o n : Nat) (s : State) : Nat := s.rd (mbBase m + o) n

/-- OPCODE of the command in mailbox m (R374). -/
def cmdOp (m : Nat) (s : State) : Nat := cmdField m 0 2 s
/-- FLAGS. -/
def cmdFlags (m : Nat) (s : State) : Nat := cmdField m 2 2 s
/-- SESSION. -/
def cmdSession (m : Nat) (s : State) : Nat := cmdField m 4 2 s
/-- SEQ. -/
def cmdSeq (m : Nat) (s : State) : Nat := cmdField m 6 2 s
/-- LENGTH. -/
def cmdLength (m : Nat) (s : State) : Nat := cmdField m 8 2 s
/-- The payload in the command buffer. -/
def cmdPayload (m : Nat) (s : State) : List Byte := s.getBytes (mbBase m + 16) (cmdLength m s)

/-! ### Status codes (R385, R409, R463, R429) -/

/-- OK. -/
def stOk : Nat := 0x0000
/-- BAD_OPCODE. -/
def stBadOpcode : Nat := 0x0001
/-- BAD_LENGTH. -/
def stBadLength : Nat := 0x0002
/-- BAD_PARAM. -/
def stBadParam : Nat := 0x0003
/-- NO_SESSION. -/
def stNoSession : Nat := 0x0004
/-- BAD_SEQ. -/
def stBadSeq : Nat := 0x0005
/-- ROLE_DENIED. -/
def stRoleDenied : Nat := 0x0006
/-- AUTH_FAIL. -/
def stAuthFail : Nat := 0x0007
/-- LOCKED_OUT. -/
def stLockedOut : Nat := 0x0008
/-- NONCE_STALE. -/
def stNonceStale : Nat := 0x0009
/-- BAD_TAG. -/
def stBadTag : Nat := 0x000A
/-- DMA_FAULT. -/
def stDmaFault : Nat := 0x000B
/-- STATE_CONFLICT. -/
def stStateConflict : Nat := 0x000C
/-- NOT_AVAILABLE. -/
def stNotAvailable : Nat := 0x000D
/-- TEMP_INHIBIT. -/
def stTempInhibit : Nat := 0x000E
/-- CELLAR_TIMEOUT. -/
def stCellarTimeout : Nat := 0x000F
/-- AUDIT_FAIL. -/
def stAuditFail : Nat := 0x0010
/-- PARTIAL. -/
def stPartial : Nat := 0x0011
/-- BUSY. -/
def stBusy : Nat := 0x0012

/-- The opcodes of Ryvex 3.2 (R386, R409, R429, R462). -/
def definedOps : List Nat :=
  [0x0001, 0x0002, 0x0003, 0x0004, 0x0005, 0x0010, 0x0100, 0x0101, 0x0102, 0x0103, 0x0104, 0x0105, 0x0106, 0x0107, 0x0200,
   0x0201, 0x0202, 0x0300, 0x0301, 0x0302, 0x0400, 0x0401, 0x0500, 0x0501, 0x0502, 0x0503, 0x0504] ++
  [0x0600, 0x0601, 0x0602, 0x0603, 0x0604, 0x0605, 0x0606, 0x0607, 0x0700, 0x0701, 0x0702, 0x0703, 0x0704, 0x0705, 0x0706,
   0x0707, 0x0708, 0x0709, 0x070A, 0x0800, 0x0801, 0x0802, 0x0803]

/-- An opcode is defined for mailbox m: in recovery only GET_INFO and SEC_LOAD_FW on mailboxes 0 to 11 (R377, R450). -/
def opDefined (m op : Nat) (s : State) : Bool :=
  if s.host.recovery then m < 12 && (op == 0x0001 || op == 0x0705) else definedOps.contains op

/-! ### Roles and sessions -/

/-- The key that the Cellar holds for a role (R380): those of Seal Authority and Vendor are there from the factory, unless their entry
is lost (R456). -/
def roleKey (r : Nat) (s : State) : Option RoleKey :=
  match Tab.find? s.cel.roles r with
  | some k => some k
  | none =>
    if (r = 2 ∨ r = 3) ∧ !s.cel.lost.contains r then
      some ⟨(Config.factoryV r).toList, (Config.factorySalt r).toList, (Config.factoryIter r).toNat⟩
    else none

/-- The lifecycle lets a role open sessions (R444) (open corners: DEDUCED, log entry 84). -/
def roleOpen (r : Nat) (s : State) : Bool :=
  let l := s.get SEC_STATUS_LIFECYCLE
  l == 1 || l == 2 || r == 2 || r == 3

/-- The session key of an open session (R383). -/
def sessionKey (e : Session) : List Byte := hmac e.v (e.nonce ++ [0x53, 0x4B])

/-- The session of mailbox m closes (R382). -/
def closeSession (m : Nat) (s : State) : State :=
  (s.setMbx m { s.mbx m with session := none }).setB (MBX_DB_SESSION_OPEN m) false

/-- An AUTH_FAIL outcome on mailbox m is counted, and starts a lockout from the fifth on (R381) (open corners:
DEDUCED, log entry 85). -/
def countFail (m : Nat) (s : State) : State :=
  let x := s.mbx m
  let f := x.fails + 1
  let s := s.setMbx m { x with fails := f }
  if f < 5 then s
  else
    let s := s.setMbx m 
      { s.mbx m with lockEnd := some (s.up + 2000000000 * min 3840 (60 * 2 ^ min (f - 5) 6)) }
    (s.setB (MBX_DB_LOCKOUT m) true).event (880 + m)

/-! ### Responses -/

/-- A command's answer: its status and response payload. -/
structure Reply where
  status  : Nat
  payload : List Byte := []
deriving DecidableEq, Repr

/-- The TAG of a body, under the open session of mailbox m (R383). -/
def replyTag (m : Nat) (body : List Byte) (s : State) : List Byte :=
  match (s.mbx m).session with
  | some e => hmac (sessionKey e) body
  | none => []

/-- Send the response in mailbox m to the frame that brought the command, directly or through the relaying device (R383,
R384).  `head` is the body's first four bytes. -/
def mgmtReply (m : Nat) (origin : Origin) (head : List Byte) (header payload : List Byte) (s : State) : State :=
  let body := head ++ header ++ payload
  let body := body ++ replyTag m body s
  match origin with
  | .host _ => s
  | .frame e dest => mgmtFrame e dest body s
  | .relay dev dest => relayContent dev (toBytesBe 6 dest ++ body) s

/-- The response is written in full: the header copied, STATUS, LENGTH and ELAPSED filled in, the bytes behind it 0; the
mailbox enters DONE (R374, R375, R391) (open corners: DEDUCED, log entry 54). -/
def finish (m : Nat) (r : Reply) (s : State) : State :=
  let b := mbBase m
  let x := s.mbx m
  let head := s.getBytes b 8 ++ toBytes 2 r.payload.length ++ toBytes 2 r.status
    ++ toBytes 4 (satN 32 ((s.up - x.ringAt) / 2000))
  let s := s.setBytes (b + 0x1000) (head ++ r.payload ++ List.replicate (4080 - r.payload.length) 0)
  let s := { s with host := { s.host with posted := s.host.posted.filter (· != m), waits := s.host.waits.filter (· != m) } }
  let s := s.set (MBX_DB_STATE m) mbDone
  let s := mgmtReply m x.origin (x.body.take 4) head r.payload s
  s.event (880 + m)

/-! ### Doorbell -/

/-- The commands that Ryvex runs: a FENCE runs until the supplies of its tile are off (R231, R376) (DEDUCED, log entry 54). -/
def running (s : State) : List Nat := (List.range 16).filter fun m => mbState m s == mbBusy && (s.mbx m).tile.isSome

/-- Ryvex can take a command: it is up, and runs fewer than 4 (R376) (DEDUCED, log entry 54). -/
def canTake (s : State) : Bool := (s.host.ryvexUp || s.host.recovery) && decide ((running s).length < 4)

/-- End a posted command that fails check 1 or 2 of R377: no resource holds it up (DEDUCED, log entry 15) (DEDUCED, log entry 54). -/
def rejectBad (m : Nat) (s : State) : State :=
  if !canTake s || mbState m s != mbPosted then s
  else if 4080 < cmdLength m s then finish m ⟨stBadLength, []⟩ s
  else if !opDefined m (cmdOp m s) s then finish m ⟨stBadOpcode, []⟩ s
  else s

/-- Ryvex comes up, or can take commands again: those that fail check 1 or 2 end, in the order of their doorbells (R376, R377, R450)
(DEDUCED, log entry 15). -/
def rejectAll (s : State) : State := s.host.posted.foldl (fun s m => rejectBad m s) s

/-- An accepted RING: the command is POSTED (R375) (DEDUCED, log entry 15). -/
def post (m : Nat) (origin : Origin) (s : State) : State :=
  let s := s.setMbx m { s.mbx m with ringAt := s.up, origin := origin }
  let s := s.set (MBX_DB_STATE m) mbPosted
  rejectBad m { s with host := { s.host with posted := s.host.posted ++ [m] } }

/-- A RING through BAR0 (R373, R375). -/
def ring (fn m : Nat) (s : State) : State :=
  if 12 ≤ m ∨ mbState m s = mbPosted ∨ mbState m s = mbBusy then s.flag (MBX_DB_RING_REFUSED m) (880 + m)
  else post m (.host fn) s

/-! ### DMA lists -/

/-- A DMA descriptor (R379). -/
structure DmaDesc where
  addr : Nat
  len  : Nat
  out  : Bool        -- device to host
  ok   : Bool        -- its fields are in range
deriving DecidableEq, Repr

/-- The descriptors of a DMA list of n entries at the start of the bytes. -/
def dmaDescs (p : List Byte) (n : Nat) : List DmaDesc :=
  (List.range n).map fun k =>
    let d := p.drop (4 + 16 * k)
    let addr := le d 0 8
    let len := le d 8 4
    let dir := le d 12 4
    ⟨addr, len, dir.testBit 0, addr % 4 == 0 && 4 ≤ len && len % 4 == 0 && dir ≤ 1⟩

/-- Total length of the descriptors of a direction. -/
def dmaTotal (ds : List DmaDesc) (out : Bool) : Nat := (ds.filter fun d => d.out == out).foldl (fun n d => n + d.len) 0

/-- Write bytes across the device-to-host descriptors in list order, as function `fn` (R379) (open corners: DEDUCED, log entry 55). -/
def dmaWrite (fn : Nat) : List DmaDesc → List Byte → State → State
  | [], _, s => s
  | d :: ds, bs, s =>
    if !d.out then dmaWrite fn ds bs s
    else
      let part := bs.take d.len
      let s := if part.isEmpty then s else s.emit (.hostWrite fn d.addr part)
      dmaWrite fn ds (bs.drop d.len) s

/-- The function that issues the DMA of mailbox m's command: the one that rang the doorbell, PF0 for mailboxes 0 to 3 (R379)
(DEDUCED, log entry 55). -/
def dmaFn (m : Nat) (s : State) : Nat :=
  if m < 4 then 0 else match (s.mbx m).origin with | .host fn => fn | _ => 0

/-- Bus Master Enable of a function (R379) (DEDUCED, log entry 55; PRESUMED, log entry 113). -/
def busMaster (fn : Nat) (s : State) : Bool := s.host.master.contains fn

/-! ### Taking a command (R376, R377) -/

/-- What a command needs on being taken: opcode, whether it needs a session, its roles, the length of its fixed parameters
(none where the payload cannot be a payload of this command), and the length of its data (none: whatever is there). -/
structure Spec where
  op     : Nat
  sess   : Bool := true
  roles  : List Nat := []
  params : List Byte → Option Nat
  data   : List Byte → Option Nat := fun _ => some 0

/-- The command in hand: mailbox, role of the session, parameters, data, and whether the data ended early. -/
structure Cmd where
  m     : Nat
  role  : Nat
  ps    : List Byte
  data  : List Byte
  short : Bool
deriving DecidableEq, Repr

/-- Checks 3 to 5, with the session's SEQ and its last use (R377, R382): the role, or the status. -/
def accept (m : Nat) (c : Spec) (s : State) : Except Nat Nat × State :=
  if !c.sess then (.ok 0, s)
  else match (s.mbx m).session with
    | none => (.error stNoSession, s)
    | some e =>
      if e.over s.up then (.error stNoSession, closeSession m s)
      else if e.tag ≠ cmdSession m s then (.error stNoSession, s)
      else if cmdSeq m s ≠ (e.seq + 1) % 65536 then (.error stBadSeq, s)
      else
        let s := s.setMbx m { s.mbx m with session := some { e with seq := cmdSeq m s, at_ := s.up } }
        if c.roles.contains e.role then (.ok e.role, s) else (.error stRoleDenied, s)

/-- The TAG of a management frame is right, where the command needs a session (R383). -/
def tagOk (m : Nat) (c : Spec) (s : State) : Bool :=
  let x := s.mbx m
  match x.origin, x.session with
  | .host _, _ => true
  | _, some e => !c.sess || x.tag == hmac (sessionKey e) x.body
  | _, none => true

/-- The session of a frame is bound to the station that opened it (R382) (open corners: DEDUCED, log entry 56). -/
def stationOk (m : Nat) (c : Spec) (s : State) : Bool :=
  let x := s.mbx m
  match x.session with
  | none => true
  | some e =>
    !c.sess || match x.origin, e.origin with
      | .host _, _ => true
      | .frame _ a, .frame _ b => a == b
      | .frame _ a, .relay _ b => a == b
      | .relay _ a, .frame _ b => a == b
      | .relay _ a, .relay _ b => a == b
      | _, _ => false

/-- The response goes out: inline, or through device-to-host descriptors (R379) (open corners: DEDUCED, log entry 55). -/
def answer (m : Nat) (ds : List DmaDesc) (dma : Dma) (r : Reply) (s : State) : State :=
  if r.status ≠ stOk ∧ r.status ≠ stPartial ∧ r.status ≠ stAuditFail then finish m ⟨r.status, []⟩ s
  else if (ds.any fun d => d.out) && !r.payload.isEmpty then
    match dma.fail with
    | some k => finish m ⟨stDmaFault, []⟩ (dmaWrite (dmaFn m s) ds (r.payload.take (min k (r.payload.length - 1))) s)
    | none => finish m ⟨r.status, toBytes 4 r.payload.length⟩ (dmaWrite (dmaFn m s) ds r.payload s)
  else finish m r s

/-- Split a payload into parameters, data and DMA list by check 6 (R377, R379): the command, the list, or the status.  `inp` is
what the host supplied (open corners: DEDUCED, log entry 55). -/
def layout (m role : Nat) (c : Spec) (dma : Dma) (p : List Byte) (flags : Nat) : Except Nat (Cmd × List DmaDesc) :=
  match c.params p with
  | none => .error stBadLength
  | some n =>
    if p.length < n then .error stBadLength
    else if flags % 2 = 0 then
      let data := p.drop n
      match c.data (p.take n) with
      | some k => if data.length = k then .ok (⟨m, role, p.take n, data, false⟩, []) else .error stBadLength
      | none => .ok (⟨m, role, p.take n, data, false⟩, [])
    else
      let rest := p.drop n
      let cnt := le rest 0 4
      if rest.length < 4 ∨ rest.length ≠ 4 + 16 * cnt then .error stBadLength
      else if cnt = 0 ∨ 255 < cnt ∨ 12 ≤ m ∨ (dmaDescs rest cnt).any (fun d => !d.ok) then .error stBadParam
      else
        let ds := dmaDescs rest cnt
        let need := (c.data (p.take n)).getD (dmaTotal ds false)
        if dmaTotal ds false < need then .error stBadLength
        else .ok (⟨m, role, p.take n, dma.inp.take need, decide (dma.inp.length < need)⟩, ds)

/-- Ryvex can go on with the command in mailbox m, which has this opcode: POSTED and first in doorbell order, or waiting in BUSY
(R376) (open corners: DEDUCED, log entry 54). -/
def isNext (m op : Nat) (s : State) : Bool :=
  canTake s && cmdOp m s == op &&
    ((mbState m s == mbPosted && s.host.posted.head? == some m) || (mbState m s == mbBusy && s.host.waits.contains m))

/-- The tiles that a command names, as a mask: FENCE, UNFENCE, the calibration commands of a mask, and MON_DIAG of a tile's converter
(R376, R386, R429) (DEDUCED, log entry 54). -/
def namedTiles (op : Nat) (p : List Byte) : Nat :=
  if op = 0x0502 ∨ op = 0x0503 ∨ op = 0x0803 then (if le p 0 1 < 8 then 2 ^ le p 0 1 else 0)
  else if op = 0x0800 ∨ op = 0x0801 ∨ op = 0x0802 then le p 0 1
  else 0

/-- The tiles that are held from the command in mailbox m: those of running commands, and those that commands with an earlier doorbell
wait for (R376) (open corners: DEDUCED, log entry 54). -/
def heldTiles (m : Nat) (s : State) : Nat :=
  let run := (running s).foldl (fun n k => n ||| 2 ^ ((s.mbx k).tile.getD 0)) 0
  (s.host.waits.takeWhile (· != m)).foldl (fun n k => n ||| namedTiles (cmdOp k s) (cmdPayload k s)) run

/-- A command taken that names a held resource waits in BUSY (R376) (DEDUCED, log entry 54). -/
def waitBusy (m role : Nat) (s : State) : State :=
  if s.host.waits.contains m then s
  else
    let s := { s with host := { s.host with posted := s.host.posted.filter (· != m), waits := s.host.waits ++ [m] } }
    (s.setMbx m { s.mbx m with role := role }).set (MBX_DB_STATE m) mbBusy

/-- A command of role `role` that has passed checks 1 to 5: check 6, the room of R379 for a response of `size` bytes, Bus Master
Enable,
the reserved parts of the header, and the resources that it names; then `k` goes on with the command and its DMA list (R376, R377,
R379) (open corners: DEDUCED, log entry 54; DEDUCED, log entry 55). -/
def goOn (c : Spec) (m role : Nat) (dma : Dma) (size : Cmd → State → Nat) (k : Cmd → List DmaDesc → State → State)
    (s : State) : State :=
  match layout m role c dma (cmdPayload m s) (cmdFlags m s) with
  | .error st => finish m ⟨st, []⟩ s
  | .ok (x, ds) =>
    let n := size x s
    let room := dmaTotal ds true
    if (room = 0 ∧ 4080 < n) ∨ (room ≠ 0 ∧ room < n) then finish m ⟨stBadLength, []⟩ s
    else if cmdFlags m s / 2 ≠ 0 ∨ cmdField m 10 2 s ≠ 0 then finish m ⟨stBadParam, []⟩ s
    else if !ds.isEmpty && !busMaster (dmaFn m s) s then finish m ⟨stDmaFault, []⟩ s
    else if namedTiles c.op x.ps &&& heldTiles m s ≠ 0 then waitBusy m role s
    else k x ds { s with host := { s.host with waits := s.host.waits.filter (· != m) } }

/-- Take the command that mailbox m holds (R376, R377), with the errors that it meets in the Cellar (R456): checks 1 to 5, and the rest
by `goOn`; one that waits in BUSY has passed those.  A mailbox whose command this is not stays as it is (DEDUCED, log entries 15,
54 and 55) (DEDUCED, log entry 15; DEDUCED, log entry 54; DEDUCED, log entry 55). -/
def takeCommand (c : Spec) (m : Nat) (dma : Dma) (size : Cmd → State → Nat) (k : Cmd → List DmaDesc → State → State)
    (s : State) : State :=
  if !isNext m c.op s then s
  else
    let s := dma.ecc.foldl (fun s e => cellarError e s) s
    if s.host.waits.contains m then goOn c m (s.mbx m).role dma size k s
    else if !stationOk m c s then finish m ⟨stNoSession, []⟩ s
    else if !tagOk m c s then finish m ⟨stBadTag, []⟩ s
    else
      match accept m c s with
      | (.error st, s) => finish m ⟨st, []⟩ s
      | (.ok role, s) => goOn c m role dma size k s

/-- Run the command that mailbox m holds: `act` makes checks 7 and 8 and has the command's effect, and its answer goes out
(DEDUCED, log entry 15; DEDUCED, log entry 54). -/
def runCommand (c : Spec) (m : Nat) (dma : Dma) (act : Cmd → State → Reply × State) (s : State)
    (size : Cmd → State → Nat := fun _ _ => 0) : State :=
  takeCommand c m dma size (fun x ds s => let a := act x s; answer m ds dma a.1 a.2) s

/-- A fixed payload of n bytes. -/
def fixed (n : Nat) : List Byte → Option Nat := fun _ => some n

/-- All roles. -/
def allRoles : List Nat := [0, 1, 2, 3]

/-- A refusal by status, with nothing changed. -/
def refuse (st : Nat) (s : State) : Reply × State := (⟨st, []⟩, s)

/-- A Cellar write refused by temperature (R386, R464, R466) (open corners: DEDUCED, log entry 60). -/
def tempInhibit (s : State) : Reply × State := (⟨stTempInhibit, []⟩, (s.setB CEL_STATUS_WRITE_FAIL true).event 80)

/-- n records are committed in the Cellar (open corners: DEDUCED, log entry 68; DESIGN CHOICE, log entry 74). -/
def celWrote (n : Nat) (s : State) : State := s.inc CEL_WRITES n

/-- A write that was queued as the temperature left its range has waited 10 s, and the command ends (R386, R464) (open corners:
DESIGN CHOICE, log entry 74). -/
def cellarTimeout (s : State) : Reply × State :=
  let s := advanceTo (s.now + 20000000000) s
  (⟨stCellarTimeout, []⟩, (({ s with cel := { s.cel with late := false } }).setB CEL_STATUS_WRITE_FAIL true).event 80)

/-- A command that writes the Cellar: refused by temperature before it does anything, or caught by it with its write queued (R386)
(open corners: DEDUCED, log entry 68). -/
def celCommand (n : Nat) (s : State) (act : State → Reply × State) : Reply × State :=
  if s.cel.late then cellarTimeout s
  else if cellarWarm s then let a := act s; (a.1, if a.1.status = stOk then celWrote n a.2 else a.2) else tempInhibit s

end Sys2Proof.Machine
end

