-- ==== Sys2Proof/Machine/NetTime.lean ====
section
/-! DEFINITION. Writes that move or steer network time, and its wrap (R343 to R345). -/

namespace Sys2Proof.Machine

/-- An NT_INC write is refused (R344). -/
def incRefuse (s : State) : State := s.flagAlways NT_STATUS_INC_REFUSED 114

/-- A write of NT_INC by its HI half (R344): 1.998 to 2.002 ns in units of 2^-32 ns, applied at the next 500 MHz cycle. -/
def ntIncWrite (v : Nat) (s : State) : State :=
  if !s.on NT_CTRL_EN || decide (1000 * v < 1998 * 2 ^ 32) || decide (2002 * 2 ^ 32 < 1000 * v) then incRefuse s
  else s.later (s.now + 4 - s.up % 4) (.ntInc v)

/-- A STEP or LOAD is accepted, unless another is pending or EN = 0 (R345) (open corners: DEDUCED, log entry 48). -/
def ntCommand (a : Action) (s : State) : State :=
  if !s.on NT_CTRL_EN then s
  else if s.on NT_STATUS_STEP_PENDING then s.flagAlways NT_STATUS_STEP_BUSY 114
  else (s.setB NT_STATUS_STEP_PENDING true).later (ntCycleAfter s.now s) a

/-- A write to NT_INC_HI (R344, R364): HI with the low half that the requester holds, or the present one. -/
def ntIncHi (low hi : Nat) (s : State) : State := ntIncWrite (bits hi 0 8 * 2 ^ 32 + low % 2 ^ 32) s

/-- NT_CTRL.STEP (R345). -/
def execNtStep (r : Req) (s : State) : Ans := .next (privileged r NT_CTRL_STEP 1 s (ntCommand .ntStep))

/-- NT_CTRL.LOAD (R345). -/
def execNtLoad (r : Req) (s : State) : Ans := .next (privileged r NT_CTRL_LOAD 1 s (ntCommand .ntLoad))

/-- Ticks until network time next carries out of bit 31, at the present rate. -/
def wrapTicks (s : State) : Nat := 4 * ceilDiv (2 ^ 64 - s.get NT_NOW) (s.get NT_INC)

/-- Network time counts on to its next carry out of bit 31 (R342, R343). -/
def execNtWrap (s : State) : Ans := .next (if s.tl.counting then advanceTo (s.now + wrapTicks s - s.up % 4) s else s)

end Sys2Proof.Machine
end

