-- ==== Sys2Proof/Machine/PortCmds.lean ====
section
/-! DEFINITION. Commands of the RF synthesis ports and the Z ports (R186, R190 to R200, R207 to R230). -/

namespace Sys2Proof.Machine

/-! ### RFO -/

/-- A write of EN = 0 to port p at the present tick (R192) (open corners: DEDUCED, log entry 38). -/
def rfoDisable (p : Nat) (s : State) : State := (s.setB (RFO_CTRL_EN p) false).later (s.now + 8) (.rfoOff p)

/-- A write of MUTE to port p (R193) (open corners: DEDUCED, log entry 38). -/
def rfoMuteWrite (p : Nat) (on : Bool) (s : State) : State := (s.setB (RFO_CTRL_MUTE p) on).later (s.now + 8) (.rfoMute p on)

/-- A write of RFO EN = 1 (R191). -/
def execRfoEnable (r : Req) (p : Fin 288) (s : State) : Ans :=
  .next (privileged r (RFO_CTRL_EN p.val) 1 s fun s => rfoEnable p.val s.now s)

/-- The enable of port p that is pending first reaches T_en (R191). -/
def execRfoEnabled (p : Fin 288) (s : State) : Ans :=
  .next (match (s.rfo p.val).pend.min? with | some t => atTick t (rfoEnabled p.val t) s | none => s)

/-- A write of RFO EN = 0 (R192). -/
def execRfoDisable (r : Req) (p : Fin 288) (s : State) : Ans :=
  .next (privileged r (RFO_CTRL_EN p.val) 0 s (rfoDisable p.val))

/-- A write of MUTE (R193). -/
def execRfoMute (p : Fin 288) (on : Bool) (s : State) : Ans := .next (rfoMuteWrite p.val on s)

/-- A short or overheating at the driver (R198). -/
def execRfoDriverFault (p : Fin 288) (s : State) : Ans := .next (rfoFault p.val s.now s)

/-- The test of a driver that found a fault, of an RFO or of a ZF, every 1 ms (R198, R226); `found` says that the fault is
still there. -/
def execDriverFaultRetest (zf : Bool) (p : Fin 768) (found : Bool) (s : State) : Ans :=
  .next (
    if found then s
    else if zf then s.setZp p.val { s.zp p.val with fault := false }
    else s.setRfo p.val { s.rfo p.val with fault := false })

/-- A write of 1 to PARKED of an RFO port (R197). -/
def execRfoParkClear (p : Fin 288) (s : State) : Ans := .next (rfoParkClear p.val s)

/-- A state of the noise shaper leaves its bounds (R186): one balanced tick is sent. -/
def execShaperReset (p : Fin 288) (s : State) : Ans :=
  .next ((s.incSat (RFO_SHAPER_RESETS p.val)).emit (.shaperTick p.val))

/-! ### Z ports -/

/-- A write of EN = 0 to Z port z at the present tick (R208) (open corners: DEDUCED, log entry 38). -/
def zDisable (z : Nat) (s : State) : State := (s.setB (ZP_CTRL_EN z) false).later (s.now + 8) (.zDisable z)

/-- A write of ZP EN = 1 (R208). -/
def execZpEnable (r : Req) (z : Fin 768) (s : State) : Ans :=
  .next (privileged r (ZP_CTRL_EN z.val) 1 s fun s => zEnable z.val s.now s)

/-- A write of ZP EN = 0 (R208). -/
def execZpDisable (r : Req) (z : Fin 768) (s : State) : Ans :=
  .next (privileged r (ZP_CTRL_EN z.val) 0 s (zDisable z.val))

/-- The next sample instant of port z's stream (R215, R217). -/
def execZbStreamSample (z : Fin 768) (s : State) : Ans :=
  .next (match (s.zp z.val).stream with
    | some c => withTick (cycleTick c) (streamSample z.val c (cycleTick c)) s
    | none => s)

/-- The transfer window of port z's pending range change opens, at the first modulator cycle at which the current in force
lies within the overlap (R219). -/
def execTransferWindowOpen (z : Fin 768) (s : State) : Ans :=
  .next (match windowTick z.val s with | some t => atTick t (openWindow z.val t) s | none => s)

/-- The transfer window of port z ends (R219 to R221, R227). -/
def execTransferWindowEnd (z : Fin 768) (s : State) : Ans :=
  .next (match (s.zp z.val).window with
    | some w => atTick w.ends (zWindowEnd z.val w.opened w.ends) s
    | none => s)

/-- The tick at which the next read-back conversion of port z is wanted, and the period it belongs to (R222): the present tick where
no port of the tile from z on has been measured in the period, else the start of the next; the first sweep's period starts with its
slot (DESIGN CHOICE, log entry 104). -/
def sweepNext (z : Nat) (s : State) : Nat × Option Nat :=
  let x := s.mon (z / 96)
  let period := 2000 * max 128 (s.get (ZP_RB_CFG_PERIOD (z / 96)))
  let t := slotAt (z / 96) (max s.now x.freeAt)
  match x.sweep with
  | none => (s.now, none)
  | some (from_, last) =>
    if t < from_ + period then
      if last < z % 96 then (s.now, some from_) else (from_ + period, some (from_ + period))
    else (s.now, some (from_ + (t - from_) / period * period))

/-- A read-back conversion of port z measures m [FS/2,048] (R222 to R224): once in each period, in ascending z; it waits while the
test DAC is on the sense selector (R416) (open corners: DEDUCED, log entry 40; DEDUCED, log entry 64)
(DESIGN CHOICE, log entry 104). -/
def execZbReadback (z : Fin 768) (m : BitVec 12) (s : State) : Ans :=
  .next (if s.on (ZP_CFG_RB_EN z.val) && !tdacOn (z.val / 96) 0 s then
      let n := sweepNext z.val s
      let a := z.val / 96
      let s := advanceTo n.1 s
      let x := s.mon a
      let t := slotAt a (max s.now x.freeAt)
      let s := s.setMon a { x with freeAt := t + 2000, sweep := some (n.2.getD t, z.val % 96) }
      readback z.val t m.toInt (advanceTo t s)
    else s)

/-- The voltage at ZB[z] leaves the compliance range (R225, R233). -/
def execZbCompliance (z : Fin 768) (s : State) : Ans :=
  .next (s.flagAlways (ZP_STATUS_COMPLIANCE z.val) (zEvent z.val 12))

/-- A short or overheating at the ZF driver (R226). -/
def execZfDriverFault (z : Fin 768) (s : State) : Ans := .next (zFault z.val s.now s)

/-- The Park sequence of port z reaches I_p (R228) (open corners: DEDUCED, log entry 88). -/
def execParkDone (z : Fin 768) (s : State) : Ans :=
  .next (match (s.zp z.val).park with | some k => withTick k.ends (zParkDone z.val k.from_) s | none => s)

/-- A running BIAS_RAMP of port z reaches its last tick T + D (R214). -/
def execBiasRampEnd (z : Fin 768) (s : State) : Ans :=
  .next (match (s.zp z.val).segs with
    | g :: _ => atTick (g.at_ + g.d) (zRampEnd z.val g.at_ (g.at_ + g.d)) s
    | [] => s)

/-- A write of 1 to PARKED of a Z port (R230). -/
def execZParkClear (z : Fin 768) (s : State) : Ans := .next (zParkClear z.val s)

/-- A write of 1 to READBACK_FAULT, which clears Park cause 7 (R230). -/
def execReadbackFaultClear (z : Fin 768) (s : State) : Ans := .next (s.setB (ZP_STATUS_READBACK_FAULT z.val) false)

end Sys2Proof.Machine
end

