-- ==== Sys2Proof/Machine/ReadoutCmds.lean ====
section
/-! DEFINITION. Commands of the readout inputs and the Lauter channels (R236 to R260, R266). -/

namespace Sys2Proof.Machine

/-- A write of EN = 0 to RFI i at the present tick (R238). -/
def rfiDisable (i : Nat) (s : State) : State := (s.setB (RFI_CTRL_EN i) false).later (s.now + 8) (.rfiDisable i)

/-- A write of RFI EN = 1 (R238). -/
def execRfiEnable (r : Req) (i : Fin 32) (s : State) : Ans :=
  .next (privileged r (RFI_CTRL_EN i.val) 1 s fun s => rfiEnable i.val s.now s)

/-- A write of RFI EN = 0 (R238). -/
def execRfiDisable (r : Req) (i : Fin 32) (s : State) : Ans :=
  .next (privileged r (RFI_CTRL_EN i.val) 0 s (rfiDisable i.val))

/-- Refuse a request with KSWAP_BUSY (R259). -/
def kBusy (i : Nat) (s : State) : State := s.flagAlways (RFI_STATUS_KSWAP_BUSY i) (704 + i)

/-- RFI_CTRL.KSWAP (R259). -/
def execKswap (i : Fin 32) (s : State) : Ans :=
  .next (
    if (s.rfi i.val).bank.isSome then kBusy i.val s
    else if s.get (RFI_KSWAP_AT i.val) < s.now + 16 then s.flagAlways (RFI_STATUS_KSWAP_LATE i.val) (704 + i.val)
    else setKPending i.val false (s.get (RFI_KSWAP_AT i.val)) s)

/-- RFI_CTRL.KSWAP_NOW (R259). -/
def execKswapNow (i : Fin 32) (s : State) : Ans :=
  .next (if (s.rfi i.val).bank.isSome then kBusy i.val s else setKPending i.val false (s.now + 16) s)

/-- The pending kernel swap takes place at its tick (R259). -/
def execKswapApply (i : Fin 32) (s : State) : Ans :=
  .next (
    match (s.rfi i.val).bank with
    | some b => if b.copy then s else atTick b.at_ (kBankDue i.val b.at_) s
    | none => s)

/-- RFI_CTRL.KCOPY (R259): it completes within 4,000 ticks. -/
def execKcopy (i : Fin 32) (s : State) : Ans :=
  .next (
    if (s.rfi i.val).bank.isSome then kBusy i.val s
    else setKPending i.val true (s.now + 4000) s)

/-- The pending kernel copy completes (R259). -/
def execKcopyDone (i : Fin 32) (s : State) : Ans :=
  .next (
    match (s.rfi i.val).bank with
    | some b => if b.copy then kCopy i.val b s else s
    | none => s)

/-- LAU EN takes a value, 8 ticks from now (R260). -/
def lauEnWrite (c : Nat) (on : Bool) (s : State) : State :=
  if on && lauRefused c s then lauFlag c (LAU_STATUS_EN_REFUSED c) s
  else (s.setB (LAU_CTRL_EN c) on).later (s.now + 8) (.lauEn c on)

/-- A write of LAU EN (R260). -/
def execLauEnable (r : Req) (c : Fin 1024) (on : Bool) (s : State) : Ans :=
  .next (privileged r (LAU_CTRL_EN c.val) (b2n on) s (lauEnWrite c.val on))

/-- Count n more full-scale samples of RFI i (R236). -/
def overrange (i n : Nat) (s : State) : State :=
  if n = 0 then s else (s.incSat (RFI_OVR_COUNT i) n).flag (RFI_STATUS_OVERRANGE i) (704 + i)

/-- The oldest window of channel c is formed into its record at E + 80 (R252); `overs` says that R236 counted a full-scale sample
between W0 and E, and `n` how many such samples have not been counted before. -/
def execWindowRecord (c : Fin 1024) (xs : WindowData) (overs : Bool) (n : BitVec 32) (s : State) : Ans :=
  .next (
    match (s.lau c.val).windows with
    | w :: _ =>
      let s := advanceTo (w.e + 80) s
      match (s.lau c.val).windows with
      | w' :: _ =>
        let s := overrange (c.val / 32) n.toNat s
        let zs := windowSamples w' (streamInts xs.stream) (xs.xs.map fun x => (x.1.toInt, x.2.toInt))
        produceWindow c.val w' (windowRecord c.val w' zs overs s) s
      | [] => s
    | [] => s)

/-- The router writes the oldest record that waits, 8 ticks after its production (R252, R256, R266) (open corners:
DEDUCED, log entry 42). -/
def execResultWrite (s : State) : Ans :=
  .next (match s.recs with | r :: _ => routeHead (runTo (keyOf (r.at_ + 8) rankRecord) s) | [] => s)

end Sys2Proof.Machine
end

