-- ==== Sys2Proof/Machine/SeqControl.lean ====
section
/-! DEFINITION. Commands that start, stop and configure sequencers, Tuns and barriers (R61 to R66, R82 to R86, R96). -/

namespace Sys2Proof.Machine

/-- The Tun of sequencer k. -/
def tunOf (k : Nat) : Nat := k / 8

/-- Set a flag of SEQ_STATUS(k); event 128 + k at a change from 0 to 1 (R63). -/
def seqFlag (k : Nat) (f : Fld) (s : State) : State := s.flag f (128 + k)

/-- The conditions of R64 and R156 for a START of sequencer k, but for the time of an ABSOLUTE start (open corners:
DEDUCED, log entry 24). -/
def startOk (k : Nat) (s : State) : Bool :=
  s.on GLB_STATUS_READY && s.on (SEQ_CTRL_EN k) && s.on (TUN_CTRL_EN (tunOf k)) && s.on (TUN_STATUS_RCP_LOADED (tunOf k))
    && (seqState k s == stIdle || seqState k s == stHalted) && (allEntries k s).isEmpty

/-- An ABSOLUTE start of sequencer k at tick t comes too late (R64). -/
def startLate (k t : Nat) (s : State) : Bool := s.on (SEQ_CTRL_START_MODE k) && s.get (SEQ_START_AT k) < t + 64

/-- Start sequencer k at tick t (R64, R93).  The micro-state starts from 0: the spec gives it no value at START
(DESIGN CHOICE, log entry 98) (open corners: DEDUCED, log entry 24) (DEDUCED, log entry 100). -/
def startSeq (k t : Nat) (s : State) : State :=
  let c := if s.on (SEQ_CTRL_START_MODE k) then s.get (SEQ_START_AT k) else t + s.get (SEQ_START_LEAD k)
  let s := s.modSeq k fun q =>
    { q with z := false, n := false, c := false, v := false, stack := [], shotOpen := false, shotT0 := c % 2 ^ 64,
             readyAt := t, stopNext := false, rings := [], stall := none, pause := 0, micro := {} }
  let s := (setPc k 0 s).set (SEQ_CURSOR k) c
  setSeqState k stRunning s

/-- Refuse a START of sequencer k (R64) (open corners: DEDUCED, log entry 24) (DEDUCED, log entry 99). -/
def refuseStart (k : Nat) (s : State) : State := seqFlag k (SEQ_STATUS_START_REFUSED k) s

/-- An ABSOLUTE START of sequencer k that comes too late is refused and flagged (R64) (DEDUCED, log entry 99). -/
def lateStart (k : Nat) (s : State) : State := seqFlag k (SEQ_STATUS_START_LATE k) (refuseStart k s)

/-- SEQ_CTRL.START (R64). -/
def execStart (r : Req) (k : Fin 512) (s : State) : Ans :=
  .next (privileged r (SEQ_CTRL_START k.val) 1 s fun s =>
    if !startOk k.val s then refuseStart k.val s
    else if startLate k.val s.now s then lateStart k.val s
    else startSeq k.val s.now s)

/-- TUN_CTRL.GROUP_START (R64): all the masked sequencers start at one tick, or none; the sequencers that fail set their own flags
too (open corners: DEDUCED, log entry 99). -/
def execGroupStart (r : Req) (t : Fin 64) (mask : BitVec 8) (s : State) : Ans :=
  .next (privileged r (TUN_CTRL_GROUP_START t.val) mask.toNat s fun s =>
    let ks := (setBits 8 mask.toNat).map (8 * t.val + ·)
    if ks.all fun k => startOk k s && !startLate k s.now s then ks.foldl (fun s k => startSeq k s.now s) s
    else
      let s := ks.foldl (fun s k =>
        if !startOk k s then refuseStart k s
        else if startLate k s.now s then lateStart k s else s) s
      s.flag (TUN_STATUS_GROUP_REFUSED t.val) (640 + t.val))

/-- SEQ_CTRL.STOP_AT_SHOT (R65): without effect on a sequencer that runs no program; an accepted START drops a pending one (open
corners: DEDUCED, log entry 100). -/
def execStopAtShot (r : Req) (k : Fin 512) (s : State) : Ans :=
  .next (privileged r (SEQ_CTRL_STOP_AT_SHOT k.val) 1 s fun s =>
    let st := seqState k.val s
    if st = stRunning ∨ st = stStalled ∨ st = stTrapped then s.modSeq k.val fun q => { q with stopNext := true } else s)

/-- SEQ_CTRL.CLEAR (R63): a FAULTED or HALTED sequencer goes to IDLE and its fault code to NONE (R81); SEQ_FAULT.IADDR goes to 0
with it (open corners: DEDUCED, log entry 76). -/
def execClear (r : Req) (k : Fin 512) (s : State) : Ans :=
  .next (privileged r (SEQ_CTRL_CLEAR k.val) 1 s fun s =>
    let st := seqState k.val s
    if st = stHalted ∨ st = stFaulted then
      setSeqState k.val stIdle ((s.set (SEQ_FAULT_CODE k.val) 0).set (SEQ_FAULT_IADDR k.val) 0)
    else s)

/-- SEQ_CTRL.SLACK_RESET (R96). -/
def execSlackReset (k : Fin 512) (s : State) : Ans := .next (s.set (SEQ_SLACK_MIN k.val) 0x7FFFFFFF)

/-- SEQ_CTRL.EN takes a value: a write of 0 needs an IDLE sequencer (R96). -/
def seqEnWrite (k : Nat) (on : Bool) (s : State) : State :=
  if !on && s.on (SEQ_CTRL_EN k) && seqState k s != stIdle then seqFlag k (SEQ_STATUS_EN_REFUSED k) s
  else s.setB (SEQ_CTRL_EN k) on

/-- A write of SEQ_CTRL.EN (R96). -/
def execSeqEnWrite (r : Req) (k : Fin 512) (on : Bool) (s : State) : Ans :=
  .next (privileged r (SEQ_CTRL_EN k.val) (b2n on) s (seqEnWrite k.val on))

/-- TUN_CTRL.EN takes a value: a write of 0 needs all 8 sequencers IDLE (R96). -/
def tunEnWrite (t : Nat) (on : Bool) (s : State) : State :=
  if !on && s.on (TUN_CTRL_EN t) && (List.range 8).any (fun j => seqState (8 * t + j) s != stIdle) then
    s.flag (TUN_STATUS_EN_REFUSED t) (640 + t)
  else s.setB (TUN_CTRL_EN t) on

/-- A write of TUN_CTRL.EN (R96). -/
def execTunEnWrite (r : Req) (t : Fin 64) (on : Bool) (s : State) : Ans :=
  .next (privileged r (TUN_CTRL_EN t.val) (b2n on) s (tunEnWrite t.val on))

/-- An abort-class fault of sequencer k at tick t, and the abort routine after it: time passes to the routine's end (R149). -/
def faultAt (k code upc commits t : Nat) (s : State) : State :=
  let s := abortTrap k .fault code upc commits t (advanceTo t s)
  advanceTo (((s.seq k).abort.map (·.ends)).getD t) s

/-- A stall of sequencer k has lasted n ticks: the instruction faults with a code, unless the stall has ended (R500) (open corners:
DEDUCED, log entry 75). -/
def timeoutFault (k code n : Nat) (s : State) : State :=
  let t := (s.seq k).since + n
  let s := advanceTo t s
  if (s.seq k).stall.isSome then faultAt k code (presentUpc k s) (presentCommits k s) t s else s

/-! ### Barriers (R82 to R86) -/

/-- The barrier can complete: COUNT lies in 1..512 (R83). -/
def barEnabled (b : Nat) (s : State) : Bool := s.get (QM_BAR_CFG_COUNT b) != 0 && s.get (QM_BAR_CFG_COUNT b) ≤ 512

/-- A waiting participant takes the released cursor and goes on at tick t (R82) (open corners: DEDUCED, log entry 25). -/
def release (k c t : Nat) (s : State) : State :=
  match (s.seq k).stall with
  | some (.barrier _) => retire k t ((unstall k t s).set (SEQ_CURSOR k) c)
  | _ => microDone k t (fun m => m) (s.set (SEQ_CURSOR k) c)

/-- Barrier b with every round closed that its arrivals complete. -/
def settled (b : Nat) (s : State) : State := settle b (((s.bar b).arrivals.map (·.2.2)).foldl max 0 + 1) s

/-- 12 ticks after the arrival that completes a round the barrier releases its participants (R82) (open corners:
DEDUCED, log entry 25). -/
def execBarrierRelease (b : Fin 256) (s : State) : Ans :=
  .next (match ((settled b.val s).bar b.val).rounds with
    | [] => s
    | r :: _ =>
      let t := r.1 + 12
      let s := advanceTo t (settled b.val s)
      match (s.bar b.val).rounds with
      | [] => s
      | r :: rest =>
        let c := r.2.foldl (fun m a => max m a.2.1) 0
        let s := s.setBar b.val { s.bar b.val with rounds := rest }
        let s := r.2.foldl (fun s a => release a.1 c t s) s
        (showBarrier b.val s).inc (QM_BAR_STATUS_ROUNDS b.val))

/-- TIMEOUT µs after the open round's first arrival every participant that waits in it faults (R85); one that arrives later begins
a new round. -/
def execBarrierTimeout (b : Fin 256) (s : State) : Ans :=
  let limit := s.get (QM_BAR_CFG_TIMEOUT b.val)
  let t := (s.bar b.val).first + 2000 * limit
  let s' := settle b.val (t + 1) (advanceTo t s)
  let x := s'.bar b.val
  .next (if limit = 0 ∨ (s.bar b.val).arrivals.isEmpty then s
    else if x.arrivals.isEmpty ∨ x.first + 2000 * limit ≠ t then s'
    else
      let late := x.arrivals.filter fun a => t < a.2.2
      let s := s'.setBar b.val { x with arrivals := late, first := (late.map (·.2.2)).headD 0 }
      let gone := x.arrivals.filter fun a => a.2.2 ≤ t
      let s := gone.foldl (fun s a => abortTrap a.1 .fault 0x07 (presentUpc a.1 s) (presentCommits a.1 s) t s)
        (showBarrier b.val s)
      advanceTo (t + 8) (s.event 765))

/-- A write to QM_BAR_CFG (R86). -/
def barCfgWrite (b v : Nat) (s : State) : State :=
  if !(s.bar b).arrivals.isEmpty || !(s.bar b).rounds.isEmpty then s.flagAlways QM_STATUS_CFG_WHILE_ENABLED 760
  else (s.set (QM_BAR_CFG_COUNT b) v).set (QM_BAR_CFG_TIMEOUT b) (v / 1024)

/-- A write to QM_BAR_CFG (R86). -/
def execQmBarCfgWrite (r : Req) (b : Fin 256) (v : BitVec 32) (s : State) : Ans :=
  .next (privileged r (QM_BAR_CFG_COUNT b.val) v.toNat s (barCfgWrite b.val v.toNat))

end Sys2Proof.Machine
end

