-- ==== Sys2Proof/Machine/Operands.lean ====
section
/-! DEFINITION. What every pulse instruction shares: operand forms, TAU requests, the descriptor's length, faults, and the write of
a timed event entry (R59, R98 to R112). -/

namespace Sys2Proof.Machine

/-- Modifier bit b (48..51) of an instruction. -/
def flagBit (w b : Nat) : Bool := w.testBit b

/-- The number a field of n bits at bit lo holds, or, when modifier bit b is set, the low m bits of the register that the
field's low 4 bits name (R107). -/
def operand (k w lo n b m : Nat) (s : State) : Nat :=
  if flagBit w b then greg k (bits w lo 4) s % 2 ^ m else bits w lo n

/-- The two registers of a pair as one number (R101). -/
def gpair (k n : Nat) (s : State) : Nat := greg k n s + greg k (n + 1) s * 2 ^ 32

/-- BAD_OPERAND (R129). -/
def badOperand : Nat := 0x20

/-! ### TAU requests (R59) -/

/-- The cycle in which the instruction that sequencer j has begun or is to begin next requests the TAU: MUL in its second cycle,
PLAY with SCL = 1 in its third (R123, R142), a routine of microwords where TMUL2 or TSCL stands (DEDUCED, log entry 32). -/
def tauCycle (j : Nat) (s : State) : Option Nat :=
  let q := s.seq j
  let w := fetchWord j s
  if q.stall.isSome ∨ (q.abort.isSome ∧ !q.micro.active) then none
  else if q.micro.active then microTau j 16 q.micro.upc q.readyAt s
  else if seqState j s ≠ stRunning then none
  else if !byRule j (w / 2 ^ 56) s then microTau j 16 (w / 2 ^ 56) q.readyAt s
  else if !condHolds q (bits w 52 4) then none
  else if w / 2 ^ 56 = 0x42 then some (q.readyAt + 2)
  else if w / 2 ^ 56 = 0x10 ∧ flagBit w 49 then some (q.readyAt + 4)
  else none

/-- The sequencer of the Tun that was granted last before tick c, by its number in the Tun; the first round starts with number 0
(open corners: DEDUCED, log entry 32). -/
def tauLast (grants : List (Nat × Nat)) (c : Nat) : Nat :=
  ((grants.filter fun g => g.1 < c).foldl (fun (b : Nat × Nat) g => if b.1 ≤ g.1 then g else b) (0, 7)).2 % 8

/-- The cycles that sequencer k is refused when it first requests in the cycle that begins at tick c (R59): in each cycle the
requester that comes first in round-robin order after the last one granted is served.  `rivals` are the others' requests: cycle,
sequencer (DEDUCED, log entry 32). -/
def tauWait (k : Nat) : Nat → Nat → List (Nat × Nat) → List (Nat × Nat) → Nat
  | 0, _, _, _ => 0
  | n + 1, c, rivals, grants =>
    if grants.any fun g => c < g.1 + 2 && g.1 < c + 2 then 1 + tauWait k n (c + 2) rivals grants
    else
      let last := tauLast grants c
      let rank := fun (j : Nat) => (j % 8 + 7 - last) % 8
      let first := (rivals.filter fun r => r.1 ≤ c).foldl (fun b r => if rank r.2 < rank b then r.2 else b) k
      if first = k then 0
      else 1 + tauWait k n (c + 2) (rivals.filter fun r => r.2 != first) ((c, first) :: grants)

/-- A TAU request of sequencer k in the cycle that begins at tick t: the cycles refused, counted, and the grant noted (R59)
(open corners: DEDUCED, log entry 32). -/
def tauRequest (k t : Nat) (s : State) : Nat × State :=
  let x := s.tun (tunOf k)
  let others := ((List.range 8).map (8 * tunOf k + ·)).filter (· != k)
  let rivals := others.filterMap fun j => (tauCycle j s).map fun c => (c, j)
  let grants := x.tauGrants.filter (·.2 != k)
  let rivals := rivals.filter fun r => t ≤ r.1 + 16 && !(grants.any fun g => g.2 == r.2 && r.1 ≤ g.1)
  let n := tauWait k 8 t rivals x.tauGrants
  let kept := x.tauGrants.filter fun g => t ≤ g.1 + 64
  (n, (s.setTun (tunOf k) { x with tauGrants := (t + 2 * n, k) :: kept }).incSat (SEQ_TAU_STALLS k) n)

/-- The product of the amplitude scaling: shifted right by 15 bits and saturated to 16 bits (R108). -/
def scaleAmp (a b : Nat) : Nat := wrap 16 (satI 16 (sgn 16 a * sgn 16 b / (2 ^ 15 : Nat)))

/-! ### Entry writes (R102, R103, R108, R141) -/

/-- The length of descriptor w as the table stands [ticks] (R108). -/
def pulseTicks (w : Nat) (s : State) : Nat := dTicks (descOf w s)

/-- The cycles of an instruction as R105 counts them, without stalls. -/
def cyclesOf (op : Nat) : Nat :=
  match op with
  | 0x01 => 2 | 0x02 => 3 | 0x09 => 2 | 0x0A => 4 | 0x0B => 3 | 0x0C => 2
  | 0x10 => 6 | 0x11 => 4 | 0x12 => 3 | 0x13 => 4 | 0x18 => 3 | 0x19 => 2 | 0x1A => 2 | 0x1B => 2 | 0x20 => 4 | 0x21 => 3
  | 0x28 => 2 | 0x29 => 4 | 0x2A => 2 | 0x2B => 2 | 0x2C => 2 | 0x30 => 3 | 0x31 => 2 | 0x42 => 5
  | 0x48 => 4 | 0x49 => 3 | 0x50 => 3 | 0x51 => 3
  | _ => 1

/-- An instruction's own abort-class fault, taken at the end of cycle `cyc`, tick t (R146, R500): COMMITS reads 0 (open corners:
DEDUCED, log entry 77). -/
def seqFault (k code op cyc t : Nat) (s : State) : State := faultAt k code (upcOf op cyc) 0 t s

/-- The advance of the cursor that a write makes: fixed, or the length of a descriptor as the table stands at the write (R108)
(DEDUCED, log entry 29). -/
def advOf (w : HeldWrite) (s : State) : Nat :=
  match w.advDesc with
  | some d => pulseTicks d s
  | none => w.adv

/-- How the attempt to write an entry ends: written, its queue full, or a fault; with the state at that time. -/
inductive WriteEnd where
  | written (s : State)
  | full (queue : Nat) (s : State)
  | fault (code : Nat) (s : State)

/-- The writing cycle that begins at tick t (R102, R141): the queue is tested for room as it begins, the other checks are made at
its end T_w, and the cursor advances in the same cycle (open corners: DEDUCED, log entry 29). -/
def tryWrite (k : Nat) (w : HeldWrite) (t : Nat) (s : State) : WriteEnd :=
  let s0 := advanceTo t s
  match checkWrite k w.kind w.target w.fine (t + 2) s0 with
  | .full j => .full j s0
  | _ =>
    let s := advanceTo (t + 2) s0
    match checkWrite k w.kind w.target w.fine (t + 2) s with
    | .full j => .full j s
    | .fault code reached => .fault code (if reached then noteSlack k (t + 2) s else s)
    | .ok j =>
      let adv := advOf w s
      .written (advCursor k adv (putEntry k w j (noteSlack k (t + 2) s)))

/-- A write of opcode op finds queue j full as its cycle begins at tick t: the trap TEQ_FULL (R69, R143, R148)
(DEDUCED, log entry 29). -/
def teqFullTrap (k op : Nat) (w : HeldWrite) (j t : Nat) (s : State) : State :=
  let s := s.incSat (SEQ_TEQ_STATUS_FULL_STALLS k j)
  let s := ruleShadow k 4 (upcOf op (cyclesOf op)) t (op != 0x10 || (s.seq k).micro.stale) (stagedWords k w s) s
  if trapByRule k 4 s then stallSeq k (.teqFull { w with queue := j }) t s
  else modMicro k (fun m => { m with full := some j }) (trapBegin k 4 (.write { w with queue := j }) t s)

/-- An entry write of opcode op in its cycle `cyc`, which begins at tick t; the instruction retires with it (R102, R103) (DEDUCED,
DEDUCED, log entry 29). -/
def writeEntry (k op cyc : Nat) (w : HeldWrite) (t : Nat) (s : State) : State :=
  match tryWrite k w t s with
  | .fault code s => seqFault k code op cyc (t + 2) s
  | .full j s => teqFullTrap k op w j t s
  | .written s => retire k (t + 2) s

/-- Write an entry in the last cycle of instruction op, which began at tick t (R102); an operand out of its class faults in
the cycle before (R111, R500). -/
def entryInstr (op k t : Nat) (ok : Bool) (w : HeldWrite) (s : State) : State :=
  let n := cyclesOf op
  if ok then writeEntry k op n w (t + 2 * (n - 1)) s else seqFault k badOperand op (n - 1) (t + 2 * (n - 1)) s

end Sys2Proof.Machine
end

