-- ==== Sys2Proof/Machine/Flags.lean ====
section
/-! DEFINITION. Results and flags of the data instructions (R123). -/

namespace Sys2Proof.Machine

/-- What an ALU operation gives: the result, and the flags C and V where it sets them. -/
structure AluOut where
  res : Nat
  c   : Option Bool := none
  v   : Option Bool := none
deriving DecidableEq, Repr

/-- A + B on w bits: carry out and signed overflow. -/
def addOut (w a b : Nat) : AluOut :=
  let r := (a + b) % 2 ^ w
  { res := r, c := some (decide (a + b ≥ 2 ^ w)), v := some (decide (sgn w a + sgn w b ≠ sgn w r)) }

/-- A - B on w bits: C = 1 when there is no borrow, signed overflow. -/
def subOut (w a b : Nat) : AluOut :=
  let r := (a + 2 ^ w - b) % 2 ^ w
  { res := r, c := some (decide (b ≤ a)), v := some (decide (sgn w a - sgn w b ≠ sgn w r)) }

/-- A bitwise result: C and V are 0. -/
def bitOut (r : Nat) : AluOut := { res := r, c := some false, v := some false }

/-- A shifted left by n: C is the last bit shifted out, 0 for n = 0. -/
def shlOut (w a n : Nat) : AluOut :=
  { res := (a * 2 ^ n) % 2 ^ w, c := some (n != 0 && a.testBit (w - n)) }

/-- A shifted right by n, logically. -/
def shrOut (a n : Nat) : AluOut := { res := a / 2 ^ n, c := some (n != 0 && a.testBit (n - 1)) }

/-- A shifted right by n, arithmetically. -/
def asrOut (w a n : Nat) : AluOut :=
  { res := wrap w (sgn w a / ((2 ^ n : Nat) : Int)), c := some (n != 0 && a.testBit (n - 1)) }

/-- The signed product of the low 18 bits: its low 32 bits, and V = 1 when it does not fit in 32 signed bits. -/
def mulOut (a b : Nat) : AluOut :=
  let p := sgn 18 a * sgn 18 b
  { res := wrap 32 p, v := some (decide (satI 32 p ≠ p)) }

/-- The operation `op` (opcode - 0x38) on A and B (R123). -/
def aluOut (op a b : Nat) : AluOut :=
  match op with
  | 0 => addOut 32 a b
  | 1 => subOut 32 a b
  | 2 => bitOut (a &&& b)
  | 3 => bitOut (a ||| b)
  | 4 => bitOut (a ^^^ b)
  | 5 => shlOut 32 a (b % 32)
  | 6 => shrOut a (b % 32)
  | 7 => asrOut 32 a (b % 32)
  | 8 => { res := b }
  | 9 => subOut 32 a b
  | _ => mulOut a b

/-- Set the machine flags from a result (R123): Z and N always, C and V where the operation sets them. -/
def setFlags (k : Nat) (o : AluOut) (s : State) : State :=
  s.modSeq k fun q => { q with z := o.res == 0, n := o.res.testBit 31, c := o.c.getD q.c, v := o.v.getD q.v }

/-- An ALU instruction's operands, result and flags (R123); CMP writes no register. -/
def alu (op k w : Nat) (s : State) : State :=
  let a := greg k (bits w 40 4) s
  let b := if w.testBit 39 then bits w 0 32 else greg k (bits w 32 4) s
  let o := aluOut op a b
  let s := setFlags k o s
  if op = 9 then s else setGreg k (bits w 44 4) o.res s

end Sys2Proof.Machine
end

