-- ==== Sys2Proof/Machine/DataOps.lean ====
section
/-! DEFINITION. The data space of LD and ST (R124). -/

namespace Sys2Proof.Machine

/-- BAD_ADDRESS (R124). -/
def badAddress : Nat := 0x21

/-- The four LO/HI pairs of the data space at tick t (R124) (open corners: DEDUCED, log entry 31). -/
def pairValue (k p t : Nat) (s : State) : Nat :=
  match p with
  | 0 => t
  | 1 => cursor k s
  | 2 => s.get (SEQ_SHOT k)
  | _ => (s.seq k).shotT0

/-- Byte address of word `a` of the sample memory of sequencer k's Tun. -/
def sampleAddr (k a : Nat) : Nat := sampleBase + 0x100000 * tunOf k + 4 * (a - 0x40000)

/-- The word at data-space address a for sequencer k in the cycle that ends at tick t (R124); none outside the table. -/
def dataWord (k a t : Nat) (s : State) : Option Nat :=
  if a < 0x4000 then some (s.rd (instrStoreBase + 0x10000 * k + 4 * a) 4)
  else if a < 0x4008 then
    let p := (a - 0x4000) / 2
    if a % 2 = 0 then some (pairValue k p t s % 2 ^ 32)
    else match (s.seq k).ldHi with
      | some (p', v) => some (if p' = p then v else bits (pairValue k p t s) 32 32)
      | none => some (bits (pairValue k p t s) 32 32)
  else if a = 0x4008 then some (wrap 32 (slackAt k t s))
  else if a = 0x4009 then some (angleAt s t + b2n (angleValid s) * 2 ^ 16)
  else if a = 0x400A then some (k + myDev s * 2 ^ 16)
  else if a ≤ 0x40FF then some 0
  else if 0x40000 ≤ a ∧ a ≤ 0x7FFFF then some (s.rd (sampleAddr k a) 4)
  else none

/-- Reading a LO word latches its HI word (R124) (open corners: DEDUCED, log entry 31). -/
def latchHi (k a t : Nat) (s : State) : State :=
  if 0x4000 ≤ a ∧ a < 0x4008 ∧ a % 2 = 0 then
    let p := (a - 0x4000) / 2
    s.modSeq k fun q => { q with ldHi := some (p, bits (pairValue k p t s) 32 32) }
  else s

/-- The data-space address of an LD or ST (R124). -/
def dataAddr (k w : Nat) (s : State) : Nat := (greg k (bits w 40 4) s + bits w 0 32) % 2 ^ 32

end Sys2Proof.Machine
end

