-- ==== Sys2Proof/Machine/FlowOps.lean ====
section
/-! DEFINITION. What the timing and control-flow instructions compute (R113 to R122). -/

namespace Sys2Proof.Machine

/-- The target of WAITUNTIL by its MODE (R113); none for the reserved MODE and for an odd pair. -/
def waitTarget (k w : Nat) (s : State) : Option Nat :=
  let gs := bits w 32 4
  match bits w 46 2 with
  | 0 => if gs % 2 = 1 then none else some (gpair k gs s)
  | 1 => some ((s.seq k).shotT0 + bits w 0 32)
  | 2 => some ((s.seq k).shotT0 + greg k gs s)
  | _ => none

/-- A source code of R46 that can fire. -/
def sourceOk (c : Nat) : Bool := c ≤ 21 || (24 ≤ c && c ≤ 33)

/-- A stall of sequencer k outlasts the TIMEOUT [µs] of its instruction; 0 is no timeout (R114, R125). -/
def usTimeout (k code us : Nat) (s : State) : State := if us = 0 then s else timeoutFault k code (2000 * us) s

/-- The partition of barrier b (R88) (open corners: DEDUCED, log entry 25). -/
def barPart (b : Nat) (s : State) : Nat := nibble GLB_PART_BAR b s

/-! ### Branches, calls and loops (R116, R117) -/

/-- The target of BR and CALL (R107). -/
def branchTarget (k w : Nat) (s : State) : Nat :=
  if flagBit w 49 then greg k (bits w 0 4) s % 2 ^ 13 else bits w 0 13

/-- Push an item on the call and loop stack (R116). -/
def pushItem (k : Nat) (it : StackItem) (s : State) : State := s.modSeq k fun q => { q with stack := it :: q.stack }

/-- The stack below its most recent CALL entry, with that entry's address (R117). -/
def popCall : List StackItem → Option (Nat × List StackItem)
  | [] => none
  | .call ret :: st => some (ret, st)
  | .loop _ _ _ :: st => popCall st

/-! ### BRR (R119 to R122) -/

/-- SRC of a BRR. -/
def brrSrc (w : Nat) : Nat := bits w 46 2
/-- INDEX of a BRR. -/
def brrIndex (w : Nat) : Nat := bits w 34 12

/-- INDEX lies in the range of SRC (R119). -/
def brrOk (w : Nat) : Bool :=
  match brrSrc w with
  | 0 => true
  | 1 => brrIndex w ≤ 2047
  | _ => brrIndex w ≤ 63

/-- The source of a BRR as sequencer k sees it: its value, tag and mark (R119, R120, R276). -/
def brrSource (k w : Nat) (s : State) : Tagged :=
  match brrSrc w with
  | 0 => { pairOf (brrIndex w / 2) s with val := rvBit (brrIndex w) s }
  | 1 => pairOf (brrIndex w) s
  | _ => Tab.get {} (s.seq k).codes (brrIndex w)

/-- The expected generation (R120). -/
def brrExpected (k w : Nat) (s : State) : Nat :=
  if flagBit w 50 then ((brrSource k w s).gen + 1) % 2 ^ 16 else greg k (bits w 26 4) s % 2 ^ 16

/-- What a comparison of generations finds (R120). -/
inductive BrrOutcome where
  | resolve | behind | stale | invalid | timeout
deriving DecidableEq, Repr

/-- Compare the source with the expected generation g (R120). -/
def brrCompare (k w g : Nat) (s : State) : BrrOutcome :=
  let x := brrSource k w s
  let d := genDiff x.gen g
  if d = 0 then (if x.inv then .invalid else .resolve) else if d < 0 then .behind else .stale

/-- BRR is taken, and where to (R119). -/
def brrTaken (k w : Nat) (s : State) : Bool × Nat :=
  let v := (brrSource k w s).val
  let val := bits w 30 4
  match brrSrc w with
  | 0 => (v == val % 2, bits w 0 13)
  | 1 => (v == val % 4, bits w 0 13)
  | 2 => (v == val, bits w 0 13)
  | _ => (true, bits w 0 13 + v)

/-- The code of a failure (R129). -/
def BrrOutcome.code : BrrOutcome → Nat
  | .stale => 0x26 | .invalid => 0x27 | _ => 0x25

/-- The catch-up at tick t (R122). -/
def catchUp (k lead t : Nat) (on : Bool) (s : State) : State := if on then raiseCursor k (t + lead) s else s

/-- RESVAL of a resolution or failure (R138). -/
def resvalOf (k w : Nat) (o : BrrOutcome) (s : State) : Nat :=
  match o with
  | .resolve =>
    b2n (brrTaken k w s).1 + 2 * (if brrSrc w = 0 then 0 else (brrSource k w s).val)
  | .stale => 32 + 64
  | .invalid => 32 + 128
  | _ => 32

/-- The two cycles of resolution or failure that begin at tick t (R121, R122): the value is that of the generation that resolved at
tick t (R267), and a fault leaves V as it was (R500) (DESIGN CHOICE, log entry 98). -/
def brrFinish (k w : Nat) (o : BrrOutcome) (t : Nat) (s : State) : State :=
  let te := t + 4
  let r := brrTaken k w s
  let val := resvalOf k w o s
  let s := advanceTo te (modMicro k (fun m => { m with resval := val }) s)
  let lead := bits w 13 7
  let caught := flagBit w 51
  match o with
  | .behind => s
  | .resolve =>
    let s' := s.modSeq k fun q => { q with v := false }
    if r.1 then
      if r.2 > 8191 then seqFault k 0x22 0x29 4 te s
      else catchUp k lead te caught (branchTo k r.2 te s')
    else catchUp k lead te caught (retire k te s')
  | f =>
    if flagBit w 49 then
      let s := s.modSeq k fun q => { q with v := true }
      let s := if f = .timeout then s.incSat (SEQ_MISS_COUNT k) else s
      catchUp k lead te caught (retire k te s)
    else seqFault k f.code 0x29 4 te s

end Sys2Proof.Machine
end

