-- ==== Sys2Proof/Machine/ShotOps.lean ====
section
/-! DEFINITION. What the shot and message instructions do (R93, R94, R125 to R128, R397, R439). -/

namespace Sys2Proof.Machine

/-! ### SHOT_BEGIN (R126) -/

/-- A ring that backpressures sequencer k is full (R93). -/
def ringHeld (k : Nat) (s : State) : Bool :=
  (s.seq k).rings.any fun q => s.get (QM_Q_CFG_FULL_POLICY q) == 0 && s.full q

/-- SHOT_BEGIN retires at tick t, where the shot begins (R126, R397, R439): the reservation of check 5 ends, and the cursor has
been put off by a compatibility pause (DEDUCED, log entry 30). -/
def openShot (k t : Nat) (s : State) : State :=
  let p := seqPart k s
  let s := if (s.seq k).reserved then meterRelease p (s.modSeq k fun q => { q with reserved := false }) else s
  let s := meterBegin p t s
  let s := advCursor k (s.seq k).pause s
  let s := s.inc (SEQ_SHOT k)
  let c := cursor k s
  s.modSeq k fun q => { q with shotOpen := true, shotT0 := c, pause := 0 }

/-- The checks of R126 have passed in the cycle that begins at tick t: an instruction of image 2.4 retires two cycles later (open
corners: DEDUCED, log entry 30); a microword SHOTCK completes (DEDUCED, log entry 103). -/
def shotPass (k t : Nat) (s : State) : State :=
  if (s.seq k).micro.active then microDone k t (fun m => m) s
  else retire k (t + 4) (openShot k (t + 4) (advanceTo (t + 4) s))

/-- Shots that enforcement leaves to partition p (open corners: DEDUCED, log entry 30). -/
def creditLeft (p : Nat) (s : State) : Nat :=
  let x := s.part p
  x.limit - (x.base + x.begun + x.reserved)

/-- Sequencer j makes check 5 in the cycle that begins at tick t: it is held there, its SHOT_BEGIN is about to reach it, or its
microword SHOTCK (R126, R397) (open corners: DEDUCED, log entry 30). -/
def atCredit (j t : Nat) (s : State) : Bool :=
  let q := s.seq j
  let w := fetchWord j s
  let free := q.stall.isNone && !q.shotOpen && !q.stopNext && s.get KILN_STATUS_LEVEL == 0 && !ringHeld j s
  match q.stall with
  | some .credit => true
  | some (.micro 0x3F _) => true
  | _ =>
    free && (if q.micro.active then q.readyAt == t && uopOf (microword j q.micro.upc s) == 0x36
             else q.abort.isNone && seqState j s == stRunning && q.readyAt + 4 == t && w / 2 ^ 56 == 0x48
               && byRule j 0x48 s && condHolds q (bits w 52 4))

/-- Sequencers of partition p with a lower number than k that make check 5 in the cycle that begins at tick t (R397) (open corners:
DEDUCED, log entry 30). -/
def creditAhead (k p t : Nat) (s : State) : Nat :=
  (s.seqs.filter fun x => x.1 < k && atCredit x.1 t s && seqPart x.1 s == p).length

/-- Check 5 holds sequencer k of partition p at tick t: the balance is 0, or the shots that are left go to lower-numbered
sequencers (R397) (DEDUCED, log entry 30). -/
def creditHolds (k p t : Nat) (s : State) : Bool :=
  creditHeld p t s || ((s.part p).enforced && decide (creditLeft p s ≤ creditAhead k p t s))

/-- Check 5 of R126 in the cycle that begins at tick t: the shot is reserved as it passes, or the trap CREDIT_EXHAUSTED is taken
(R143, R397), which faults in a trap routine (R147) (open corners: DEDUCED, log entry 30). -/
def creditCheck (k t : Nat) (s : State) : State :=
  let p := seqPart k s
  if creditHolds k p t s then
    if (s.seq k).micro.active ∧ (s.seq k).micro.trap.isSome then microFault k 0x40 (t + 2) s
    else
    let s := if (s.seq k).micro.active then s.modSeq k fun q => { q with shadow := shadowWords k 5 t s }
      else ruleShadow k 5 (upcOf 0x48 3) t true [] s
    if trapByRule k 5 s then stallSeq k .credit t s
    else trapBegin k 5 (if (s.seq k).micro.active then .word else .shot) t s
  else
    shotPass k t (if (s.part p).enforced then meterReserve p (s.modSeq k fun q => { q with reserved := true }) else s)

/-- Checks 4 and 5 (open corners: DEDUCED, log entry 30). -/
def ringCheck (k t : Nat) (s : State) : State :=
  if ringHeld k s then stallSeq k .ring t s else creditCheck k t s

/-- Check 3: Kiln issue skipping or a compatibility pause at level L (R439), then the rest (open corners: DEDUCED, log entry 30). -/
def kilnCheck (k t : Nat) (s : State) : State :=
  let l := s.get KILN_STATUS_LEVEL
  if l = 0 then ringCheck k t s
  else if s.on KILN_CFG_THR_MODE then
    let pause := 2000 * s.get (KILN_SKIP_PAUSE l)
    if pause = 0 then ringCheck k t s else stallSeq k (.kiln (t + pause) pause) t s
  else
    let skip := 2 * s.get (KILN_SKIP_SKIP l)
    if skip = 0 then ringCheck k t s else stallSeq k (.kiln (t + skip) 0) t s

/-- Checks 2 to 5 in the cycle that begins at tick t (R126, R65) (open corners: DEDUCED, log entry 30) (DEDUCED, log entry 103). -/
def shotChecks (k t : Nat) (s : State) : State :=
  if (s.seq k).stopNext then
    setSeqState k stHalted (s.modSeq k fun q =>
      { q with stopNext := false, readyAt := t + 2, micro := { q.micro with active := false, commits := 0 } })
  else kilnCheck k t s

/-- SHOT_END of sequencer k: its shot stays in flight, closing (R127). -/
def closeShot (k : Nat) (s : State) : State :=
  let n := s.get (SEQ_SHOT k)
  s.modSeq k fun q => { q with shotOpen := false, closing := q.closing ++ [n] }

/-- Every entry of shot n of sequencer k has fired and every MEASURE of it has produced its record (R127). -/
def shotDone (k n : Nat) (s : State) : Bool :=
  !(allEntries k s).any (fun e => e.shot % 65536 == n % 65536) && Tab.get 0 (s.seq k).measures n == 0

/-! ### Messages (R94, R125, R327) -/

/-- BAD_QUEUE, PARTITION of a message instruction (R125). -/
def queueFault (k q : Nat) (s : State) : Option Nat :=
  if q < 0x9800 then some 0x2B else if s.owner q ≠ seqPart k s then some 0x05 else none

/-- The tick at which a message appended at tick t to queue q is visible (R94). -/
def visibleAt (q t : Nat) (s : State) : Nat := (s.queue q).items.foldl (fun m it => max m it.visible) (t + 16)

/-- Send message v to queue q at tick t, locally or through a proxy; false when the queue is full (R125, R327)
(DEDUCED, log entry 111). -/
def signal (q v t : Nat) (s : State) : Bool × State :=
  match proxyOf q s with
  | some p =>
    (true, txIngress (triggerMsg (s.get (FLV_PROXY_DST_DEV p)) (s.get (FLV_PROXY_DST_RQUEUE p)) v t s) s)
  | none =>
    if !s.on (QM_Q_CTRL_Q_EN q) then (false, s)
    else if s.full q then (false, s.noteEmpty q)
    else (true, s.append q { bytes := toBytes 4 v, visible := visibleAt q t s })

/-- SIGNAL with message v: retires at tick t, or faults there (R125). -/
def signalAt (k q v t : Nat) (drop : Bool) (s : State) : Option Nat × State :=
  match queueFault k q s with
  | some c => (some c, s)
  | none =>
    let r := signal q v t s
    if r.1 then (none, r.2.modSeq k fun x => { x with z := false })
    else if drop then (none, (r.2.countDrop q 1).modSeq k fun x => { x with z := true })
    else (some 0x2A, r.2)

/-- The head message of queue q, visible at tick t (R94). -/
def headVisible (q t : Nat) (s : State) : Option Item :=
  match (s.queue q).items with
  | it :: _ => if it.visible ≤ t then some it else none
  | [] => none

/-- The last cycle of WAITMSG begins at tick t: the head message `it` goes to g(GD), and the catch-up follows (R122, R125) (open
corners: DEDUCED, log entry 27) (DESIGN CHOICE, log entry 98). -/
def takeMsg (k w t : Nat) (it : Item) (s : State) : State :=
  let s := ((advanceTo (t + 2) s).popHead (bits w 32 16)).2
  let s := modMicro k (fun m => { m with msghd := ofBytes (it.bytes.take 4) }) s
  let s := setGreg k (bits w 28 4) (ofBytes (it.bytes.take 4)) s
  catchUp k (bits w 0 7) (t + 2) (flagBit w 51) (retire k (t + 2) s)

/-- Sequencer k stalls on an empty queue q (open corners: DEDUCED, log entry 27). -/
def waitsOn (k q : Nat) (s : State) : Bool :=
  match (s.seq k).stall with
  | some .msg => bits (fetchWord k s) 32 16 == q
  | some (.micro 0x30 x) => x == q
  | _ => false

/-- The waiting sequencer that takes the next message of queue q: the one that armed first, then the lowest (open corners: DEDUCED,
DEDUCED, log entry 27). -/
def msgTaker (q : Nat) (s : State) : Option Nat :=
  ((s.seqs.filter fun x => waitsOn x.1 q s).foldl
    (fun best x => match best with
      | none => some (x.1, x.2.since)
      | some b => if x.2.since < b.2 then some (x.1, x.2.since) else some b) none).map (·.1)

end Sys2Proof.Machine
end

