-- ==== Sys2Proof/Machine/MicroOps.lean ====
section
/-! DEFINITION. The micro-operations of R139 and the routines they make (R133 to R149, R158). -/

namespace Sys2Proof.Machine

/-! ### Operand selectors (R138) -/

/-- i sign-extended from w bits to 64. -/
def sext64 (w n : Nat) : Nat := wrap 64 (sgn w n)

/-- KIND of the staged entry (R71). -/
def stagedKind (m : Micro) : Nat := bits m.e0 45 4

/-- ADVLEN (R138). -/
def advLen (k w : Nat) (s : State) : Nat :=
  let m := (s.seq k).micro
  if !flagBit w 48 then 0
  else match stagedKind m with
    | 0 => pulseTicks (bits m.e1 32 17) s
    | 1 => pulseTicks (bits m.e1 32 17) s
    | 3 => bits m.e2 0 32
    | _ => 0

/-- The machine flags in the order Z, N, C, V from bit 3 down (open corners: DEDUCED, log entry 34). -/
def flagsWord (q : Seq) : Nat := 8 * b2n q.z + 4 * b2n q.n + 2 * b2n q.c + b2n q.v

/-- The value of selector x in the cycle that ends at tick t; none for a reserved selector (R138). -/
def selRead (k x t : Nat) (s : State) : Option Nat :=
  let q := s.seq k
  let m := q.micro
  let w := fetchWord k s
  if x ≤ 0x07 then some (m.u.getD x 0)
  else if x ≤ 0x17 then some (greg k (x - 8) s)
  else match x with
    | 0x18 => some w
    | 0x19 => some (if flagBit w 49 then greg k (bits w 32 4) s else bits w 0 32)
    | 0x1A => some (cursor k s)
    | 0x1B => some t
    | 0x1C => some (flagsWord q)
    | 0x1D => some (s.get (SEQ_PC k))
    | 0x1E => some (s.get (SEQ_SHOT k))
    | 0x1F => some q.shotT0
    | 0x20 => some m.e0
    | 0x21 => some m.e1
    | 0x22 => some m.e2
    | 0x23 => some (sext64 36 m.taur0)
    | 0x24 => some (sext64 36 m.taur1)
    | 0x25 => some m.resval
    | 0x26 => some m.resgen
    | 0x27 => some m.tstamp
    | 0x28 => some m.msghd
    | 0x29 => some m.angt
    | 0x2A => some (advLen k w s)
    | 0x2B => some (wrap 32 (slackAt k t s))
    | 0x2C => some m.mret
    | 0x2D => some 0
    | 0x2E => some (k + myDev s * 2 ^ 16)
    | _ => none

/-- Write selector x with its low bits of v; none for a selector that cannot be written (R138). -/
def selWrite (k x v : Nat) (s : State) : Option State :=
  let v := v % 2 ^ 64
  if x ≤ 0x07 then some (modMicro k (fun m => { m with u := m.u.set x v }) s)
  else if x ≤ 0x17 then some (setGreg k (x - 8) v s)
  else match x with
    | 0x20 => some (modMicro k (fun m => { m with e0 := v }) s)
    | 0x21 => some (modMicro k (fun m => { m with e1 := v }) s)
    | 0x22 => some (modMicro k (fun m => { m with e2 := v }) s)
    | _ => none

/-- A selector names a program register, which only a COMMIT microword writes (R136, R138). -/
def selProgram (x : Nat) : Bool := 8 ≤ x && x ≤ 0x17

/-! ### Results of micro-ops -/

/-- How a micro-op ends: it completes, jumps, retires the instruction at once, stalls, faults with a code, finds its queue full,
makes the checks of a shot, or returns from a trap. -/
inductive MicroEnd where
  | done (s : State)
  | jump (a : Nat) (s : State)
  | retire (s : State)
  | stall (c : Stall) (s : State)
  | teqFull (w : HeldWrite) (queue : Nat) (s : State)
  | shot (s : State)
  | back (s : State)
  | fault (code : Nat) (s : State)

/-- A micro-op that writes v to its destination, and sets micro-flags (open corners: DEDUCED, log entry 34). -/
def uWrite (k w v : Nat) (f : Micro → Micro) (s : State) : MicroEnd :=
  let d := bits w 52 6
  if selProgram d && !uCommit w then .fault 0x46 s
  else match selWrite k d v s with
    | none => .fault 0x42 s
    | some s => .done (modMicro k f s)

/-- Set the micro-flags from a 64-bit result (open corners: DEDUCED, log entry 34). -/
def uFlags (o : AluOut) (m : Micro) : Micro :=
  { m with uz := o.res == 0, un := o.res.testBit 63, uc := o.c.getD m.uc, uv := o.v.getD m.uv }

/-- The micro-ALU operation 0..7 of UOP 0x08..0x0F on 64 bits (open corners: DEDUCED, log entry 34). -/
def uAlu (op a b : Nat) : AluOut :=
  match op with
  | 0 => addOut 64 a b
  | 1 => subOut 64 a b
  | 2 => bitOut (a &&& b)
  | 3 => bitOut (a ||| b)
  | 4 => bitOut (a ^^^ b)
  | 5 => shlOut 64 a (b % 64)
  | 6 => shrOut a (b % 64)
  | _ => asrOut 64 a (b % 64)

/-- A shift sets uV too, and the spec does not say to what: a free value (R139; DEDUCED, log entry 34). -/
def uShift (k w : Nat) (o : AluOut) (s : State) : MicroEnd :=
  let f := freeWords 1 s
  uWrite k w o.res (uFlags { o with v := some ((f.1.headD 0).testBit 0) }) f.2

/-- Width of a field operand: IMM[11:6], 0 standing for 64 (R139) (open corners: DEDUCED, log entry 34). -/
def uWidth (imm : Nat) : Nat := if bits imm 6 6 = 0 then 64 else bits imm 6 6

/-- Field insertion of UINS and ESET, within 64 bits (open corners: DEDUCED, log entry 34). -/
def uInsert (old imm a : Nat) : Nat := putBits old (bits imm 0 6) (uWidth imm) (a % 2 ^ uWidth imm) % 2 ^ 64

/-- The target that ETGT takes from IR for a kind (R140). -/
def etgtTarget (k kind w : Nat) (s : State) : Nat :=
  match kind with
  | 4 => operand k w 38 10 50 10 s
  | 5 => bits w 43 5
  | 6 => operand k w 32 16 50 16 s
  | _ => operand k w 36 12 50 12 s

/-- ETGT (R140). -/
def uEtgt (k w kind : Nat) (s : State) : MicroEnd :=
  match kindTarget kind with
  | none => .fault 0x08 s
  | some c =>
    let n := etgtTarget k kind w s
    if targetOk c n then
      .done (modMicro k (fun m =>
        { m with e0 := putBits (putBits m.e0 45 4 kind) 49 9 k,
                 e1 := putBits (putBits m.e1 0 16 n) 16 16 (s.get (SEQ_SHOT k)) }) s)
    else .fault badOperand s

/-- TEQW and TEQWA: the staged entry is written in the cycle that begins at tick t (R141): SEQ and SHOT are those staged, and A is
copied into E2 under the bits of B that the kind uses (R139); a trap TEQ_FULL that the microword takes saves E2 with that copy in it
(R148) (DEDUCED, log entry 34). -/
def uTeqw (k w a adv t : Nat) (copy : Bool) (s : State) : MicroEnd :=
  let m := (s.seq k).micro
  let kind := stagedKind m
  let e2 := if copy then a &&& kindMaskB kind (bits m.e1 32 32) else m.e2
  let s := modMicro k (fun m => { m with e2 := e2 }) s
  if (kindTarget kind).isNone then .fault 0x08 s
  else if kind = 0 ∧ bits e2 0 16 > 40959 then .fault badOperand s
  else
    let hw : HeldWrite :=
      { queue := 0, kind := kind, target := bits m.e1 0 16, fine := bits m.e0 40 5, a := bits m.e1 32 32, b := e2,
        adv := adv, staged := some (bits m.e0 49 9, bits m.e1 16 16),
        genReg := if kind = 4 ∧ flagBit w 49 then some (bits w 14 4) else none }
    match tryWrite k hw t s with
    | .fault code s => .fault code s
    | .full j s => .teqFull hw j s
    | .written s => .done s

/-- TMO of a BRR [ticks]; 0 is no timeout (R119). -/
def brrTimeout (w : Nat) : Nat := 256 * bits w 20 6

/-- WRES in the cycle that begins at tick t (R120, R139). -/
def uWres (k w t : Nat) (s : State) : MicroEnd :=
  let m := (s.seq k).micro
  match brrCompare k w m.resgen s with
  | .behind =>
    if brrTimeout w ≠ 0 ∧ t ≥ m.armed + brrTimeout w then
      .done (modMicro k (fun m => { m with resval := resvalOf k w .timeout s }) s)
    else .stall (.micro 0x2E m.resgen) s
  | o => .done (modMicro k (fun m => { m with resval := resvalOf k w o s }) s)

/-- A jump in owner mode stays in the owner region (R158). -/
def uJump (owner : Bool) (a : Nat) (s : State) : MicroEnd :=
  if owner ∧ ¬ (0x3000 ≤ a ∧ a ≤ 0x3FFF) then .fault 0x43 s else .jump a s

/-- A TAU request of the microword that begins at tick t: a refused cycle holds the microword, and the result lands 3 cycles after
the grant (R59, R139). -/
def uTau (k t : Nat) (dest : Nat) (tscl : Bool) (p0 p1 : Nat) (s : State) : State :=
  let r := tauRequest k t s
  let due := t + 2 * r.1 + 6
  let s := r.2.modSeq k fun q => { q with readyAt := q.readyAt + 2 * r.1 }
  (modMicro k (fun m => { m with tau := m.tau ++ [(due, dest, tscl, p0, p1)] }) s).later due (.tauLand k due)

/-- The code that UFAULT reports (R149). -/
def ufaultCode (c : Nat) : Nat := if (1 ≤ c ∧ c ≤ 0x0D) ∨ (0x20 ≤ c ∧ c ≤ 0x2E) then c else 0x45

/-- Micro-ops that R139 marks C. -/
def uMarkedC (uop : Nat) : Bool :=
  [0x18, 0x1B, 0x1C, 0x1D, 0x1E, 0x1F, 0x20, 0x21, 0x22, 0x28, 0x29, 0x31, 0x32, 0x35, 0x37, 0x38, 0x3A, 0x3B, 0x3D].contains uop

/-- Micro-ops closed to owner mode (R158). -/
def uClosed (uop : Nat) : Bool := [0x01, 0x05, 0x36, 0x37, 0x38, 0x3B, 0x3C].contains uop

/-- The micro-operation of microword mw, in the cycle from tick t0 to tick t, on sources a and b; w is the instruction
(R139) (DESIGN CHOICE, log entry 14). -/
def uExec (k mw w t0 t a b : Nat) (s : State) : MicroEnd :=
  let m := (s.seq k).micro
  let imm := bits mw 0 32
  let d := bits mw 52 6
  let owner := decide (m.upc ≥ 0x3000)
  let uop := uopOf mw
  let keep := fun (m : Micro) => m
  match uop with
  | 0x00 => .done s
  | 0x01 => if m.upc > 0xFF then .fault 0x42 s
            else if condHolds (s.seq k) (bits w 52 4) then .jump (imm % 2 ^ 14) s else .retire s
  | 0x02 => uJump owner (imm % 2 ^ 14) s
  | 0x03 => uJump owner (imm % 2 ^ 14) (modMicro k (fun m => { m with mret := (m.upc + 1) % 2 ^ 14, mretOk := true }) s)
  | 0x04 => if m.mretOk then uJump owner m.mret (modMicro k (fun m => { m with mretOk := false }) s) else .fault 0x44 s
  | 0x05 => if m.trap.isSome then .back s else .fault 0x44 s
  | 0x06 => .fault (ufaultCode (imm % 256)) s
  | 0x07 => .fault 0x0D s
  | 0x10 => uWrite k mw a keep s
  | 0x11 => uWrite k mw (sext64 32 imm) keep s
  | 0x12 => .done (modMicro k (uFlags (uAlu 1 a b)) s)
  | 0x13 => uWrite k mw (max a b) (fun m => { m with uc := decide (b > a) }) s
  | 0x14 => uWrite k mw (min a b) keep s
  | 0x15 => uWrite k mw (bits a (bits imm 0 6) (uWidth imm)) keep s
  | 0x16 => match selRead k d t s with
            | none => .fault 0x42 s
            | some old => uWrite k mw (uInsert old imm a) keep s
  | 0x17 => uWrite k mw (sext64 (bits imm 0 6 + 1) a) keep s
  | 0x18 => if imm % 16 ≤ 10 then .done (alu (imm % 16) k w s) else .fault 0x42 s
  | 0x19 => uWrite k mw (greg k (bits w (bits imm 0 6) 4) s) keep s
  | 0x1A => let n := bits w (bits imm 0 6) 4
            if n % 2 = 1 then .fault badOperand s else uWrite k mw (gpair k n s) keep s
  | 0x1B => .done (setGreg k (bits w (bits imm 0 6) 4) a s)
  | 0x1C => let v := (flagsWord (s.seq k) &&& (15 - imm % 16)) ||| (a % 16 &&& imm % 16)
            .done (s.modSeq k fun q => { q with z := v.testBit 3, n := v.testBit 2, c := v.testBit 1, v := v.testBit 0 })
  | 0x1D => if a > 8191 then .fault 0x22 s
            else .done (s.modSeq k fun q =>
              { q with stack := popLoops a q.stack, micro := { q.micro with nextPc := some a } })
  | 0x1E => if (s.seq k).stack.length ≥ 16 then .fault 0x23 s else .done (pushItem k (.call (pcOf k s + 1)) s)
  | 0x1F => let last := imm % 2 ^ 13
            let count := a % 2 ^ 24
            if last < pcOf k s + 1 then .fault badOperand s
            else if count = 0 then .done (modMicro k (fun m => { m with nextPc := some (last + 1) }) s)
            else if (s.seq k).stack.length ≥ 16 then .fault 0x23 s
            else .done (pushItem k (.loop (pcOf k s + 1) last count) s)
  | 0x20 => match popCall (s.seq k).stack with
            | none => .fault 0x24 s
            | some (ret, st) =>
              .done (s.modSeq k fun q => { q with stack := st, micro := { q.micro with nextPc := some ret } })
  | 0x21 => .done (advCursor k a s)
  | 0x22 => .done (raiseCursor k a (modMicro k (fun m => { m with uc := decide (a < cursor k s) }) s))
  | 0x23 => uWrite k mw (popcount 64 a) keep s
  | 0x24 => if windowEmpty s (bits w 0 3) then .fault 0x0C s
            else if !angleValid s then .stall (.micro 0x24 0) s
            else .done (modMicro k (fun m => { m with angt := alignTick s (bits w 0 3) (cursor k s) }) s)
  | 0x25 => uEtgt k w (imm % 16) s
  | 0x26 => let desc := operand k w 19 17 51 17 s
            .done (modMicro k (fun m =>
              { m with e1 := putBits m.e1 32 32 desc, e0 := putBits m.e0 40 5 (if imm % 2 = 1 then bits w 14 5 else 0) }) s)
  | 0x27 => if d < 0x20 ∨ d > 0x22 then .fault 0x42 s
            else uWrite k mw (uInsert ((selRead k d t s).getD 0) imm a) keep s
  | 0x28 => uTeqw k w a 0 t0 (bits mw 46 6 != 0x2D) s
  | 0x29 => uTeqw k w a b t0 (bits mw 46 6 != 0x2D) s
  | 0x2A => uWrite k mw (pulseTicks (a % 2 ^ 17) s) keep s
  | 0x2B => .done (uTau k t0 0 false (wrap 36 (sgn 18 a * sgn 18 b)) (wrap 36 (sgn 18 a * sgn 18 (b / 2 ^ 32))) s)
  | 0x2C => if selProgram d && !uCommit mw then .fault 0x46 s
            else match selWrite k d 0 s with
              | none => .fault 0x42 s
              | some _ => .done (uTau k t0 d true (scaleAmp (bits a 16 16) (bits a 48 16)) 0 s)
  | 0x2D => if brrOk w then
              .done (modMicro k (fun m => { m with resgen := brrExpected k w s, armed := t }) s)
            else .fault badOperand s
  | 0x2E => uWres k w t0 s
  | 0x2F => let x := a % 4096
            let y := (x + 1) % 4096
            uWrite k mw (Config.rvrdWord (rvBit x s + 2 * rvBit y s) (pairOf (x / 2) s).gen (pairOf (y / 2) s).gen
              (b2n (pairOf (x / 2) s).inv + 2 * b2n (pairOf (y / 2) s).inv)) keep s
  | 0x30 => let q := bits w 32 16
            match queueFault k q s with
            | some c => .fault c s
            | none => match headVisible q t0 s with
              | some it => .done (modMicro k (fun m => { m with msghd := ofBytes (it.bytes.take 4) }) s)
              | none => .stall (.micro 0x30 q) s
  | 0x31 => .done (s.popHead (bits w 32 16)).2
  | 0x32 => match signalAt k (bits w 32 16) (a % 2 ^ 32) t (flagBit w 48) s with
            | (none, s) => .done s
            | (some c, s) => .fault c s
  | 0x33 => if sourceOk (bits w 42 6) then
              .done (modMicro k (fun m => { m with armed := t, edgeSrc := some (bits w 42 6), edge := none }) s)
            else .fault badOperand s
  | 0x34 => match m.edge with
            | some stamp => .done (modMicro k (fun m => { m with tstamp := stamp, edge := none }) s)
            | none => .stall (.micro 0x34 (bits w 42 6)) s
  | 0x35 => let b := bits w 0 8
            if barPart b s ≠ seqPart k s then .fault 0x05 s
            else if !barEnabled b s then .fault 0x07 s
            else .stall (.micro 0x35 b) (arrive k b t s)
  | 0x39 => match dataWord k (a % 2 ^ 32) t s with
            | none => .fault badAddress s
            | some v => uWrite k mw v keep (latchHi k (a % 2 ^ 32) t s)
  | 0x3A => let x := a % 2 ^ 32
            if 0x40000 ≤ x ∧ x ≤ 0x7FFFF then .done (s.wr (sampleAddr k x) 4 b) else .fault badAddress s
  | 0x36 => if (s.seq k).shotOpen then .fault 0x2C s else .shot s
  | 0x37 => .done (openShot k t s)
  | 0x38 => if (s.seq k).shotOpen then .done (closeShot k s) else .fault 0x2D s
  | 0x3B => let a := bits w 45 3
            .done (s.setCal a { s.cal a with offers := (s.cal a).offers ++ [(cursor k s, cursor k s + b)] })
  | 0x3C => .done (s.modSeq k fun q => { q with calReq := q.calReq.drop 1 })
  | 0x3D => .done (modMicro k (fun m => { m with halt := true }) s)
  | 0x3E => match m.full with
            | some j => .stall (.micro 0x3E j) s
            | none => .done s
  | 0x3F => if creditHeld (seqPart k s) t0 s then .stall (.micro 0x3F 0) s else .done s
  | n => if 0x08 ≤ n ∧ n ≤ 0x0C then uWrite k mw (uAlu (n - 8) a b).res (uFlags (uAlu (n - 8) a b)) s
         else if 0x0D ≤ n ∧ n ≤ 0x0F then uShift k mw (uAlu (n - 8) a b) s else .done s

/-- Micro-ops that read source A. -/
def uReadsA (uop : Nat) : Bool :=
  (0x08 ≤ uop && uop ≤ 0x10) || (0x12 ≤ uop && uop ≤ 0x17)
    || [0x1B, 0x1C, 0x1D, 0x1F, 0x21, 0x22, 0x23, 0x27, 0x28, 0x29, 0x2A, 0x2B, 0x2C, 0x2F, 0x32, 0x39, 0x3A].contains uop

/-- Micro-ops that read source B. -/
def uReadsB (uop : Nat) : Bool :=
  (0x08 ≤ uop && uop ≤ 0x0F) || [0x12, 0x13, 0x14, 0x29, 0x2B, 0x3A, 0x3B].contains uop

/-- The sources of a microword; none when one is a reserved selector (R138). -/
def uSources (k mw t : Nat) (s : State) : Option (Nat × Nat) :=
  let uop := uopOf mw
  let a := if uReadsA uop then selRead k (bits mw 46 6) t s else some 0
  let b := if !uReadsB uop then some 0
           else if mw.testBit 33 then some (sext64 32 (bits mw 0 32)) else selRead k (bits mw 40 6) t s
  match a, b with
  | some a, some b => some (a, b)
  | _, _ => none

/-- Micro-ops that look at the machine as their cycle begins: those that may stall, and the TAU requests (R139, R144). -/
def uAtStart (uop : Nat) : Bool :=
  [0x24, 0x28, 0x29, 0x2B, 0x2C, 0x2E, 0x30, 0x34, 0x35, 0x36, 0x3E, 0x3F].contains uop

/-- A loaded routine's trap `n` is taken from a microword in the cycle that begins at tick t (R143, R148): its micro-state goes to the
shadow.  A trap raised by a trap routine itself faults (R147). -/
def uTrap (k n : Nat) (c : Stall) (full : Option Nat) (t : Nat) (s : State) : State :=
  if (s.seq k).micro.trap.isSome then microFault k 0x40 (t + 2) s
  else
    let s := s.modSeq k fun q => { q with shadow := shadowWords k n t s, micro := { q.micro with full := full } }
    if trapByRule k n s then stallSeq k c t s else trapBegin k n .word t s

/-- The return from a trap routine at tick t: the saved micro-state stands again, and what the trap interrupted goes on in the cycle
that begins at tick t (R144, R148). -/
def uReturn (k t : Nat) (s : State) : State :=
  let m := (s.seq k).micro
  let s := setSeqState k stRunning (s.set (SEQ_STATUS_STALL k) 0)
  let s := s.modSeq k fun q =>
    { q with readyAt := t, micro := { q.micro.restore q.shadow with trap := none, full := none, resume := .word } }
  let rule := s.modSeq k fun q => { q with micro := { q.micro with active := false } }
  match m.resume with
  | .word => s
  | .boundary => rule
  | .write w => writeEntry k (fetchWord k s / 2 ^ 56) (cyclesOf (fetchWord k s / 2 ^ 56)) w t rule
  | .shot => shotChecks k t rule
  | .result g => match brrCompare k (fetchWord k s) g s with
    | .behind => stallSeq k (.result g) t rule
    | o => brrFinish k (fetchWord k s) o t rule

/-- One microword of sequencer k; the Bool says that the routine goes on at once (DESIGN CHOICE, log entry 14;
DEDUCED, log entry 33; DEDUCED, log entry 34). -/
def microStep (k : Nat) (s : State) : Bool × State :=
  let t0 := (s.seq k).readyAt
  let t := t0 + 2
  let upc := (s.seq k).micro.upc
  let mw := microword k upc s
  let s := advanceTo (if uAtStart (uopOf mw) then t0 else t) s
  let m := (s.seq k).micro
  let w := fetchWord k s
  if !m.active ∨ (s.seq k).abort.any (!·.loaded) then (false, s)
  else if !uCond (s.seq k) w (bits mw 36 4) then
    if m.upc ≥ 0x3FFF then (false, microFault k 0x41 t s) else (true, microGoto k (m.upc + 1) t s)
  else if m.upc ≥ 0x3000 && uClosed (uopOf mw) then (false, microFault k 0x43 t s)
  else if uMarkedC (uopOf mw) && !uCommit mw then (false, microFault k 0x46 t s)
  else match uSources k mw t s with
    | none => (false, microFault k 0x42 t s)
    | some (a, b) =>
      match uExec k mw w t0 t a b s with
      | .done s =>
        let s := microAfter k mw ((s.seq k).readyAt + 2) s
        ((s.seq k).micro.active, s)
      | .jump x s =>
        let s := if uCommit mw then modMicro k (fun m => { m with commits := m.commits + 1 }) s else s
        if uLast mw then (false, microRetire k t s) else (true, microGoto k x t s)
      | .retire s => (false, microRetire k t (if uCommit mw then modMicro k (fun m => { m with commits := m.commits + 1 }) s else s))
      | .stall c s =>
        let s := stallSeq k c t0 s
        (false, if uopOf mw = 0x34 then s.modSeq k (fun q => { q with since := q.micro.armed }) else s)
      | .fault code s => (false, microFault k code t s)
      | .shot s => (false, shotChecks k t0 s)
      | .back s => let s := uReturn k t s; ((s.seq k).micro.active, s)
      | .teqFull hw j s =>
        let s := s.incSat (SEQ_TEQ_STATUS_FULL_STALLS k j)
        (false, uTrap k 4 (.teqFull { hw with queue := j }) (some j) t0 s)

/-- Microwords of sequencer k until the instruction retires, stalls or faults; at most `fuel` of them (DEDUCED, log entry 33). -/
def microRun : Nat → Nat → State → State
  | 0, _, s => s
  | fuel + 1, k, s =>
    let r := microStep k s
    if r.1 then microRun fuel k r.2 else r.2

/-- Microwords that one command runs at most: a longer routine goes on with the next one (open corners: DEDUCED, log entry 33). -/
def microFuel : Nat := 1024

/-- A routine of sequencer k goes on; its micro-faults run their abort routine to its end (R149) (DEDUCED, log entry 33). -/
def microGo (k : Nat) (s : State) : State :=
  let s := microRun microFuel k s
  match (s.seq k).abort with
  | some a => advanceTo a.ends s
  | none => s

/-- The microword at micro-address a of sequencer k is a UTRET whose condition holds. -/
def uTretAt (k a : Nat) (s : State) : Bool :=
  let mw := microword k a s
  uopOf mw == 0x05 && uCond (s.seq k) (fetchWord k s) (bits mw 36 4)

/-- The cause of a wait micro-op of sequencer k clears at tick t: a UTRET that directly follows completes with it (R144). -/
def waitCleared (k t : Nat) (s : State) : State :=
  let m := (s.seq k).micro
  if m.trap.isSome ∧ uTretAt k (m.upc + 1) s then microGo k (uReturn k t (unstall k t s))
  else microGo k (microDone k t (fun m => m) s)

end Sys2Proof.Machine
end

