-- ==== Sys2Proof/Machine/Instr.lean ====
section
/-! DEFINITION. What every row of a pulse instruction shares: when it applies, its condition, and which routine runs it (R63, R99,
R104,
R131, R135). -/

namespace Sys2Proof.Machine

/-- Sequencer k stands before an instruction: it runs, no routine of microwords is under way, and no abort routine. -/
def atBoundary (k : Nat) (s : State) : Bool :=
  seqState k s == stRunning && !(s.seq k).micro.active && (s.seq k).abort.isNone

/-- A fetch from beyond address 8,191 faults in the cycle from tick t in which its entry vector would execute (R104, R500). -/
def pcRange (k t : Nat) (s : State) : State := faultAt k 0x22 (Config.bodyUpc 256 1 % 2 ^ 14) 0 (t + 2) s

/-- The machine as image 2.4's routine of opcode op begins on sequencer k: a routine of more than one cycle that the spec does not list
leaves u0..u7, E0..E2, MRET, the micro-flags and TAUR open (R130, R138) (DESIGN CHOICE, log entry 98). -/
def opens (op k : Nat) (s : State) : State :=
  if op = 0x10 ∨ cyclesOf op = 1 then s else modMicro k (fun m => { m with stale := true }) s

/-- The instruction of opcode op at sequencer k's program counter, from its first cycle on: `body` gets the instruction word, the
tick at which it begins and the state at that tick, and gives the state at the instruction's end.  Without effect when the
sequencer is not about to execute that opcode.  An opcode whose routine is not image 2.4's own runs as the Recipe Store has it
(R63, R99, R104, R131, R135; open corners: DEDUCED, log entry 16) (DEDUCED, log entry 28). -/
def instr (op k : Nat) (s : State) (body : Nat → Nat → State → State) : State :=
  let t := (s.seq k).readyAt
  let s1 := advanceTo t s
  let w := fetchWord k s1
  if !atBoundary k s1 then s
  else if (s1.seq k).pcOver then pcRange k t s1
  else if w / 2 ^ 56 ≠ op then s
  else if !byRule k op s1 then microGo k (microBegin k op t s1)
  else if condHolds (s1.seq k) (bits w 52 4) then
    body w t (opens op k s1)
  else retire k (t + 2) (advanceTo (t + 2) s1)

end Sys2Proof.Machine
end

