-- ==== Sys2Proof/Machine/DataInstrs.lean ====
section
/-! DEFINITION. Data instructions: ALU, LD and ST (R123, R124). -/

namespace Sys2Proof.Machine

/-- A one-cycle ALU operation (R123). -/
def aluBody (op k w t : Nat) (s : State) : State := retire k (t + 2) (alu op k w (advanceTo (t + 2) s))

/-- A one-cycle ALU instruction of opcode 0x38 + op (R123). -/
def aluInstr (op k : Nat) (s : State) : State := instr (0x38 + op) k s (aluBody op k)

/-- ADD (R123). -/
def execAdd (k : Fin 512) (s : State) : Ans := .next (aluInstr 0 k.val s)
/-- SUB (R123). -/
def execSub (k : Fin 512) (s : State) : Ans := .next (aluInstr 1 k.val s)
/-- AND (R123). -/
def execAnd (k : Fin 512) (s : State) : Ans := .next (aluInstr 2 k.val s)
/-- OR (R123). -/
def execOr (k : Fin 512) (s : State) : Ans := .next (aluInstr 3 k.val s)
/-- XOR (R123). -/
def execXor (k : Fin 512) (s : State) : Ans := .next (aluInstr 4 k.val s)
/-- SHL (R123). -/
def execShl (k : Fin 512) (s : State) : Ans := .next (aluInstr 5 k.val s)
/-- SHR (R123). -/
def execShr (k : Fin 512) (s : State) : Ans := .next (aluInstr 6 k.val s)
/-- ASR (R123). -/
def execAsr (k : Fin 512) (s : State) : Ans := .next (aluInstr 7 k.val s)
/-- MOV (R123). -/
def execMov (k : Fin 512) (s : State) : Ans := .next (aluInstr 8 k.val s)
/-- CMP (R123). -/
def execCmp (k : Fin 512) (s : State) : Ans := .next (aluInstr 9 k.val s)

/-- MUL (R123): 5 cycles, with a TAU request in cycle 2 (R59). -/
def mul (k w t : Nat) (s : State) : State :=
  let r := tauRequest k (t + 2) (advanceTo (t + 2) s)
  let te := t + 10 + 2 * r.1
  retire k te (alu 10 k w (advanceTo te r.2))

/-- MUL (R123). -/
def execMul (k : Fin 512) (s : State) : Ans := .next (instr 0x42 k.val s (mul k.val))

/-- LD (R124): 3 cycles, 4 from the sample memory (open corners: DEDUCED, log entry 31). -/
def load (k w t : Nat) (s : State) : State :=
  let a := dataAddr k w s
  let te := t + 2 * (if 0x40000 ≤ a ∧ a ≤ 0x7FFFF then 4 else 3)
  let s := advanceTo te s
  match dataWord k a te s with
  | none => seqFault k badAddress 0x30 3 te s
  | some v => retire k te (setGreg k (bits w 44 4) v (latchHi k a te s))

/-- LD (R124) (DEDUCED, log entry 31). -/
def execLd (k : Fin 512) (s : State) : Ans := .next (instr 0x30 k.val s (load k.val))

/-- ST (R124): only the sample memory can be written. -/
def store (k w t : Nat) (s : State) : State :=
  let a := dataAddr k w s
  let s := advanceTo (t + 4) s
  if 0x40000 ≤ a ∧ a ≤ 0x7FFFF then
    retire k (t + 4) (s.wr (sampleAddr k a) 4 (greg k (bits w 44 4) s))
  else seqFault k badAddress 0x31 2 (t + 4) s

/-- ST (R124). -/
def execSt (k : Fin 512) (s : State) : Ans := .next (instr 0x31 k.val s (store k.val))

end Sys2Proof.Machine
end

