-- ==== Sys2Proof/Machine/EntryInstrs.lean ====
section
/-! DEFINITION. The instructions that write timed event entries (R108 to R112). -/

namespace Sys2Proof.Machine

/-- The advance of PLAY and PLAYZ: the length of their descriptor as it stands at the write, when ADV = 1 (R108, R109). -/
def advDescOf (w desc : Nat) : Option Nat := if flagBit w 48 then some desc else none

/-- What PLAY leaves in the micro-state by its listed routine: the pair in u0, and the staging words (R142)
(DESIGN CHOICE, log entry 98). -/
def playStaged (k : Nat) (w : HeldWrite) (s : State) : State :=
  let e := stagedWords k w s
  modMicro k (fun m =>
    { m with u := m.u.set 0 w.b, e0 := (e.getD 1 (0, 0)).2, e1 := (e.getD 2 (0, 0)).2, e2 := w.b &&& kindMaskB 0 w.a }) s

/-- PLAY (R108, R500): the odd pair in cycle 2, the TAU request in cycle 3, the lane in cycle 4, the frame in cycle 6. -/
def play (k w t : Nat) (s : State) : State :=
  let gp := bits w 10 4
  let lane := operand k w 36 12 50 12 s
  let desc := operand k w 19 17 51 17 s
  if gp % 2 = 1 then seqFault k badOperand 0x10 2 (t + 4) s
  else
    let r := if flagBit w 49 then tauRequest k (t + 4) (advanceTo (t + 4) s) else (0, s)
    let t := t + 2 * r.1
    let s := r.2
    if lane > 2303 then seqFault k badOperand 0x10 4 (t + 8) s
    else
      let p := gpair k gp s
      let p := if flagBit w 49 then putBits p 16 16 (scaleAmp (bits p 16 16) (bits p 48 16)) else p
      let hw : HeldWrite :=
        { queue := 0, kind := 0, target := lane, fine := bits w 14 5, a := desc, b := p,
          adv := 0, advDesc := advDescOf w desc, genReg := none }
      let s := playStaged k hw s
      if bits p 0 16 > 40959 then seqFault k badOperand 0x10 6 (t + 12) s else writeEntry k 0x10 6 hw (t + 10) s

/-- PLAY (R108). -/
def execPlay (k : Fin 512) (s : State) : Ans := .next (instr 0x10 k.val s (play k.val))

/-- PLAYZ (R109). -/
def playz (k w t : Nat) (s : State) : State :=
  let lane := operand k w 36 12 50 12 s
  let desc := operand k w 19 17 51 17 s
  let amp := if flagBit w 49 then bits (greg k (bits w 0 4) s) 16 16 else bits w 0 16
  entryInstr 0x11 k t (targetOk .zlane lane)
    { queue := 0, kind := 1, target := lane, fine := 0, a := desc, b := amp * 2 ^ 16,
      adv := 0, advDesc := advDescOf w desc, genReg := none } s

/-- PLAYZ (R109). -/
def execPlayz (k : Fin 512) (s : State) : Ans := .next (instr 0x11 k.val s (playz k.val))

/-- SETBIAS (R109). -/
def setbias (k w t : Nat) (s : State) : State :=
  let lane := operand k w 36 12 50 12 s
  entryInstr 0x12 k t (targetOk .zb lane)
    { queue := 0, kind := 2, target := lane, fine := 0,
      a := operand k w 0 24 49 24 s + bits w 34 2 * 2 ^ 24, b := 0, adv := 0, genReg := none } s

/-- SETBIAS (R109). -/
def execSetbias (k : Fin 512) (s : State) : Ans := .next (instr 0x12 k.val s (setbias k.val))

/-- RAMPBIAS (R109). -/
def rampbias (k w t : Nat) (s : State) : State :=
  let lane := operand k w 36 12 50 12 s
  let d := greg k (bits w 32 4) s
  entryInstr 0x13 k t (targetOk .zb lane && d != 0)
    { queue := 0, kind := 3, target := lane, fine := 0, a := operand k w 0 24 49 24 s, b := d,
      adv := if flagBit w 48 then d else 0, genReg := none } s

/-- RAMPBIAS (R109). -/
def execRampbias (k : Fin 512) (s : State) : Ans := .next (instr 0x13 k.val s (rampbias k.val))

/-- A FRAME entry with parameters a and b, from instruction op (R110). -/
def frameInstr (op k w t : Nat) (ok : Bool) (a b : Nat) (s : State) : State :=
  let f := operand k w 32 16 50 16 s
  entryInstr op k t (ok && targetOk .frame f)
    { queue := 0, kind := 6, target := f, fine := 0, a := a, b := b, adv := 0, genReg := none } s

/-- FSET (R110). -/
def fset (k w t : Nat) (s : State) : State :=
  let gf := bits w 28 4
  frameInstr 0x18 k w t (gf % 2 == 0) 0 (gpair k gf s % 2 ^ 48) s

/-- FSET (R110). -/
def execFset (k : Fin 512) (s : State) : Ans := .next (instr 0x18 k.val s (fset k.val))

/-- FSHIFT (R110). -/
def fshift (k w t : Nat) (s : State) : State := frameInstr 0x19 k w t true 1 (operand k w 0 32 49 32 s) s

/-- FSHIFT (R110). -/
def execFshift (k : Fin 512) (s : State) : Ans := .next (instr 0x19 k.val s (fshift k.val))

/-- FRESET (R110). -/
def freset (k w t : Nat) (s : State) : State := frameInstr 0x1A k w t true 2 0 s

/-- FRESET (R110). -/
def execFreset (k : Fin 512) (s : State) : Ans := .next (instr 0x1A k.val s (freset k.val))

/-- PFRAME (R110). -/
def pframe (k w t : Nat) (s : State) : State := frameInstr 0x1B k w t true (3 + 4 * bits w 1 1 + 8 * bits w 0 1) 0 s

/-- PFRAME (R110). -/
def execPframe (k : Fin 512) (s : State) : Ans := .next (instr 0x1B k.val s (pframe k.val))

/-- MEASURE (R110, R112). -/
def measure (k w t : Nat) (s : State) : State :=
  let c := operand k w 38 10 50 10 s
  entryInstr 0x20 k t (targetOk .lauter c)
    { queue := 0, kind := 4, target := c, fine := 0, a := bits w 34 4 + bits w 18 16 * 2 ^ 16, b := 0, adv := 0,
      genReg := if flagBit w 49 then some (bits w 14 4) else none } s

/-- MEASURE (R110, R112). -/
def execMeasure (k : Fin 512) (s : State) : Ans := .next (instr 0x20 k.val s (measure k.val))

/-- ACQ (R110). -/
def acq (k w t : Nat) (s : State) : State :=
  entryInstr 0x21 k t (targetOk .tap (bits w 43 5))
    { queue := 0, kind := 5, target := bits w 43 5, fine := bits w 38 5, a := bits w 30 8, b := 0, adv := 0, genReg := none } s

/-- ACQ (R110). -/
def execAcq (k : Fin 512) (s : State) : Ans := .next (instr 0x21 k.val s (acq k.val))

end Sys2Proof.Machine
end

