-- ==== Sys2Proof/Machine/FlowInstrs.lean ====
section
/-! DEFINITION. Timing and control-flow instructions, and the timeouts of their stalls (R113 to R122, R52, R53, R82). -/

namespace Sys2Proof.Machine

/-- NOP (R105). -/
def nopInstr (k t : Nat) (s : State) : State := retire k (t + 2) (advanceTo (t + 2) s)

/-- NOP (R105). -/
def execNop (k : Fin 512) (s : State) : Ans := .next (instr 0x00 k.val s fun _ => nopInstr k.val)

/-- HALT (R118). -/
def haltInstr (k t : Nat) (s : State) : State :=
  let s := advanceTo (t + 4) s
  if (s.seq k).shotOpen then seqFault k 0x2E 0x01 2 (t + 4) s
  else setSeqState k stHalted (retire k (t + 4) s)

/-- HALT (R118). -/
def execHalt (k : Fin 512) (s : State) : Ans := .next (instr 0x01 k.val s fun _ => haltInstr k.val)

/-- YIELD_CAL offers its tile from the cursor on, for LEN ticks (R115, R425). -/
def yieldCal (k w t : Nat) (s : State) : State :=
  let s := advanceTo (t + 6) s
  if (s.seq k).shotOpen then seqFault k 0x2E 0x02 3 (t + 6) s
  else
    let a := bits w 45 3
    let c := cursor k s
    let s := s.setCal a { s.cal a with offers := (s.cal a).offers ++ [(c, c + bits w 0 32)] }
    retire k (t + 6) (advCursor k (bits w 0 32) s)

/-- YIELD_CAL (R115). -/
def execYieldCal (k : Fin 512) (s : State) : Ans := .next (instr 0x02 k.val s (yieldCal k.val))

/-- WAIT (R113). -/
def wait (k w t : Nat) (s : State) : State :=
  let s := advanceTo (t + 2) s
  retire k (t + 2) (advCursor k (if flagBit w 49 then greg k (bits w 32 4) s else bits w 0 32) s)

/-- WAIT (R113). -/
def execWait (k : Fin 512) (s : State) : Ans := .next (instr 0x08 k.val s (wait k.val))

/-- WAITUNTIL (R113). -/
def waituntil (k w t : Nat) (s : State) : State :=
  let s := advanceTo (t + 4) s
  match waitTarget k w s with
  | none => seqFault k badOperand 0x09 2 (t + 4) s
  | some x =>
    let below := decide (x < cursor k s)
    retire k (t + 4) (raiseCursor k x (s.modSeq k fun q => { q with c := below }))

/-- WAITUNTIL (R113). -/
def execWaituntil (k : Fin 512) (s : State) : Ans := .next (instr 0x09 k.val s (waituntil k.val))

/-- ALIGN_ANGLE: a window's fault and the test of VALID in cycle 2, the cursor in cycle 4 (R52, R53) (open corners:
DEDUCED, log entry 75) (DESIGN CHOICE, log entry 98). -/
def alignAngle (k w t : Nat) (s : State) : State :=
  let s := advanceTo (t + 4) s
  if windowEmpty s (bits w 0 3) then seqFault k 0x0C 0x0A 2 (t + 4) s
  else if !angleValid s then stallSeq k .angle (t + 4) s
  else
    let s := advanceTo (t + 8) s
    let at_ := alignTick s (bits w 0 3) (cursor k s)
    retire k (t + 8) (modMicro k (fun m => { m with angt := at_ }) (s.set (SEQ_CURSOR k) at_))

/-- ALIGN_ANGLE (R52, R53) (DEDUCED, log entry 75). -/
def execAlignAngle (k : Fin 512) (s : State) : Ans := .next (instr 0x0A k.val s (alignAngle k.val))

/-- An ALIGN_ANGLE stall of sequencer k lasts longer than TL_CA_ALIGN_TIMEOUT (R53) (open corners: DEDUCED, log entry 75). -/
def execAngleUnlocked (k : Fin 512) (s : State) : Ans :=
  .next (match (s.seq k.val).stall with
    | some .angle => timeoutFault k.val 0x0B (2000 * s.get TL_CA_ALIGN_TIMEOUT) s
    | some (.micro 0x24 _) => timeoutFault k.val 0x0B (2000 * s.get TL_CA_ALIGN_TIMEOUT) s
    | _ => s)

/-- WAITTRIG arms at the end of its second cycle (R114). -/
def waittrig (k w t : Nat) (s : State) : State :=
  let src := bits w 42 6
  if sourceOk src then stallSeq k (.trig src (bits w 30 12)) (t + 4) (advanceTo (t + 4) s)
  else seqFault k badOperand 0x0B 2 (t + 4) s

/-- WAITTRIG (R114). -/
def execWaittrig (k : Fin 512) (s : State) : Ans := .next (instr 0x0B k.val s (waittrig k.val))

/-- A trigger stall of sequencer k outlasts its TIMEOUT (R114). -/
def execTrigTimeout (k : Fin 512) (s : State) : Ans :=
  .next (match (s.seq k.val).stall with
    | some (.trig _ _) => usTimeout k.val 0x28 (bits (fetchWord k.val s) 0 16) s
    | some (.micro 0x34 _) => usTimeout k.val 0x28 (bits (fetchWord k.val s) 0 16) s
    | _ => s)

/-- SYNC arrives at its barrier at the end of its second cycle (R82, R83, R88) (open corners: DEDUCED, log entry 25). -/
def syncInstr (k w t : Nat) (s : State) : State :=
  let b := bits w 0 8
  let s := advanceTo (t + 4) s
  if barPart b s ≠ seqPart k s then seqFault k 0x05 0x0C 2 (t + 4) s
  else if !barEnabled b s then seqFault k 0x07 0x0C 2 (t + 4) s
  else stallSeq k (.barrier b) (t + 4) (arrive k b (t + 4) s)

/-- SYNC (R82) (DEDUCED, log entry 25). -/
def execSync (k : Fin 512) (s : State) : Ans := .next (instr 0x0C k.val s (syncInstr k.val))

/-! ### Branches, calls and loops (R116, R117) -/

/-- BR (R117). -/
def brInstr (k w t : Nat) (s : State) : State :=
  let s := advanceTo (t + 4) s
  branchTo k (branchTarget k w s) (t + 4) s

/-- BR (R117). -/
def execBr (k : Fin 512) (s : State) : Ans := .next (instr 0x28 k.val s (brInstr k.val))

/-- LOOP (R116). -/
def loopInstr (k w t : Nat) (s : State) : State :=
  let s := advanceTo (t + 4) s
  let pc := pcOf k s
  let last := bits w 0 13
  let count := if flagBit w 49 then greg k (bits w 24 4) s % 2 ^ 24 else bits w 24 24
  if last < pc + 1 then seqFault k badOperand 0x2A 2 (t + 4) s
  else if count = 0 then retireTo k (last + 1) (t + 4) s
  else if (s.seq k).stack.length ≥ 16 then seqFault k 0x23 0x2A 2 (t + 4) s
  else retire k (t + 4) (pushItem k (.loop (pc + 1) last count) s)

/-- LOOP (R116). -/
def execLoop (k : Fin 512) (s : State) : Ans := .next (instr 0x2A k.val s (loopInstr k.val))

/-- CALL (R116). -/
def callInstr (k w t : Nat) (s : State) : State :=
  let s := advanceTo (t + 4) s
  if (s.seq k).stack.length ≥ 16 then seqFault k 0x23 0x2B 2 (t + 4) s
  else retireTo k (branchTarget k w s) (t + 4) (pushItem k (.call (pcOf k s + 1)) s)

/-- CALL (R116). -/
def execCall (k : Fin 512) (s : State) : Ans := .next (instr 0x2B k.val s (callInstr k.val))

/-- RET (R117). -/
def retInstr (k t : Nat) (s : State) : State :=
  let s := advanceTo (t + 4) s
  match popCall (s.seq k).stack with
  | none => seqFault k 0x24 0x2C 2 (t + 4) s
  | some (ret, st) => retireTo k ret (t + 4) (s.modSeq k fun q => { q with stack := st })

/-- RET (R117). -/
def execRet (k : Fin 512) (s : State) : Ans := .next (instr 0x2C k.val s fun _ => retInstr k.val)

/-! ### BRR (R119 to R122) -/

/-- BRR arms at the end of its second cycle and compares (R120, R121). -/
def brr (k w t : Nat) (s : State) : State :=
  if !brrOk w then seqFault k badOperand 0x29 2 (t + 4) s
  else
    let s := advanceTo (t + 4) s
    let g := brrExpected k w s
    let s := modMicro k (fun m => { m with resgen := g }) s
    match brrCompare k w g s with
    | .behind => stallSeq k (.result g) (t + 4) s
    | o => brrFinish k w o (t + 4) s

/-- BRR (R120, R121). -/
def execBrr (k : Fin 512) (s : State) : Ans := .next (instr 0x29 k.val s (brr k.val))

end Sys2Proof.Machine
end

