-- ==== Sys2Proof/Machine/ShotInstrs.lean ====
section
/-! DEFINITION. Shots and messages: SHOT_BEGIN, SHOT_END, SIGNAL, WAITMSG, and the ends of their stalls (R93, R94, R125 to
R128, R397, R439). -/

namespace Sys2Proof.Machine

/-! ### SHOT_BEGIN (R126) -/

/-- SHOT_BEGIN (R126): nesting in cycle 2, the other checks in cycle 3 (R500; open corners: DEDUCED, log entry 103). -/
def shotBegin (k t : Nat) (s : State) : State :=
  let s := advanceTo (t + 4) s
  if (s.seq k).shotOpen then seqFault k 0x2C 0x48 2 (t + 4) s else shotChecks k (t + 4) s

/-- SHOT_BEGIN (R126). -/
def execShotBegin (k : Fin 512) (s : State) : Ans := .next (instr 0x48 k.val s fun _ => shotBegin k.val)

/-- The Kiln's skip or pause of sequencer k expires (R439) (open corners: DEDUCED, log entry 30). -/
def execKilnSkipEnd (k : Fin 512) (s : State) : Ans :=
  .next (match (s.seq k.val).stall with
    | some (.kiln until_ pause) =>
      let s := advanceTo until_ s
      match (s.seq k.val).stall with
      | some (.kiln _ _) =>
        let s := s.inc KILN_SKIPPED (kilnSoFar (s.seq k.val) until_)
        ringCheck k.val until_ (unstall k.val until_ (s.modSeq k.val fun q => { q with pause := pause }))
      | _ => s
    | _ => s)

/-- A result ring that held sequencer k is no longer full (R93) (open corners: DEDUCED, log entry 30). -/
def execRingStallEnd (k : Fin 512) (s : State) : Ans :=
  .next (match (s.seq k.val).stall with
    | some .ring =>
      let t := max s.now (s.seq k.val).since
      let s := advanceTo t s
      if ringHeld k.val s ∨ (s.seq k.val).stall ≠ some .ring then s else creditCheck k.val t (unstall k.val t s)
    | _ => s)

/-- A raised LIMIT lets sequencer k pass check 5 (R397): the shots go to the lowest-numbered sequencers, and the check that
stalled is made again whole (R144) (open corners: DEDUCED, log entry 30). -/
def execCreditStallEnd (k : Fin 512) (s : State) : Ans :=
  .next (match (s.seq k.val).stall with
    | some .credit =>
      let t := max s.now (s.seq k.val).since
      let p := seqPart k.val s
      if creditHolds k.val p t s then s
      else shotChecks k.val t (unstall k.val t s)
    | some (.micro 0x3F _) =>
      let t := max s.now (s.seq k.val).since
      if creditHolds k.val (seqPart k.val s) t s then s else waitCleared k.val t s
    | _ => s)

/-! ### SHOT_END (R127) -/

/-- SHOT_END (R127). -/
def shotEnd (k t : Nat) (s : State) : State :=
  let s := advanceTo (t + 6) s
  if (s.seq k).shotOpen then retire k (t + 6) (closeShot k s) else seqFault k 0x2D 0x49 3 (t + 6) s

/-- SHOT_END (R127): the shot stays in flight, closing. -/
def execShotEnd (k : Fin 512) (s : State) : Ans := .next (instr 0x49 k.val s fun _ => shotEnd k.val)

/-- The oldest closing shot of sequencer k that is done completes (R127); its SHOT_END retires (R414). -/
def execShotClosed (k : Fin 512) (s : State) : Ans :=
  .next (match (s.seq k.val).closing.find? fun n => shotDone k.val n s with
    | none => s
    | some n =>
      let s := s.modSeq k.val fun q => { q with closing := q.closing.filter (· != n) }
      monTrigger 3 k.val s.now (meterComplete (seqPart k.val s) s.now s))

/-! ### Messages (R94, R125, R327) -/

/-- SIGNAL (R125). -/
def signalInstr (k w t : Nat) (s : State) : State :=
  let v := if flagBit w 49 then greg k (bits w 0 4) s else bits w 0 32
  match signalAt k (bits w 32 16) v (t + 6) (flagBit w 48) (advanceTo (t + 6) s) with
  | (none, s) => retire k (t + 6) s
  | (some c, s) => seqFault k c 0x50 3 (t + 6) s

/-- SIGNAL (R125). -/
def execSignal (k : Fin 512) (s : State) : Ans := .next (instr 0x50 k.val s (signalInstr k.val))

/-- WAITMSG arms at the end of its second cycle (R125). -/
def waitmsg (k w t : Nat) (s : State) : State :=
  let s := advanceTo (t + 4) s
  match queueFault k (bits w 32 16) s with
  | some c => seqFault k c 0x51 2 (t + 4) s
  | none =>
    match headVisible (bits w 32 16) (t + 4) s with
    | some it => takeMsg k w (t + 4) it s
    | none => stallSeq k .msg (t + 4) s

/-- WAITMSG (R125). -/
def execWaitmsg (k : Fin 512) (s : State) : Ans := .next (instr 0x51 k.val s (waitmsg k.val))

/-- Sequencer k, stalled for a message of queue q, finds its head visible at tick t (R125). -/
def msgArrived (k q t : Nat) (s : State) : State :=
  match (s.seq k).stall, headVisible q t s with
  | some .msg, some it => takeMsg k (fetchWord k s) t it (unstall k t s)
  | some (.micro 0x30 _), some it =>
    microGo k (microDone k t (fun m => { m with msghd := ofBytes (it.bytes.take 4) }) s)
  | _, _ => s

/-- The head message of queue q becomes visible, and a sequencer that waits for it takes it (R94, R125) (open corners:
DEDUCED, log entry 27). -/
def execMsgVisible (q : BitVec 16) (s : State) : Ans :=
  .next (match (s.queue q.toNat).items with
    | [] => s
    | it :: _ =>
      let s := advanceTo it.visible s
      match msgTaker q.toNat s with
      | none => s
      | some k => msgArrived k q.toNat (max it.visible (s.seq k).since) s)

/-- A message stall of sequencer k outlasts its TIMEOUT; a message that has become visible by then ends the instruction instead, and
a TIMEOUT of 0 never runs out (R125). -/
def msgTimeout (k : Nat) (s : State) : State :=
  let w := fetchWord k s
  let limit := 2000 * bits w 12 16
  let q := bits w 32 16
  if limit = 0 then s
  else match headVisible q ((s.seq k).since + limit) s with
    | some it => if msgTaker q s = some k then msgArrived k q (max it.visible (s.seq k).since) (advanceTo it.visible s)
                 else timeoutFault k 0x29 limit s
    | none => timeoutFault k 0x29 limit s

/-- A message stall of sequencer k outlasts its TIMEOUT (R125). -/
def execMsgTimeout (k : Fin 512) (s : State) : Ans :=
  .next (match (s.seq k.val).stall with
    | some .msg => msgTimeout k.val s
    | some (.micro 0x30 _) => msgTimeout k.val s
    | _ => s)

end Sys2Proof.Machine
end

