-- ==== Sys2Proof/Machine/MicroInstrs.lean ====
section
/-! DEFINITION. Instructions that run from the Recipe Store, and the rows that end a stall by its trap (R103, R121, R131, R143 to R149,
R158). -/

namespace Sys2Proof.Machine

/-- The entry vector of opcode op holds ILL for every condition: the opcode is undefined or unloaded (R105, R131). -/
def opIll (k op : Nat) (s : State) : Bool :=
  !byRule k op s && uopOf (microword k op s) == 0x07 && bits (microword k op s) 36 4 == 0

/-- An instruction whose entry vector was loaded from a recipe record runs its routine, or goes on with it: an owner extension (R158),
or an opcode that a patch has defined (R155); a trap or abort routine that a patch has written goes on so too (R143, R157) (open
corners: DEDUCED, log entry 33). -/
def execOwnerExtension (k : Fin 512) (s : State) : Ans :=
  let t := (s.seq k.val).readyAt
  let s1 := advanceTo t s
  let op := fetchWord k.val s1 / 2 ^ 56
  .next (if (s1.seq k.val).abort.any (!·.loaded) ∨ (s1.seq k.val).stall.isSome then s
    else if (s1.seq k.val).micro.active then microGo k.val s1
    else if seqState k.val s1 ≠ stRunning then s
    else if (s1.seq k.val).pcOver then pcRange k.val t s1
    else if byRule k.val op s1 || opIll k.val op s1 then s
    else microGo k.val (microBegin k.val op t s1))

/-- An undefined or unloaded opcode takes the ILLEGAL abort trap whatever its COND (R105, R131); a fetch from beyond address
8,191 faults with PC_RANGE (R104). -/
def execIllegal (k : Fin 512) (s : State) : Ans :=
  let t := (s.seq k.val).readyAt
  let s1 := advanceTo t s
  let op := fetchWord k.val s1 / 2 ^ 56
  .next (if !atBoundary k.val s1 then s
    else if (s1.seq k.val).pcOver then pcRange k.val t s1
    else if opIll k.val op s1 then seqFault k.val 0x0D op 1 (t + 2) s1
    else s)

/-! ### Stalls that end by a trap (R103, R121, R143) -/

/-- A loaded routine of RESULT_READY goes on at tick t: a UTRET that stands first takes no cycle of its own (R143, R144). -/
def resultGo (k t : Nat) (s : State) : State := microGo k (if uTretAt k 0x106 s then uReturn k t s else s)

/-- The trap RESULT_READY of sequencer k at tick t: its shadow is taken (R143, R148), and the comparison is made again (R144). -/
def resultTrap (k t : Nat) (s : State) : State :=
  let w := fetchWord k s
  match (s.seq k).stall with
  | some (.result g) =>
    let s := unstall k t (ruleShadow k 6 (upcOf 0x29 3) t true [] s)
    if trapByRule k 6 s then brrFinish k w (brrCompare k w g s) t s
    else resultGo k t (trapBegin k 6 (.result g) t s)
  | some (.micro 0x2E g) =>
    if (s.seq k).micro.trap.isSome then microFault k 0x40 (t + 2) s
    else
      let s := s.modSeq k fun q => { q with shadow := shadowWords k 6 t s }
      if trapByRule k 6 s then
        microGo k (microDone k t (fun m => { m with resval := resvalOf k w (brrCompare k w g s) s }) s)
      else resultGo k t (trapBegin k 6 .word t s)
  | _ => s

/-- A new generation at the source of a stalled BRR (R120, R121, R143); one still behind the expected keeps it stalled (open
corners: DEDUCED, log entry 33). -/
def resultReady (k t : Nat) (s : State) : State :=
  let w := fetchWord k s
  match (s.seq k).stall with
  | some (.result g) => if brrCompare k w g s = .behind then s else resultTrap k t s
  | some (.micro 0x2E g) => if brrCompare k w g s = .behind then s else resultTrap k t s
  | _ => s

/-- A stalled BRR sees a new generation at its source (R143). -/
def execResultReady (k : Fin 512) (s : State) : Ans :=
  .next (let t := max s.now (s.seq k.val).since
    resultReady k.val t (advanceTo t s))

/-- A BRR or WRES of sequencer k fails at tick t for want of a result (R120, R121). -/
def resultLate (k t : Nat) (s : State) : State :=
  let w := fetchWord k s
  match (s.seq k).stall with
  | some (.result _) => brrFinish k w .timeout t (unstall k t s)
  | some (.micro 0x2E _) => microGo k (microDone k t (fun m => { m with resval := resvalOf k w .timeout s }) s)
  | _ => s

/-- No resolution within TMO x 256 ticks of arming (R120, R121); a result that arrives at the very tick resolves it (R146). -/
def execResultTimeout (k : Fin 512) (s : State) : Ans :=
  let w := fetchWord k.val s
  let q := s.seq k.val
  let t := (if q.micro.active then q.micro.armed else q.since) + brrTimeout w
  .next (if brrTimeout w = 0 then s
    else match q.stall with
      | some (.result _) => resultLate k.val t (resultReady k.val t (advanceTo t s))
      | some (.micro 0x2E _) => resultLate k.val t (resultReady k.val t (advanceTo t s))
      | _ => s)

/-- The head of the queue found full has fired: the writing microword executes again (R103) (open corners: DEDUCED, log entry 29). -/
def execTeqFullStallEnd (k : Fin 512) (s : State) : Ans :=
  .next (match (s.seq k.val).stall, (s.seq k.val).freedAt with
    | some (.teqFull w), some t =>
      let t := max t (s.seq k.val).since
      let s := unstall k.val t s
      if (s.seq k.val).micro.active then microGo k.val s
      else
        let op := fetchWord k.val s / 2 ^ 56
        writeEntry k.val op (cyclesOf op) w t s
    | some (.micro 0x3E _), some t => waitCleared k.val (max t (s.seq k.val).since) s
    | _, _ => s)

/-- The call trap CAL_REQUEST of sequencer k at tick t (R143, R145, R148): image 2.4's routine acknowledges in its first cycle and
returns after its second. -/
def calTrap (k t : Nat) (s : State) : State :=
  let op := fetchWord k s / 2 ^ 56
  let s := ruleShadow k 7 op t (s.seq k).micro.stale [] (setSeqState k stTrapped s)
  if trapByRule k 7 s then
    let s := (s.modSeq k fun q => { q with readyAt := t + 4 }).later (t + 4) (.trapReturn k (t + 4))
    let s := advanceTo (t + 2) s
    if seqState k s = stTrapped then s.modSeq k fun q => { q with calReq := q.calReq.drop 1 } else s
  else microGo k (trapBegin k 7 .boundary t s)

/-- A pending calibration request is taken at an instruction boundary outside a shot and acknowledged: 2 cycles in TRAPPED
(R143, R145, R148). -/
def execCalRequest (k : Fin 512) (s : State) : Ans :=
  let t := (s.seq k.val).readyAt
  let s1 := advanceTo t s
  let q := s1.seq k.val
  .next (if q.calReq.isEmpty || q.shotOpen || !atBoundary k.val s1 then s else calTrap k.val t s1)

end Sys2Proof.Machine
end

