-- ==== Sys2Proof/Machine/StopCmds.lean ====
section
/-! DEFINITION. HOST_STOP (SEQ_CTRL.STOP) and SERVICE_LOSS, at the end of the present cycle (R20, R65, R146, R149). -/

namespace Sys2Proof.Machine

/-- What an instruction of image 2.4 does, by its opcode (R105). -/
def bodyOf (op k w t : Nat) (s : State) : State :=
  match op with
  | 0x01 => haltInstr k t s
  | 0x02 => yieldCal k w t s
  | 0x08 => wait k w t s
  | 0x09 => waituntil k w t s
  | 0x0A => alignAngle k w t s
  | 0x0B => waittrig k w t s
  | 0x0C => syncInstr k w t s
  | 0x10 => play k w t s
  | 0x11 => playz k w t s
  | 0x12 => setbias k w t s
  | 0x13 => rampbias k w t s
  | 0x18 => fset k w t s
  | 0x19 => fshift k w t s
  | 0x1A => freset k w t s
  | 0x1B => pframe k w t s
  | 0x20 => measure k w t s
  | 0x21 => acq k w t s
  | 0x28 => brInstr k w t s
  | 0x29 => brr k w t s
  | 0x2A => loopInstr k w t s
  | 0x2B => callInstr k w t s
  | 0x2C => retInstr k t s
  | 0x30 => load k w t s
  | 0x31 => store k w t s
  | 0x42 => mul k w t s
  | 0x48 => shotBegin k t s
  | 0x49 => shotEnd k t s
  | 0x50 => signalInstr k w t s
  | 0x51 => waitmsg k w t s
  | op => if 0x38 ≤ op ∧ op ≤ 0x41 then aluBody (op - 0x38) k w t s else nopInstr k t s

/-- Microwords of sequencer k that end by tick te; at most `fuel` of them. -/
def microUntil : Nat → Nat → Nat → State → State
  | 0, _, _, s => s
  | fuel + 1, k, te, s =>
    if !(s.seq k).micro.active || (s.seq k).stall.isSome || te < (s.seq k).readyAt + 2 then s
    else microUntil fuel k te (microStep k s).2

/-- Sequencer k at tick te, the end of its present cycle, with what the cycles up to it have done: the microwords that have completed,
or the instruction of image 2.4 that completes or arms in this very cycle. -/
def runUntil (k te : Nat) (s : State) : State :=
  let t := (s.seq k).readyAt
  let op := fetchWord k s / 2 ^ 56
  if te ≤ t then s
  else if (s.seq k).micro.active then microUntil ((te - t) / 2) k te s
  else if (s.seq k).pcOver then s
  else if !byRule k op s then microUntil ((te - t) / 2) k te (microBegin k op t s)
  else
    let s' := instr op k s (bodyOf op k)
    if s'.now ≤ te ∧ (s'.seq k).abort.isNone then s' else s

/-- HOST_STOP or SERVICE_LOSS of a sequencer that runs a program at tick t, at the end of its present cycle (R20, R65, R146).  An
instruction whose last cycle it is completes, and the abort names it, with its COMMIT count: a count that the spec gives for PLAY
only (DESIGN CHOICE, log entry 7) (DEDUCED, log entry 76). -/
def stopRunning (k : Nat) (kind : AbortKind) (now : Nat) (s : State) : State :=
  let te := if (s.seq k).stall.isSome then now else cycleEnd k now s
  let t := (s.seq k).readyAt
  let q := s.seq k
  let s' := if q.stall.isSome ∨ q.abort.isSome then s else advanceTo te (runUntil k te s)
  if q.abort.isNone ∧ q.stall.isNone ∧ !(s'.seq k).micro.active ∧ (s'.seq k).stall.isNone ∧ (s'.seq k).abort.isNone
      ∧ seqState k s ≠ stTrapped ∧ te ≤ (s'.seq k).readyAt then
    let pc := (s'.seq k).lastPc
    let op := s.rd (instrStoreBase + 0x10000 * k + 8 * (pc % 8192)) 8 / 2 ^ 56
    let cyc := if t < te then (te - t) / 2 else cyclesOf op
    let commits :=
      if !byRule k op s then (s'.seq k).micro.past
      else if t < te ∧ !condHolds q (bits (fetchWord k s) 52 4) then 0
      else if op = 0x10 then 1 else Config.bodyCommits op % 256
    abortAt k kind (if kind = .hostStop then 0x09 else 0x0A) (upcOf op cyc) pc commits te s'
  else stopTrap k kind te s'

/-- SEQ_CTRL.STOP (R65): a sequencer that runs a program takes the trap HOST_STOP, and its abort routine runs to its end; one that is
HALTED or FAULTED runs no routine.  SEQ_FAULT.IADDR of a HALTED one keeps its value (open corners: DEDUCED, log entries 77 and 101)
(DEDUCED, log entry 77; DEDUCED, log entry 101). -/
def stopSeq (k : Nat) (s : State) : State :=
  let st := seqState k s
  if st = stRunning ∨ st = stStalled ∨ st = stTrapped then
    let s := stopRunning k .hostStop s.now s
    match (s.seq k).abort with
    | some a => advanceTo a.ends s
    | none => s
  else if st = stHalted ∨ st = stFaulted then
    let s := abortShots k (inFlight k s) s.now s
    let s := if st = stHalted then s.set (SEQ_FAULT_CODE k) 0x09 else s
    setSeqState k stIdle s
  else s

/-- The loss of an item of the minimum service set at tick t, on sequencer k (R20): RUNNING, STALLED, TRAPPED and HALTED go to FAULTED
with SERVICE_LOSS; FAULTED stays, IDLE stays.  Every shot in flight is aborted, one that still closes behind an IDLE
sequencer (after CLEAR of a HALTED one) among them.  On a running sequencer the microword of the present cycle completes first (R146)
(open corners: DEDUCED, log entry 76). -/
def serviceLossSeq (k t : Nat) (s : State) : State :=
  let st := seqState k s
  if st = stRunning ∨ st = stStalled ∨ st = stTrapped then stopRunning k .serviceLoss t s
  else if st = stHalted then
    let s := abortShots k (inFlight k s) t s
    setSeqState k stFaulted ((s.set (SEQ_FAULT_CODE k) 0x0A).set (SEQ_FAULT_IADDR k) (pcOf k s))
  else abortShots k (inFlight k s) t s

/-- Loss of REF_IN or tick PLL lock, of Ryvex or of the Kiln at tick t: READY falls, powered tiles go to Park with cause 4,
every sequencer is stopped (R20). -/
def serviceLoss (t : Nat) (s : State) : State :=
  let s := deriveReady s
  let s := (s.host.powered).foldl (fun s a => parkTile a 4 t s) s
  (List.range 512).foldl (fun s k => serviceLossSeq k t s) s

/-- SEQ_CTRL.STOP (R65). -/
def execStop (r : Req) (k : Fin 512) (s : State) : Ans :=
  .next (privileged r (SEQ_CTRL_STOP k.val) 1 s (stopSeq k.val))

end Sys2Proof.Machine
end

