-- ==== Sys2Proof/Machine/TableCmds.lean ====
section
/-! DEFINITION. Host writes to the Frame Table, and the bank swaps and copies of the Waveform Descriptor Table (R165, R177 to
R179). -/

namespace Sys2Proof.Machine

/-- A host write to dword dw of frame f (R165): dword 0 is held for the write of dword 1, which applies both (open corners:
DEDUCED, log entry 36). -/
def frameWrite (f dw v : Nat) (s : State) : State :=
  let at_ := s.now + 8
  match dw with
  | 0 => { s with host := { s.host with frameHeld := Tab.put 0 s.host.frameHeld f (v + 1) } }
  | 1 =>
    let low := match Tab.find? s.host.frameHeld f with | some h => h - 1 | none => s.rd (frameAddr f) 4
    let s := { s with host := { s.host with frameHeld := Tab.drop s.host.frameHeld f } }
    s.later at_ (.frameDword f 1 (low + 2 ^ 32 * (v % 2 ^ 16)))
  | _ => s.later at_ (.frameDword f dw v)

/-- A partial write into a table window is ignored and flagged ACCESS_WIDTH (R358). -/
def fullDword (r : Req) (be a v : Nat) (s : State) (k : State → State) : State :=
  if be = 0xF then k s else accessFault r .width true be a v s

/-- A host write to the Frame Table window (R165) (open corners: DEDUCED, log entry 36). -/
def execFrameTableWrite (r : Req) (f : Fin 40960) (dw : Fin 4) (be : BitVec 4) (v : Dword) (s : State) : Ans :=
  .next (fullDword r be.toNat (frameAddr f.val + 4 * dw.val) v.toNat s (frameWrite f.val dw.val v.toNat))

/-- WFT_CTRL.SWAP (R178). -/
def execWftSwap (s : State) : Ans :=
  .next (
    if !wftAccepts s then wftBusy s
    else if s.get WFT_SWAP_AT < s.now + 16 then s.flagAlways WFT_STATUS_SWAP_LATE 30
    else setPending false (s.get WFT_SWAP_AT) s)

/-- WFT_CTRL.SWAP_NOW (R178). -/
def execWftSwapNow (s : State) : Ans := .next (if wftAccepts s then setPending false (s.now + 16) s else wftBusy s)

/-- The pending swap takes place at its tick (R178). -/
def execWftSwapApply (s : State) : Ans :=
  .next (
    match s.wft.bank with
    | some b => if b.copy then s else atTick b.at_ (wftBankDue b.at_) s
    | none => s)

/-- WFT_CTRL.COPY (R179). -/
def execWftCopy (s : State) : Ans :=
  .next (
    if wftAccepts s then setPending true (s.now + 128000) s
    else wftBusy s)

/-- The pending copy completes; it does so within 64 us of the request (R179). -/
def execWftCopyDone (s : State) : Ans :=
  .next (
    match s.wft.bank with
    | some b => if b.copy then wftCopy b s else s
    | none => s)

end Sys2Proof.Machine
end

