-- ==== Sys2Proof/Machine/TapCmds.lean ====
section
/-! DEFINITION. Commands of the Tap units (R306 to R316). -/

namespace Sys2Proof.Machine

/-- A write of 1 to unit i's EN (R313). -/
def tapEnable (i : Nat) (s : State) : State :=
  if tapEnRefused i s then s.flag (TAP_STATUS_EN_REFUSED i) (816 + i)
  else
    let s := s.setTap i { s.tap i with disable := false }
    s.setB (TAP_CTRL_EN i) true

/-- A write of 0 to unit i's EN: it acts as DISARM and then clears EN (R308) (open corners: DEDUCED, log entry 45). -/
def tapDisable (i : Nat) (s : State) : State :=
  if s.on (TAP_CTRL_EN i) then tapDisarm i (s.setTap i { s.tap i with disable := true }) else s

/-- A write of ARM (R308). -/
def tapArm (i : Nat) (s : State) : State :=
  let st := tapState i s
  if s.on (TAP_CTRL_EN i) ∧ (st = tapIdle ∨ st = tapDone) then
    (s.setTap i { s.tap i with armAt := some (s.now + 8) }).later (s.now + 8) (.tapArm i (s.now + 8))
  else s.flag (TAP_STATUS_ARM_REFUSED i) (816 + i)

/-- A write of TAP EN = 1 (R313). -/
def execTapEnable (r : Req) (i : Fin 32) (s : State) : Ans := .next (privileged r (TAP_CTRL_EN i.val) 1 s (tapEnable i.val))

/-- A write of TAP EN = 0 (R308). -/
def execTapDisable (r : Req) (i : Fin 32) (s : State) : Ans :=
  .next (privileged r (TAP_CTRL_EN i.val) 0 s (tapDisable i.val))

/-- TAP_CTRL.ARM (R308). -/
def execTapArm (i : Fin 32) (s : State) : Ans := .next (tapArm i.val s)

/-- TAP_CTRL.DISARM (R308). -/
def execTapDisarm (i : Fin 32) (s : State) : Ans := .next (tapDisarm i.val s)

/-- A trigger that waits is judged where unit i holds no capture yet (R307). -/
def tapSettle (i : Nat) (s : State) : State :=
  match (s.tap i).cap, (s.tap i).waiting.head? with
  | none, some e => runTo (keyOf (max s.now (e.stamp / 32 + tapLag i s)) 60000) s
  | _, _ => s

/-- The segment of unit i ends, with what was delivered for it (R309) (open corners: DEDUCED, log entry 45). -/
def execTapSegmentEnd (i : Fin 32) (xs : TapData) (s : State) : Ans :=
  .next (
    let s := tapSettle i.val s
    match (s.tap i.val).cap with
    | some c =>
      let s := advanceTo (ceilDiv c.ends 32) s
      match (s.tap i.val).cap with
      | some c' =>
        tapSegmentEnd i.val c' (tapRaw i.val c' (xs.xs.map fun x => x.map BitVec.toNat) (streamInts xs.stream) s) s
      | none => s
    | none => s)

/-- REARM ends 32 ticks after the segment end (R309). -/
def execTapRearmEnd (i : Fin 32) (s : State) : Ans :=
  .next (if tapState i.val s = tapRearm then advanceTo (s.tap i.val).rearmAt s else s)

/-- The slot that unit i waits for becomes free (R312). -/
def execTapSlotFree (i : Fin 32) (s : State) : Ans :=
  .next (if tapState i.val s = tapWaitRoom ∧ tapSlotFree i.val s then tapReserve i.val s.now s else s)

end Sys2Proof.Machine
end

