-- ==== Sys2Proof/Machine/HostOps.lean ====
section
/-! DEFINITION. Writes through BAR0 (R358 to R365): width, privilege, CFG and its gates, masks, write-once and locked fields,
64-bit pairs, the memory windows, and what each written field does. -/

namespace Sys2Proof.Machine

/-- The next state of an answer, or the state as it was. -/
def Ans.orSame (a : Ans) (s : State) : State :=
  match a with
  | .next t => t
  | _ => s

/-! ### Queue reset, partition map, locks -/

/-- The resources of a partition map: the first field's map of nibbles (R372). -/
def partFld (m : PartMap) : Nat → Fld :=
  match m with
  | .tun => GLB_PART_TUN
  | .rfo => GLB_PART_RFO
  | .zp => GLB_PART_ZP
  | .lau => GLB_PART_LAU
  | .tap => GLB_PART_TAP
  | .frm => GLB_PART_FRM
  | .bar => GLB_PART_BAR

/-- An entry of some sequencer for a target satisfies p. -/
def anyEntry (p : Entry → Bool) (s : State) : Bool := s.seqs.any fun q => q.2.teqs.any fun t => t.2.any p

/-- A resource is in use (R89). -/
def partBusy (m : PartMap) (n : Nat) (s : State) : Bool :=
  let target := fun (c : Target) (p : Nat → Bool) => anyEntry (fun e => kindTarget e.kind == some c && p e.target) s
  match m with
  | .tun => (List.range 8).any fun k => seqState (8 * n + k) s != stIdle
  | .rfo => target .tone fun t => t / 8 == n
  | .zp => target .zlane (· == n + 2304) || target .zb (· == n + 2304)
  | .lau => target .lauter (· == n)
  | .tap => target .tap (· == n)
  | .frm => target .frame fun t => t / 256 == n
  | .bar => !(s.bar n).arrivals.isEmpty || !(s.bar n).rounds.isEmpty

/-- A write of v to map register j: each nibble whose resource is not in use changes on its own; a change of a Tun's partition
goes into the audit log (R89, R372, R407). -/
def partWrite (m : PartMap) (j v : Nat) (s : State) : State :=
  (List.range 8).foldl (fun s k =>
    let f := partFld m j
    let new_ := bits v (4 * k) 4
    if new_ = bits (s.get f) (4 * k) 4 then s
    else if partBusy m (8 * j + k) s then s.flagAlways GLB_STATUS_PART_BUSY 1
    else
      let s := s.set f (putBits (s.get f) (4 * k) 4 new_)
      if m = .tun then audit audPartChange 0xFF (8 * j + k) new_ s else s) s

/-- QM_Q_CTRL.RESET of queue q (R91, R257): its descriptors return to the free list, and what they held counts as dropped (open
corners: DEDUCED, log entry 26). -/
def queueReset (q : Nat) (s : State) : State :=
  if q < 0x4000 then s.setB QM_STATUS_Q_FIXED true
  else
    let x := s.queue q
    let n := x.items.foldl (fun n it => n + it.records) 0
    let s := s.setQueue q { x with items := [], dropped := x.dropped + n, nextSeq := 0 }
    let s := { s with exports := s.exports.map fun (e : Nat × Export) => if e.2.queue = q then (e.1, { e.2 with done := 0 }) else e }
    ((s.inc (QM_Q_DROPS q) n).giveBack q x.items.length).showQueue q

/-- The write of HOST_SEC_RID (R360, R365). -/
def secRidWrite (r : Req) (v : Nat) (s : State) : State :=
  if s.host.secWritten then accessFault r .wonce true 0xF HOST_SEC_RID_RID.dword v s
  else
    let s := (s.set HOST_SEC_RID_RID v).setB HOST_SEC_RID_VALID true
    { s with host := { s.host with secWritten := true } }

/-! ### CFG (R362) -/

/-- The EN that gates a register's CFG fields, the block's CFG_WHILE_ENABLED flag and its event (R362) (open corners:
DEDUCED, log entry 51). -/
def cfgGate (r : Reg) (i : Nat) (s : State) : Fld × Fld × Nat :=
  match r with
  | .SEQ_CTRL | .SEQ_RESUME_PC | .SEQ_GREG | .SEQ_TEQ_BIND => (SEQ_CTRL_EN i, SEQ_STATUS_CFG_WHILE_ENABLED i, 128 + i)
  | .QM_CTRL | .QM_PART_QUOTA => (QM_CTRL_EN, QM_STATUS_CFG_WHILE_ENABLED, 760)
  | .QM_Q_CFG => (QM_Q_CTRL_Q_EN i, QM_STATUS_CFG_WHILE_ENABLED, 760)
  | .WFT_CFG => (WFT_CTRL_EN, WFT_STATUS_CFG_WHILE_ENABLED, 30)
  | .RFO_CFG => (RFO_CTRL_EN i, RFO_STATUS_CFG_WHILE_ENABLED i, rfoEvent i 4)
  | .ZP_CFG | .ZP_STREAM_Q | .ZF_IIR_ALPHA | .ZF_IIR_A | .ZF_FIR =>
    (ZP_CTRL_EN i, ZP_STATUS_CFG_WHILE_ENABLED i, zEvent i 14)
  | .RFI_CFG => (RFI_CTRL_EN i, RFI_STATUS_CFG_WHILE_ENABLED i, 704 + i)
  | .LAU_CFG | .LAU_FRAMES => (LAU_CTRL_EN i, LAU_STATUS_CFG_WHILE_ENABLED i, 704 + i / 32)
  | .DEC_FWD => (DEC_CTRL_EN, DEC_STATUS_CFG_WHILE_ENABLED, 736)
  | .DEC_WIN_CFG | .DEC_WIN_GROUP | .DEC_WIN_PFRAME | .DEC_GATHER => (DEC_WIN_CTRL_EN i, DEC_STATUS_CFG_WHILE_ENABLED, 736)
  | .ANA_CFG | .ANA_IN_CFG | .ANA_IN_BUF | .ANA_OUT_CFG => (ANA_CTRL_EN i, ANA_STATUS_CFG_WHILE_ENABLED i, 801 + 2 * i)
  | .TAP_CFG | .TAP_LEN | .TAP_PRE | .TAP_CH_MASK | .TAP_MEAS_MASK | .TAP_QUEUE | .TAP_REGION_BASE | .TAP_REGION_SIZE =>
    (TAP_CTRL_EN i, TAP_STATUS_CFG_WHILE_ENABLED i, 816 + i)
  | .FLV_CFG | .FLV_CFG2 => (FLV_CTRL_EN i, FLV_STATUS_CFG_WHILE_ENABLED i, 768 + i)
  | .FLV_LANE_TEST =>
    let n := ((List.range 32).find? fun n => s.on (FLV_CTRL_EN n) && (linkLanes n s).contains i).getD i
    (FLV_CTRL_EN n, FLV_STATUS_CFG_WHILE_ENABLED n, 768 + n)
  | .FLV_PROXY_SRC | .FLV_PROXY_DST => (FLV_GCTRL_EN, FLV_GSTATUS_CFG_WHILE_ENABLED, 768)
  | .NT_STEP_MAX => (NT_CTRL_EN, NT_STATUS_CFG_WHILE_ENABLED, 115)
  | .ETH_CFG => (ETH_CTRL_EN i, ETH_STATUS_CFG_WHILE_ENABLED i, 120 + i)
  | .HOST_CFG => (HOST_CTRL_EN, HOST_STATUS_CFG_WHILE_ENABLED, 2)
  | .MON_SEQ | .MON_SEQ_DELAY | .MON_SEQ_AT => (MON_CTRL_EN, MON_STATUS_CFG_WHILE_ENABLED, 857)
  | .BRG_CFG => (BRG_CTRL_EN i, BRG_STATUS_CFG_WHILE_ENABLED i, 848 + i)
  | .CAL_CFG | .CAL_PERIOD | .CAL_WAIT | .CAL_STEP_TMO => (CAL_CTRL_EN, CAL_STATUS_CFG_WHILE_ENABLED, 872)
  | .KILN_CFG | .KILN_RATE | .KILN_PROC_MIN | .KILN_SKIP | .KILN_THR | .KILN_RAIL_LIM =>
    (KILN_CTRL_EN, KILN_STATUS_CFG_WHILE_ENABLED, 42)
  | _ => (TL_CTRL_EN, TL_STATUS_CFG_WHILE_ENABLED, 111)

/-- The effect that ends a block's EN, where it comes ticks after the write (R192, R208, R238, R260, R274) (open corners: DEDUCED,
DEDUCED, log entry 51). -/
def disableAction (r : Reg) (i : Nat) : Option Action :=
  match r with
  | .RFO_CFG => some (.rfoOff i)
  | .ZP_CFG | .ZP_STREAM_Q | .ZF_IIR_ALPHA | .ZF_IIR_A | .ZF_FIR => some (.zDisable i)
  | .RFI_CFG => some (.rfiDisable i)
  | .LAU_CFG | .LAU_FRAMES => some (.lauEn i false)
  | .DEC_WIN_CFG | .DEC_WIN_GROUP | .DEC_WIN_PFRAME | .DEC_GATHER => some (.decEn i false)
  | _ => none

/-- The tick at which the last pending disable of a register's block takes effect (R362) (open corners: DEDUCED, log entry 51). -/
def disableAt (r : Reg) (i : Nat) (s : State) : Option Nat :=
  match disableAction r i with
  | none => none
  | some a => ((s.due.filter fun d => d.2 == a).map (·.1)).max?

/-- What follows a change of CFG fields. -/
def cfgHook (p : Place) (old : State) (s : State) : State :=
  match p.reg with
  | .TL_CFG => if s.get TL_CFG_ROLE ≠ old.get TL_CFG_ROLE then s.setB TL_STATUS_DELAY_VALID false else s
  | .LAU_FRAMES => markTone p.i old s
  | .FLV_LANE_TEST =>
    if s.get (FLV_LANE_TEST_PATTERN p.i) ≠ old.get (FLV_LANE_TEST_PATTERN p.i)
      ∨ s.get (FLV_LANE_TEST_CHK p.i) ≠ old.get (FLV_LANE_TEST_CHK p.i) then laneUnlock p.i s.now s else s
  | _ => s

/-- A queue's OWNER keeps its value while the queue holds descriptors (R89). -/
def ownerBusy (p : Place) (f : Fld) (s : State) : Bool :=
  p.reg == .QM_Q_CFG && f == QM_Q_CFG_OWNER p.i && s.depth p.i != 0

/-- A write of values into CFG fields of a place (R362): ignored and flagged while EN = 1 where they differ, held during a
pending disable, and applied otherwise (open corners: DEDUCED, log entry 51). -/
def cfgWrite (r : Req) (p : Place) (addr v : Nat) (fs : List (Fld × Nat)) (s : State) : State :=
  let g := cfgGate p.reg p.i s
  let differs := fs.any fun x => s.get x.1 != x.2 % 2 ^ x.1.width
  if s.on g.1 then (if differs then accessFault r .cfgWhileEnabled true 0xF addr v (s.flagAlways g.2.1 g.2.2) else s)
  else match disableAt p.reg p.i s with
    | some t => fs.foldl (fun s x => s.later t (.cfg x.1 x.2 (suspends p.reg p.i))) s
    | none =>
      let new_ := fs.foldl (fun s x =>
        if ownerBusy p x.1 s && s.get x.1 != x.2 then s.flagAlways QM_STATUS_PART_BUSY 766 else s.set x.1 x.2) s
      if differs then cfgHook p s (noteChange p.reg p.i new_) else new_

/-! ### EN, write-only, W1C and RW fields -/

/-- A block's EN takes a new value.  TL_CTRL.EN = 0 stops the Cycle Angle tracker with LOCKED = 0 (R57), and a LOCKED that falls so
raises event 107, which no rule names there (open corners: DEDUCED, log entry 51; DEDUCED, log entry 86; DEDUCED, log entry 90). -/
def enWrite (r : Reg) (i : Nat) (f : Fld) (on : Bool) (s : State) : State :=
  match r with
  | .TL_CTRL =>
    let s := s.setB f on
    if on then s
    else
      let s := if s.on TL_CA_STATUS_LOCKED then caUnlock s else s
      modAngle (fun a => { past := a.past }) ((markAngle s.now s).setB TL_CA_STATUS_COASTING false)
  | .TUN_CTRL => tunEnWrite i on s
  | .SEQ_CTRL => seqEnWrite i on s
  | .RFO_CTRL => if on then rfoEnable i s.now s else rfoDisable i s
  | .ZP_CTRL => if on then zEnable i s.now s else zDisable i s
  | .RFI_CTRL => if on then rfiEnable i s.now s else rfiDisable i s
  | .LAU_CTRL => lauEnWrite i on s
  | .DEC_WIN_CTRL => decEnWrite i on s
  | .ANA_CTRL => if on then anaEnable i s else anaDisable i s
  | .TAP_CTRL => if on then tapEnable i s else tapDisable i s
  | .FLV_CTRL => if on then linkEnable i s else linkDisable i s
  | .MON_CTRL =>
    let s := if on then
        { s with mons := s.mons.map fun x =>
            (x.1, { x.2 with fires := x.2.fires.map fun e => (e.1, e.2.filter fun t => decide (s.now ≤ t)) }) }
      else s
    s.setB f on
  | .BRG_CTRL =>
    let s := if on then { s with brgs := Tab.put {} s.brgs i { since := s.now, passAt := s.now, dueAt := s.now } } else s
    s.setB f on
  | _ => s.setB f on

/-- A register's EN field stands at bit 0 of its control register. -/
def isEn (r : Reg) : Bool :=
  match r with
  | .TL_CTRL | .TUN_CTRL | .SEQ_CTRL | .QM_CTRL | .QM_Q_CTRL | .WFT_CTRL | .RFO_CTRL | .ZP_CTRL | .RFI_CTRL | .LAU_CTRL
  | .DEC_CTRL | .DEC_WIN_CTRL | .ANA_CTRL | .TAP_CTRL | .FLV_CTRL | .FLV_GCTRL | .NT_CTRL | .ETH_CTRL | .HOST_CTRL
  | .MON_CTRL | .BRG_CTRL | .CAL_CTRL | .KILN_CTRL => true
  | _ => false

/-- What a write of data v to a write-only field at bit `b` of its dword does. -/
def woWrite (q : Req) (r : Reg) (i b v : Nat) (s : State) : State :=
  match r, b with
  | .TL_CTRL, 1 => (execTlLoad q s).orSame s
  | .TL_CTRL, 2 => (execSendSync q s).orSame s
  | .TL_CTRL, 3 => (execSendCheck q s).orSame s
  | .TL_CTRL, 4 => (execEchoStart q s).orSame s
  | .TL_CTRL, 5 => (execTlCapture s).orSame s
  | .TUN_CTRL, 8 => (execGroupStart q (Fin.ofNat 64 i) (BitVec.ofNat 8 v) s).orSame s
  | .SEQ_CTRL, 1 => (execStart q (Fin.ofNat 512 i) s).orSame s
  | .SEQ_CTRL, 2 => (execStop q (Fin.ofNat 512 i) s).orSame s
  | .SEQ_CTRL, 3 => (execStopAtShot q (Fin.ofNat 512 i) s).orSame s
  | .SEQ_CTRL, 4 => (execClear q (Fin.ofNat 512 i) s).orSame s
  | .SEQ_CTRL, 5 => (execSlackReset (Fin.ofNat 512 i) s).orSame s
  | .QM_Q_CTRL, 1 => queueReset i s
  | .WFT_CTRL, 1 => (execWftSwap s).orSame s
  | .WFT_CTRL, 2 => (execWftSwapNow s).orSame s
  | .WFT_CTRL, 3 => (execWftCopy s).orSame s
  | .RFI_CTRL, 1 => (execKswap (Fin.ofNat 32 i) s).orSame s
  | .RFI_CTRL, 2 => (execKswapNow (Fin.ofNat 32 i) s).orSame s
  | .RFI_CTRL, 3 => (execKcopy (Fin.ofNat 32 i) s).orSame s
  | .ANA_CTRL, 1 => engRaise i 4 s.now s
  | .TAP_CTRL, 1 => tapArm i s
  | .TAP_CTRL, 2 => tapDisarm i s
  | .FLV_CTRL, 1 => idleWrite i s
  | .FLV_CTRL, 2 => retrainWrite i s
  | .FLV_LANE_TEST, 4 => injectWrite i s
  | .NT_CTRL, 1 => ntCommand .ntStep s
  | .NT_CTRL, 2 => ntCommand .ntLoad s
  | .MBX_DB, 0 => ring q.fn.val i s
  | r, _ =>
    match crcBlock r i with
    | some b => crcCommit b s
    | none => s

/-- A write of 1 bits d to a W1C field at bit `b` of its dword: what it clears (R197, R230). -/
def w1cWrite (r : Reg) (i b : Nat) (f : Fld) (d : Nat) (s : State) : State :=
  match r, b with
  | .RFO_STATUS, 8 => rfoParkClear i s
  | .ZP_STATUS, 8 => zParkClear i s
  | _, _ => s.set f (s.get f - (s.get f &&& d))

/-- A write of value v to an RW field (R51, R57, R86, R193, R274, R283, R344, R367). -/
def rwWrite (r : Reg) (i : Nat) (f : Fld) (b v : Nat) (s : State) : State :=
  if isEn r && b = 0 then (if s.get f = v then s else enWrite r i f (v != 0) s)
  else match r with
    | .TL_PIN_AT => pinArm i v s
    | .TL_CA_WIN => s.later (s.now + 1) (.cfg f v none)
    | .RFO_CTRL => if s.get f = v then s else rfoMuteWrite i (v != 0) s
    | .DEC_WIN_BASE => decBaseWrite i v s
    | .DEC_WIN_TMO => (s.set f v).later (s.now + 8) (.decTmo i v)
    | .NT_INC => ntIncWrite v s
    | .GLB_LOCK => if v = 0 then s else s.setB f true
    | r =>
      match crcBlock r i with
      | some b => setRef b v s
      | none => s.set f v

/-- The map and the register number of a partition register. -/
def partOf (r : Reg) : Option PartMap :=
  match r with
  | .GLB_PART_TUN => some .tun
  | .GLB_PART_RFO => some .rfo
  | .GLB_PART_ZP => some .zp
  | .GLB_PART_LAU => some .lau
  | .GLB_PART_TAP => some .tap
  | .GLB_PART_FRM => some .frm
  | .GLB_PART_BAR => some .bar
  | _ => none

/-! ### One dword -/

/-- The low half of a pair for a write of its HI half: the requester's held LO of the same pair, which is used up, or the
present LO (R364). -/
def pairLow (who addr : Nat) (f : Fld) (s : State) : Nat × State :=
  let x := snapOf who s
  match x.lo with
  | some lo => if x.wpair + 4 = addr then (lo, setSnap { x with lo := none } s) else (s.get f % 2 ^ 32, setSnap x s)
  | none => (s.get f % 2 ^ 32, setSnap x s)

/-- Apply one non-CFG field of a dword write. -/
def writeField (q : Req) (p : Place) (v : Nat) (s : State) (x : RegField × Nat) : State :=
  let f := x.1.fld
  let b := (p.slice f).1
  match x.1.acc with
  | .ro | .cfg => s
  | .rw => rwWrite p.reg p.i f b x.2 s
  | .mw => s.set f (((List.range 16).foldl (fun n k =>
      if v.testBit (16 + k) then putBits n k 1 (b2n (v.testBit k)) else n) (s.get f)))
  | .w1c => if p.data f v = 0 then s else w1cWrite p.reg p.i b f (p.data f v) s
  | .wo => if p.data f v = 0 then s else woWrite q p.reg p.i b (p.data f v) s
  | .wonce => secRidWrite q x.2 s
  | .lk => if s.on GLB_LOCK_VEC_LOCK then s else s.set f x.2

/-- The written field of an access whose lock is set is LOCKED: HOST_EVT_MAP and the partition map (R365) (open corners: DEDUCED,
DEDUCED, log entry 51). -/
def lockedPlace (p : Place) (s : State) : Bool :=
  if p.reg = .HOST_EVT_MAP then s.on GLB_LOCK_VEC_LOCK else (partOf p.reg).isSome && s.on GLB_LOCK_PART_LOCK

/-- A write of one dword to a register (R361 to R365) (open corners: DEDUCED, log entry 51). -/
def writePlace (q : Req) (p : Place) (addr v : Nat) (s : State) : State :=
  let priv := isPriv q s
  let fs := p.fields
  let s := if !priv && fs.any (fun f => f.priv && p.data f.fld v != 0) then accessFault q .privilege true 0xF addr v s else s
  let fs := fs.filter fun f => priv || !f.priv
  if fs.isEmpty then s
  else if p.reg = .QM_SEL then setQmSel (reqId q) (v % 65536) s
  else if p.reg = .QM_BAR_CFG then barCfgWrite p.i v s
  else if p.reg = .TL_PIN_POP then (execTlPinPop (BitVec.ofNat 5 v) s).orSame s
  else if p.reg = .QM_Q_CFG ∧ p.i < 0x4000 then s.setB QM_STATUS_Q_FIXED true
  else if lockedPlace p s then accessFault q .locked true 0xF addr v s
  else match partOf p.reg with
  | some m => partWrite m p.i v s
  | none =>
    let cfg := fs.filter fun f => f.acc == .cfg
    if p.isPair && !(fs.any fun f => f.acc == .w1c) then
      match fs with
      | f :: _ =>
        let g := cfgGate p.reg p.i s
        if f.acc = .ro then s
        else if p.dw = 0 then
          if f.acc = .cfg ∧ s.on g.1 then cfgWrite q p addr v [(f.fld, p.merge f.fld v s)] s
          else setSnap { snapOf (reqId q) s with wpair := addr, lo := some v } s
        else
          let low := pairLow (reqId q) addr f.fld s
          let s := low.2
          let value := (low.1 + v * 2 ^ 32) % 2 ^ f.fld.width
          if f.acc = .cfg then cfgWrite q p addr v [(f.fld, value)] s else rwWrite p.reg p.i f.fld 32 value s
      | [] => s
    else
      let at_ := fun (f : RegField) => (f, p.merge f.fld v s)
      let rest := (fs.filter fun f => f.acc != .cfg).map at_
      let s := cfgWrite q p addr v (cfg.map fun f => (f.fld, p.merge f.fld v s)) s
      rest.foldl (fun s x => writeField q p v s x) s

/-- The bits of a dword of a command buffer that exist: FLAGS [15:1] and [31:16] of header dword 2 are reserved (R8, R374). -/
def cmdMask (off : Nat) : Nat := if off = 0 then 0x1FFFF else if off = 8 then 0xFFFF else 0xFFFF_FFFF

/-- A write of one full dword into a memory window (R165, R177, R246, R264, R283, R296, R375, R390); `a` is the PF0 offset (open
corners: DEDUCED, log entry 44). -/
def writeWindow (q : Req) (a v : Nat) (s : State) : State :=
  let bytes := toBytes 4 v
  let now_ := fun (s : State) => (List.range 4).foldl (fun s k => memWrite (a + k) s.now (bytes.getD k 0) s) s
  if windowPriv a && !isPriv q s then (if v = 0 then s else accessFault q .privilege true 0xF a v s)
  else if a < 0x6_0000 then
    let m := (a - 0x4_0000) / 0x2000
    if 12 ≤ m ∨ 0x1000 ≤ a % 0x2000 then s
    else if mbState m s = mbPosted ∨ mbState m s = mbBusy then accessFault q .locked true 0xF a v s
    else s.wr a 4 (v &&& cmdMask (a % 0x2000))
  else if a < 0x10A_0000 then frameWrite ((a - 0x100_0000) / 16) (a % 16 / 4) v s
  else if a < 0x130_0000 then now_ s
  else if a < 0x180_0000 then delayedDword a v s
  else if a < 0x300_0000 then (if a % 0x4000 < 0x2000 then delayedDword a v s else now_ s)
  else if a % 0x8_0000 < 0x4_0000 then s.wr a 4 v
  else
    let e := (a - 0x300_0000) / 0x8_0000
    if s.on (ANA_CTRL_EN e) then
      accessFault q .cfgWhileEnabled true 0xF a v (s.flagAlways (ANA_STATUS_CFG_WHILE_ENABLED e) (801 + 2 * e))
    else s.wr a 4 v

/-- A window dword that can be written: the windows of active banks cannot (R177, R264). -/
def windowWritable (a : Nat) : Bool :=
  !(decide (0x130_0000 ≤ a ∧ a < 0x150_0000)) && !(decide (0x200_0000 ≤ a ∧ a < 0x300_0000) && decide (0x2400 ≤ a % 0x4000))

/-- A write of one dword by a requester at a PF0 offset (R358) (open corners: DEDUCED, log entry 51). -/
def writeDword (q : Req) (be addr v : Nat) (s : State) : State :=
  let addr := addr - addr % 4
  if be ≠ 0xF then accessFault q .width true be addr v s
  else match windowAddr addr s with
  | some _ => if windowWritable addr then writeWindow q addr v s else accessFault q .unimplemented true be addr v s
  | none =>
    match regPlace addr with
    | some p => writePlace q (p.forReq (reqId q) s) addr v s
    | none => accessFault q .unimplemented true be addr v s

/-- The dwords of a write request, in ascending address order (R357, R358). -/
def writeRequest (q : Req) (addr : Nat) : List (BitVec 4 × Dword) → State → State
  | [], s => s
  | (be, v) :: xs, s =>
    let s := match pf0Offset q addr with
      | some a => writeDword q be.toNat a v.toNat s
      | none => accessFault q (if be.toNat = 0xF then .unimplemented else .width) true be.toNat (addr % 2 ^ 26) v.toNat s
    writeRequest q (addr + 4) xs s

/-- The dwords of a read request, in ascending address order: the data returned (R357, R358, R359). -/
def readRequest (q : Req) (addr : Nat) : List (BitVec 4) → State → List Nat × State
  | [], s => ([], s)
  | be :: bes, s =>
    let x := match pf0Offset q addr with
      | some a => readDword q be.toNat a s
      | none => (0, s)
    let y := readRequest q (addr + 4) bes x.2
    (x.1 :: y.1, y.2)

end Sys2Proof.Machine
end

