-- ==== Sys2Proof/Machine/Containers.lean ====
section
/-! DEFINITION. Keys and trust, Recipe and firmware containers, and the loading of a Recipe Store (R131, R151 to R156, R446 to
R451). -/

namespace Sys2Proof.Machine

/-! ### Keys and trust (R446 to R449) -/

/-- KEY_ID of a filled key slot k, 0..7 (R465). -/
def slotId (k : Nat) (s : State) : List Byte := (List.range 12).flatMap fun j => toBytes 4 (s.get (SEC_SLOT_ID k j))

/-- KEY_ID of the owner root. -/
def ownerRoot (s : State) : List Byte := (List.range 12).flatMap fun j => toBytes 4 (s.get (SEC_OWNER_ROOT j))

/-- The root of a signer: 0 Vendor, 1 Owner. -/
def rootOf (signer : Nat) (s : State) : Option (List Byte) :=
  if signer = 0 then some Config.vendorRoot.toList
  else if signer = 1 ∧ s.on SEC_STATUS_OWNER_ROOT_SET then some (ownerRoot s)
  else none

/-- USAGE bits (R447). -/
def useRyvex : Nat := 0
/-- RECIPE. -/
def useRecipe : Nat := 1
/-- EXTENSION. -/
def useExtension : Nat := 2
/-- DEBUG. -/
def useDebug : Nat := 3

/-- The filled slots of a signer whose USAGE has a bit: Vendor slots are 0..3, Owner slots 4..7 (R449, R465). -/
def usableSlots (signer use : Nat) (s : State) : List Nat :=
  ((List.range 4).map (4 * signer + ·)).filter fun k => s.on (SEC_SLOT_VALID k) && (s.get (SEC_SLOT_USAGE k)).testBit use

/-- KEY_IDs that a signer may sign with for a use (R449). -/
def trustedIds (signer use : Nat) (s : State) : List (List Byte) :=
  (rootOf signer s).toList ++ (usableSlots signer use s).map (slotId · s)

/-! ### Container header (R151) -/

/-- MAGIC of a container kind: RCPI, RCPP, RCPX, RYVX, EXCF (R151, R451). -/
def magicOf (kind : Nat) : Nat :=
  match kind with
  | 0 => 0x49504352
  | 1 => 0x50504352
  | 2 => 0x58504352
  | 3 => 0x58565952
  | _ => 0x46435845

/-- KIND. -/
def cnKind (c : List Byte) : Nat := le c 8 1
/-- SIGNER. -/
def cnSigner (c : List Byte) : Nat := le c 9 1
/-- VERSION. -/
def cnVersion (c : List Byte) : Nat := le c 0xC 4
/-- BASE_VERSION. -/
def cnBase (c : List Byte) : Nat := le c 0x10 4
/-- PATCH_LEVEL. -/
def cnLevel (c : List Byte) : Nat := le c 0x14 2
/-- EXT_MASK. -/
def cnExtMask (c : List Byte) : Nat := le c 0x16 2
/-- REC_COUNT. -/
def cnRecs (c : List Byte) : Nat := le c 0x18 4
/-- BODY_LEN. -/
def cnBodyLen (c : List Byte) : Nat := le c 0x1C 4
/-- KEY_ID. -/
def cnKey (c : List Byte) : List Byte := slice c 0x20 48
/-- STEPPINGS bit 3: stepping B1. -/
def cnB1 (c : List Byte) : Bool := (le c 0xA 2).testBit 3
/-- The digest of R152. -/
def cnDigest (c : List Byte) : List Byte := sha384 (c.take (0x80 + cnBodyLen c))
/-- The signature. -/
def cnSignature (c : List Byte) : List Byte := slice c (0x80 + cnBodyLen c) 96

/-- MAGIC, FORMAT, HDR_LEN and KIND agree, reserved bytes are 0 and the container has the length its BODY_LEN gives (open corners:
DEDUCED, log entry 35). -/
def cnHeaderOk (c : List Byte) : Bool :=
  c.length == 0x80 + cnBodyLen c + 96 && le c 0 4 == magicOf (cnKind c) && cnKind c ≤ 4 && le c 4 2 == 1 && le c 6 2 == 0x80
    && allZero (slice c 0x50 48)

/-- One record: first micro-address and the bytes of its microwords. -/
structure Record where
  start : Nat
  bytes : List Byte
deriving DecidableEq, Repr

/-- Number of microwords of a record. -/
def Record.count (r : Record) : Nat := r.bytes.length / 8

/-- The n records of a body; none where BODY_LEN or a COUNT does not fit (R151). -/
def parseRecords : Nat → List Byte → Option (List Record)
  | 0, body => if body.isEmpty then some [] else none
  | n + 1, body =>
    let cnt := le body 2 2
    if body.length < 4 + 8 * cnt ∨ cnt = 0 ∨ 16384 < cnt then none
    else (parseRecords n (body.drop (4 + 8 * cnt))).map (⟨le body 0 2, slice body 4 (8 * cnt)⟩ :: ·)

/-- The records of a container; REC_COUNT beyond what the body can hold is no list. -/
def cnRecords (c : List Byte) : Option (List Record) :=
  if cnBodyLen c < 12 * cnRecs c then none else parseRecords (cnRecs c) (slice c 0x80 (cnBodyLen c))

/-! ### Load checks (R153, R154) -/

/-- A record lies within the ranges of R154. -/
def recordInRange (kind extMask : Nat) (r : Record) : Bool :=
  if kind = 2 then
    (0x3000 ≤ r.start && r.start + r.count ≤ 0x4000) ||
      (List.range r.count).all fun i => 0xE0 ≤ r.start + i && r.start + i < 0xF0 && extMask.testBit (r.start + i - 0xE0)
  else r.start + r.count ≤ 0xC0 || (0x100 ≤ r.start && r.start + r.count ≤ 0x3000)

/-- Two records overlap. -/
def recordsOverlap : List Record → Bool
  | [] => false
  | r :: rs => rs.any (fun q => r.start < q.start + q.count && q.start < r.start + r.count) || recordsOverlap rs

/-- The microword that the records write at an address. -/
def recordWord (rs : List Record) (a : Nat) : Option Nat :=
  (rs.find? fun r => r.start ≤ a && a < r.start + r.count).map fun r => le r.bytes (8 * (a - r.start)) 8

/-- Every vector that EXT_MASK names holds a DISP with its target in the owner region (R154). -/
def vectorsOk (extMask : Nat) (rs : List Record) : Bool :=
  (setBits 16 extMask).all fun k =>
    match recordWord rs (0xE0 + k) with
    | some w => uopOf w == 1 && 0x3000 ≤ w % 0x4000
    | none => false

/-- Check 2 of R153 for a Recipe container: its records, if it is one. -/
def recipeRecords (c : List Byte) : Option (List Record) := if cnHeaderOk c && cnKind c ≤ 2 then cnRecords c else none

/-- An extension is accepted in this lifecycle state (R444). -/
def extensionOpen (s : State) : Bool := s.get SEC_STATUS_LIFECYCLE == 1 || s.get SEC_STATUS_LIFECYCLE == 2

/-- Check 4 of R153: KEY_ID names a key trusted for the signer and the kind (R444, R449). -/
def recipeTrusted (c : List Byte) (s : State) : Bool :=
  (trustedIds (cnSigner c) (if cnKind c = 2 then useExtension else useRecipe) s).contains (cnKey c)
    && (cnKind c != 2 || extensionOpen s)

/-- RCP_VERSION of Tun t as one number. -/
def rcpVersion (t : Nat) (s : State) : Nat :=
  s.get (RCP_VERSION_BUILD t) + 2 ^ 16 * s.get (RCP_VERSION_MINOR t) + 2 ^ 24 * s.get (RCP_VERSION_MAJOR t)

/-- Set RCP_VERSION of Tun t. -/
def setRcpVersion (t v : Nat) (s : State) : State :=
  ((s.set (RCP_VERSION_BUILD t) v).set (RCP_VERSION_MINOR t) (v / 2 ^ 16)).set (RCP_VERSION_MAJOR t) (v / 2 ^ 24)

/-- Check 7 of R153. -/
def recipeBaseOk (t : Nat) (c : List Byte) (s : State) : Bool :=
  match cnKind c with
  | 0 => true
  | 1 => s.on (TUN_STATUS_RCP_LOADED t) && cnBase c == rcpVersion t s
  | _ => s.on (TUN_STATUS_RCP_LOADED t) && cnBase c / 2 ^ 16 == rcpVersion t s / 2 ^ 16

/-- The checks of R153 for Tun t, in order: the status, 0 where all hold (open corners: DEDUCED, log entry 35). -/
def recipeCheck (t : Nat) (c : List Byte) (s : State) : Nat :=
  if s.on (TUN_CTRL_EN t) then 0x0020
  else match recipeRecords c with
    | none => 0x0021
    | some rs =>
      if cnSigner c ≠ (if cnKind c = 2 then 1 else 0) then 0x0021
      else if !recipeTrusted c s then 0x0022
      else if !ecdsaVerify (cnKey c) (cnDigest c) (cnSignature c) then 0x0023
      else if !cnB1 c then 0x0024
      else if !recipeBaseOk t c s then 0x0025
      else if cnKind c = 1 ∧ cnLevel c ≤ s.get (RCP_PATCH_LEVEL t) then 0x0026
      else if !(rs.all (recordInRange (cnKind c) (cnExtMask c))) || recordsOverlap rs
        || (cnKind c == 2 && !vectorsOk (cnExtMask c) rs) then 0x0027
      else 0

/-! ### Effect of a load (R131, R155) -/

/-- Micro-addresses a .. a + n - 1 of Tun t hold ILL with UCOND = AL, which is what unlisted bytes spell (R131, R156). -/
def clearToIll (t a n : Nat) (s : State) : State :=
  let cells := s.mem.filter fun c => recipeAddr t a ≤ c.1 && c.1 < recipeAddr t a + 8 * n
  { s with mem := cells.foldl (fun m c => Memory.write m c.1 (memDefault c.1)) s.mem }

/-- Write the records into the Recipe Store of Tun t. -/
def writeRecords (t : Nat) (rs : List Record) (s : State) : State :=
  rs.foldl (fun s r => s.setBytes (recipeAddr t r.start) r.bytes) s

/-- Note whether Tun t holds the image the device left the factory with, and which of its microwords patches have written over (R2,
R155; DEDUCED, log entry 16). -/
def noteImage (t : Nat) (factory : Bool) (written : List (Nat × Nat)) (s : State) : State :=
  s.setTun t { s.tun t with factory := factory, written := written }

/-- An accepted container acts on Tun t (R155) (DEDUCED, log entry 16; DEDUCED, log entry 35). -/
def recipeApply (t : Nat) (c : List Byte) (s : State) : State :=
  let rs := (cnRecords c).getD []
  let s := s.setB (TUN_STATUS_RCP_LOADED t) true
  match cnKind c with
  | 0 =>
    let s := noteImage t false [] (writeRecords t rs (clearToIll t 0 0x4000 s))
    ((setRcpVersion t (cnVersion c) s).set (RCP_PATCH_LEVEL t) 0).set (RCP_PATCH_HASH t) 0
  | 1 =>
    let s := writeRecords t rs s
    let s := noteImage t (s.tun t).factory ((s.tun t).written ++ rs.map fun r => (r.start, r.count)) s
    (s.set (RCP_PATCH_LEVEL t) (cnLevel c)).set (RCP_PATCH_HASH t) (le (cnDigest c) 0 4)
  | _ => writeRecords t rs (clearToIll t 0x3000 0x1000 (clearToIll t 0xE0 0x10 s))

/-- Check and load one container into Tun t: its status and the state (R153, R155). -/
def recipeLoad (t : Nat) (c : List Byte) (s : State) : Nat × State :=
  let st := recipeCheck t c s
  (st, if st = 0 then recipeApply t c s else s)

/-- Tun t gets the image that the device left the factory with, Recipe image 2.4 (R2; DEDUCED, log entry 16). -/
def recipeFactory (t : Nat) (s : State) : State :=
  let s := noteImage t true [] (clearToIll t 0 0x4000 (s.setB (TUN_STATUS_RCP_LOADED t) true))
  ((setRcpVersion t 0x02040000 s).set (RCP_PATCH_LEVEL t) 0).set (RCP_PATCH_HASH t) 0

/-- The VERSION of the image stored in the Cellar. -/
def cellarRecipe (s : State) : Nat :=
  match s.cel.recipes.find? (fun c => cnKind c == 0) with
  | some c => cnVersion c
  | none => 0x02040000

/-- Start-up loads the stored image and patches into Tun t; the first container that fails is reported (R467, R470). -/
def recipeStart (t : Nat) (s : State) : State :=
  let run := fun (s : State) => s.cel.recipes.foldl
    (fun (r : Nat × State) c => if r.1 = 0 then recipeLoad t c r.2 else r) (0, s)
  let r := if s.cel.recipes.any (fun c => cnKind c == 0) then run s else run (recipeFactory t s)
  if r.1 = 0 then r.2 else r.2.event 15 (t + 256 * (r.1 % 256))

/-! ### Firmware (R450, R451) -/

/-- The VERSION of the Ryvex that the device left the factory with: Ryvex 3.2 (R1; DEDUCED, log entry 16). -/
def factoryRyvex : Nat := 0x03020000

/-- The header checks of R153 on a firmware container, with the differences of R451. -/
def firmwareHeaderOk (kind signer bodyMax : Nat) (c : List Byte) : Bool :=
  cnHeaderOk c && cnKind c == kind && cnSigner c == signer && cnBase c == 0 && cnLevel c == 0 && cnExtMask c == 0
    && cnRecs c == 0 && 1 ≤ cnBodyLen c && cnBodyLen c ≤ bodyMax && cnB1 c

/-- The checks of R450 on a Ryvex container, in order: the status, 0 where all hold (R452, R463) (open corners:
DEDUCED, log entry 35). -/
def ryvexCheck (c : List Byte) (s : State) : Nat :=
  if !firmwareHeaderOk 3 0 8384512 c then 0x0055
  else if !(trustedIds 0 useRyvex s).contains (cnKey c) then 0x0022
  else if !ecdsaVerify (cnKey c) (cnDigest c) (cnSignature c) then 0x0023
  else if cnVersion c < s.get SEC_FW_MIN then 0x0051
  else 0

/-- The VERSION of a Ryvex slot that boots (R450). -/
def slotBoots (x : Slot) (s : State) : Option Nat :=
  match x with
  | .empty => none
  | .factory => if s.get SEC_FW_MIN ≤ factoryRyvex then some factoryRyvex else none
  | .container c => if ryvexCheck c s = 0 then some (cnVersion c) else none

end Sys2Proof.Machine
end

