-- ==== Sys2Proof/Machine/StartOps.lean ====
section
/-! DEFINITION. Operations of start-up, of an unfence and of a Ryvex restart: the Park Table, the hold of a powered tile, the boot
(R195, R229, R378, R450, R457 to R459, R467 to R472, R477). -/

namespace Sys2Proof.Machine

/-! ### Park Table (R195, R457 to R459) -/

/-- The Park Table copy in use: the higher SEQ of those that pass (R459) (open corners: DEDUCED, log entry 69). -/
def parkCopy (s : State) : Option ParkCopy :=
  let a := s.cel.parkA
  let b := s.cel.parkB
  if a.valid && (!b.valid || b.seq ≤ a.seq) then some a else if b.valid then some b else none

/-- The class default of RFO port p: PARK_MODE in bit 0, IDLE_PWR in bit 1 (R195). -/
def rfoDefault (p : Nat) : Nat := if p % 36 < 32 then 0 else 3

/-- The default of a Z port: zero current in range 2, 1,000 nA/us (R459). -/
def zDefault : Nat := 2 * 2 ^ 24 + 1000 * 2 ^ 32

/-- RFO port p's Park Table entry in a copy, or its default. -/
def rfoEntry (c : Option ParkCopy) (p : Nat) : Nat :=
  match c with
  | some c => Tab.get (rfoDefault p) c.rfo p
  | none => rfoDefault p

/-- Z port z's Park Table entry in a copy, or its default. -/
def zEntry (c : Option ParkCopy) (z : Nat) : Nat :=
  match c with
  | some c => Tab.get zDefault c.z z
  | none => zDefault

/-- RFO_PARK.PARK_MODE of port p shows a table entry. -/
def showRfoPark (p e : Nat) (s : State) : State := s.set (RFO_PARK_PARK_MODE p) e

/-- ZP_PARK_VAL and ZP_PARK_SLEW of port z show a table entry. -/
def showZPark (z e : Nat) (s : State) : State :=
  ((s.set (ZP_PARK_VAL_PARK_CODE z) e).set (ZP_PARK_VAL_PARK_RANGE z) (e / 2 ^ 24)).set (ZP_PARK_SLEW z) (e / 2 ^ 32)

/-- The Park Table takes RFO port p to its Park mode; at a start-up it also sets IDLE_PWR (R458, R467) (open corners:
DEDUCED, log entry 82). -/
def applyRfoPark (start : Bool) (p : Nat) (s : State) : State :=
  let e := rfoEntry (parkCopy s) p
  let s := showRfoPark p e s
  let s := if start then s.setB (RFO_CFG_IDLE_PWR p) (e.testBit 1) else s
  let s := (closeGate p s.now s).setB (RFO_CTRL_EN p) false
  setRfoState p (if e.testBit 0 then psOff else psHold) s

/-- The Park Table takes Z port z to its Park value at tick t, with EN = 0 (R229, R467) (open corners: DEDUCED, log entry 82). -/
def applyZPark (t z : Nat) (s : State) : State :=
  let s := latchPark z (showZPark z (zEntry (parkCopy s) z) s)
  let s := s.setZp z { s.zp z with pend := [], stream := none }
  startPark z t ((s.setB (ZP_CTRL_EN z) false).setB (ZP_STATUS_ACTIVE z) false)

/-- The Park Table is applied to tile a at tick t (R229, R467). -/
def applyPark (start : Bool) (a t : Nat) (s : State) : State :=
  let s := { s with host := { s.host with held := s.host.held.filter (· != a) } }
  let s := (tileRfos a).foldl (fun s p => applyRfoPark start p s) s
  let s := (tileZps a).foldl (fun s z => applyZPark t z s) s
  s.event 14 a

/-! ### Rails and the hold of a tile (R468) -/

/-- The tick PLL's or a rail's report is judged only while PORST_L is released (R467). -/
def released (s : State) : Bool := !s.host.porst

/-- Tile a's analog rails report good: its Park logic, which runs from then on, holds every RFO port in HOLD, every ZF at code 0 and
every ZB at zero current in range 2. -/
def holdTile (a : Nat) (s : State) : State :=
  let s := { s with host := { s.host with
    powered := a :: s.host.powered.filter (· != a), held := a :: s.host.held.filter (· != a),
    parkLost := s.host.parkLost.filter (· != a) } }
  (tileRfos a).foldl (fun s p => setRfoState p psHold s) s

/-! ### Ryvex (R378, R450, R472) -/

/-- Every session closes and every mailbox returns to IDLE (R378). -/
def closeMailboxes (s : State) : State :=
  (List.range 16).foldl
    (fun s m =>
      let s := (closeSession m s).set (MBX_DB_STATE m) mbIdle
      s.setMbx m { s.mbx m with nonce := none, challenge := none, tile := none })
    { s with host := { s.host with posted := [], waits := [] } }

/-- The boot ROM boots the first slot that passes, the one marked ACTIVE first, or stays in recovery (R450) (open corners: DEDUCED,
DEDUCED, log entry 71). -/
def bootSlots (s : State) : State :=
  let slot := fun k => if k = 0 then s.cel.ryvexA else s.cel.ryvexB
  let first := s.cel.active
  let up := fun (k v : Nat) (s : State) =>
    let s := { s with host := { s.host with ryvexUp := true, recovery := false } }
    (s.set GLB_FW v).set SEC_STATUS_BOOT_SLOT k
  match slotBoots (slot first) s with
  | some v => up first v s
  | none =>
    match slotBoots (slot (1 - first)) s with
    | some v => (up (1 - first) v s).flagAlways SEC_STATUS_FALLBACK 65
    | none => { s with host := { s.host with ryvexUp := false, recovery := true } }

/-- Ryvex verifies the Excise image in the island's region at a start (R453): the island stores only images that it has itself verified
(R403), so that a failure is one of the stored words (R456) (open corners: DEDUCED, log entry 60). -/
def checkExcise (s : State) : State :=
  if s.exc.saved.imageBad then (s.setB SEC_STATUS_EXC_VERIFIED false).flagAlways SEC_STATUS_EXC_IMAGE_BAD 68
  else s.setB SEC_STATUS_EXC_VERIFIED true

/-- Ryvex reads the Cellar at a cold start and then raises the analog-rail enables (R360, R459, R467, R468, R470, R486) (open
corners: DEDUCED, log entry 71; DESIGN CHOICE, log entry 74). -/
def readCellar (s : State) : State :=
  let s := match s.cel.secRid with
    | some v =>
      { (s.set HOST_SEC_RID_RID v).setB HOST_SEC_RID_VALID true with host := { s.host with secWritten := true } }
    | none => s
  let s := match parkCopy s with
    | some c => s.set CEL_PARK_SEQ c.seq
    | none => s.flagAlways CEL_STATUS_PARK_BAD 83
  let s := (List.range 8).foldl (fun s a => calLoad a s) s
  { s with host := { s.host with enBias := true, enTiles := List.range 8 } }

end Sys2Proof.Machine
end

