-- ==== Sys2Proof/Machine/Commands.lean ====
section
/-! DEFINITION. The table of mailbox commands: which need a session, their roles and the layout of their payloads (R386, R409,
R429, R462). -/

namespace Sys2Proof.Machine

/-- A command by its opcode, session need, roles (0 Op, 1 Ow, 2 SA, 3 Ve), parameter length and data length. -/
def row (op : Nat) (roles : List Nat) (params : List Byte → Option Nat)
    (data : List Byte → Option Nat := fun _ => some 0) : Spec :=
  { op := op, roles := roles, params := params, data := data }

/-- A command that needs no session. -/
def rowOpen (op : Nat) (params : List Byte → Option Nat) : Spec := { op := op, sess := false, params := params }

/-- A list of items of n bytes behind a 4-byte COUNT. -/
def counted (n : Nat) : List Byte → Option Nat := fun p => some (4 + n * le p 0 4)

/-- Data of n bytes an item, their number at offset o of the parameters. -/
def items (n o : Nat) : List Byte → Option Nat := fun p => some (n * le p o 4)

/-- Data of any length. -/
def anyData : List Byte → Option Nat := fun _ => none

/-- Sessions, loads, registers, telemetry, export and fence commands (R386). -/
def coreSpec (op : Nat) : Spec :=
  match op with
  | 0x0001 => rowOpen 0x0001 (fixed 0)
  | 0x0002 => rowOpen 0x0002 (fixed 4)
  | 0x0003 => rowOpen 0x0003 (fixed 36)
  | 0x0004 => row 0x0004 allRoles (fixed 0)
  | 0x0005 => row 0x0005 [1, 2, 3] (fixed 56)
  | 0x0010 => row 0x0010 allRoles (fun p => some p.length)
  | 0x0100 => row 0x0100 [0, 1] (fixed 12) (items 8 8)
  | 0x0101 => row 0x0101 [0, 1] (fixed 12) (items 4 8)
  | 0x0102 => row 0x0102 [0, 1] (fixed 8) (items 16 4)
  | 0x0103 => row 0x0103 [0, 1] (fixed 12) (items 1 8)
  | 0x0104 => row 0x0104 [0, 1] (fixed 8) (items 4 4)
  | 0x0105 => row 0x0105 [0, 1] (fixed 12) (items 4 8)
  | 0x0106 => row 0x0106 [0, 1] (fixed 8) anyData
  | 0x0107 => row 0x0107 [1, 3] (fixed 0) anyData
  | 0x0200 => row 0x0200 allRoles (counted 4)
  | 0x0201 => row 0x0201 [0, 1] (counted 8)
  | 0x0202 => row 0x0202 [0, 1] (counted 4)
  | 0x0300 => row 0x0300 allRoles (fun p => some (8 + 2 * le p 4 4))
  | 0x0301 => row 0x0301 [0, 1, 3] (fixed 0)
  | 0x0302 => row 0x0302 [0, 1, 3] (fixed 4)
  | 0x0400 => row 0x0400 [0, 1] (fixed 20)
  | 0x0401 => row 0x0401 [0, 1] (fixed 4)
  | 0x0500 => row 0x0500 [0, 1] (counted 4)
  | 0x0501 => row 0x0501 [0, 1] (counted 4)
  | 0x0502 => row 0x0502 [1] (fixed 4)
  | 0x0503 => row 0x0503 [1] (fixed 4)
  | _ => row 0x0504 [1] (fixed 4)

/-- Excise commands (R409). -/
def exciseSpec (op : Nat) : Spec :=
  match op with
  | 0x0600 => row 0x0600 allRoles (fixed 36)
  | 0x0601 => row 0x0601 allRoles (fixed 12)
  | 0x0602 => row 0x0602 [0, 1] (fixed 160)
  | 0x0603 => row 0x0603 [1] (fixed 4)
  | 0x0604 => row 0x0604 [1] (fixed 104)
  | 0x0605 => row 0x0605 [2] (fixed 0) anyData
  | 0x0606 => row 0x0606 [2] (fixed 144)
  | _ => row 0x0607 allRoles (fixed 0)

/-- The length of PARK_WRITE's parameters: a header and COUNT entries of 4 bytes for RFO ports and 8 for Z ports (R457, R462);
another KIND fails check 7. -/
def parkWriteLen (p : List Byte) : Option Nat :=
  match le p 0 1 with
  | 0 => some (8 + 4 * le p 4 2)
  | 1 => some (8 + 8 * le p 4 2)
  | _ => some p.length

/-- Security and Cellar commands (R462). -/
def secSpec (op : Nat) : Spec :=
  match op with
  | 0x0700 => rowOpen 0x0700 (fixed 152)
  | 0x0701 => row 0x0701 [1, 3] (fixed 276)
  | 0x0702 => row 0x0702 [1, 3] (fixed 4)
  | 0x0703 => row 0x0703 [1] (fixed 0)
  | 0x0704 => row 0x0704 [1] (fixed 96)
  | 0x0705 => row 0x0705 [1, 3] (fixed 0) anyData
  | 0x0706 => row 0x0706 [1] (fixed 0)
  | 0x0707 => row 0x0707 [1, 3] (fixed 0)
  | 0x0708 => row 0x0708 [1, 3] (fixed 100)
  | 0x0709 => row 0x0709 [1] parkWriteLen
  | _ => row 0x070A allRoles (fixed 0)

/-- Calibration commands (R429). -/
def calSpec (op : Nat) : Spec :=
  match op with
  | 0x0800 => row 0x0800 [0, 1] (fixed 4)
  | 0x0801 => row 0x0801 [0, 1] (fixed 4)
  | 0x0802 => row 0x0802 [1] (fixed 4)
  | _ => row 0x0803 [0, 1, 3] (fixed 4)

/-- The command of an opcode. -/
def specOf (op : Nat) : Spec :=
  if op < 0x600 then coreSpec op else if op < 0x700 then exciseSpec op else if op < 0x800 then secSpec op else calSpec op

/-- The Supervisor as a requester (R360). -/
def supervisor : Req := ⟨0, 0, true, .bar0⟩

/-- n bytes that the spec leaves open (DESIGN CHOICE, log entry 3). -/
def freeBytes (n : Nat) (s : State) : List Byte × State :=
  let x := s.fresh
  (toBytes n (Config.freeValue x.1), x.2)

end Sys2Proof.Machine
end

