-- ==== Sys2Proof/Machine/CalCmds.lean ====
section
/-! DEFINITION. Calibration commands and the steps of a run (R423 to R429). -/

namespace Sys2Proof.Machine

/-- TILE_FENCED (R429). -/
def stTileFenced : Nat := 0x0070

/-- The tiles of a mask. -/
def maskTiles (mask : Nat) : List Nat := (List.range 8).filter fun a => mask.testBit a

/-- CAL_RUN (R424, R425, R429) (open corners: DEDUCED, log entry 62). -/
def execCalRun (m : Fin 16) (dma : Dma) (s : State) : Ans :=
  .next (runCommand (calSpec 0x0800) m dma
    (fun c s =>
      let tiles := maskTiles (le c.ps 0 1)
      if 1 < le c.ps 1 1 ∨ le c.ps 2 2 ≠ 0 then refuse stBadParam s
      else if tiles.any fun a => fenced a s then refuse stTileFenced s
      else
        let cause := if le c.ps 1 1 = 1 then 9 else 1
        (⟨stOk, []⟩, tiles.foldl (fun s a => calRequest a cause s.now s) s)) s)

/-- A run of tile a ends after its current step (R428) (open corners: DEDUCED, log entry 62). -/
def calCancel (a : Nat) (s : State) : State :=
  if s.get (CAL_STATE_STATE a) ≠ 2 then s
  else match (s.cal a).step with
    | none => calDrop a s
    | some _ => s.setCal a { s.cal a with cancel := true }

/-- CAL_CANCEL (R428, R429). -/
def execCalCancel (m : Fin 16) (dma : Dma) (s : State) : Ans :=
  .next (runCommand (calSpec 0x0801) m dma
    (fun c s =>
      if le c.ps 1 3 ≠ 0 then refuse stBadParam s
      else (⟨stOk, []⟩, (maskTiles (le c.ps 0 1)).foldl (fun s a => calCancel a s) s)) s)

/-- CAL_STORE: the present selections and trims of the masked tiles go to the Cellar (R429). -/
def execCalStore (m : Fin 16) (dma : Dma) (s : State) : Ans :=
  .next (runCommand (calSpec 0x0802) m dma
    (fun c s =>
      let tiles := maskTiles (le c.ps 0 1)
      if le c.ps 1 3 ≠ 0 then refuse stBadParam s
      else celCommand tiles.length s fun s => (⟨stOk, []⟩, tiles.foldl (fun s a => calStore a s) s)) s)

/-! ### Automatic triggers (R424) -/

/-- The temperature check of tile a, every 1 ms (R424). -/
def execCalTempCheck (a : Fin 8) (s : State) : Ans :=
  let d := absI (s.getI (KILN_TILE_TEMP_T a.val) - s.getI (CAL_T_REF a.val))
  .next (if s.on CAL_CTRL_EN && s.on (CAL_CFG_AUTO_T a.val) && s.on (KILN_TILE_TEMP_VALID a.val)
      && d > max 1 (s.get (CAL_CFG_CAL_DT a.val))
    then calRequest a.val 3 s.now s else s)

/-- The period of tile a has passed since its last run completed (R424): once for each run (open corners: DEDUCED, log entry 62). -/
def execCalPeriodTrigger (a : Fin 8) (s : State) : Ans :=
  let x := s.cal a.val
  let p := s.get (CAL_PERIOD a.val)
  .next (if s.on CAL_CTRL_EN && s.on (CAL_CFG_AUTO_P a.val) && p != 0 && x.fired != some x.lastEnd then
      let s := advanceTo (x.lastEnd + p * 2000000000) s
      let x := s.cal a.val
      calRequest a.val 2 s.now (s.setCal a.val { x with fired := some x.lastEnd })
    else s)

/-! ### Steps (R423, R425 to R428) -/

/-- Elements that the run of tile a skips from step m up to the start of step n (R423) (DEDUCED, log entry 62). -/
def calSkips (a m n : Nat) (s : State) : Nat :=
  ((List.range (min 46 (n + 1))).drop m).foldl (fun c k => c + (stepSkips a k s).length) 0

/-- The next step of the run of tile a starts where it may (R425): the elements skipped up to it are counted; a run whose remaining
steps are all skipped completes. -/
def execCalStepStart (a : Fin 8) (s : State) : Ans :=
  .next (
    let a := a.val
    if s.get (CAL_STATE_STATE a) = 0 ∨ (s.cal a).step.isSome then s
    else
      let n := calFirst a (s.cal a).next s
      match calWhen a (if n = 46 then 0 else stepTicks n) s with
      | none => s
      | some t =>
        let s := advanceTo t s
        let x := s.cal a
        let s := s.incSat (CAL_SKIPS a) (calSkips a x.next n s)
        if n = 46 then
          let s := if x.started then s else s.setCal a { x with temp0 := s.get (KILN_TILE_TEMP_T a) }
          calFinish a t s
        else calStart a n t s)

/-- A step of tile a in progress ends at tick t: `k` records its outcome, and the run goes on (R423, R427, R428). -/
def stepOver (a : Nat) (ticks : Nat) (k : CalStep → State → State) (s : State) : State :=
  match (s.cal a).step with
  | none => s
  | some st =>
    let t := st.at_ + ticks
    let s := advanceTo t s
    calNext a st (max t s.now) (k st s)

/-- The step of tile a ends with what it measured: the selection it found, the elements outside their limits and the delay
residual (R423, R427) (open corners: DESIGN CHOICE, log entry 63). -/
def execCalStepEnd (a : Fin 8) (sel bad : BitVec 72) (res : BitVec 16) (s : State) : Ans :=
  .next (
    match (s.cal a.val).step with
    | none => s
    | some st =>
      stepOver a.val (stepTicks st.step) (fun st s => calApply a.val st sel.toNat bad.toNat res.toNat s) s)

/-- The step of tile a has not finished STEP_TMO after its start (R427); values below 100 us act as 100. -/
def execCalStepTimeout (a : Fin 8) (s : State) : Ans :=
  .next (stepOver a.val (2000 * max 100 (s.get (CAL_STEP_TMO a.val))) (fun st s => calFail a.val st.step true s) s)

/-- No step has started within CAL_WAIT of the request of tile a (R426). -/
def execCalStale (a : Fin 8) (s : State) : Ans :=
  .next (if s.get (CAL_STATE_STATE a.val) = 1 then
      let s := advanceTo ((s.cal a.val).reqAt + 2000000 * s.get (CAL_WAIT a.val)) s
      s.flag (CAL_STATE_CAL_STALE a.val) (864 + a.val)
    else s)

end Sys2Proof.Machine
end

