-- ==== Sys2Proof/Machine/LoadCmds.lean ====
section
/-! DEFINITION. Load commands: programs, samples, descriptors, kernels, decision tables, engine memories and Recipes (R386). -/

namespace Sys2Proof.Machine

/-- The whole units of n bytes that a load's data holds: all of them, or what was moved before a DMA fault (R379). -/
def wholeUnits (n : Nat) (c : Cmd) : List Byte := c.data.take (c.data.length / n * n)

/-- A load's reply: OK, or DMA_FAULT where the data ended early (R379). -/
def loadReply (c : Cmd) (s : State) : Reply × State := (⟨if c.short then stDmaFault else stOk, []⟩, s)

/-- The Supervisor writes data dword by dword from PF0 offset `addr` on (R386). -/
def superWrite (addr : Nat) : Nat → List Byte → State → State
  | 0, _, s => s
  | n + 1, bs, s => superWrite (addr + 4) n (bs.drop 4) (writeDword supervisor 0xF addr (ofBytes (bs.take 4)) s)

/-- The Supervisor writes bytes from PF0 offset `addr` on; a first or last dword that they only fill in part is a partial write
(R358, R386). -/
def superBytes (addr : Nat) (bs : List Byte) (s : State) : State :=
  let head := min bs.length ((4 - addr % 4) % 4)
  let s := if head = 0 then s
    else writeDword supervisor ((2 ^ head - 1) * 2 ^ (addr % 4)) addr (ofBytes (bs.take head) * 2 ^ (8 * (addr % 4))) s
  let rest := bs.drop head
  let s := superWrite (addr + head) (rest.length / 4) rest s
  let tail := rest.length % 4
  if tail = 0 then s
  else writeDword supervisor (2 ^ tail - 1) (addr + head + (rest.length - tail)) (ofBytes (rest.drop (rest.length - tail))) s

/-- LOAD_PROGRAM: the sequencer must be IDLE (R62, R386).  With both host paths lost no program can be loaded, and the command
waits (R20) (open corners: DEDUCED, log entry 107). -/
def execLoadProgram (m : Fin 16) (dma : Dma) (s : State) : Ans :=
  .next (if !hostPath s then s else runCommand (coreSpec 0x0100) m dma
    (fun c s =>
      let k := le c.ps 0 2
      let a := le c.ps 4 4
      if 512 ≤ k ∨ le c.ps 2 2 ≠ 0 ∨ 8192 < a + le c.ps 8 4 then refuse stBadParam s
      else if s.get (SEQ_STATUS_STATE k) ≠ 0 then refuse stStateConflict s
      else loadReply c (s.setBytes (instrStoreBase + 0x10000 * k + 8 * a) (wholeUnits 8 c))) s)

/-- LOAD_SAMPLES: the words land at once (R180, R386). -/
def execLoadSamples (m : Fin 16) (dma : Dma) (s : State) : Ans :=
  .next (runCommand (coreSpec 0x0101) m dma
    (fun c s =>
      let t := le c.ps 0 2
      let a := le c.ps 4 4
      if 64 ≤ t ∨ le c.ps 2 2 ≠ 0 ∨ 262144 < a + le c.ps 8 4 then refuse stBadParam s
      else loadReply c (s.setBytes (sampleBase + 0x100000 * t + 4 * a) (wholeUnits 4 c))) s)

/-- LOAD_DESCRIPTORS: into the shadow bank (R177, R386). -/
def execLoadDescriptors (m : Fin 16) (dma : Dma) (s : State) : Ans :=
  .next (runCommand (coreSpec 0x0102) m dma
    (fun c s =>
      let w := le c.ps 0 4
      let bs := wholeUnits 16 c
      if 131072 < w + le c.ps 4 4 then refuse stBadParam s
      else loadReply c (superWrite (0x110_0000 + 16 * w) (bs.length / 4) bs s)) s)

/-- LOAD_KERNEL: bytes of channel c's kernel window (R264, R386). -/
def execLoadKernel (m : Fin 16) (dma : Dma) (s : State) : Ans :=
  .next (runCommand (coreSpec 0x0103) m dma
    (fun c s =>
      let ch := le c.ps 0 2
      let off := le c.ps 4 4
      if 1024 ≤ ch ∨ le c.ps 2 2 ≠ 0 ∨ 0x2200 < off + le c.ps 8 4 ∨ 0x2200 ≤ off then refuse stBadParam s
      else loadReply c (superBytes (0x200_0000 + 0x4000 * ch + off) c.data s)) s)

/-- LOAD_DECISION: action words (R283, R386). -/
def execLoadDecision (m : Fin 16) (dma : Dma) (s : State) : Ans :=
  .next (runCommand (coreSpec 0x0104) m dma
    (fun c s =>
      let x := le c.ps 0 4
      let bs := wholeUnits 4 c
      if 524288 < x + le c.ps 4 4 then refuse stBadParam s
      else loadReply c (superWrite (0x160_0000 + 4 * x) (bs.length / 4) bs s)) s)

/-- LOAD_ANALYSIS: data memory, or program memory of an engine with EN = 0 (R296, R386). -/
def execLoadAnalysis (m : Fin 16) (dma : Dma) (s : State) : Ans :=
  .next (runCommand (coreSpec 0x0105) m dma
    (fun c s =>
      let a := le c.ps 0 1
      let prog := le c.ps 1 1
      let w := le c.ps 4 4
      let bs := wholeUnits 4 c
      if 8 ≤ a ∨ 1 < prog ∨ le c.ps 2 2 ≠ 0 ∨ (if prog = 1 then 16384 else 65536) < w + le c.ps 8 4 then refuse stBadParam s
      else if prog = 1 ∧ s.on (ANA_CTRL_EN a) then refuse stStateConflict s
      else loadReply c (superWrite (0x300_0000 + 0x8_0000 * a + 0x4_0000 * prog + 4 * w) (bs.length / 4) bs s)) s)

/-- Load one container into each masked Tun: the status of each Tun, newest first, 0 for a Tun outside the mask (R153, R386) (open
corners: DEDUCED, log entry 35). -/
def recipeEach (mask : Nat) (c : List Byte) : Nat → State → List Nat × State
  | 0, s => ([], s)
  | t + 1, s =>
    let x := recipeEach mask c t s
    if mask.testBit t then let r := recipeLoad t c x.2; (r.1 :: x.1, r.2) else (0 :: x.1, x.2)

/-- LOAD_RECIPE: OK when every masked Tun is loaded, PARTIAL when only some are, the shared status when none is; where the
statuses differ, that of the lowest Tun (R153, R386) (open corners: DEDUCED, log entry 35). -/
def execLoadRecipe (m : Fin 16) (dma : Dma) (s : State) : Ans :=
  .next (runCommand (coreSpec 0x0106) m dma
    (fun c s =>
      if c.short then refuse stDmaFault s
      else
        let mask := le c.ps 0 8
        let r := recipeEach mask c.data 64 s
        let sts := r.1.reverse
        let mine := (setBits 64 mask).map fun t => sts.getD t 0
        let pay := sts.flatMap (toBytes 2)
        if mine.all (· == 0) then (⟨stOk, pay⟩, r.2)
        else if mine.any (· == 0) then (⟨stPartial, pay⟩, r.2)
        else (⟨mine.headD 0, []⟩, r.2)) s (fun _ _ => 128))

/-- The containers kept for start-up after one more is stored: an image replaces what was there, a patch comes behind it
(R386, R454) (open corners: DEDUCED, log entry 35). -/
def keepRecipe (c : List Byte) (s : State) : List (List Byte) := if cnKind c = 0 then [c] else s.cel.recipes ++ [c]

/-- Bytes that containers take. -/
def recipeBytes (cs : List (List Byte)) : Nat := cs.foldl (fun n c => n + c.length) 0

/-- STORE_RECIPE: an image or patch container that fits the Cellar's region (R386, R454) (open corners: DEDUCED, log entry 35). -/
def execStoreRecipe (m : Fin 16) (dma : Dma) (s : State) : Ans :=
  .next (runCommand (coreSpec 0x0107) m dma
    (fun c s =>
      if c.short then refuse stDmaFault s
      else if (recipeRecords c.data).isNone || cnKind c.data == 2 then refuse 0x0021 s
      else if 0x20_0000 < recipeBytes (keepRecipe c.data s) then refuse stBadParam s
      else celCommand 1 s fun s => (⟨stOk, []⟩, { s with cel := { s.cel with recipes := keepRecipe c.data s } })) s)

end Sys2Proof.Machine
end

