-- ==== Sys2Proof/Machine/ExciseCmds.lean ====
section
/-! DEFINITION. Excise commands, feeds and the island's own events (R393 to R411, R447). -/

namespace Sys2Proof.Machine

/-- The device is a CQ-256-M. -/
def metered (s : State) : Bool := s.on GLB_REV_VARIANT

/-- Commands reach the island (R409) (open corners: DEDUCED, log entry 60). -/
def islandUp (s : State) : Bool := s.exc.up && s.on EXC_STATUS_ISLAND_UP

/-- EXC_DOWN. -/
def stExcDown : Nat := 0x0045
/-- UNKNOWN_KEY. -/
def stUnknownKey : Nat := 0x0022
/-- BAD_SIGNATURE. -/
def stBadSignature : Nat := 0x0023

/-- The seal's image identity as the first 8 bytes of its digest, little-endian (R407). -/
def sealWord (s : State) : Nat := le (sealId s) 0 8

/-- The eight counters of an account, in the order of R395. -/
def accountCounters (a : Account) : List Nat :=
  [a.begun, a.completed, a.aborted, a.meas, a.active, a.loaded, a.balance, a.uncharged]

/-! ### Reports and log (R406, R408, R447) -/

/-- A report without its signature; `last` is the digest of the last log entry. -/
def reportBody (mask : Nat) (nonce last : List Byte) (s : State) : List Byte :=
  let d := s.exc.cur
  toBytes 4 0x52435845 ++ toBytes 2 1 ++ toBytes 2 mask ++ toBytes 8 (s.get GLB_UID) ++ nonce ++ sealId s ++ toBytes 8 d.breaks
    ++ toBytes 8 d.nextIndex ++ last ++ toBytes 8 s.now ++ toBytes 4 (s.get NT_NOW / 2 ^ 32) ++ toBytes 4 (s.get NT_WRAPS)
    ++ toBytes 4 (b2n d.sealed + 2 * b2n d.ledger + 2 ^ 16 * d.enforce) ++ toBytes 12 0
    ++ (setBits 16 mask).flatMap fun n => toBytes 1 n ++ toBytes 7 0 ++ (accountCounters (s.account n)).flatMap (toBytes 8)

/-- EXC_REPORT (R408); the digest of the last entry of an empty log is a free value (open corners: DEDUCED, log entry 60). -/
def execExcReport (m : Fin 16) (dma : Dma) (s : State) : Ans :=
  .next (runCommand (exciseSpec 0x0600) m dma
    (fun c s =>
      if le c.ps 2 2 ≠ 0 then refuse stBadParam s
      else if !islandUp s then refuse stExcDown s
      else
        let last := match s.exc.cur.log with
          | e :: _ => (sha384 e.bytes, s)
          | [] => freeBytes 48 s
        let body := reportBody (le c.ps 0 2) (slice c.ps 4 32) last.1 last.2
        (⟨stOk, body ++ (Config.reportSign (sha384 body)).toList⟩, last.2)) s
    (fun c _ => 0xC0 + 72 * popcount 16 (le c.ps 0 2) + 96))

/-- Up to `count` entries of the log from the first one held at or after INDEX `first`, in ascending order (R409). -/
def logEntries (first count : Nat) (s : State) : List AuditEntry :=
  ((s.exc.cur.log.reverse).filter fun e => first ≤ e.index).take count

/-- EXC_LOG_READ (R409). -/
def execExcLogRead (m : Fin 16) (dma : Dma) (s : State) : Ans :=
  .next (runCommand (exciseSpec 0x0601) m dma
    (fun c s =>
      let n := le c.ps 8 4
      if n = 0 ∨ 60 < n then refuse stBadParam s
      else if !islandUp s then refuse stExcDown s
      else (⟨stOk, (logEntries (le c.ps 0 8) n s).flatMap AuditEntry.bytes⟩, s)) s
    (fun c s => 64 * (logEntries (le c.ps 0 8) (le c.ps 8 4) s).length))

/-- Certificate k of the report key's chain of n: its own, at k = 0, is for reports, each is issued by the key of the next and the
last by
the Seal Authority root (R447) (DESIGN CHOICE, log entry 12). -/
def reportCert (n k : Nat) (s : State) : List Byte :=
  let usage := (Config.reportUsage k).toNat
  let issuer := if k + 1 < n then keyId (Config.reportSubject (k + 1)).toList else Config.sealRoot.toList
  toBytes 4 0x31434B4E ++ toBytes 2 1 ++ toBytes 2 (if k = 0 then usage ||| 32 else usage)
    ++ toBytes 8 (if Config.reportThis k then s.get GLB_UID else 0) ++ (Config.reportSubject k).toList
    ++ List.replicate 15 0 ++ issuer ++ (Config.reportSignature k).toList

/-- The certificate chain of the report key: COUNT of 1 to 3, then COUNT certificates (R447) (DESIGN CHOICE, log entry 12). -/
def reportChain (s : State) : List Byte :=
  let n := Config.reportIssuers.val + 1
  toBytes 4 n ++ (List.range n).flatMap fun k => reportCert n k s

/-- EXC_GET_CERT (R447). -/
def execExcGetCert (m : Fin 16) (dma : Dma) (s : State) : Ans :=
  .next (runCommand (exciseSpec 0x0607) m dma
    (fun _ s => if islandUp s then (⟨stOk, reportChain s⟩, s) else refuse stExcDown s) s
    (fun _ _ => 4 + 272 * (Config.reportIssuers.val + 1)))

/-! ### Vouchers (R400, R401) -/

/-- Check 2 of R401. -/
def voucherForm (v : List Byte) : Bool :=
  le v 0 4 == 0x56435845 && le v 4 2 == 1 && decide (le v 6 1 ≤ 15) && decide (1 ≤ le v 0x18 8 ∧ le v 0x18 8 ≤ 2 ^ 48)
    && allZero (slice v 0x20 32)

/-- The checks 2 to 7 of R401, in order: the status, 0 where all hold. -/
def voucherCheck (v : List Byte) (s : State) : Nat :=
  let a := s.account (le v 6 1)
  if !voucherForm v then 0x0040
  else if le v 8 8 ≠ s.get GLB_UID then 0x0041
  else match Tab.find? s.exc.cur.keys (le v 7 1) with
    | none => stUnknownKey
    | some k =>
      if !ecdsaVerify (keyId k) (sha384 (v.take 0x40)) (slice v 0x40 96) then stBadSignature
      else if (match a.serial with | some p => decide (le v 0x10 8 ≤ p) | none => false) then 0x0042
      else if 2 ^ 64 ≤ a.loaded + le v 0x18 8 then 0x0043
      else 0

/-- A voucher of an account is accepted, and its serial committed (R401) (open corners: DEDUCED, log entry 60). -/
def voucherLoad (v : List Byte) (s : State) : State :=
  let n := le v 6 1
  let a := s.account n
  let c := le v 0x18 8
  let s := s.setAccount n { a with loaded := a.loaded + c, balance := a.balance + c, serial := some (le v 0x10 8) }
  islandCommit ((audit audVoucherLoaded n (le v 0x10 8) c s).event 72)

/-- EXC_LOAD_VOUCHER (R401). -/
def execExcLoadVoucher (m : Fin 16) (dma : Dma) (s : State) : Ans :=
  .next (runCommand (exciseSpec 0x0602) m dma
    (fun c s =>
      if !islandUp s then refuse stExcDown s
      else if !metered s then refuse stNotAvailable s
      else
        let st := voucherCheck c.ps s
        let acc := if le c.ps 6 1 ≤ 15 then le c.ps 6 1 else 0xFF
        if st ≠ 0 then (⟨st, []⟩, (audit audVoucherRefused acc (le c.ps 0x10 8) st s).event 72)
        else celCommand 1 s fun s => (⟨stOk, []⟩, voucherLoad c.ps s)) s)

/-! ### Enforcement, keys, firmware, seal (R399, R403, R405, R409) -/

/-- EXC_ENFORCE (R399, R409) (open corners: DEDUCED, log entry 60). -/
def execExcEnforce (m : Fin 16) (dma : Dma) (s : State) : Ans :=
  .next (runCommand (exciseSpec 0x0603) m dma
    (fun c s =>
      let mask := le c.ps 0 2
      let old := s.exc.cur.enforce
      let new_ := if le c.ps 2 1 = 1 then old ||| mask else old &&& (0xFFFF ^^^ mask)
      if 1 < le c.ps 2 1 ∨ le c.ps 3 1 ≠ 0 then refuse stBadParam s
      else if !islandUp s then refuse stExcDown s
      else if !metered s then refuse stNotAvailable s
      else if new_ = old then (⟨stOk, []⟩, s)
      else (⟨stOk, []⟩, audit audEnforce 0xFF new_ old (s.modIsland fun d => { d with enforce := new_ }))) s)

/-- EXC_SET_VOUCHER_KEY: a write of the Cellar (R409) (open corners: DEDUCED, log entry 60). -/
def execExcSetVoucherKey (m : Fin 16) (dma : Dma) (s : State) : Ans :=
  .next (runCommand (exciseSpec 0x0604) m dma
    (fun c s =>
      let slot := le c.ps 0 1
      let key := slice c.ps 4 97
      if 3 < slot ∨ le c.ps 1 3 ≠ 0 ∨ le c.ps 101 3 ≠ 0 then refuse stBadParam s
      else if !islandUp s then refuse stExcDown s
      else if !metered s then refuse stNotAvailable s
      else celCommand 1 s fun s =>
        (⟨stOk, []⟩, islandCommit (audit audVoucherKey 0xFF slot (le (keyId key) 0 8)
          (s.modIsland fun d => { d with keys := Tab.list d.keys slot key })))) s)

/-- The KEY_IDs that the island trusts for its firmware: the Seal Authority root and the SA slots, filled at manufacture, whose USAGE
has EXCISE_FW (R446, R447, R449) (DESIGN CHOICE, log entry 12). -/
def sealKeys : List (List Byte) :=
  Config.sealRoot.toList :: (Config.sealSlots.filter fun x => x.2.getLsbD 4).map fun x => x.1.toList

/-- The island's own verification of an Excise firmware container (R403, R449, R451): the status, 0 where it passes. -/
def exciseCheck (c : List Byte) : Nat :=
  if !firmwareHeaderOk 4 2 4128768 c then 0x0055
  else if !sealKeys.contains (cnKey c) then stUnknownKey
  else if !ecdsaVerify (cnKey c) (cnDigest c) (cnSignature c) then stBadSignature
  else 0

/-- An accepted Excise image replaces the old one in the island's Cellar region, and the seal is broken (R402, R403) (open corners:
DEDUCED, log entry 60). -/
def exciseLoad (c : List Byte) (s : State) : State :=
  let s := s.modIsland fun d =>
    { d with image := slice c 0x80 (cnBodyLen c), imageBad := false, breaks := (d.breaks + 1) % 2 ^ 64, sealed := false }
  islandCommit ((audit audSealChange 0xFF s.exc.cur.breaks (sealWord s) s).event 74)

/-- EXC_UPDATE (R403). -/
def execExcUpdate (m : Fin 16) (dma : Dma) (s : State) : Ans :=
  .next (runCommand (exciseSpec 0x0605) m dma
    (fun c s =>
      if c.short then refuse stDmaFault s
      else if !islandUp s then refuse stExcDown s
      else if exciseCheck c.data ≠ 0 then refuse (exciseCheck c.data) s
      else celCommand 1 s fun s => (⟨stOk, []⟩, exciseLoad c.data s)) s)

/-- EXC_SEAL (R405) (open corners: DEDUCED, log entry 60). -/
def execExcSeal (m : Fin 16) (dma : Dma) (s : State) : Ans :=
  .next (runCommand (exciseSpec 0x0606) m dma
    (fun c s =>
      let digest := sha384 (toBytes 8 (s.get GLB_UID) ++ sealId s ++ toBytes 8 s.exc.cur.breaks)
      if !islandUp s then refuse stExcDown s
      else if !metered s then refuse stNotAvailable s
      else if c.ps.take 48 ≠ sealId s then refuse 0x0044 s
      else if !ecdsaVerify Config.sealRoot.toList digest (slice c.ps 48 96) then refuse stBadSignature s
      else celCommand 1 s fun s =>
        let s := s.modIsland fun d => { d with sealed := true }
        (⟨stOk, []⟩, islandCommit ((audit audSealed 0xFF s.exc.cur.breaks (sealWord s) s).event 74))) s)

/-! ### Feeds, commits, restarts, the view (R393 to R398, R411) -/

/-- The tick of the multiple of 2,000 ticks after t, both since the lock: the feeds, the limit messages and the view keep a 1 us
rhythm. -/
def nextMicro (t : Nat) (s : State) : Nat := s.now + ((t / 2000 + 1) * 2000 - s.up)

/-- EXCISE_FEED (R394). -/
def execExciseFeed (s : State) : Ans :=
  let s := advanceTo (nextMicro s.exc.fedAt s) s
  .next (islandFeed false { s with exc := { s.exc with fedAt := s.up } })

/-- LIMIT_FEED (R397). -/
def execLimitFeed (s : State) : Ans :=
  let s := advanceTo (nextMicro s.exc.limitAt s) s
  .next (limitFeed { s with exc := { s.exc with limitAt := s.up } })

/-- When the last limit message of an enforced partition arrived, in ticks since the lock. -/
def lastLimit (s : State) : Option Nat :=
  ((List.range 16).filter fun n => (s.part n).enforced).foldl
    (fun o n => some (max (o.getD 0) (s.part n).limitAt)) none

/-- LIMIT_STALE: 200,000 ticks pass after the last limit message; enforced partitions then hold as if their balance were 0 (R397:
the hold is judged at check 5 from the tick of the last message). -/
def execLimitStale (s : State) : Ans :=
  .next (match lastLimit s with
    | some t => advanceTo (s.now + (t + 200000 - s.up)) s
    | none => s)

/-- ISLAND_COMMIT (R393). -/
def execIslandCommit (s : State) : Ans := .next (islandCommit s)

/-- VDD_EXC_FAIL: the island commits at once and stops; `done` says that VDD_EXC held long enough for the commit (R393, R488). -/
def execVddExcFail (done : Bool) (s : State) : Ans :=
  .next (if !s.exc.up then s
    else
      let ok := done && cellarWarm s
      let e := s.exc
      islandDown { s with exc := { e with up := false, saved := if ok then e.cur else e.saved, dirty := !ok, downAt := e.epoch } })

/-- VDD_EXC_RETURN: the island powers up from its last completed commit, and says whether one was lost (R393). -/
def execVddExcReturn (s : State) : Ans :=
  .next (if s.exc.up then s
    else
      let lost := s.exc.dirty
      let s := islandStart s
      if lost then ledgerBreak 0xFF 0 0 s else s)

/-- ISLAND_RESTART: the island's watchdog restarts a stalled island from its last commit (R398). -/
def execIslandRestart (s : State) : Ans :=
  .next (if s.exc.up then islandStart (islandDown { s with exc := { s.exc with downAt := s.exc.epoch } }) else s)

/-- EXC_VIEW_REFRESH (R411). -/
def execExcViewRefresh (s : State) : Ans :=
  let s := advanceTo (nextMicro s.exc.viewAt s) s
  .next (excView { s with exc := { s.exc with viewAt := s.up } })

end Sys2Proof.Machine
end

