-- ==== Sys2Proof/Machine/SecurityCmds.lean ====
section
/-! DEFINITION. Security, lifecycle and Park Table commands (R444 to R464). -/

namespace Sys2Proof.Machine

/-- WRONG_LIFECYCLE. -/
def stWrongLifecycle : Nat := 0x0050
/-- BAD_CERT. -/
def stBadCert : Nat := 0x0052
/-- CHALLENGE_STALE. -/
def stChallengeStale : Nat := 0x0053
/-- SLOT_EMPTY. -/
def stSlotEmpty : Nat := 0x0054

/-- The lifecycle state. -/
def lifecycle (s : State) : Nat := s.get SEC_STATUS_LIFECYCLE

/-- Move the lifecycle (R444). -/
def setLifecycle (l : Nat) (s : State) : State := (s.set SEC_STATUS_LIFECYCLE l).event 64

/-! ### Ownership and lifecycle (R444, R445) -/

/-- Ownership is taken: the owner root, the Owner's key and the state, in one commit (R445) (open corners: DEDUCED, log entry 68). -/
def takeOwnership (p : List Byte) (s : State) : State :=
  let id := keyId (slice p 0 97)
  let s := (List.range 12).foldl (fun s j => s.set (SEC_OWNER_ROOT j) (le id (4 * j) 4)) s
  let s := s.setB SEC_STATUS_OWNER_ROOT_SET true
  let key : RoleKey := ⟨slice p 100 32, slice p 132 16, le p 148 4⟩
  setLifecycle 1 { s with cel := { s.cel with roles := Tab.list s.cel.roles 1 key, lost := s.cel.lost.filter (· != 1) } }

/-- SEC_TAKE_OWNERSHIP: only while BLANK (R445). -/
def execSecTakeOwnership (m : Fin 16) (dma : Dma) (s : State) : Ans :=
  .next (runCommand (secSpec 0x0700) m dma
    (fun c s =>
      if le c.ps 97 3 ≠ 0 then refuse stBadParam s
      else if lifecycle s ≠ 0 then refuse stWrongLifecycle s
      else celCommand 1 s fun s => (⟨stOk, []⟩, takeOwnership c.ps s)) s)

/-- SEC_SET_FIELD (R444): the debug port closes. -/
def execSecSetField (m : Fin 16) (dma : Dma) (s : State) : Ans :=
  .next (runCommand (secSpec 0x0703) m dma
    (fun _ s =>
      if lifecycle s ≠ 1 then refuse stWrongLifecycle s
      else celCommand 1 s fun s => (⟨stOk, []⟩, setLifecycle 2 s)) s)

/-- Key slot k is emptied. -/
def emptySlot (k : Nat) (s : State) : State :=
  let s := (s.setB (SEC_SLOT_VALID k) false).set (SEC_SLOT_USAGE k) 0
  (List.range 12).foldl (fun s j => s.set (SEC_SLOT_ID k j) 0) s

/-- A signature over a digest verifies under one of several keys. -/
def signedBy (ids : List (List Byte)) (digest sig : List Byte) : Bool := ids.any fun id => ecdsaVerify id digest sig

/-- SEC_RMA: the Operator's and the Owner's keys and the owner slots are erased (R444, R462). -/
def execSecRma (m : Fin 16) (dma : Dma) (s : State) : Ans :=
  .next (runCommand (secSpec 0x0704) m dma
    (fun c s =>
      let digest := sha384 (toBytes 8 (s.get GLB_UID) ++ [0x52, 0x4D, 0x41, 0x21])
      if lifecycle s ≠ 2 then refuse stWrongLifecycle s
      else if !signedBy (trustedIds 0 useDebug s) digest c.ps then refuse stBadSignature s
      else celCommand 1 s fun s =>
        let s := [4, 5, 6, 7].foldl (fun s k => emptySlot k s) s
        (⟨stOk, []⟩, setLifecycle 3
          { s with cel := { s.cel with roles := Tab.drop (Tab.drop s.cel.roles 0) 1 } })) s)

/-! ### Key slots (R447, R448) -/

/-- A key certificate is valid (R447) (open corners: DEDUCED, log entry 68). -/
def certValid (c : List Byte) (s : State) : Bool :=
  le c 0 4 == 0x31434B4E && le c 4 2 == 1 && decide (le c 6 2 < 64) && (le c 8 8 == 0 || le c 8 8 == s.get GLB_UID)
    && allZero (slice c 0x71 15) && ecdsaVerify (slice c 0x80 48) (sha384 (c.take 0xB0)) (slice c 0xB0 96)

/-- The slot of a SIGNER and a SLOT: 0..3 of the Vendor, 4..7 of the Owner (R465). -/
def slotOf (c : Cmd) : Nat := 4 * le c.ps 0 1 + le c.ps 1 1

/-- SIGNER and SLOT are in range. -/
def slotParams (c : Cmd) : Bool := decide (le c.ps 0 1 ≤ 1 ∧ le c.ps 1 1 ≤ 3) && le c.ps 2 2 == 0

/-- The Owner acts on owner slots and the Vendor on vendor slots (R462). -/
def slotDenied (c : Cmd) : Bool := (le c.ps 0 1 == 0 && c.role != 3) || (le c.ps 0 1 == 1 && c.role != 1)

/-- The key of a certificate goes into slot k (R448) (open corners: DEDUCED, log entry 68). -/
def installKey (k : Nat) (cert : List Byte) (s : State) : State :=
  let id := keyId (slice cert 0x10 97)
  let s := (s.setB (SEC_SLOT_VALID k) true).set (SEC_SLOT_USAGE k) (le cert 6 2)
  let s := (List.range 12).foldl (fun s j => s.set (SEC_SLOT_ID k j) (le id (4 * j) 4)) s
  s.flagAlways SEC_STATUS_KEY_CHANGE 66

/-- SEC_ADD_KEY (R448) (open corners: DEDUCED, log entry 68). -/
def execSecAddKey (m : Fin 16) (dma : Dma) (s : State) : Ans :=
  .next (runCommand (secSpec 0x0701) m dma
    (fun c s =>
      let cert := c.ps.drop 4
      if slotDenied c then refuse stRoleDenied s
      else if !slotParams c then refuse stBadParam s
      else if !certValid cert s || rootOf (le c.ps 0 1) s != some (slice cert 0x80 48) then refuse stBadCert s
      else celCommand 1 s fun s => (⟨stOk, []⟩, installKey (slotOf c) cert s)) s)

/-- SEC_REVOKE_KEY (R448). -/
def execSecRevokeKey (m : Fin 16) (dma : Dma) (s : State) : Ans :=
  .next (runCommand (secSpec 0x0702) m dma
    (fun c s =>
      if slotDenied c then refuse stRoleDenied s
      else if !slotParams c then refuse stBadParam s
      else if !s.on (SEC_SLOT_VALID (slotOf c)) then refuse stSlotEmpty s
      else celCommand 1 s fun s => (⟨stOk, []⟩, (emptySlot (slotOf c) s).flagAlways SEC_STATUS_KEY_CHANGE 66)) s)

/-! ### Firmware (R450, R452) -/

/-- A Ryvex container is written into the slot not marked ACTIVE, which is then marked (R452). -/
def loadFirmware (c : List Byte) (s : State) : State :=
  let cel := s.cel
  { s with cel :=
    if cel.active = 0 then { cel with ryvexB := .container c, active := 1 } else { cel with ryvexA := .container c, active := 0 } }

/-- SEC_LOAD_FW: in recovery it needs no session (R450, R452). -/
def execSecLoadFw (m : Fin 16) (dma : Dma) (s : State) : Ans :=
  .next (runCommand { secSpec 0x0705 with sess := !s.host.recovery } m dma
    (fun c s =>
      if c.short then refuse stDmaFault s
      else if ryvexCheck c.data s ≠ 0 then refuse (ryvexCheck c.data s) s
      else celCommand 2 s fun s => (⟨stOk, []⟩, loadFirmware c.data s)) s)

/-- SEC_SET_ROLLBACK raises SEC_FW_MIN to the version of the running Ryvex (R452). -/
def execSecSetRollback (m : Fin 16) (dma : Dma) (s : State) : Ans :=
  .next (runCommand (secSpec 0x0706) m dma
    (fun _ s => celCommand 1 s fun s =>
      let v := max (s.get SEC_FW_MIN) (s.get GLB_FW)
      (⟨stOk, toBytes 4 v⟩, s.set SEC_FW_MIN v)) s (fun _ _ => 4))

/-! ### Debug port (R461) -/

/-- SEC_DEBUG_CHALLENGE (R461). -/
def execSecDebugChallenge (m : Fin 16) (dma : Dma) (s : State) : Ans :=
  .next (runCommand (secSpec 0x0707) m dma
    (fun _ s =>
      let r := freeBytes 20 s
      let ch := toBytes 8 (s.get GLB_UID) ++ toBytes 1 (myDev s) ++ toBytes 1 (lifecycle s)
        ++ toBytes 2 (s.get SEC_DEBUG_COUNT) ++ r.1
      (⟨stOk, ch⟩, r.2.setMbx m { r.2.mbx m with challenge := some (ch, s.up) })) s (fun _ _ => 32))

/-- The debug port opens for a role, after the island's log entry, which a CQ-256-S with ISLAND_UP = 0 goes without, and the count's
commit (R461). -/
def openDebug (role : Nat) (s : State) : Reply × State :=
  if metered s && !islandUp s then refuse stExcDown s
  else
    let s := if islandUp s then audit audDebugReopen 0xFF role 0 s else s
    celCommand 1 s fun s =>
      let s := s.set SEC_DEBUG_COUNT (s.get SEC_DEBUG_COUNT + 1)
      (⟨stOk, []⟩, (s.setB SEC_STATUS_DEBUG_OPEN true).event 67)

/-- SEC_DEBUG_OPEN (R461): the challenge is used up by it (open corners: DEDUCED, log entry 68). -/
def execSecDebugOpen (m : Fin 16) (dma : Dma) (s : State) : Ans :=
  .next (runCommand (secSpec 0x0708) m dma
    (fun c s =>
      let role := le c.ps 0 1
      if role ≠ c.role ∨ le c.ps 1 3 ≠ 0 then refuse stBadParam s
      else
        let ch := (s.mbx m).challenge
        let s := s.setMbx m { s.mbx m with challenge := none }
        match ch with
        | none => refuse stChallengeStale s
        | some (x, at_) =>
          let signer := if role = 3 then 0 else 1
          if at_ + 120000000000 < s.up then refuse stChallengeStale s
          else if !signedBy (trustedIds signer useDebug s) (sha384 (x ++ toBytes 1 role)) (slice c.ps 4 96) then
            (⟨stBadSignature, []⟩, countFail m s)
          else openDebug role s) s)

/-! ### Park Table (R457, R458) -/

/-- Bits of a Park Table entry that are reserved: KIND 0 RFO, 1 Z (R457). -/
def parkReserved (kind e : Nat) : Bool :=
  if kind = 0 then decide (4 ≤ e) else bits e 26 6 != 0 || decide (2 ^ 48 ≤ e)

/-- The entries of a PARK_WRITE payload. -/
def parkEntries (c : Cmd) : List Nat :=
  let n := if le c.ps 0 1 = 0 then 4 else 8
  (List.range (le c.ps 4 2)).map fun k => le c.ps (8 + n * k) n

/-- A Park Table copy with entries written from port `first` on, and its new SEQ (open corners: DEDUCED, log entry 69). -/
def parkPut (kind first seq : Nat) (es : List Nat) (c : ParkCopy) : ParkCopy :=
  let c := es.zipIdx.foldl
    (fun c (x : Nat × Nat) =>
      if kind = 0 then { c with rfo := Tab.put (rfoDefault (first + x.2)) c.rfo (first + x.2) x.1 }
      else { c with z := Tab.put zDefault c.z (first + x.2) x.1 }) c
  { c with valid := true, seq := seq }

/-- PARK_WRITE's effect: both copies, from the one in use, and the registers that show it (R458) (open corners:
DEDUCED, log entry 69). -/
def parkWrite (kind first : Nat) (es : List Nat) (s : State) : State :=
  let base := (parkCopy s).getD {}
  let seq := max s.cel.parkA.seq s.cel.parkB.seq + 1
  let new_ := parkPut kind first seq es base
  let s := { s with cel := { s.cel with parkA := new_, parkB := new_ } }
  let s := s.set CEL_PARK_SEQ seq
  es.zipIdx.foldl
    (fun s x => if kind = 0 then showRfoPark (first + x.2) x.1 s else showZPark (first + x.2) x.1 s) s

/-- PARK_WRITE (R458). -/
def execParkWrite (m : Fin 16) (dma : Dma) (s : State) : Ans :=
  .next (runCommand (secSpec 0x0709) m dma
    (fun c s =>
      let kind := le c.ps 0 1
      let first := le c.ps 2 2
      let es := parkEntries c
      if 1 < kind ∨ le c.ps 1 1 ≠ 0 ∨ le c.ps 6 2 ≠ 0 ∨ (if kind = 0 then 288 else 768) < first + es.length
        || es.any (parkReserved kind) then refuse stBadParam s
      else celCommand 2 s fun s => (⟨stOk, []⟩, parkWrite kind first es s)) s)

/-- A Park Table copy as bytes (R457) (open corners: DEDUCED, log entry 69). -/
def parkTable (c : ParkCopy) : List Byte :=
  let body := (List.range 288).flatMap (fun p => toBytes 4 (rfoEntry (some c) p))
    ++ (List.range 768).flatMap (fun z => toBytes 8 (zEntry (some c) z))
  toBytes 4 0x4B524150 ++ toBytes 2 1 ++ toBytes 2 0 ++ toBytes 4 (crc32c body) ++ toBytes 4 c.seq ++ body

/-- PARK_READ (R462): with no valid copy, the defaults in use (R459). -/
def execParkRead (m : Fin 16) (dma : Dma) (s : State) : Ans :=
  .next (runCommand (secSpec 0x070A) m dma (fun _ s => (⟨stOk, parkTable ((parkCopy s).getD {})⟩, s)) s (fun _ _ => 7312))

end Sys2Proof.Machine
end

