-- ==== Sys2Proof/Machine/SessionCmds.lean ====
section
/-! DEFINITION. Commands of the mailboxes' doorbells, sessions and keys (R373 to R386). -/

namespace Sys2Proof.Machine

/-- MBX_DB.RING through BAR0 (R373, R375): a privileged field in mailboxes 0 to 3 and 12 to 15. -/
def execMbxRing (r : Req) (m : Fin 16) (s : State) : Ans :=
  .next (if m.val < 4 ∨ 12 ≤ m.val then privileged r (MBX_DB_RING m) 1 s (ring r.fn m) else ring r.fn m s)

/-- 3,600 s pass without an accepted command of the mailbox's session (R382). -/
def execSessionTimeout (m : Fin 16) (s : State) : Ans :=
  .next (match (s.mbx m).session with
    | some e => closeSession m (advanceTo (s.now + (e.at_ + 7200000000000 - s.up)) s)
    | none => s)

/-- The lockout of mailbox m ends (R381). -/
def execLockoutExpiry (m : Fin 16) (s : State) : Ans :=
  .next (
    match (s.mbx m).lockEnd with
    | some t =>
      let s := advanceTo (s.now + (t - s.up)) s
      (s.setMbx m { s.mbx m with lockEnd := none }).setB (MBX_DB_LOCKOUT m) false
    | none => s)

/-- GET_INFO's response (R386). -/
def infoBytes (s : State) : List Byte :=
  toBytes 4 (s.get GLB_ID_VENDOR + 65536 * s.get GLB_ID_PART)
    ++ toBytes 4 (s.get GLB_REV_STEPPING + 256 * s.get GLB_REV_VARIANT)
    ++ toBytes 8 (s.get GLB_UID) ++ toBytes 4 (s.get GLB_FW) ++ toBytes 4 (cellarRecipe s)
    ++ toBytes 1 (s.get SEC_STATUS_LIFECYCLE) ++ toBytes 1 (s.get GLB_REV_VARIANT) ++ toBytes 6 0

/-- GET_INFO (R386). -/
def execGetInfo (m : Fin 16) (dma : Dma) (s : State) : Ans :=
  .next (runCommand (coreSpec 0x0001) m dma (fun _ s => (⟨stOk, infoBytes s⟩, s)) s (fun _ _ => 32))

/-- GET_NONCE (R380, R381): the nonce's bytes are free values, and so are SALT and ITER of a role that has none (open corners:
DEDUCED, log entry 56; DEDUCED, log entry 84). -/
def execGetNonce (m : Fin 16) (dma : Dma) (s : State) : Ans :=
  .next (runCommand (coreSpec 0x0002) m dma
    (fun c s =>
      let r := le c.ps 0 1
      if 3 < r ∨ le c.ps 1 3 ≠ 0 then refuse stBadParam s
      else if lockedOut m s then refuse stLockedOut s
      else
        let n := freeBytes 32 s
        let s := n.2.setMbx m { n.2.mbx m with nonce := some ⟨n.1, r, n.2.up⟩ }
        match roleKey r s with
        | some k => (⟨stOk, n.1 ++ k.salt ++ toBytes 4 k.iter⟩, s)
        | none => let x := freeBytes 20 s; (⟨stOk, n.1 ++ x.1⟩, x.2)) s (fun _ _ => 52))

/-- The nonce of mailbox m is one for a role, and not stale (R380) (open corners: DEDUCED, log entry 56). -/
def nonceFor (m r : Nat) (s : State) : Option (List Byte) :=
  match (s.mbx m).nonce with
  | some n => if n.role = r ∧ s.up ≤ n.at_ + 20000000000 then some n.bytes else none
  | none => none

/-- A wrong proof of a role key (R380, R381). -/
def authFail (m : Nat) (s : State) : Reply × State := (⟨stAuthFail, []⟩, countFail m s)

/-- OPEN_SESSION's effect after its checks: the nonce is used up, and the MAC decides (R380, R381, R444) (open corners: DEDUCED,
DEDUCED, log entry 56; DEDUCED, log entry 84). -/
def openSession (m r : Nat) (nonce mac : List Byte) (s : State) : Reply × State :=
  let s := s.setMbx m { s.mbx m with nonce := none }
  match roleKey r s with
  | none => authFail m s
  | some k =>
    if !roleOpen r s || mac ≠ hmac k.v (nonce ++ [BitVec.ofNat 8 r]) then authFail m s
    else
      let x := s.fresh
      let tag := Config.freeValue x.1 % 65535 + 1
      let s := x.2
      let b := s.mbx m
      let s := s.setMbx m { b with session := some ⟨tag, r, 0, s.up, b.origin, k.v, nonce⟩, fails := 0 }
      (⟨stOk, toBytes 2 tag ++ toBytes 2 0⟩, s.setB (MBX_DB_SESSION_OPEN m) true)

/-- OPEN_SESSION (R380, R381) (open corners: DEDUCED, log entry 56). -/
def execOpenSession (m : Fin 16) (dma : Dma) (s : State) : Ans :=
  .next (runCommand (coreSpec 0x0003) m dma
    (fun c s =>
      let r := le c.ps 0 1
      if 3 < r ∨ le c.ps 1 3 ≠ 0 then refuse stBadParam s
      else if lockedOut m s then refuse stLockedOut s
      else match nonceFor m r s with
        | none => refuse stNonceStale (s.setMbx m { s.mbx m with nonce := none })
        | some n => openSession m r n (slice c.ps 4 32) s) s (fun _ _ => 4))

/-- CLOSE_SESSION (R382). -/
def execCloseSession (m : Fin 16) (dma : Dma) (s : State) : Ans :=
  .next (runCommand (coreSpec 0x0004) m dma (fun _ s => (⟨stOk, []⟩, closeSession m s)) s)

/-- SET_KEY (R380, R386): the Owner sets the keys of roles 0 and 1, the Seal Authority that of 2, the Vendor that of 3 (open
corners: DEDUCED, log entry 56). -/
def execSetKey (m : Fin 16) (dma : Dma) (s : State) : Ans :=
  .next (runCommand (coreSpec 0x0005) m dma
    (fun c s =>
      let r := le c.ps 0 1
      let iter := le c.ps 52 4
      if c.role ≠ max r 1 ∧ r ≤ 3 then refuse stRoleDenied s
      else if 3 < r ∨ le c.ps 1 3 ≠ 0 ∨ iter < 10000 then refuse stBadParam s
      else celCommand 1 s fun s =>
        (⟨stOk, []⟩, { s with cel := { s.cel with
          roles := Tab.list s.cel.roles r ⟨slice c.ps 4 32, slice c.ps 36 16, iter⟩
          lost := s.cel.lost.filter (· != r) } })) s)

/-- ECHO (R386). -/
def execEcho (m : Fin 16) (dma : Dma) (s : State) : Ans :=
  .next (runCommand (coreSpec 0x0010) m dma (fun c s => (⟨stOk, c.ps⟩, s)) s (fun c _ => c.ps.length))

/-- SET_SEC_RID (R386): the register takes one write after PORST_L. -/
def execSetSecRid (m : Fin 16) (dma : Dma) (s : State) : Ans :=
  .next (runCommand (coreSpec 0x0504) m dma
    (fun c s =>
      let rid := le c.ps 0 2
      let store := le c.ps 2 1
      if 1 < store ∨ le c.ps 3 1 ≠ 0 then refuse stBadParam s
      else if s.host.secWritten then refuse stStateConflict s
      else if store = 0 then (⟨stOk, []⟩, secRidWrite supervisor rid s)
      else celCommand 1 s fun s =>
        (⟨stOk, []⟩, secRidWrite supervisor rid { s with cel := { s.cel with secRid := some rid } })) s)

end Sys2Proof.Machine
end

