-- ==== Sys2Proof/Machine/CellarCmds.lean ====
section
/-! DEFINITION. Cellar writes that wait for temperature (R386, R440, R464). -/

namespace Sys2Proof.Machine

/-- The command in mailbox m, where it writes the Cellar: what it is by its opcode (R386, R409, R429, R462). -/
def cellarCommand (m : Fin 16) (dma : Dma) (s : State) : Ans :=
  match cmdOp m.val s with
  | 0x0005 => execSetKey m dma s
  | 0x0107 => execStoreRecipe m dma s
  | 0x0504 => execSetSecRid m dma s
  | 0x0602 => execExcLoadVoucher m dma s
  | 0x0604 => execExcSetVoucherKey m dma s
  | 0x0605 => execExcUpdate m dma s
  | 0x0606 => execExcSeal m dma s
  | 0x0700 => execSecTakeOwnership m dma s
  | 0x0701 => execSecAddKey m dma s
  | 0x0702 => execSecRevokeKey m dma s
  | 0x0703 => execSecSetField m dma s
  | 0x0704 => execSecRma m dma s
  | 0x0705 => execSecLoadFw m dma s
  | 0x0706 => execSecSetRollback m dma s
  | 0x0708 => execSecDebugOpen m dma s
  | 0x0709 => execParkWrite m dma s
  | 0x0802 => execCalStore m dma s
  | _ => .next s

/-- CELLAR_TIMEOUT: the command in a mailbox was taken while the Cellar was within its range, passed its checks and queued its
write; the
temperature left the range, and the write has waited 10 s (R386, R440) (open corners: DESIGN CHOICE, log entry 74). -/
def execCellarTimeout (q : Queued) (s : State) : Ans :=
  if !isNext q.m (cmdOp q.m s) s || cellarWarm s then .next s
  else
    let t := (cellarCommand q.m q.dma { s with cel := { s.cel with late := true } }).orSame s
    .next { t with cel := { t.cel with late := false } }

end Sys2Proof.Machine
end

