-- ==== Sys2Proof/Machine/MgmtFrames.lean ====
section
/-! DEFINITION. Management frames and their relays (R383, R384). -/

namespace Sys2Proof.Machine

/-- Length of a body's header and payload. -/
def bodyLength (body : List Byte) : Nat := 20 + le body 12 2

/-- A command for mailbox m, which is POSTED or BUSY, is answered BUSY and not run (R383). -/
def mgmtBusy (m : Nat) (origin : Origin) (body : List Byte) (s : State) : State :=
  mgmtReply m origin (body.take 4) (slice body 4 8 ++ toBytes 2 0 ++ toBytes 2 stBusy ++ toBytes 4 0) [] s

/-- The command of a body goes into mailbox m and is posted (R383). -/
def mgmtCommand (m : Nat) (origin : Origin) (body : List Byte) (s : State) : State :=
  let n := bodyLength body
  let pay := (slice body 20 (n - 20)).take 4080
  let s := s.setBytes (mbBase m) (slice body 4 12)
  let s := s.setBytes (mbBase m + 16) (pay ++ List.replicate (4080 - pay.length) 0)
  post m origin (s.setMbx m { s.mbx m with body := body.take n, tag := slice body n 32 })

/-- A body of VERSION 1 for a mailbox 12..15 (R383). -/
def bodyOk (body : List Byte) : Bool := le body 0 1 == 1 && decide (12 ≤ le body 1 1 ∧ le body 1 1 ≤ 15)

/-- A body for this device arrives (R383). -/
def mgmtHere (origin : Origin) (body : List Byte) (s : State) : State :=
  let m := le body 1 1
  if mbState m s = mbPosted ∨ mbState m s = mbBusy then mgmtBusy m origin body s else mgmtCommand m origin body s

/-- RELAY is 1 and DEST names another device (R384). -/
def relayed (body : List Byte) (s : State) : Bool := (le body 2 1).testBit 7 && le body 2 1 % 64 != myDev s

/-- A frame with RELAY = 1 goes to its device; the relay stands for the pair of device and mailbox (R384) (open corners: DEDUCED,
DEDUCED, log entry 57). -/
def mgmtRelay (e station : Nat) (body : List Byte) (s : State) : State :=
  let dev := le body 2 1 % 64
  let m := le body 1 1
  let rest := s.relays.pending.filter fun p => !(p.1 == dev && p.2.1 == m)
  relayContent dev (toBytesBe 6 station ++ body) { s with relays := { s.relays with pending := (dev, m, e, station) :: rest } }

/-- Content reassembled from a device's MGMT messages: the response to a pending relay, which goes out of the port of its request,
or a request, treated as a frame; one that is dropped counts in ETH_RX_DROPS(0) (R383, R384) (open corners: DEDUCED, log entry 57). -/
def relayArrive (dev : Nat) (content : List Byte) (s : State) : State :=
  let body := content.drop 6
  let m := le body 1 1
  match s.relays.pending.find? (fun p => p.1 == dev && p.2.1 == m) with
  | some (_, _, e, dest) =>
    let n := bodyLength body
    let body := body.take (if n + 32 ≤ body.length then n + 32 else n)
    let rest := s.relays.pending.filter fun p => !(p.1 == dev && p.2.1 == m)
    mgmtFrame e dest body { s with relays := { s.relays with pending := rest } }
  | none =>
    if !s.host.ryvexUp || !bodyOk body then s.incSat (ETH_RX_DROPS 0)
    else mgmtHere (.relay dev (ofBytesBe (content.take 6))) body s

/-- The relaying device of a MGMT message in a flit of device `src`: it itself, where the message has crossed no link before (R323,
R384) (open corners: DEDUCED, log entry 57). -/
def relayedBy (src m : Nat) : Nat := if bits m 10 3 = 0 then src else Config.relaySource src (bits m 10 3) % 64

/-- A MGMT message's DATA from a device joins its reassembly; a gap in FRAG discards it (R384) (open corners:
DEDUCED, log entry 57). -/
def relayFragment (dev data : Nat) (s : State) : State :=
  let frag := data % 256
  let first := data.testBit 8
  let put := fun (x : Option Reass) (s : State) => { s with relays := { s.relays with
    rx := match x with | some r => Tab.list s.relays.rx dev r | none => Tab.drop s.relays.rx dev } }
  let old := if first then some ⟨frag, []⟩ else Tab.find? s.relays.rx dev
  match old with
  | none => s
  | some r =>
    if r.next ≠ frag then put none s
    else
      let bytes := r.bytes ++ toBytes 10 (data / 2 ^ 16)
      if data.testBit 9 then relayArrive dev bytes (put none s) else put (some ⟨(frag + 1) % 256, bytes⟩) s

end Sys2Proof.Machine
end

