-- ==== Sys2Proof/Machine/EtherCmds.lean ====
section
/-! DEFINITION. Commands of the Ethernet ports (R340, R341, R347 to R351, R383). -/

namespace Sys2Proof.Machine

/-! ### Transmission (R341, R348 to R351) -/

/-- The device fetches a transmit buffer of the host into a transmit queue that has room (R341, R371). -/
def ethFetch (q : Nat) (buf : List Byte) (s : State) : State :=
  if !s.on HOST_CTRL_EN || !s.on (QM_Q_CTRL_Q_EN q) || s.full q then s else s.append q { bytes := buf }

/-- A frame of the general queue that starts now would end after the launch time of a waiting timed head, at the present rate of
network time (R351) (DEDUCED, log entry 48). -/
def ethBlocked (e : Nat) (b : List Byte) (s : State) : Bool :=
  match ethHead (ethQueue e 1) s with
  | some h => decide (0 < launchIn h s) &&
      decide (100 * ((txLaunch h * 2 ^ 32 + 2 ^ 64 - ntAt s.now s) % 2 ^ 64) < ethTime (txLen b) * s.get NT_INC)
  | none => false

/-- The port serves the head of its general queue, once the frame on the line is out and no timed head is due before it ends (open
corners: DEDUCED, log entry 48). -/
def ethServe (e : Nat) (s : State) : State :=
  let q := ethQueue e 0
  let s := advanceTo (s.now + (ethFreeUp e s - s.up)) s
  match ethHead q s with
  | none => s
  | some b =>
    if !s.on (ETH_STATUS_LINK e) then s
    else if !txLenOk b then ethComplete e q 4 none b s
    else if s.up < ethFreeUp e s || ethBlocked e b s then s
    else let x := txStamp e s; ethSend e q 0 x.1 b x.2

/-- ETH_TX: the host's transmit buffers enter the general queue, and its head is served (R341, R351). -/
def execEthTx (e : Fin 2) (bufs : List (List Byte)) (s : State) : Ans :=
  .next (ethServe e (bufs.foldl (fun s b => ethFetch (ethQueue e 0) b s) s))

/-- ETH_TIMED_LAUNCH: the host's buffers enter the timed queue; heads that need not wait are served, and one that waits is launched
when its time comes (R350). -/
def execEthTimedLaunch (e : Fin 2) (bufs : List (List Byte)) (s : State) : Ans :=
  let s := bufs.foldl (fun s b => ethFetch (ethQueue e 1) b s) s
  let s := advanceTo s.now s
  .next (match timedDue e s with
    | some t => timedJudge e (runTo (keyOf t rankLaunch) s)
    | none => s)

/-- ETH_LINK: the link of port e comes up or goes down; every timed head is judged, in the next cycle, when it comes up (R19, R351,
R352). -/
def execEthLink (e : Fin 2) (up : Bool) (s : State) : Ans :=
  .next (if s.on (ETH_STATUS_LINK e) = up then s
    else
      let s := ((s.setB (ETH_STATUS_LINK e) up).setB (ETH_STATUS_FEC_LOCK e) up).event (116 + e)
      let s := deriveReady s
      if up then advanceTo (s.now + cyclesFrom s.up s) s else s)

/-! ### Reception (R340, R341, R383) -/

/-- A PAUSE or PFC frame: MAC control, opcode 0x0001 or 0x0101 (R340) (open corners: PRESUMED, log entry 49). -/
def isPause (f : List Byte) : Bool := frameBe f 12 2 == 0x8808 && (frameBe f 14 2 == 0x0001 || frameBe f 14 2 == 0x0101)

/-- A management frame for port e (R383). -/
def isMgmt (e : Nat) (f : List Byte) (s : State) : Bool := etherType f == 0x88B5 && frameBe f 0 6 == station e s

/-- A frame is dropped and counted in ETH_RX_DROPS. -/
def ethDrop (e : Nat) (s : State) : State := s.incSat (ETH_RX_DROPS e)

/-- A management frame that arrives on port e: run, relayed or dropped (R383, R384). -/
def ethMgmt (e : Nat) (f : List Byte) (s : State) : State :=
  let body := f.drop (typeOffset f + 2)
  let src := frameBe f 6 6
  if !s.host.ryvexUp || !bodyOk body then ethDrop e s
  else if relayed body s then mgmtRelay e src body s
  else mgmtHere (.frame e src) body s

/-- The receive header of a frame with an ingress stamp (R341). -/
def rxHeader (f : List Byte) (stamp : Nat) : List Byte :=
  let ptp := ptpOf f
  let flags := b2n ptp.isSome + 2 * (match ptp with | some (k, _) => k | none => 0) + 8 * vlanTags f
  toBytes 2 f.length ++ toBytes 1 flags ++ toBytes 1 0 ++ toBytes 4 (stamp / 256) ++ toBytes 1 stamp ++ toBytes 7 0

/-- Every other frame enters the receive queue with its stamp, or is dropped (R341). -/
def ethQueueRx (e : Nat) (f : List Byte) (s : State) : State :=
  let q := ethQueue e 3
  let x := rxStamp e s
  let s := x.2
  if !s.on (QM_Q_CTRL_Q_EN q) then ethDrop e s
  else if s.full q then ethDrop e (s.noteEmpty q)
  else s.append q { bytes := rxHeader f x.1 ++ f }

/-- A frame of 64 to 9,216 bytes with its FCS arrives on port e, whose link is up; `fcs` says that the FCS is right (R340) (open
corners: PRESUMED, log entry 49). -/
def ethReceive (e : Nat) (f : List Byte) (fcs : Bool) (s : State) : State :=
  if !s.on (ETH_STATUS_LINK e) || f.length < 60 || 9212 < f.length then s
  else if !fcs then (s.incSat (ETH_FCS_ERRORS e)).flag (ETH_STATUS_FCS_ERR e) (120 + e)
  else
    let s := s.inc (ETH_RX_FRAMES e)
    if isPause f then (s.incSat (ETH_PAUSE_RX e)).flag (ETH_STATUS_PAUSE_RX e) (120 + e)
    else if isMgmt e f s then ethMgmt e f s
    else ethQueueRx e f s

/-- ETH_RX_FRAME (R341). -/
def execEthRxFrame (e : Fin 2) (f : List Byte) (fcs : Bool) (s : State) : Ans := .next (ethReceive e f fcs s)

/-- MGMT_FRAME: a frame of the management protocol with a right FCS (R383); another frame is another row's. -/
def execMgmtFrame (e : Fin 2) (f : List Byte) (s : State) : Ans := .next (if isMgmt e f s then ethReceive e f true s else s)

end Sys2Proof.Machine
end

