-- ==== Sys2Proof/Machine/ExportCmds.lean ====
section
/-! DEFINITION. Export of queues to host rings (R389). -/

namespace Sys2Proof.Machine

/-- A queue that can be exported. -/
def exportable (q : Nat) : Bool :=
  decide (0x4000 ≤ q ∧ q < 0x8000) || decide (0x9000 ≤ q ∧ q < 0x9400) || decide (0x9800 ≤ q ∧ q < 0x10000)

/-- n is a power of 2 from 2^lo to 2^hi. -/
def powerIn (lo hi n : Nat) : Bool := (List.range (hi + 1)).any fun k => lo ≤ k && n == 2 ^ k

/-- The export through host ring k. -/
def State.exportOf (s : State) (k : Nat) : Option Export := Tab.find? s.exports k

/-- A queue is being exported. -/
def exported (q : Nat) (s : State) : Bool := s.exports.any fun e => e.2.queue == q

/-- EXPORT_BIND (R389) (open corners: DEDUCED, log entry 59). -/
def execExportBind (m : Fin 16) (dma : Dma) (s : State) : Ans :=
  .next (runCommand (coreSpec 0x0400) m dma
    (fun c s =>
      let q := le c.ps 0 2
      let k := le c.ps 2 2
      let slots := le c.ps 4 4
      let bytes := le c.ps 8 4
      if !exportable q || 1007 < k || !powerIn 4 16 slots || !powerIn 12 20 bytes then refuse stBadParam s
      else if exported q s || (s.exportOf k).isSome then refuse stStateConflict s
      else
        let x : Export := { queue := q, slots := slots, bytes := bytes, addr := le c.ps 12 8 }
        (⟨stOk, []⟩, { s with exports := Tab.list s.exports k x })) s)

/-- EXPORT_UNBIND takes effect after the buffer in progress (R389) (open corners: DEDUCED, log entry 59). -/
def execExportUnbind (m : Fin 16) (dma : Dma) (s : State) : Ans :=
  .next (runCommand (coreSpec 0x0401) m dma
    (fun c s =>
      let q := le c.ps 0 2
      if !exportable q || le c.ps 2 2 ≠ 0 then refuse stBadParam s
      else if !exported q s then refuse stStateConflict s
      else
        let kept := s.exports.filter fun e => !(e.2.queue == q && e.2.done == 0)
        let kept := kept.map fun (e : Nat × Export) => if e.2.queue = q then (e.1, { e.2 with off := true }) else e
        (⟨stOk, []⟩, { s with exports := kept })) s)

/-- An engine's TEE input holds buffers of queue q back until it has copied them (R297). -/
def teeHolds (q : Nat) (s : State) : Bool :=
  (List.range 16).any fun n =>
    engInOn (n / 2) (n % 2) s && s.get (ANA_IN_CFG_MODE (n / 2) (n % 2)) == 1 && s.get (ANA_IN_CFG_QUEUE (n / 2) (n % 2)) == q

/-- The buffer of queue q that an export takes next (open corners: DEDUCED, log entry 59). -/
def exportHead (q : Nat) (s : State) : Option Item :=
  match (s.queue q).items with
  | [] => none
  | it :: _ => if it.visible ≤ s.now && (it.teed || !teeHolds q s) then some it else none

/-- The 16-byte header of a slot that holds n data bytes of a buffer (R389). -/
def slotHeader (q n : Nat) (more : Bool) (it : Item) : List Byte :=
  let ring := decide (0x4000 ≤ q ∧ q < 0x8000)
  toBytes 2 q ++ toBytes 1 (if ring then it.format else 0) ++ toBytes 1 (b2n more) ++ toBytes 4 n
    ++ toBytes 4 (if ring then it.tag else 0) ++ toBytes 4 it.records

/-- The device writes one slot of host ring k, when a buffer waits and PROD - CONS < SLOTS, and advances PROD; `cons` is the CONS
that it read.  The buffer leaves its queue with the PROD that covers its last slot (R389, R312) (open corners:
DEDUCED, log entry 59). -/
def exportSlot (k cons : Nat) (x : Export) (it : Item) (s : State) : State :=
  let cap := x.bytes - 16
  let rest := it.bytes.drop x.done
  let part := rest.take cap
  let more := decide (cap < rest.length)
  let prod := (x.prod + 1) % 2 ^ 64
  if (x.prod + 2 ^ 64 - cons) % 2 ^ 64 ≥ x.slots then s
  else
    let s := s.emit (.hostWrite 0 (x.addr + x.bytes * (x.prod % x.slots)) (slotHeader x.queue part.length more it ++ part))
    let s := s.emit (.hostWrite 0 (x.addr + x.bytes * x.slots) (toBytes 8 prod))
    if more then { s with exports := Tab.list s.exports k { x with prod := prod, done := x.done + part.length } }
    else
      let s := (s.popHead x.queue).2
      { s with exports := if x.off then Tab.drop s.exports k else Tab.list s.exports k { x with prod := prod, done := 0 } }

/-- EXPORT_SLOT_WRITE: the device writes host memory while HOST_CTRL.EN = 1 and the PCI Express link is up (R20, R371, R389) (open
corners: DEDUCED, log entry 59). -/
def execExportSlotWrite (k : Fin 1008) (cons : BitVec 64) (s : State) : Ans :=
  .next (match s.exportOf k with
    | some x =>
      match exportHead x.queue s with
      | some it => if s.on HOST_CTRL_EN && s.on HOST_STATUS_LINK_UP then exportSlot k cons.toNat x it s else s
      | none => s
    | none => s)

end Sys2Proof.Machine
end

