-- ==== Sys2Proof/Machine/FenceCmds.lean ====
section
/-! DEFINITION. Park and fence commands (R197, R230, R231, R475 to R477). -/

namespace Sys2Proof.Machine

/-- The items of a PARK or RELEASE payload: KIND and port. -/
def portItems (c : Cmd) : List (Nat × Nat) :=
  (List.range (le c.ps 0 4)).map fun k => (le c.ps (4 + 4 * k) 2, le c.ps (6 + 4 * k) 2)

/-- Items name ports: KIND 0 an RFO port, KIND 1 a Z port, 1 to 1,019 of them. -/
def portsOk (xs : List (Nat × Nat)) : Bool :=
  !xs.isEmpty && decide (xs.length ≤ 1019) && xs.all fun x => (x.1 == 0 && x.2 < 288) || (x.1 == 1 && x.2 < 768)

/-- PARK: the named ports go to Park with cause 6 (R196, R227). -/
def execPark (m : Fin 16) (dma : Dma) (s : State) : Ans :=
  .next (runCommand (coreSpec 0x0500) m dma
    (fun c s =>
      if !portsOk (portItems c) then refuse stBadParam s
      else (⟨stOk, []⟩, (portItems c).foldl
        (fun s x => if x.1 = 0 then parkRfo x.2 6 s.now s else parkZ x.2 6 s.now s) s)) s)

/-- RELEASE: cause 6 of the named ports clears (R197, R230). -/
def execRelease (m : Fin 16) (dma : Dma) (s : State) : Ans :=
  .next (runCommand (coreSpec 0x0501) m dma
    (fun c s =>
      if !portsOk (portItems c) then refuse stBadParam s
      else (⟨stOk, []⟩, (portItems c).foldl (fun s x => if x.1 = 0 then rfoRelease x.2 s else zRelease x.2 s) s)) s)

/-- FENCE parks and fences the tile, and the command stays BUSY until its supplies are off; a tile that is fenced already
completes at once (R231, R475, R476) (open corners: DEDUCED, log entry 54; DEDUCED, log entry 72). -/
def execFence (m : Fin 16) (dma : Dma) (s : State) : Ans :=
  .next (takeCommand (coreSpec 0x0502) m dma (fun _ _ => 0)
    (fun c _ s =>
      let a := le c.ps 0 1
      if 8 ≤ a ∨ le c.ps 1 3 ≠ 0 then finish m ⟨stBadParam, []⟩ s
      else if fenced a s then finish m ⟨stOk, []⟩ s
      else
        let powered := tilePowered a s
        let s := fenceTile a 1 false s.now s
        if !powered then finish m ⟨stOk, []⟩ s
        else
          let s := { s with host := { s.host with posted := s.host.posted.filter (· != m.val) } }
          (s.setMbx m { s.mbx m with tile := some a }).set (MBX_DB_STATE m) mbBusy) s)

/-- The mailboxes whose FENCE command waits for tile a. -/
def fenceWaiters (a : Nat) (s : State) : List Nat :=
  (List.range 16).filter fun m => (s.mbx m).tile == some a && mbState m s == mbBusy

/-- Cause and tick of the fence of tile a (R475). -/
def fenceCause (a : Nat) (s : State) : Nat := Tab.get 0 s.fences a % 256
/-- Its tick. -/
def fenceTick (a : Nat) (s : State) : Nat := Tab.get 0 s.fences a / 256

/-- Every Z port of tile a has reached its Park value. -/
def parkedAll (a : Nat) (s : State) : Bool := (tileZps a).all fun z => s.on (ZP_STATUS_PARK_DONE z)

/-- The tick of the next step of a Park sequence of tile a's ports. -/
def nextParkStep (a : Nat) (s : State) : Option Nat :=
  (s.due.filterMap fun x => match x.2 with
    | .zParkOpen z _ | .zParkEnd z _ | .zParkDone z _ | .zWindowEnd z _ => if z / 96 = a then some x.1 else none
    | _ => none).min?

/-- Time passes until every Z port of tile a has reached its Park value, or to tick `limit` if that comes first (R231): at most one
step
of a Park sequence for each unit of fuel (DEDUCED, log entry 72). -/
def untilParked : Nat → Nat → Nat → State → State
  | 0, _, limit, s => advanceTo limit s
  | fuel + 1, a, limit, s =>
    if parkedAll a s then s
    else match nextParkStep a s with
      | some t => if t < limit then untilParked fuel a limit (advanceTo t s) else advanceTo limit s
      | none => advanceTo limit s

/-- After PARK_DONE on every port, or 2 s after the Park, whichever comes first, the supplies of a tile fenced by command go off,
and the command completes (R231) (open corners: DEDUCED, log entry 54; DEDUCED, log entry 72). -/
def execFencePowerOff (a : Fin 8) (s : State) : Ans :=
  .next (if !fenced a s || fenceCause a s != 1 || !tilePowered a s then s
    else
      let s := untilParked 1024 a (fenceTick a s + 4000000000) s
      let s := tileOff a s.now s
      rejectAll ((fenceWaiters a s).foldl (fun s m => finish m ⟨stOk, []⟩ (s.setMbx m { s.mbx m with tile := none })) s))

/-- What keeps tile a fenced (R477, step 1); `stands` says that a loss of Park logic persists. -/
def fenceStands (a : Nat) (stands : Bool) (s : State) : Bool :=
  !fenced a s || s.on KILN_STATUS_SHUTDOWN_LATCHED || s.on KILN_STATUS_CRIT_ACTIVE ||
    ((List.range 4).all fun d => s.on (KILN_TEMP_FAULT (4 * a + d))) || (fenceCause a s == 2 && stands)

/-- The fence of tile a is lifted: its enables are high and its rails are good, it holds, the Park Table is applied, the stored
selections are loaded (R477, steps 3 to 5) (open corners: DEDUCED, log entry 72; DEDUCED, log entry 89). -/
def liftFence (a : Nat) (s : State) : State :=
  let s := applyPark false a s.now (holdTile a s)
  let s := calLoad a s
  let s := { s with
    fences := Tab.drop s.fences a
    host := { s.host with
      parkLost := s.host.parkLost.filter (· != a), enTiles := a :: s.host.enTiles.filter (· != a) } }
  (s.set GLB_STATUS_FENCED (s.get GLB_STATUS_FENCED - 2 ^ a)).event 13 a

/-- UNFENCE (R477): `rails` says that the tile's rails report good within 50 ms of their enables, `stands` that a loss of its Park
logic persists (open corners: DEDUCED, log entry 54; DEDUCED, log entry 72; DEDUCED, log entry 89). -/
def execUnfence (m : Fin 16) (dma : Dma) (rails stands : Bool) (s : State) : Ans :=
  .next (runCommand (coreSpec 0x0503) m dma
    (fun c s =>
      let a := le c.ps 0 1
      if 8 ≤ a ∨ le c.ps 1 3 ≠ 0 then refuse stBadParam s
      else if fenceStands a stands s then refuse stStateConflict s
      else if !rails then refuse stStateConflict (advanceTo (s.now + 100000000) s)
      else (⟨stOk, []⟩, liftFence a s)) s)

end Sys2Proof.Machine
end

