-- ==== Sys2Proof/Machine/Fires.lean ====
section
/-! DEFINITION. The firing of timed event entries (R78): one command per entry kind.  A command names the sequencer and the
queue whose head entry fires; where the head is no entry of the command's kind nothing fires. -/

namespace Sys2Proof.Machine

/-- The head entry of queue j of sequencer k fires at its tick, when it has the kind: what the order of R78 puts before it takes
place first, then it leaves the queue and acts (R78) (open corners: DEDUCED, log entry 37). -/
def fireHead (kind k j : Nat) (s : State) : State :=
  match teq k j s with
  | [] => s
  | e :: _ =>
    if e.kind = kind then
      let s := runTo (keyOf e.tick (rankEntry e.seq j kind)) s
      match teq k j s with
      | [] => s
      | e :: _ => if e.kind = kind then fireEntry k j s else s
    else s

/-- A PULSE entry fires on its tone lane (R168, R172, R174) (DEDUCED, log entry 37). -/
def execPulseFire (k : Fin 512) (j : Fin 32) (s : State) : Ans := .next (fireHead 0 k.val j.val s)

/-- A ZPULSE entry fires on its Z lane (R168, R172, R176). -/
def execZpulseFire (k : Fin 512) (j : Fin 32) (s : State) : Ans := .next (fireHead 1 k.val j.val s)

/-- A BIAS_SET entry fires (R214, R218) (DEDUCED, log entry 37). -/
def execBiasSetFire (k : Fin 512) (j : Fin 32) (s : State) : Ans := .next (fireHead 2 k.val j.val s)

/-- A BIAS_RAMP entry fires (R214, R218). -/
def execBiasRampFire (k : Fin 512) (j : Fin 32) (s : State) : Ans := .next (fireHead 3 k.val j.val s)

/-- A MEASURE entry fires on its channel (R244, R252) (DEDUCED, log entry 37). -/
def execMeasureFire (k : Fin 512) (j : Fin 32) (s : State) : Ans := .next (fireHead 4 k.val j.val s)

/-- An ACQ entry fires: a trigger reaches its Tap unit (R306) (DEDUCED, log entry 37). -/
def execAcqFire (k : Fin 512) (j : Fin 32) (s : State) : Ans := .next (fireHead 5 k.val j.val s)

/-- A FRAME entry fires: it changes its frame, before the pulses of its tick latch it (R163, R164) (DEDUCED, log entry 37). -/
def execFrameFire (k : Fin 512) (j : Fin 32) (s : State) : Ans := .next (fireHead 6 k.val j.val s)

end Sys2Proof.Machine
end

