-- ==== Sys2Proof/Machine/FlitCmds.lean ====
section
/-! DEFINITION. Reception of flits and dispatch of their messages (R326, R329, R332, R333, R337). -/

namespace Sys2Proof.Machine

/-- A flit passes its checks (R322, R329). -/
def flitOk (f : Nat) : Bool := bits f 0 8 == 0x78 && bits f 448 32 == crc32c (toBytes 56 f)

/-- A flit is discarded, and CRC_RETRAIN of them within 1 ms retrain the link (R329, R333) (open corners: DEDUCED, log entry 46). -/
def flitDiscard (n : Nat) (s : State) : State :=
  let s := (s.incSat (FLV_CRC_ERRORS n)).flag (FLV_STATUS_CRC_ERR n) (768 + n)
  let x := s.link n
  let at_ := s.now :: x.crcAt.filter fun t => s.now < t + 2000000
  let r := s.get (FLV_CFG_CRC_RETRAIN n)
  if r ≠ 0 ∧ r ≤ at_.length ∧ linkState n s = lkActive then retrain n s.now (s.setLink n { x with crcAt := [] })
  else s.setLink n { x with crcAt := at_ }

/-- SEQ and CREDIT of a good flit (R328 to R330). -/
def flitHeader (n f : Nat) (s : State) : State :=
  let x := s.link n
  let q := bits f 8 16
  let want := match x.rxSeq with | some p => (p + 1) % 65536 | none => 0
  let c := bits f 24 8
  let s := s.setLink n { x with rxSeq := some q }
  let s := if q = want then s else s.incSat (FLV_SEQ_GAPS n)
  (s.inc (FLV_CREDITS_BACK n) c).set (FLV_CREDIT_TX_CREDITS n) (s.get (FLV_CREDIT_TX_CREDITS n) + c)

/-- The one-way latency of a delivered RESULT or TRIGGER (R337) (open corners: DESIGN CHOICE, log entry 47). -/
def oneWay (n m : Nat) (s : State) : State :=
  if !(m.testBit 13) || !s.on TL_STATUS_ALIGNED then s
  else
    let d := satN 16 ((s.now + 2 ^ 48 - bits m 64 48) % 2 ^ 48)
    let s := (s.set (FLV_LAT_1W_LAST_LAT n) d).setB (FLV_LAT_1W_LAST_VALID n) true
    let lo := if s.on (FLV_LAT_1W_MIN_VALID n) then min d (s.get (FLV_LAT_1W_MIN_LAT n)) else d
    let hi := if s.on (FLV_LAT_1W_MAX_VALID n) then max d (s.get (FLV_LAT_1W_MAX_LAT n)) else d
    let s := (s.set (FLV_LAT_1W_MIN_LAT n) lo).setB (FLV_LAT_1W_MIN_VALID n) true
    (s.set (FLV_LAT_1W_MAX_LAT n) hi).setB (FLV_LAT_1W_MAX_VALID n) true

/-- A RESULT is written into its remote pair (R266, R270) (open corners: DEDUCED, log entry 46; DESIGN CHOICE, log entry 47). -/
def resultHere (n m : Nat) (s : State) : State :=
  let r := writePair (1024 + bits m 16 10) (bits m 26 2) (bits m 32 16) (m.testBit 28) s.now s
  oneWay n m (if r.1 then r.2.inc DEC_REMOTE_RX else r.2)

/-- A TRIGGER appends its value to its queue, or is dropped (R326). -/
def triggerHere (n m : Nat) (s : State) : State :=
  let q := bits m 16 16
  if q < 0x9800 ∨ s.owner q ≠ s.get (FLV_CFG2_TRIG_PART n) ∨ !s.on (QM_Q_CTRL_Q_EN q) then rxDrop s
  else if s.full q then rxDrop (s.noteEmpty q)
  else oneWay n m (s.append q { bytes := toBytes 4 (bits m 32 32), visible := visibleAt q s.now s })

/-- A TIME request is answered: the reply enters TX ingress at the tick at which the request leaves the receiver, so that H, the
ticks between them, is 0.  A reply ends the exchange that it names (R332) (open corners: DEDUCED, log entry 46;
DESIGN CHOICE, log entry 47). -/
def timeHere (n src m : Nat) (s : State) : State :=
  let num := bits m 24 8
  if !m.testBit 16 then
    linkSend n (timeMsg src true num (bits m 32 48) 0 s) s
  else match (s.link n).t1 with
    | some (k, t1) =>
      if k ≠ num then s
      else
        let rt := (s.now + 2 ^ 48 - t1 % 2 ^ 48) % 2 ^ 48 - bits m 80 16
        let s := s.setLink n { s.link n with t1 := none }
        (s.set (FLV_LAT_RT_LAT n) (satN 16 ((rt + 1) / 2))).setB (FLV_LAT_RT_VALID n) true
    | none => s

/-- A message in transit goes on with HOPS incremented, or is dropped: in FLV_RX_DROPS where R326 drops it, as R328 counts it
where it cannot be queued (DEDUCED, log entry 46). -/
def transit (n m : Nat) (s : State) : State :=
  if bits m 10 3 = 7 || txRefused m (some n) s then rxDrop s
  else linkSend (s.get (FLV_ROUTE_LINK (bits m 4 6))) (m + 2 ^ 10) s

/-- Dispatch of one message of a flit from device `src` (R326). -/
def dispatch (n src m : Nat) (s : State) : State :=
  let ty := bits m 0 4
  if ty = 0 then s
  else if 4 < ty then rxDrop s
  else if bits m 4 6 ≠ myDev s then transit n m s
  else match ty with
    | 1 => resultHere n m s
    | 2 => triggerHere n m s
    | 3 => timeHere n src m s
    | _ => relayFragment (relayedBy src m) (m / 2 ^ 32) s

/-- The invalid sync headers among the blocks of a received flit, each on its lane (R321, R339) (DEDUCED, log entry 46). -/
def countSync (n x : Nat) (s : State) : State :=
  (rxBlocks x).zipIdx.foldl
    (fun s b =>
      let l := blockLane n (linkWidth n s) b.2
      if syncValid b.1.sync then s
      else (s.setFibre l { s.fibre l with bad := (s.fibre l).bad + 1 }).incSat (FLV_SYNC_ERRORS l)) s

/-- A flit that link n's receiver gives out is consumed, checked, and dispatched or discarded (R326, R329) (DEDUCED, log entry 46). -/
def flitTake (n f : Nat) (s : State) : State :=
  let s := flitConsume n s
  if !flitOk f then flitDiscard n s
  else (List.range (bits f 38 2)).foldl (fun s k => dispatch n (bits f 32 6) (bits f (64 + 128 * k) 128) s) (flitHeader n f s)

/-- A flit leaves link n's receiver, as the 8 blocks that the lanes brought (R321, R326, R329).  One that comes in EIDLE is not
lost: the
credit that it owes ends EIDLE by an exit burst (R334).  One that the receiver held as its link left ACTIVE is flushed (R330, R331). -/
def execFlitRx (n : Fin 32) (f : BitVec 528) (s : State) : Ans :=
  .next (if linkState n s = lkActive then flvPump n 64 (flitTake n (rxFlit f.toNat) (countSync n f.toNat s))
    else if linkState n s = lkEidle then startExit n (flitTake n (rxFlit f.toNat) (countSync n f.toNat s))
    else if s.now < (s.link n).flushTo then flitFlush n s
    else s)

end Sys2Proof.Machine
end

