-- ==== Sys2Proof/Machine/HostCmds.lean ====
section
/-! DEFINITION. Host accesses through BAR0, the locks, the partition map, queue resets, configuration integrity and Function
Level Reset (R89, R91, R354 to R367, R382). -/

namespace Sys2Proof.Machine

/-! ### BAR2 and configuration space (R354, R379) -/

/-- MSI-X vectors of a function, and its first device vector (R354). -/
def msixVectors (fn : Nat) : Nat × Nat := if fn = 0 then (96, 0) else (32, 96)

/-- A table entry changes; a vector that is unmasked with its pending bit set sends its message (R354, R369)
(PRESUMED, log entry 113). -/
def setMsix (v : Nat) (x : Msix) (s : State) : State :=
  let s := { s with host := { s.host with msix := Tab.put {} s.host.msix v x } }
  if !x.masked && s.host.pba.contains v then
    ({ s with host := { s.host with pba := s.host.pba.filter (· != v) } }).emit (.msix v x.addr x.data)
  else s

/-- A write of a dword of a function's BAR2: its MSI-X table from offset 0 on; the PBA is read-only (PRESUMED, log entry 113). -/
def bar2Write (fn a v : Nat) (s : State) : State :=
  let k := msixVectors fn
  if a / 16 < k.1 then
    let n := k.2 + a / 16
    let x := s.msix n
    setMsix n (match a % 16 / 4 with
      | 0 => { x with addr := putBits x.addr 0 32 (v - v % 4) }
      | 1 => { x with addr := putBits x.addr 32 32 v }
      | 2 => { x with data := v }
      | _ => { x with masked := v.testBit 0 }) s
  else s

/-- A dword of a function's BAR2: its MSI-X table from offset 0 on, its PBA from 0x2000 on (PRESUMED, log entry 113). -/
def bar2Read (fn a : Nat) (s : State) : Nat :=
  let k := msixVectors fn
  if a / 16 < k.1 then
    let x := s.msix (k.2 + a / 16)
    match a % 16 / 4 with
    | 0 => bits x.addr 0 32
    | 1 => bits x.addr 32 32
    | 2 => x.data
    | _ => b2n x.masked
  else if 0x2000 ≤ a ∧ a < 0x2010 then
    (List.range 32).foldl (fun n j => n + b2n (8 * (a - 0x2000) + j < k.1 && s.host.pba.contains (k.2 + 8 * (a - 0x2000) + j)) * 2 ^ j) 0
  else 0

/-- A write of a dword of a function's configuration space: Bus Master Enable is bit 2 of the Command register at offset 4
(PRESUMED, log entry 113). -/
def configWrite (fn be a v : Nat) (s : State) : State :=
  if a = 4 ∧ be.testBit 0 then
    let rest := s.host.master.filter (· != fn)
    { s with host := { s.host with master := if v.testBit 2 then fn :: rest else rest } }
  else s

/-- A write of a dword outside BAR0: BAR2 takes whole dwords (PRESUMED, log entry 113). -/
def otherWrite (r : Req) (be a v : Nat) (s : State) : State :=
  match r.space with
  | .bar0 => s
  | .bar2 => if be = 0xF then bar2Write r.fn.val a v s else s
  | .config => configWrite r.fn.val be a v s

/-- A dword outside BAR0. -/
def otherRead (r : Req) (a : Nat) (s : State) : Nat :=
  match r.space with
  | .bar0 => 0
  | .bar2 => bar2Read r.fn.val a s
  | .config => if a = 4 then 4 * b2n (busMaster r.fn.val s) else 0

/-- A Function Level Reset resets the function's configuration space and its MSI-X table (PRESUMED, log entry 113). -/
def functionReset (fn : Nat) (s : State) : State :=
  let k := msixVectors fn
  let mine := fun v => decide (k.2 ≤ v ∧ v < k.2 + k.1)
  { s with host := { s.host with
    msix := s.host.msix.filter fun x => !mine x.1
    pba := s.host.pba.filter fun v => !mine v
    master := s.host.master.filter (· != fn) } }

/-! ### Requests -/

/-- A write request: byte enables and data of consecutive dwords from an offset of the requester's BAR0, BAR2 or configuration space on
(R354, R358 to R365). -/
def execRegisterWrite (r : Req) (addr : BitVec 26) (xs : List (BitVec 4 × Dword)) (s : State) : Ans :=
  let a := addr.toNat - addr.toNat % 4
  .next (if r.space = .bar0 then writeRequest r a xs s
    else xs.zipIdx.foldl (fun s x => otherWrite r x.1.1.toNat (a + 4 * x.2) x.1.2.toNat s) s)

/-- A read request: byte enables of consecutive dwords.  It completes after every earlier write has been applied; its completion
carries the data (R358, R359, R364). -/
def execLoRead (r : Req) (addr : BitVec 26) (bes : List (BitVec 4)) (s : State) : Ans :=
  .next (
    let s := applyWrites s
    let a := addr.toNat - addr.toNat % 4
    let x := if r.space = .bar0 then readRequest r a bes s
      else ((List.range bes.length).map fun k => otherRead r (a + 4 * k) s, s)
    x.2.emit (.completion r.fn.val r.rid.toNat (x.1.foldr (fun d n => d + 2 ^ 32 * n) 0)))

/-- A write of HOST_SEC_RID (R360, R365). -/
def execSecRidWrite (r : Req) (rid : BitVec 16) (s : State) : Ans :=
  .next (privileged r HOST_SEC_RID_RID rid.toNat s (secRidWrite r rid.toNat))

/-- GLB_LOCK.PART_LOCK (R365). -/
def execPartLock (r : Req) (s : State) : Ans :=
  .next (privileged r GLB_LOCK_PART_LOCK 1 s fun s => s.setB GLB_LOCK_PART_LOCK true)

/-- GLB_LOCK.VEC_LOCK (R365). -/
def execVecLock (r : Req) (s : State) : Ans :=
  .next (privileged r GLB_LOCK_VEC_LOCK 1 s fun s => s.setB GLB_LOCK_VEC_LOCK true)

/-- A write of partition register j of a map (R89, R365, R372). -/
def execPartWrite (r : Req) (m : PartMap) (j : Fin 128) (v : Dword) (s : State) : Ans :=
  .next (privileged r (partFld m j.val) v.toNat s fun s =>
    if s.on GLB_LOCK_PART_LOCK then accessFault r .locked true 0xF (partFld m j.val).dword v.toNat s
    else partWrite m j.val v.toNat s)

/-- QM_Q_CTRL.RESET of the queue that the requester has selected (R91, R95). -/
def execQueueReset (r : Req) (s : State) : Ans :=
  .next (privileged r ⟨8 * 0x3A0108 + 1, 1, 0⟩ 1 s fun s => queueReset (qmSel (reqId r) s) s)

/-- A write of 1 to a block's COMMIT (R367). -/
def execCfgCrcCommit (r : Req) (b : CfgBlock) (s : State) : Ans :=
  .next (privileged r ⟨(crcRegs b).ref.key + 32, 1, 0⟩ 1 s (crcCommit b))

/-- A pass of a block's configuration CRC ends (R366, R367). -/
def execCrcPass (b : CfgBlock) (s : State) : Ans := .next (crcPass b s)

/-- A Function Level Reset closes the sessions that the function opened, and resets its own PCI Express state (R354, R382). -/
def execFlr (fn : Fin 2) (s : State) : Ans :=
  .next ((List.range 12).foldl (fun s m =>
    match (s.mbx m).session with
    | some e => if e.origin = .host fn.val then closeSession m s else s
    | none => s) (functionReset fn.val s))

/-- NT_INC_WRITE: a write to NT_INC_HI, whose bits [7:0] are privileged, with the low half that the requester holds for the pair,
or the
present one (R344, R361, R364). -/
def execNtIncWrite (r : Req) (hi : Dword) (s : State) : Ans :=
  .next (if isPriv r s then
      let x := pairLow (reqId r) 0x2_0014 NT_INC s
      ntIncHi x.1 hi.toNat x.2
    else if hi.toNat % 256 = 0 then s
    else accessFault r .privilege true 0xF 0x2_0014 hi.toNat s)

end Sys2Proof.Machine
end

