-- ==== Sys2Proof/Machine/MonCmds.lean ====
section
/-! DEFINITION. Monitor converters, path diagnosis and the bridge channels (R412 to R422, R429). -/

namespace Sys2Proof.Machine

/-- a / b where the spec does not say how the quotient is rounded: the floor, or one more where b does not divide a (DESIGN CHOICE,
DESIGN CHOICE, log entry 3; DEDUCED, log entry 64; DESIGN CHOICE, log entry 65). -/
def openQuotient (a : Int) (b : Nat) (s : State) : Int × State :=
  if a % b = 0 then (a / b, s)
  else
    let f := s.fresh
    (a / b + (Config.freeValue f.1 % 2 : Nat), f.2)

/-- MON_DIAG (R417, R429): `m1`, `m2`, `i1`, `i2` are the codes of its four conversions; a reserved input reads code 0 (R412).
The command leaves MON_TDAC as it was (open corners: DEDUCED, log entry 64). -/
def execMonDiag (m : Fin 16) (dma : Dma) (m1 m2 i1 i2 : BitVec 12) (s : State) : Ans :=
  .next (runCommand (calSpec 0x0803) m dma
    (fun c s =>
      let x := le c.ps 0 1
      let i := le c.ps 1 1
      if 9 < x ∨ 63 < i ∨ le c.ps 2 2 ≠ 0 then refuse stBadParam s
      else if decide (x < 8) && fenced x s then refuse stTileFenced s
      else
        let code := fun (v : BitVec 12) => if inputListed x i then v.toInt else 0
        let d := code m2 - code m1
        let g := openQuotient ((d - 3072) * 65536) 3072 s
        let o := openQuotient (code m1 + code m2) 2 g.2
        let isOpen := absI d ≤ 4 * absI (code i2 - code i1)
        (⟨stOk, toBytes 4 (wrap 32 g.1) ++ toBytes 2 (wrap 16 o.1) ++ toBytes 1 (b2n isOpen) ++ toBytes 1 0⟩, o.2))
    s (fun _ _ => 8))

/-! ### Sequence entries (R414, R415) -/

/-- The trigger of sequence entry j of converter x fires: time passes through the tick at which it does (R414) (open corners:
DEDUCED, log entry 64). -/
def execMonSeqFire (x : Fin 10) (j : Fin 8) (s : State) : Ans :=
  .next (if s.on MON_CTRL_EN then
      match monFires x.val j.val s with
      | none => s
      | some t => runTo (keyOf t rankStart) s
    else s)

/-- The result of conversion c of converter x (R412, R414 to R416) (DEDUCED, log entry 64). -/
def monResult (x : Nat) (code : BitVec 12) (c : MonConv) (s : State) : State :=
  let m := s.mon x
  let s := s.setMon x { m with begun := m.begun.drop 1 }
  let late := decide (c.fire < c.at_)
  let s := s.set (MON_RES_CODE x c.entry) (if inputListed x c.input then code.toNat else 0)
  let s := s.setB (MON_RES_VALID x c.entry) true
  let s := s.setB (MON_RES_LATE x c.entry) late
  let s := s.setB (MON_RES_TEST x c.entry) (tdacOn x c.input s)
  let s := s.set (MON_RES_TICK x c.entry) c.at_
  if late then s.flag (MON_SAR_STATUS_LATE x) 856 else s

/-- The oldest conversion under way on converter x, or else the one that it starts next, completes with a code (R412 to R416)
(open corners: DEDUCED, log entry 64). -/
def execMonConversion (x : Fin 10) (code : BitVec 12) (s : State) : Ans :=
  let x := x.val
  let s1 := match (s.mon x).begun, monNext x s with
    | [], some n => runTo (keyOf n.2.2 (rankStart + 1)) s
    | _, _ => s
  .next (match (s1.mon x).begun with
    | [] => s1
    | c :: _ => withTick (c.at_ + 2000) (monResult x code c) s1)

/-! ### Bridge channels (R418 to R422) -/

/-- NW of channel n (R419). -/
def brgNw (n : Nat) (s : State) : Nat :=
  match s.get (BRG_CFG_NOTCH n) with
  | 0 => 2 ^ min 12 (s.get (BRG_CFG_DEC n))
  | 1 => 2500
  | 2 => 2083
  | _ => 12500

/-- (i + 1)(i + 2)/2 for i at or above 0, else 0. -/
def triangle (i : Int) : Int := if i < 0 then 0 else (i + 1) * (i + 2) / 2

/-- Weight i of the sinc3 filter: the coefficient of z^i in (1 + z + ... + z^(NW - 1))^3 (R419). -/
def sincWeight (nw i : Nat) : Int := triangle i - 3 * triangle ((i : Int) - nw) + 3 * triangle ((i : Int) - 2 * nw)

/-- The filtered value of a span, times NW^3 [codes]. -/
def sincSum (nw : Nat) (codes : List Int) : Int := codes.zipIdx.foldl (fun n c => n + sincWeight nw c.2 * c.1) 0

/-- An output of channel n feeds the Cycle Angle in SENSOR mode: an upward zero crossing after a reading at or below -HYST is an
index, interpolated between its two readings; one that touches a SUSPECT reading is none (R47, R48, R422) (open corners: DEDUCED,
DEDUCED, log entry 66). -/
def caReading (n : Nat) (y : Int) (stamp : Nat) (suspect : Bool) (t : Nat) (s : State) : State :=
  if !(caOn s && s.get TL_CA_CFG_MODE == 3 && s.get TL_CA_CFG_SENSOR == n) then s
  else
    let a := s.tl.angle
    let low := a.low || decide (y ≤ -(s.get TL_CA_TOL_HYST : Int))
    match a.reading with
    | some (y0, st0, sus0) =>
      if a.low ∧ y0 < 0 ∧ 0 ≤ y then
        let s := modAngle (fun a => { a with low := false, reading := some (y, stamp, suspect) }) s
        if suspect || sus0 then s.setB TL_CA_STATUS_SENSOR_SUSPECT true
        else
          let x := openQuotient (32 * ((stamp : Int) - st0) * (-y0)) (y - y0).toNat s
          caIndex (32 * st0 + x.1.toNat) t x.2
      else modAngle (fun a => { a with low := low, reading := some (y, stamp, suspect) }) s
    | none => modAngle (fun a => { a with low := low, reading := some (y, stamp, suspect) }) s

/-- Channel n produces an output at tick t (R419, R422). Before its span is full its value is not in the spec, and it is no reading
for the Cycle Angle (open corners: DESIGN CHOICE, log entry 65). -/
def brgOutput (n t : Nat) (s : State) : State :=
  let b := Tab.get {} s.brgs n
  let nw := brgNw n s
  let span := b.codes.take (3 * nw - 2)
  let full := decide (span.length = 3 * nw - 2)
  let y := if full then openQuotient (4096 * sincSum nw (span.map (·.1))) (nw ^ 3) s
    else let f := s.fresh; (sgn 24 (Config.freeValue f.1 % 2 ^ 24), f.2)
  let s := y.2
  let valid := decide (2 ≤ b.outs)
  let suspect := span.any (·.2.1)
  let last := match b.codes with | c :: _ => c.2.2 | [] => t
  let stamp := last - (3 * nw - 3) * 8000
  let s := s.setI (BRG_OUT_Y n) y.1
  let s := (s.setB (BRG_OUT_VALID n) valid).setB (BRG_OUT_SUSPECT n) suspect
  let s := s.set (BRG_OUT_TICK_STAMP n) stamp
  let s := { s with brgs := Tab.put {} s.brgs n { b with outs := b.outs + 1 } }
  if valid then caReading n y.1 stamp suspect t s else s

/-- BROKEN of channel n after a conversion (R420) (open corners: DESIGN CHOICE, log entry 65). -/
def brgBreak (n : Nat) (overs : Bool) (s : State) : State :=
  let b := Tab.get {} s.brgs n
  let b := if overs then { b with overs := b.overs + 1, good := 0 } else { b with overs := 0, good := b.good + 1 }
  let s := { s with brgs := Tab.put {} s.brgs n b }
  let s := if overs then s.incSat (BRG_OVR_COUNT n) else s
  if overs && b.overs == 4 then
    ((s.setB (BRG_STATUS_BROKEN n) true).incSat (BRG_BREAKS n)).flagAlways (BRG_STATUS_WIRE_BREAK n) (848 + n)
  else if b.good ≥ 125 then s.setB (BRG_STATUS_BROKEN n) false
  else s

/-- The tick of the next conversion of channel n: the first of its fixed slots that has not ended, after its last conversion
(R418) (open corners: DESIGN CHOICE, log entry 65). -/
def brgSlot (n : Nat) (s : State) : Nat :=
  let b := Tab.get {} s.brgs n
  let from_ := max (s.now - 2000) (match b.codes with | c :: _ => c.2.2 + 1 | [] => b.since)
  let off := 2000 * (n % 4)
  (from_ + (16000 - 1) - off) / 16000 * 16000 + off

/-- A bridge conversion of channel n in its fixed slot (R418 to R420, R422) (open corners: DESIGN CHOICE, log entry 65). -/
def execBrgConversion (n : Fin 8) (code : BitVec 12) (s : State) : Ans :=
  .next (
    let n := n.val
    if s.on (BRG_CTRL_EN n) then
      let t := brgSlot n s
      let s := advanceTo (t + 2000) s
      let overs := code.toInt == -2048 || code.toInt == 2047
      let suspect := overs || s.on (BRG_STATUS_BROKEN n) || s.on (BRG_STATUS_EXC_FAULT n) || tdacOn (8 + n / 4) (n % 4) s
      let b := Tab.get {} s.brgs n
      let nw := brgNw n s
      let b := { b with codes := ((code.toInt, suspect, t) :: b.codes).take (3 * nw - 2), count := b.count + 1 }
      let s := brgBreak n overs { s with brgs := Tab.put {} s.brgs n b }
      if b.count % nw = 0 then brgOutput n (t + 2000) s else s
    else s)

/-- Outcome of an excitation check of channel n at tick t, with the current [uA] (R421): the two limits are judged each for itself, and
a finding makes the readings since the last passing check suspect (open corners: DESIGN CHOICE, log entry 65). -/
def excJudge (n i t : Nat) (s : State) : State :=
  let s := s.set (BRG_EXC_I_I_EXC n) i
  let b := Tab.get {} s.brgs n
  let low := decide (i < s.get (BRG_CFG_I_MIN n))
  let high := decide (25000 < i)
  if low || high then
    let mark := b.codes.map fun c => (c.1, c.2.1 || decide (b.passAt ≤ c.2.2), c.2.2)
    let s := { s with brgs := Tab.put {} s.brgs n { b with codes := mark, off := b.off || high } }
    let s := s.setB (BRG_STATUS_EXC_FAULT n) true
    let s := if low then s.flagAlways (BRG_STATUS_EXC_OPEN n) (848 + n) else s
    if high then s.flagAlways (BRG_STATUS_EXC_SHORT n) (848 + n) else s
  else { s with brgs := Tab.put {} s.brgs n { b with passAt := t, off := false } }.setB (BRG_STATUS_EXC_FAULT n) false

/-- Channel n checks its excitation current [uA], once in 2,000,000 ticks, in the first free slot of its converter (R413, R421)
(open corners: DESIGN CHOICE, log entry 65). -/
def execBrgExcCheck (n : Fin 8) (current : BitVec 16) (s : State) : Ans :=
  .next (
    let n := n.val
    if s.on (BRG_CTRL_EN n) then
      let x := 8 + n / 4
      let s := advanceTo (Tab.get {} s.brgs n).dueAt s
      let t := slotAt x (max s.now (s.mon x).freeAt)
      let b := Tab.get {} s.brgs n
      let s := { s with brgs := Tab.put {} s.brgs n { b with dueAt := b.dueAt + ((t - b.dueAt) / 2000000 + 1) * 2000000 } }
      excJudge n current.toNat t (advanceTo (t + 2000) (s.setMon x { s.mon x with freeAt := t + 2000 }))
    else s)

end Sys2Proof.Machine
end

