-- ==== Sys2Proof/Machine/KilnCmds.lean ====
section
/-! DEFINITION. The Kiln: readings, faults, thresholds, rate limit, throttle level, Cellar inhibit, operating range (R433 to
R442). -/

namespace Sys2Proof.Machine

/-- Sensors. -/
def sensors : List Nat := List.range 49
/-- Sensor n beside its registers. -/
def State.sensor (s : State) (n : Nat) : Sensor := Tab.get {} s.kiln.sensors n
/-- Replace sensor n. -/
def State.setSensor (s : State) (n : Nat) (x : Sensor) : State :=
  { s with kiln := { s.kiln with sensors := Tab.put {} s.kiln.sensors n x } }

/-- Sensor n is faulty (R434). -/
def faulty (n : Nat) (s : State) : Bool := s.on (KILN_TEMP_FAULT n)
/-- Sensor n has a valid reading. -/
def reads (n : Nat) (s : State) : Bool := s.on (KILN_TEMP_VALID n) && !faulty n s
/-- The last reading of sensor n [1/16 C]. -/
def reading (n : Nat) (s : State) : Int := s.getI (KILN_TEMP_T n)

/-- Both diodes of an HBM stack are faulty (R434) (open corners: DEDUCED, log entry 67). -/
def stackFaulty (s : State) : Bool := (faulty 44 s && faulty 45 s) || (faulty 46 s && faulty 47 s)

/-- HYST [1/16 C]. -/
def hyst (s : State) : Nat := max 1 (s.get KILN_CFG_HYST)
/-- L_MAX. -/
def levelMax (s : State) : Nat := max 1 (min 4 (s.get KILN_CFG_L_MAX))

/-- The set value of threshold k of sensor n: 0 WARN, 1 THROTTLE, 2 CRIT, 3 SHUTDOWN. -/
def threshold (n k : Nat) (s : State) : Nat :=
  match k with
  | 0 => s.get (KILN_THR_WARN n)
  | 1 => s.get (KILN_THR_THROTTLE n)
  | 2 => s.get (KILN_THR_CRIT n)
  | _ => s.get (KILN_THR_SHUTDOWN n)

/-- What threshold k of sensor n acts at: the greatest of itself and those below it, at most 125 C (R436). -/
def actsAt (n k : Nat) (s : State) : Nat := min 2000 (((List.range (k + 1)).map fun j => threshold n j s).foldl max 0)

/-! ### Throttle level (R436, R438) -/

/-- The throttle level changes at the present tick: event 33; the engine clock divides by 2^L from here on, the cycles
before it being counted as they were (R286, R436, R438). -/
def setLevel (l : Nat) (s : State) : State :=
  let was := s.get KILN_STATUS_LEVEL
  let s := { s with kiln := { s.kiln with levelAt := s.now } }
  if was = l then s
  else
    let s := (List.range 8).foldl (fun s a => engSettle a s.now s) s
    let s := noteLoad (s.set KILN_STATUS_LEVEL l)
    let s := (List.range 8).foldl (fun s a => s.set (ANA_STATUS_CLKDIV a) l) s
    if was < l then s.flagAlways KILN_STATUS_THROTTLE 33 else s.event 33

/-- Some sensor stands crossed at THROTTLE (open corners: DEDUCED, log entry 67). -/
def throttling (s : State) : Bool := sensors.any fun n => (s.sensor n).crossed.contains 1

/-- The next step of the level, STEP_MS after its last change (R436). -/
def execKilnLevelStep (s : State) : Ans :=
  .next (if s.get KILN_STATUS_LEVEL = 0 then s
    else
      let s := advanceTo (s.kiln.levelAt + 2000000 * max 1 (s.get KILN_CFG_STEP_MS)) s
      let l := s.get KILN_STATUS_LEVEL
      if throttling s then setLevel (if l < levelMax s then l + 1 else l) s
      else if stackFaulty s then s
      else setLevel (l - 1) s)

/-! ### Actions (R436, R437) -/

/-- The actions of CRIT (R436). -/
def critActs (s : State) : State :=
  parkAll 3 s.now ((s.setB KILN_STATUS_CRIT_ACTIVE true).flagAlways KILN_STATUS_CRIT 34)

/-- Threshold k is crossed (R436) (open corners: DEDUCED, log entry 67). -/
def crossActs (k : Nat) (s : State) : State :=
  match k with
  | 0 => s.flagAlways KILN_STATUS_WARN 32
  | 1 => if s.get KILN_STATUS_LEVEL = 0 then setLevel 1 s else s
  | 2 => critActs s
  | _ =>
    let s := (s.setB KILN_STATUS_SHUTDOWN_LATCHED true).flagAlways KILN_STATUS_SHUTDOWN 35
    (List.range 8).foldl (fun s a => fenceTile a 5 true s.now s) s

/-- Sensor n lies below CRIT - HYST, or takes no part (R434, R436). -/
def belowCrit (s : State) (n : Nat) : Bool := !reads n s || decide (reading n s < (actsAt n 2 s : Int) - hyst s)

/-- CRIT_ACTIVE and the latch clear when every sensor lies below CRIT - HYST (R436) (open corners: DEDUCED, log entry 67). -/
def critEnds (s : State) : State :=
  if sensors.all (belowCrit s) then (s.setB KILN_STATUS_CRIT_ACTIVE false).setB KILN_STATUS_SHUTDOWN_LATCHED false else s

/-- A reading of sensor n crosses threshold k, stays, or falls back below it (R436) (open corners: DEDUCED, log entry 67). -/
def judgeThreshold (n : Nat) (last : Option Int) (r : Int) (k : Nat) (s : State) : State :=
  let x := s.sensor n
  let at_ : Int := actsAt n k s
  if x.crossed.contains k then
    if r < at_ - hyst s then s.setSensor n { x with crossed := x.crossed.filter (· != k) } else s
  else match last with
    | some p => if at_ ≤ p ∧ at_ ≤ r then crossActs k (s.setSensor n { x with crossed := k :: x.crossed }) else s
    | none => s

/-- The reading of sensor n against the one 250 ms earlier (R437) (open corners: DEDUCED, log entry 67). -/
def judgeRate (n : Nat) (past : List (Nat × Int)) (r : Int) (s : State) : State :=
  let x := s.sensor n
  let fast := match past.find? fun p => p.1 + 500000000 ≤ s.now with
    | some p => decide ((s.get KILN_RATE_RATE_LIMIT : Int) < 4 * (r - p.2))
    | none => false
  let s := s.setSensor n { x with onset := fast }
  if fast && !x.onset then
    let s := s.flagAlways KILN_STATUS_RATE 36
    match s.get KILN_CFG_RATE_ACTION with
    | 0 => s
    | 1 => setLevel (levelMax s) s
    | _ => critActs s
  else s

/-! ### Operating range and Cellar inhibit (R440, R441) -/

/-- The out-of-range interval begins or ends (R441). -/
def judgeRange (s : State) : State :=
  let out := !s.kiln.railOut.isEmpty || sensors.any fun n => reads n s && decide ((actsAt n 2 s : Int) ≤ reading n s)
  if out == s.on KILN_STATUS_OOR then s
  else if out then
    (((s.setB KILN_STATUS_OOR true).set KILN_OOR_START s.now).incSat KILN_OOR_COUNT).event 41
  else ((s.setB KILN_STATUS_OOR false).set KILN_OOR_END s.now).event 41

/-- CEL_INHIBIT changes (R440): what waited for the temperature is written when it clears (R393, R480). -/
def setInhibit (on : Bool) (s : State) : State :=
  if s.on KILN_STATUS_CEL_INHIBIT = on then s
  else
    let s := ((s.setB KILN_STATUS_CEL_INHIBIT on).setB CEL_STATUS_INHIBIT on).event 40
    if on then s
    else
      let s := { s with host := { s.host with logHeld := 0 } }
      if s.exc.dirty then islandCommit s else s

/-- Sensor 48 is judged (R434, R440). -/
def judgeInhibit (s : State) : State :=
  let r := reading 48 s
  if faulty 48 s ∨ r < 0 ∨ 1360 < r then setInhibit true s
  else if 16 ≤ r ∧ r ≤ 1344 then setInhibit false s
  else s

/-! ### Whether the Kiln runs (R434) -/

/-- The Kiln counts as running, or as not running (R20, R434) (open corners: DEDUCED, log entry 67). -/
def setKiln (up : Bool) (s : State) : State :=
  if s.host.kilnUp = up then s
  else
    let s := ({ s with host := { s.host with kilnUp := up } }).setB KILN_STATUS_RUNNING up
    if up then deriveReady s else serviceLoss s.now s

/-- 6 or more control-die sensors are faulty. -/
def dieFaulty (s : State) : Bool := decide (6 ≤ ((List.range' 32 12).filter fun n => faulty n s).length)

/-- The reading of sensor n is older than 10 ms (open corners: DEDUCED, log entry 67). -/
def stale (n : Nat) (s : State) : Bool := !s.on (KILN_TEMP_VALID n) || decide ((s.sensor n).readAt + 20000000 < s.now)

/-- After a reading: the Kiln stops for too many faulty sensors, and runs when every sensor that is not faulty has a fresh
reading (R434) (open corners: DEDUCED, log entry 67). -/
def judgeKiln (s : State) : State :=
  if dieFaulty s then setKiln false s
  else if s.host.kilnUp then s
  else if sensors.all fun n => faulty n s || !stale n s then setKiln true s
  else s

/-! ### Readings (R433 to R437) -/

/-- The tile temperature of tile a (R433) (open corners: DEDUCED, log entry 67). -/
def tileTemp (a : Nat) (s : State) : State :=
  let rs := ((List.range 4).map (4 * a + ·)).filter fun n => reads n s
  if rs.isEmpty then s.setB (KILN_TILE_TEMP_VALID a) false
  else
    let sum := rs.foldl (fun t n => t + reading n s) (0 : Int)
    (s.setI (KILN_TILE_TEMP_T a) (sum / rs.length)).setB (KILN_TILE_TEMP_VALID a) true

/-- Sensor n becomes faulty (R434): it takes no further part in the thresholds (open corners: DEDUCED, log entry 67). -/
def sensorFault (n : Nat) (s : State) : State :=
  let s := s.setSensor n { s.sensor n with crossed := [] }
  if faulty n s then s else (s.setB (KILN_TEMP_FAULT n) true).flagAlways KILN_STATUS_SENSOR_FAULT 37

/-- Sensor n keeps reading r for the comparisons with it (DEDUCED, log entry 67). -/
def keepReading (n : Nat) (r : Int) (s : State) : State :=
  let x := s.sensor n
  let recent := x.past.filter fun p => s.now < p.1 + 500000000
  let older := (x.past.filter fun p => p.1 + 500000000 ≤ s.now).take 1
  s.setSensor n { x with past := (s.now, r) :: (recent ++ older), readAt := s.now }

/-- A reading within -40 to 150 C takes part in the thresholds, after `past` (R436) (DEDUCED, log entry 67). -/
def goodReading (n : Nat) (past : List (Nat × Int)) (r : Int) (s : State) : State :=
  let last := if faulty n s then none else past.head?.map (·.2)
  let s := critEnds ((s.setB (KILN_TEMP_FAULT n) false).setB (KILN_TEMP_VALID n) true)
  (List.range 4).foldl (fun s k => judgeThreshold n last r k s) s

/-- What faulty sensors do beside stopping the Kiln (R434). -/
def faultActs (n : Nat) (s : State) : State :=
  let s := if n < 32 ∧ (List.range 4).all (fun k => faulty (n / 4 * 4 + k) s) then fenceTile (n / 4) 3 true s.now s else s
  if decide (44 ≤ n ∧ n < 48) && stackFaulty s then setLevel (levelMax s) s else s

/-- The Kiln runs from the first lock of the tick PLL on (R467, R469) (DEDUCED, log entry 67; DEDUCED, log entry 71). -/
def kilnClocked (s : State) : Bool := !s.host.porst && s.tl.counting

/-- Sensor n is read (R433 to R437, R440, R441): every reading is compared with the one 250 ms earlier, a faulty one too (R437). -/
def execKilnTempRead (n : Fin 49) (r : BitVec 16) (s : State) : Ans :=
  .next (if !kilnClocked s then s
    else
      let n := n.val
      let past := (s.sensor n).past
      let s := keepReading n r.toInt (s.set (KILN_TEMP_T n) r.toNat)
      let s := if r.toInt < -640 ∨ 2400 < r.toInt then faultActs n (sensorFault n s) else goodReading n past r.toInt s
      let s := judgeRate n past r.toInt s
      let s := if n < 32 then tileTemp (n / 4) s else s
      let s := if n = 48 then judgeInhibit s else s
      judgeKiln (judgeRange s))

/-- A reading of sensor n that is not faulty becomes older than 10 ms (R434). -/
def execKilnReadingStale (n : Fin 49) (s : State) : Ans :=
  .next (if s.host.kilnUp && !faulty n.val s then
      setKiln false (advanceTo ((s.sensor n.val).readAt + 20000001) s)
    else s)

/-- Rail sense point r is read [mV] (R435) (open corners: DEDUCED, log entry 67). -/
def execKilnRailRead (r : Fin 24) (mv : BitVec 16) (s : State) : Ans :=
  .next (if !kilnClocked s then s
    else
      let r := r.val
      let was := s.on (KILN_RAIL_OUT r)
      let out := decide (mv.toInt < s.getI (KILN_RAIL_LIM_LO r)) || decide (s.getI (KILN_RAIL_LIM_HI r) < mv.toInt)
      let s := (s.set (KILN_RAIL_MV r) mv.toNat).setB (KILN_RAIL_OUT r) out
      let active := s.kiln.railOut.contains r
      let rails := if !out then s.kiln.railOut.filter (· != r) else if was && !active then r :: s.kiln.railOut
        else s.kiln.railOut
      let s := { s with kiln := { s.kiln with railOut := rails } }
      let s := if out && was && !active then s.flagAlways KILN_STATUS_RAIL_FAULT 38 else s
      judgeRange s)

/-- Ring oscillator k is counted [MHz] (R435) (open corners: DEDUCED, log entry 67). -/
def execKilnProcRead (k : Fin 32) (mhz : BitVec 16) (s : State) : Ans :=
  .next (if !kilnClocked s then s
    else
      let low := s.get KILN_PROC_MIN != 0 && decide (mhz.toNat < s.get KILN_PROC_MIN)
      let s := (s.set (KILN_PROC_MHZ k.val) mhz.toNat).setB (KILN_PROC_LOW k.val) low
      if low then s.flagAlways KILN_STATUS_PROC_LOW 39 else s)

end Sys2Proof.Machine
end

