-- ==== Sys2Proof/Machine/StartCmds.lean ====
section
/-! DEFINITION. Reset, start-up, the clocks, the rails, the watchdog and the PCI Express link (R17 to R29, R355, R394, R450,
R467 to R473, R486). -/

namespace Sys2Proof.Machine

/-! ### PORST_L (R394, R467, R471) -/

/-- The registers whose values the Cellar or the factory holds, which survive PORST_L (R381, R428, R465, R466) (open corners:
DEDUCED, log entry 62; DEDUCED, log entry 70). -/
def cellarFields : List Fld :=
  [SEC_STATUS_LIFECYCLE, SEC_STATUS_OWNER_ROOT_SET, SEC_FW_MIN, SEC_DEBUG_COUNT, CEL_PARK_SEQ, GLB_UID, GLB_REV_VARIANT]
    ++ (List.range 12).map SEC_OWNER_ROOT
    ++ ((List.range 8).flatMap fun k => [SEC_SLOT_VALID k, SEC_SLOT_USAGE k] ++ (List.range 12).map (SEC_SLOT_ID k))
    ++ (List.range 8).map CAL_T_REF
    ++ (List.range 16).map MBX_DB_LOCKOUT

/-- The device under PORST_L: every part is reset but what the Cellar and the island hold, what stands outside (REF_IN, the
rails) and the queue of commands; the Timeline is 0 (R27, R393, R471, R480) (open corners: DEDUCED, log entry 70). -/
def porstReset (s : State) : State :=
  let r : State := { State.reset with
    pending := s.pending, outbox := s.outbox, free := s.free, cel := s.cel,
    exc := { s.exc with parts := [], fedAt := 0, limitAt := 0, viewAt := 0 }
    host := { log := s.host.log, logIndex := s.host.logIndex, logOver := s.host.logOver,
              refPresent := s.host.refPresent, powered := s.host.powered, porst := true,
              enBias := s.host.enBias, enTiles := s.host.enTiles }
    cals := s.cals.map fun x => (x.1, { stored := x.2.stored, bad := x.2.bad })
    mbxs := s.mbxs.map fun x => (x.1, { fails := x.2.fails, lockEnd := x.2.lockEnd.map (· - s.up) }) }
  excShow s.exc.saved (cellarFields.foldl (fun r f => r.set f (s.get f)) r)

/-- The outputs of tile a at the assertion of PORST_L while its analog rails are good: RFO in HOLD, ZF at code 0, ZB at the
current and range it had in state s (R471) (open corners: DEDUCED, log entry 70). -/
def warmHold (s : State) (a : Nat) (r : State) : State :=
  let r := (tileRfos a).foldl (fun r p => setRfoState p psHold r) r
  (tileZps a).foldl
    (fun r z =>
      let i := driven z s.now s
      setZRange z (zRange z s) (r.setZp z { segs := [⟨0, 0, i, i⟩] })) r

/-- PORST_L goes low: a final feed goes to the island, and the device is reset; powered tiles hold (R394, R471). -/
def porstAssert (s : State) : State :=
  if s.host.porst then s
  else
    let s := islandFeed true s
    s.host.powered.foldl (fun r a => warmHold s a r) (porstReset s)

/-- PORST_ASSERT (R471) (open corners: DEDUCED, log entry 70). -/
def execPorstAssert (s : State) : Ans := .next (porstAssert s)

/-- What the island holds, or its last commit while it is down (DEDUCED, log entry 61). -/
def islandNow (s : State) : IslandData := if s.exc.up then s.exc.cur else s.exc.saved

/-- PORST_RELEASE: DEV_ID is sampled, the Timeline is 0, a new feed epoch begins and the island logs it; enforced partitions hold
until a
limit message comes, and tiles whose rails are good are in hold (R27, R394, R397, R407, R467, R468) (DESIGN CHOICE, log entry 2;
DEDUCED, log entry 61). -/
def execPorstRelease (dev : BitVec 6) (s : State) : Ans :=
  .next (if !s.host.porst then s
    else
      let s := s.set GLB_DEVID_DEV_ID dev.toNat
      let s := { s with
        host := { s.host with porst := false, held := s.host.powered }
        exc := { s.exc with
          epoch := s.exc.epoch + 1
          parts := (List.range 16).map fun n =>
            (n, { base := (s.account n).begun, enforced := metered s && (islandNow s).enforce.testBit n }) } }
      audit audPowerUp 0xFF s.exc.epoch 0 s)

/-! ### Power (R468, R473, R486) -/

/-- A tile's fence for lost rails: the supply is already gone (R475) (open corners: DEDUCED, log entry 71). -/
def railFence (s : State) (a : Nat) : State := fenceTile a 4 true s.now s

/-- The tiles that a rail feeds (DEDUCED, log entry 71). -/
def railTiles : Rail → List Nat
  | .core => []
  | .biasP | .biasN => List.range 8
  | .atd a | .a18 a => [a.val]

/-- PG_LOST: a power-good input has been low for 1 us (R473, R479, R487); under PORST_L the tiles that it feeds are unpowered, and
nothing reports it (open corners: DEDUCED, log entry 71). -/
def execPgLost (r : Rail) (s : State) : Ans :=
  .next (if !released s then ((railTiles r).filter fun a => tilePowered a s).foldl (fun s a => tileOff a s.now s) s
    else match r with
      | .core => porstAssert s
      | .biasP => (List.range 8).foldl railFence (s.event 10 20)
      | .biasN => (List.range 8).foldl railFence (s.event 10 21)
      | .atd a => if tilePowered a.val s then railFence (s.event 10 (4 + a.val)) a.val else s
      | .a18 a => if tilePowered a.val s then railFence (s.event 10 (12 + a.val)) a.val else s)

/-- TILE_RAILS_GOOD: the hold begins at its tick, under PORST_L too, where nothing reports it (R468) (open corners:
DEDUCED, log entry 71). -/
def execTileRailsGood (a : Fin 8) (s : State) : Ans :=
  .next (if tilePowered a.val s then s
    else if released s then deriveReady ((holdTile a.val s).event 11 a.val)
    else holdTile a.val s)

/-- PARK_APPLIED: Ryvex applies the Park Table to a tile in hold (R229, R458, R468) (open corners: DEDUCED, log entry 71). -/
def execParkApplied (a : Fin 8) (s : State) : Ans :=
  .next (if released s && s.host.ryvexUp && s.host.held.contains a.val then applyPark true a.val s.now s else s)

/-- RAIL_ENABLE_TIMEOUT: PG_BIAS has not risen: EN_BIAS goes low and every tile is fenced; or tile a's rails have not, and it is
fenced (R486). -/
def execRailEnableTimeout (tile : Option (Fin 8)) (s : State) : Ans :=
  .next (if !released s || !s.host.ryvexUp then s
    else match tile with
      | none => (List.range 8).foldl railFence { s with host := { s.host with enBias := false, enTiles := [] } }
      | some a => if tilePowered a.val s then s else railFence s a.val)

/-- PARK_LOGIC_LOST: READY falls, the tile is fenced with its supplies off at once, and READY returns (R20, R475). -/
def execParkLogicLost (a : Fin 8) (s : State) : Ans :=
  .next (if tilePowered a.val s && released s then
      let s := { s with host := { s.host with parkLost := a.val :: s.host.parkLost.filter (· != a.val) } }
      fenceTile a.val 2 true s.now (deriveReady s)
    else s)

/-! ### Boot and start-up (R19, R450, R467, R470, R472) -/

/-- BOOT: the boot ROM boots a Ryvex slot, and Ryvex reads the Cellar (R450, R467) (open corners: DEDUCED, log entry 71). -/
def execBoot (s : State) : Ans :=
  .next (if released s && s.tl.counting && !s.host.ryvexUp && !s.host.recovery then
      let s := bootSlots s
      rejectAll (if s.host.ryvexUp then readCellar (checkExcise s) else s)
    else s)

/-- STARTUP_READY: the stored Recipe is loaded into every Tun, and READY follows the minimum service set from now on (R19, R156,
R467) (open corners: DEDUCED, log entry 71). -/
def execStartupReady (s : State) : Ans :=
  .next (if released s && s.host.ryvexUp && !s.host.started then
      let s := (List.range 64).foldl (fun s t => recipeStart t s) s
      deriveReady { s with host := { s.host with started := true } }
    else s)

/-- WATCHDOG: the loss of Ryvex; it restarts without PORST_L (R20, R378, R472). -/
def execWatchdog (s : State) : Ans :=
  .next (if s.host.ryvexUp then
      let s := s.event 8
      let s := closeMailboxes { s with host := { s.host with ryvexUp := false } }
      serviceLoss s.now s
    else s)

/-- RYVEX_UP: the boot ROM has verified Ryvex again, and READY returns if the rest of the service set is intact (R450, R472) (open
corners: DEDUCED, log entry 35; DEDUCED, log entry 71). -/
def execRyvexUp (s : State) : Ans :=
  .next (if released s && s.host.started && !s.host.ryvexUp && !s.host.recovery then
      let s := bootSlots s
      rejectAll (if s.host.ryvexUp then deriveReady ((checkExcise s).event 9) else s)
    else s)

/-! ### Clocks (R17, R20, R27, R29, R469) -/

/-- REF_LOST (R20, R479). -/
def execRefLost (s : State) : Ans :=
  .next (if s.host.refPresent then
      let s := { s with host := { s.host with refPresent := false } }
      if released s then serviceLoss s.now (s.event 4) else s
    else s)

/-- REF_OK (R469, R479). -/
def execRefOk (s : State) : Ans :=
  .next (if s.host.refPresent then s
    else
      let s := { s with host := { s.host with refPresent := true } }
      if released s then deriveReady (s.event 5) else s)

/-- PLL_LOCKED: from the first lock on the Timeline counts (R27, R469, R479). -/
def execPllLocked (s : State) : Ans :=
  .next (if released s && s.host.refPresent && !s.on TL_STATUS_PLL_LOCKED then
      let s := (s.setB TL_STATUS_PLL_LOCKED true).event 7
      deriveReady { s with tl := { s.tl with counting := true } }
    else s)

/-- PLL_UNLOCKED: ALIGNED is cleared, and the service set has lost the lock; the Timeline counts on (R20, R29). -/
def execPllUnlocked (s : State) : Ans :=
  .next (if s.on TL_STATUS_PLL_LOCKED then
      let s := (s.setB TL_STATUS_PLL_LOCKED false).event 6
      serviceLoss s.now ((s.setB TL_STATUS_ALIGNED false).event 103)
    else s)

/-! ### Variants (R3, R403) -/

/-- A device as it leaves the factory: `m` is the CQ-256-M, whose island and its Cellar region are sealed; the CQ-256-S is not (R3,
R402). -/
def factory (m : Bool) : State :=
  let s := State.reset.setB GLB_REV_VARIANT m
  let s := { s with exc := { s.exc with cur := { s.exc.cur with sealed := m }, saved := { s.exc.saved with sealed := m } } }
  excShow s.exc.saved s

/-! ### Counter storage and the host link (R24, R355) -/

/-- The event by which the block that holds a counter reports LEDGER_BREAK: one of its own (R24, R478) (open corners:
DEDUCED, log entry 61). -/
def ledgerEvent (holder which : Nat) : Nat :=
  match holder with
  | 3 => 768 + which % 32
  | 4 => 816 + which % 32
  | 2 => 760 + Config.ledgerEvent 65536 % 8
  | _ => 760 + Config.ledgerEvent which % 8

/-- LEDGER_BREAK: an uncorrectable error on the storage of a counter of R22, whose identities lapse until the device is reset
(R24); the event's CODE names the counter's account, queue, link or unit.  The island names the account and where the word lay: in its
own memory, or in its Cellar region, where the Cellar counts it too (R407, R456) (open corners: DEDUCED, log entry 61). -/
def execLedgerBreak (counter : CounterId) (word : BitVec 64) (s : State) : Ans :=
  .next (
    let holder := counter.holder.val
    let which := counter.which.toNat
    let s := { s with broken := s.broken ++ [(holder, which)] }
    if holder = 0 then
      let s := if word.toNat.testBit 63 then s else cellarCount (word.toNat % 2 ^ 26) s
      if s.exc.up then ledgerBreak which 2 word.toNat s else s
    else s.event (ledgerEvent holder which) which)

/-- HOST_LINK_CHANGE: the PCI Express data link comes up, with a speed and a width, or goes down (R19, R20, R355); it does not train
before the first lock of the tick PLL (R469) (DEDUCED, log entry 71). -/
def execHostLinkChange (up : Bool) (speed : BitVec 3) (width : BitVec 4) (s : State) : Ans :=
  .next (if !released s || (up && !s.tl.counting) then s
    else
      let s := s.setB HOST_STATUS_LINK_UP up
      let s := (s.set HOST_STATUS_SPEED (if up then speed.toNat else 0)).set HOST_STATUS_WIDTH (if up then width.toNat else 0)
      deriveReady s)

end Sys2Proof.Machine
end

