-- ==== Sys2Proof/Machine/TelemetryCmds.lean ====
section
/-! DEFINITION. Register, integrity, snapshot, audit and sequencer-state commands (R386 to R388). -/

namespace Sys2Proof.Machine

/-- The COUNT 4-byte numbers behind a COUNT, every n-th of them from the first on. -/
def listed (c : Cmd) (n o : Nat) : List Nat := (List.range (le c.ps 0 4)).map fun k => le c.ps (4 + n * k + o) 4

/-- A register offset that a command names; one that is no dword of PF0 counts as unimplemented (R356, R387). -/
def superOffset (a : Nat) : Bool := a % 4 == 0 && decide (a < 2 ^ 26)

/-- The Supervisor reads dwords in the order of a payload; an unimplemented one reads 0 (R358, R387) (open corners:
DEDUCED, log entry 58). -/
def superReads : List Nat → State → List Byte × State
  | [], s => ([], s)
  | a :: as, s =>
    let x := if superOffset a then readDword supervisor 0xF a s else (0, s)
    let r := superReads as x.2
    (toBytes 4 x.1 ++ r.1, r.2)

/-- REG_READ (R387) (open corners: DEDUCED, log entry 58). -/
def execRegRead (m : Fin 16) (dma : Dma) (s : State) : Ans :=
  .next (runCommand (coreSpec 0x0200) m dma
    (fun c s =>
      let n := le c.ps 0 4
      if n = 0 ∨ 1019 < n then refuse stBadParam s
      else let r := superReads (listed c 4 0) (applyWrites s); (⟨stOk, r.1⟩, r.2)) s (fun c _ => 4 * le c.ps 0 4))

/-- A register that an Operator's REG_WRITE may not name (R387): the KILN, SEC, EXC and CEL blocks, HOST_SEC_RID, HOST_EVT_MAP,
GLB_LOCK and the partition map (open corners: DEDUCED, log entry 58). -/
def operatorBarred (a : Nat) : Bool :=
  let a := a - a % 4
  decide (0x8_0000 ≤ a ∧ a < 0xC_0000) || a == 0x3_000C || decide (0x3_1000 ≤ a ∧ a < 0x3_2000) || a == 0x24 ||
    (match regPlace a with
     | some p => (partOf p.reg).isSome
     | none => false)

/-- The Supervisor's writes in the order of a payload (R387) (open corners: DEDUCED, log entry 58). -/
def superWrites : List (Nat × Nat) → State → State
  | [], s => s
  | (a, v) :: xs, s =>
    superWrites xs (if superOffset a then writeDword supervisor 0xF a v s
      else accessFault supervisor .unimplemented true 0xF (a % 2 ^ 26) v s)

/-- REG_WRITE (R387) (open corners: DEDUCED, log entry 58). -/
def execRegWrite (m : Fin 16) (dma : Dma) (s : State) : Ans :=
  .next (runCommand (coreSpec 0x0201) m dma
    (fun c s =>
      let n := le c.ps 0 4
      if c.role = 0 ∧ (listed c 8 0).any operatorBarred then refuse stRoleDenied s
      else if n = 0 ∨ 509 < n then refuse stBadParam s
      else (⟨stOk, []⟩, superWrites ((listed c 8 0).zip (listed c 8 4)) s)) s)

/-- The block of a COMMIT register's offset (open corners: DEDUCED, log entry 52). -/
def commitBlock (a : Nat) : Option CfgBlock :=
  if !superOffset a then none
  else match regPlace a with
    | some p =>
      match crcBlock p.reg p.i with
      | some b => if (crcRegs b).ref.dword = a then none else some b
      | none => none
    | none => none

/-- Commit the configuration of a block: the first pass that begins after the command sets CRC_REF (R367, R386). -/
def commitNow (b : CfgBlock) (s : State) : State := crcPass b (crcPass b (crcCommit b s))

/-- COMMIT_CRC (R367, R386) (open corners: DEDUCED, log entry 52). -/
def execCommitCrc (m : Fin 16) (dma : Dma) (s : State) : Ans :=
  .next (runCommand (coreSpec 0x0202) m dma
    (fun c s =>
      let n := le c.ps 0 4
      let bs := (listed c 4 0).filterMap commitBlock
      if n = 0 ∨ 1019 < n ∨ bs.length ≠ n then refuse stBadParam s
      else
        let s := bs.foldl (fun s b => commitNow b s) s
        (⟨stOk, bs.flatMap fun b => toBytes 4 (s.get (crcRegs b).ref)⟩, s)) s (fun c _ => 4 * le c.ps 0 4))

/-! ### SNAPSHOT (R388) -/

/-- Items that queue q stores: timed entries in a timed event queue, records or messages elsewhere (R22, R69, R388). -/
def storedItems (q : Nat) (s : State) : Nat :=
  if q < 0x4000 then (teq (q / 32) (q % 32) s).length else (s.queue q).items.foldl (fun n it => n + it.records) 0

/-- Set 0: the accounts. -/
def snapExcise (s : State) : List Byte :=
  (List.range 16).flatMap fun n =>
    let a := s.account n
    [a.begun, a.completed, a.aborted, a.meas, a.active, a.loaded, a.balance].flatMap (toBytes 8)

/-- Set 1: a queue. -/
def snapQueue (q : Nat) (s : State) : List Byte :=
  let x := s.queue q
  let stored := storedItems q s
  toBytes 2 q ++ toBytes 6 0 ++ toBytes 8 x.entered ++ toBytes 8 stored ++ toBytes 8 (x.entered - stored - x.dropped)
    ++ toBytes 8 x.dropped

/-- Set 2: a Flavas link. -/
def snapLink (n : Nat) (s : State) : List Byte :=
  toBytes 1 (linkState n s) ++ toBytes 3 0 ++ toBytes 2 (s.get (FLV_CREDIT_TX_CREDITS n)) ++ toBytes 2 (s.link n).owed
    ++ toBytes 8 (s.get (FLV_FLITS_CONSUMED n)) ++ toBytes 8 (s.get (FLV_CREDITS_RETURNED n))
    ++ toBytes 8 (s.get (FLV_FLITS_SENT n)) ++ toBytes 8 (s.get (FLV_CREDITS_BACK n))
    ++ toBytes 8 (s.get (FLV_CREDITS_RESTORED n))

/-- Set 3: the descriptor pool. -/
def snapPool (s : State) : List Byte := toBytes 4 (s.get QM_POOL_ALLOC) ++ toBytes 4 (s.get QM_POOL_FREE)

/-- Set 4: a Tap unit. -/
def snapTap (i : Nat) (s : State) : List Byte :=
  toBytes 8 (s.get (TAP_SEEN i)) ++ toBytes 8 (s.get (TAP_CAPTURED i)) ++ toBytes 8 (s.get (TAP_MISSED i))

/-- The response of SNAPSHOT (open corners: DEDUCED, log entry 58). -/
def snapshotBytes (sets : Nat) (qs : List Nat) (s : State) : List Byte :=
  toBytes 8 s.now ++ toBytes 4 sets ++ toBytes 4 0
    ++ (if sets.testBit 0 then snapExcise s else [])
    ++ (if sets.testBit 1 then qs.flatMap (snapQueue · s) else [])
    ++ (if sets.testBit 2 then (List.range 32).flatMap (snapLink · s) else [])
    ++ (if sets.testBit 3 then snapPool s else [])
    ++ (if sets.testBit 4 then (List.range 32).flatMap (snapTap · s) else [])

/-- The length of that response. -/
def snapshotLength (sets nq : Nat) : Nat :=
  16 + (if sets.testBit 0 then 896 else 0) + (if sets.testBit 1 then 40 * nq else 0) + (if sets.testBit 2 then 1536 else 0)
    + (if sets.testBit 3 then 8 else 0) + (if sets.testBit 4 then 768 else 0)

/-- SNAPSHOT (R23, R388) (open corners: DEDUCED, log entry 58). -/
def execSnapshot (m : Fin 16) (dma : Dma) (s : State) : Ans :=
  .next (runCommand (coreSpec 0x0300) m dma
    (fun c s =>
      let sets := le c.ps 0 4
      let nq := le c.ps 4 4
      if 32 ≤ sets ∨ 64 < nq then refuse stBadParam s
      else (⟨stOk, snapshotBytes sets ((List.range nq).map fun k => le c.ps (8 + 2 * k) 2) s⟩, s)) s
    (fun c _ => snapshotLength (le c.ps 0 4) (le c.ps 4 4)))

/-! ### POOL_AUDIT and SEQ_STATE (R386) -/

/-- The descriptors that the queues hold (open corners: DEDUCED, log entry 58). -/
def countedDescriptors (s : State) : Nat := s.queues.foldl (fun n x => n + x.2.items.length) 0

/-- POOL_AUDIT (R22, R386): ends with AUDIT_FAIL where the pool's identity does not hold (open corners: DEDUCED, log entry 58;
DEDUCED, log entry 85). -/
def execPoolAudit (m : Fin 16) (dma : Dma) (s : State) : Ans :=
  .next (runCommand (coreSpec 0x0301) m dma
    (fun _ s =>
      let al := s.get QM_POOL_ALLOC
      let fr := s.get QM_POOL_FREE
      let n := countedDescriptors s
      let ok := al + fr == 1048576 && n == al
      (⟨if ok then stOk else stAuditFail, toBytes 4 al ++ toBytes 4 fr ++ toBytes 4 n ++ toBytes 4 0⟩, s))
    s (fun _ _ => 16))

/-- SEQ_STATE (R148, R386): TRAPPED, STALLED, HALTED or FAULTED sequencers only. -/
def execSeqState (m : Fin 16) (dma : Dma) (s : State) : Ans :=
  .next (runCommand (coreSpec 0x0302) m dma
    (fun c s =>
      let k := le c.ps 0 2
      if 512 ≤ k ∨ le c.ps 2 2 ≠ 0 then refuse stBadParam s
      else
        let st := s.get (SEQ_STATUS_STATE k)
        if st < 2 then refuse stStateConflict s
        else (⟨stOk, toBytes 4 st ++ (List.range 17).flatMap fun j => toBytes 8 ((s.seq k).shadow.getD j 0)⟩, s)) s
    (fun _ _ => 140))

end Sys2Proof.Machine
end

