-- ==== Sys2Proof/Machine/Dispatch.lean ====
section
/-! DEFINITION. What each command does: one arm for each constructor of Instr, in the order of the opcode table, one direct call
of its meaning. -/

namespace Sys2Proof.Machine

/-- The effect of a command on everything but the queue of commands that wait (DESIGN CHOICE, log entry 18). -/
def exec (i : Instr) (s : State) : Host.Outcome State Fault Refusal :=
  match i with
  -- StartCmds.lean
  | .porstRelease dev => Sys2Proof.Machine.execPorstRelease dev s
  | .porstAssert => Sys2Proof.Machine.execPorstAssert s
  | .pgLost r => Sys2Proof.Machine.execPgLost r s
  | .tileRailsGood a => Sys2Proof.Machine.execTileRailsGood a s
  | .parkApplied a => Sys2Proof.Machine.execParkApplied a s
  | .boot => Sys2Proof.Machine.execBoot s
  | .startupReady => Sys2Proof.Machine.execStartupReady s
  | .refLost => Sys2Proof.Machine.execRefLost s
  | .refOk => Sys2Proof.Machine.execRefOk s
  | .pllLocked => Sys2Proof.Machine.execPllLocked s
  | .pllUnlocked => Sys2Proof.Machine.execPllUnlocked s
  | .watchdog => Sys2Proof.Machine.execWatchdog s
  | .ryvexUp => Sys2Proof.Machine.execRyvexUp s
  | .parkLogicLost a => Sys2Proof.Machine.execParkLogicLost a s
  | .ledgerBreak counter word => Sys2Proof.Machine.execLedgerBreak counter word s
  -- Timeline.lean
  | .tlLoad r => Sys2Proof.Machine.execTlLoad r s
  | .sendSync r => Sys2Proof.Machine.execSendSync r s
  | .sendCheck r => Sys2Proof.Machine.execSendCheck r s
  | .autoSyncCheck => Sys2Proof.Machine.execAutoSyncCheck s
  | .echoStart r => Sys2Proof.Machine.execEchoStart r s
  | .echoReqRx f stamp => Sys2Proof.Machine.execEchoReqRx f stamp s
  | .echoRspRx f stamp => Sys2Proof.Machine.execEchoRspRx f stamp s
  | .echoTimeout => Sys2Proof.Machine.execEchoTimeout s
  | .delaySetRx f stamp => Sys2Proof.Machine.execDelaySetRx f stamp s
  | .syncRx f stamp => Sys2Proof.Machine.execSyncRx f stamp s
  | .syncCheckRx f stamp => Sys2Proof.Machine.execSyncCheckRx f stamp s
  | .tlCapture => Sys2Proof.Machine.execTlCapture s
  | .pairCaptured => Sys2Proof.Machine.execPairCaptured s
  | .trigEdge n falling stamp => Sys2Proof.Machine.execTrigEdge n falling stamp s
  | .tlPinPop pin => Sys2Proof.Machine.execTlPinPop pin s
  | .pinArm n at_ => Sys2Proof.Machine.execPinArm n at_ s
  | .pinPulse n => Sys2Proof.Machine.execPinPulse n s
  | .caIndex stamp => Sys2Proof.Machine.execCaIndex stamp s
  | .caMissedIndex => Sys2Proof.Machine.execCaMissedIndex s
  | .caQuadEdge aLeads stamp => Sys2Proof.Machine.execCaQuadEdge aLeads stamp s
  | .caWindowEntry k at_ => Sys2Proof.Machine.execCaWindowEntry k at_ s
  -- SeqControl.lean
  | .start r k => Sys2Proof.Machine.execStart r k s
  | .groupStart r t mask => Sys2Proof.Machine.execGroupStart r t mask s
  | .stop r k => Sys2Proof.Machine.execStop r k s
  | .stopAtShot r k => Sys2Proof.Machine.execStopAtShot r k s
  | .clear r k => Sys2Proof.Machine.execClear r k s
  | .slackReset k => Sys2Proof.Machine.execSlackReset k s
  | .seqEnWrite r k on => Sys2Proof.Machine.execSeqEnWrite r k on s
  | .tunEnWrite r t on => Sys2Proof.Machine.execTunEnWrite r t on s
  -- FlowInstrs.lean
  | .nop k => Sys2Proof.Machine.execNop k s
  | .halt k => Sys2Proof.Machine.execHalt k s
  | .yieldCal k => Sys2Proof.Machine.execYieldCal k s
  | .wait k => Sys2Proof.Machine.execWait k s
  | .waituntil k => Sys2Proof.Machine.execWaituntil k s
  | .alignAngle k => Sys2Proof.Machine.execAlignAngle k s
  | .angleUnlocked k => Sys2Proof.Machine.execAngleUnlocked k s
  | .waittrig k => Sys2Proof.Machine.execWaittrig k s
  | .trigTimeout k => Sys2Proof.Machine.execTrigTimeout k s
  | .sync k => Sys2Proof.Machine.execSync k s
  -- SeqControl.lean
  | .barrierRelease b => Sys2Proof.Machine.execBarrierRelease b s
  | .barrierTimeout b => Sys2Proof.Machine.execBarrierTimeout b s
  | .qmBarCfgWrite r b v => Sys2Proof.Machine.execQmBarCfgWrite r b v s
  -- EntryInstrs.lean
  | .play k => Sys2Proof.Machine.execPlay k s
  -- MicroInstrs.lean
  | .teqFullStallEnd k => Sys2Proof.Machine.execTeqFullStallEnd k s
  -- EntryInstrs.lean
  | .playz k => Sys2Proof.Machine.execPlayz k s
  | .setbias k => Sys2Proof.Machine.execSetbias k s
  | .rampbias k => Sys2Proof.Machine.execRampbias k s
  | .fset k => Sys2Proof.Machine.execFset k s
  | .fshift k => Sys2Proof.Machine.execFshift k s
  | .freset k => Sys2Proof.Machine.execFreset k s
  | .pframe k => Sys2Proof.Machine.execPframe k s
  | .measure k => Sys2Proof.Machine.execMeasure k s
  | .acq k => Sys2Proof.Machine.execAcq k s
  -- FlowInstrs.lean
  | .br k => Sys2Proof.Machine.execBr k s
  | .brr k => Sys2Proof.Machine.execBrr k s
  -- MicroInstrs.lean
  | .resultReady k => Sys2Proof.Machine.execResultReady k s
  | .resultTimeout k => Sys2Proof.Machine.execResultTimeout k s
  -- FlowInstrs.lean
  | .loop k => Sys2Proof.Machine.execLoop k s
  | .call k => Sys2Proof.Machine.execCall k s
  | .ret k => Sys2Proof.Machine.execRet k s
  -- DataInstrs.lean
  | .ld k => Sys2Proof.Machine.execLd k s
  | .st k => Sys2Proof.Machine.execSt k s
  | .add k => Sys2Proof.Machine.execAdd k s
  | .sub k => Sys2Proof.Machine.execSub k s
  | .and k => Sys2Proof.Machine.execAnd k s
  | .or k => Sys2Proof.Machine.execOr k s
  | .xor k => Sys2Proof.Machine.execXor k s
  | .shl k => Sys2Proof.Machine.execShl k s
  | .shr k => Sys2Proof.Machine.execShr k s
  | .asr k => Sys2Proof.Machine.execAsr k s
  | .mov k => Sys2Proof.Machine.execMov k s
  | .cmp k => Sys2Proof.Machine.execCmp k s
  | .mul k => Sys2Proof.Machine.execMul k s
  -- ShotInstrs.lean
  | .shotBegin k => Sys2Proof.Machine.execShotBegin k s
  | .creditStallEnd k => Sys2Proof.Machine.execCreditStallEnd k s
  | .ringStallEnd k => Sys2Proof.Machine.execRingStallEnd k s
  | .kilnSkipEnd k => Sys2Proof.Machine.execKilnSkipEnd k s
  | .shotEnd k => Sys2Proof.Machine.execShotEnd k s
  | .shotClosed k => Sys2Proof.Machine.execShotClosed k s
  | .signal k => Sys2Proof.Machine.execSignal k s
  | .msgVisible q => Sys2Proof.Machine.execMsgVisible q s
  | .waitmsg k => Sys2Proof.Machine.execWaitmsg k s
  | .msgTimeout k => Sys2Proof.Machine.execMsgTimeout k s
  -- MicroInstrs.lean
  | .illegal k => Sys2Proof.Machine.execIllegal k s
  | .ownerExtension k => Sys2Proof.Machine.execOwnerExtension k s
  | .calRequest k => Sys2Proof.Machine.execCalRequest k s
  -- Fires.lean
  | .pulseFire k j => Sys2Proof.Machine.execPulseFire k j s
  | .zpulseFire k j => Sys2Proof.Machine.execZpulseFire k j s
  | .biasSetFire k j => Sys2Proof.Machine.execBiasSetFire k j s
  | .biasRampFire k j => Sys2Proof.Machine.execBiasRampFire k j s
  | .frameFire k j => Sys2Proof.Machine.execFrameFire k j s
  | .measureFire k j => Sys2Proof.Machine.execMeasureFire k j s
  | .acqFire k j => Sys2Proof.Machine.execAcqFire k j s
  -- ReadoutCmds.lean
  | .windowRecord c xs overs n => Sys2Proof.Machine.execWindowRecord c xs overs n s
  | .resultWrite => Sys2Proof.Machine.execResultWrite s
  -- DecisionCmds.lean
  | .roundDeferredEval d => Sys2Proof.Machine.execRoundDeferredEval d s
  | .roundTimeout d => Sys2Proof.Machine.execRoundTimeout d s
  | .roundAction d => Sys2Proof.Machine.execRoundAction d s
  | .decWinEnable r d on => Sys2Proof.Machine.execDecWinEnable r d on s
  | .decBaseWrite r d v => Sys2Proof.Machine.execDecBaseWrite r d v s
  | .decTableWrite r x be v => Sys2Proof.Machine.execDecTableWrite r x be v s
  -- TableCmds.lean
  | .frameTableWrite r f dw be v => Sys2Proof.Machine.execFrameTableWrite r f dw be v s
  | .wftSwap => Sys2Proof.Machine.execWftSwap s
  | .wftSwapNow => Sys2Proof.Machine.execWftSwapNow s
  | .wftSwapApply => Sys2Proof.Machine.execWftSwapApply s
  | .wftCopy => Sys2Proof.Machine.execWftCopy s
  | .wftCopyDone => Sys2Proof.Machine.execWftCopyDone s
  -- PortCmds.lean
  | .rfoEnable r p => Sys2Proof.Machine.execRfoEnable r p s
  | .rfoEnabled p => Sys2Proof.Machine.execRfoEnabled p s
  | .rfoDisable r p => Sys2Proof.Machine.execRfoDisable r p s
  | .rfoMute p on => Sys2Proof.Machine.execRfoMute p on s
  | .rfoDriverFault p => Sys2Proof.Machine.execRfoDriverFault p s
  | .driverFaultRetest zf p found => Sys2Proof.Machine.execDriverFaultRetest zf p found s
  | .rfoParkClear p => Sys2Proof.Machine.execRfoParkClear p s
  | .shaperReset p => Sys2Proof.Machine.execShaperReset p s
  | .zpEnable r z => Sys2Proof.Machine.execZpEnable r z s
  | .zpDisable r z => Sys2Proof.Machine.execZpDisable r z s
  | .zbStreamSample z => Sys2Proof.Machine.execZbStreamSample z s
  | .transferWindowOpen z => Sys2Proof.Machine.execTransferWindowOpen z s
  | .transferWindowEnd z => Sys2Proof.Machine.execTransferWindowEnd z s
  | .zbReadback z m => Sys2Proof.Machine.execZbReadback z m s
  | .zbCompliance z => Sys2Proof.Machine.execZbCompliance z s
  | .zfDriverFault z => Sys2Proof.Machine.execZfDriverFault z s
  | .parkDone z => Sys2Proof.Machine.execParkDone z s
  | .zParkClear z => Sys2Proof.Machine.execZParkClear z s
  | .readbackFaultClear z => Sys2Proof.Machine.execReadbackFaultClear z s
  -- ReadoutCmds.lean
  | .rfiEnable r unit => Sys2Proof.Machine.execRfiEnable r unit s
  | .rfiDisable r unit => Sys2Proof.Machine.execRfiDisable r unit s
  | .kswap unit => Sys2Proof.Machine.execKswap unit s
  | .kswapNow unit => Sys2Proof.Machine.execKswapNow unit s
  | .kswapApply unit => Sys2Proof.Machine.execKswapApply unit s
  | .kcopy unit => Sys2Proof.Machine.execKcopy unit s
  | .kcopyDone unit => Sys2Proof.Machine.execKcopyDone unit s
  | .lauEnable r c on => Sys2Proof.Machine.execLauEnable r c on s
  -- EngineInstrs.lean
  | .anaEnable r a => Sys2Proof.Machine.execAnaEnable r a s
  | .anaDisable r a => Sys2Proof.Machine.execAnaDisable r a s
  | .anaDoorbell a => Sys2Proof.Machine.execAnaDoorbell a s
  | .anaInterrupt a => Sys2Proof.Machine.execAnaInterrupt a s
  | .anaInCopy a j => Sys2Proof.Machine.execAnaInCopy a j s
  | .anaTimer a => Sys2Proof.Machine.execAnaTimer a s
  | .anaSendDone a => Sys2Proof.Machine.execAnaSendDone a s
  | .anaNop a => Sys2Proof.Machine.execAnaNop a s
  | .anaLd a => Sys2Proof.Machine.execAnaLd a s
  | .anaSt a => Sys2Proof.Machine.execAnaSt a s
  | .anaLdd a => Sys2Proof.Machine.execAnaLdd a s
  | .anaSts a => Sys2Proof.Machine.execAnaSts a s
  | .anaMul a => Sys2Proof.Machine.execAnaMul a s
  | .anaMac a => Sys2Proof.Machine.execAnaMac a s
  | .anaMsb a => Sys2Proof.Machine.execAnaMsb a s
  | .anaAdds a => Sys2Proof.Machine.execAnaAdds a s
  | .anaClrs a => Sys2Proof.Machine.execAnaClrs a s
  | .anaShs a => Sys2Proof.Machine.execAnaShs a s
  | .anaNorm a => Sys2Proof.Machine.execAnaNorm a s
  | .anaLead a => Sys2Proof.Machine.execAnaLead a s
  | .anaAdd a => Sys2Proof.Machine.execAnaAdd a s
  | .anaSub a => Sys2Proof.Machine.execAnaSub a s
  | .anaAnd a => Sys2Proof.Machine.execAnaAnd a s
  | .anaOr a => Sys2Proof.Machine.execAnaOr a s
  | .anaXor a => Sys2Proof.Machine.execAnaXor a s
  | .anaShf a => Sys2Proof.Machine.execAnaShf a s
  | .anaLdi a => Sys2Proof.Machine.execAnaLdi a s
  | .anaLdih a => Sys2Proof.Machine.execAnaLdih a s
  | .anaSetau a => Sys2Proof.Machine.execAnaSetau a s
  | .anaAbs a => Sys2Proof.Machine.execAnaAbs a s
  | .anaCmp a => Sys2Proof.Machine.execAnaCmp a s
  | .anaBr a => Sys2Proof.Machine.execAnaBr a s
  | .anaCall a => Sys2Proof.Machine.execAnaCall a s
  | .anaRet a => Sys2Proof.Machine.execAnaRet a s
  | .anaLooph a => Sys2Proof.Machine.execAnaLooph a s
  | .anaRti a => Sys2Proof.Machine.execAnaRti a s
  | .anaWait a => Sys2Proof.Machine.execAnaWait a s
  | .anaHflag a => Sys2Proof.Machine.execAnaHflag a s
  | .anaSend a => Sys2Proof.Machine.execAnaSend a s
  | .anaIord a => Sys2Proof.Machine.execAnaIord a s
  | .anaIowr a => Sys2Proof.Machine.execAnaIowr a s
  | .anaHalt a => Sys2Proof.Machine.execAnaHalt a s
  | .anaIllegal a => Sys2Proof.Machine.execAnaIllegal a s
  -- TapCmds.lean
  | .tapEnable r unit => Sys2Proof.Machine.execTapEnable r unit s
  | .tapDisable r unit => Sys2Proof.Machine.execTapDisable r unit s
  | .tapArm unit => Sys2Proof.Machine.execTapArm unit s
  | .tapDisarm unit => Sys2Proof.Machine.execTapDisarm unit s
  | .tapSegmentEnd unit xs => Sys2Proof.Machine.execTapSegmentEnd unit xs s
  | .tapRearmEnd unit => Sys2Proof.Machine.execTapRearmEnd unit s
  | .tapSlotFree unit => Sys2Proof.Machine.execTapSlotFree unit s
  -- FlavasCmds.lean
  | .flvEnable r n => Sys2Proof.Machine.execFlvEnable r n s
  | .flvDisable r n => Sys2Proof.Machine.execFlvDisable r n s
  | .flvDetect n found => Sys2Proof.Machine.execFlvDetect n found s
  | .flvTrained n => Sys2Proof.Machine.execFlvTrained n s
  | .flvTrainTimeout n => Sys2Proof.Machine.execFlvTrainTimeout n s
  | .flvLocked n => Sys2Proof.Machine.execFlvLocked n s
  | .flvLockTimeout n => Sys2Proof.Machine.execFlvLockTimeout n s
  | .flvCaps n peer width depth => Sys2Proof.Machine.execFlvCaps n peer width depth s
  | .flvCapsTimeout n => Sys2Proof.Machine.execFlvCapsTimeout n s
  -- FlitCmds.lean
  | .flitRx n f => Sys2Proof.Machine.execFlitRx n f s
  -- FlavasCmds.lean
  | .creditFlit n => Sys2Proof.Machine.execCreditFlit n s
  | .timeExchange n => Sys2Proof.Machine.execTimeExchange n s
  | .flvLockLost n k => Sys2Proof.Machine.execFlvLockLost n k s
  | .flvRetrain r n => Sys2Proof.Machine.execFlvRetrain r n s
  | .idleReq r n => Sys2Proof.Machine.execIdleReq r n s
  | .eidleEntry n received => Sys2Proof.Machine.execEidleEntry n received s
  | .eidleExit n => Sys2Proof.Machine.execEidleExit n s
  | .prbsInject r l => Sys2Proof.Machine.execPrbsInject r l s
  -- HostCmds.lean
  | .ntIncWrite r hi => Sys2Proof.Machine.execNtIncWrite r hi s
  -- NetTime.lean
  | .ntStep r => Sys2Proof.Machine.execNtStep r s
  | .ntLoad r => Sys2Proof.Machine.execNtLoad r s
  | .ntWrap => Sys2Proof.Machine.execNtWrap s
  -- EtherCmds.lean
  | .ethRxFrame e f fcs => Sys2Proof.Machine.execEthRxFrame e f fcs s
  | .mgmtFrame e f => Sys2Proof.Machine.execMgmtFrame e f s
  | .ethTx e bufs => Sys2Proof.Machine.execEthTx e bufs s
  | .ethTimedLaunch e bufs => Sys2Proof.Machine.execEthTimedLaunch e bufs s
  | .ethLink e up => Sys2Proof.Machine.execEthLink e up s
  -- HostCmds.lean
  | .registerWrite r addr xs => Sys2Proof.Machine.execRegisterWrite r addr xs s
  | .loRead r addr bes => Sys2Proof.Machine.execLoRead r addr bes s
  | .secRidWrite r rid => Sys2Proof.Machine.execSecRidWrite r rid s
  | .partLock r => Sys2Proof.Machine.execPartLock r s
  | .vecLock r => Sys2Proof.Machine.execVecLock r s
  | .partWrite r m j v => Sys2Proof.Machine.execPartWrite r m j v s
  | .queueReset r => Sys2Proof.Machine.execQueueReset r s
  | .cfgCrcCommit r b => Sys2Proof.Machine.execCfgCrcCommit r b s
  | .crcPass b => Sys2Proof.Machine.execCrcPass b s
  | .flr fn => Sys2Proof.Machine.execFlr fn s
  -- SessionCmds.lean
  | .mbxRing r m => Sys2Proof.Machine.execMbxRing r m s
  | .sessionTimeout m => Sys2Proof.Machine.execSessionTimeout m s
  | .lockoutExpiry m => Sys2Proof.Machine.execLockoutExpiry m s
  | .getInfo m dma => Sys2Proof.Machine.execGetInfo m dma s
  | .getNonce m dma => Sys2Proof.Machine.execGetNonce m dma s
  | .openSession m dma => Sys2Proof.Machine.execOpenSession m dma s
  | .closeSession m dma => Sys2Proof.Machine.execCloseSession m dma s
  | .setKey m dma => Sys2Proof.Machine.execSetKey m dma s
  | .echo m dma => Sys2Proof.Machine.execEcho m dma s
  -- LoadCmds.lean
  | .loadProgram m dma => Sys2Proof.Machine.execLoadProgram m dma s
  | .loadSamples m dma => Sys2Proof.Machine.execLoadSamples m dma s
  | .loadDescriptors m dma => Sys2Proof.Machine.execLoadDescriptors m dma s
  | .loadKernel m dma => Sys2Proof.Machine.execLoadKernel m dma s
  | .loadDecision m dma => Sys2Proof.Machine.execLoadDecision m dma s
  | .loadAnalysis m dma => Sys2Proof.Machine.execLoadAnalysis m dma s
  | .loadRecipe m dma => Sys2Proof.Machine.execLoadRecipe m dma s
  | .storeRecipe m dma => Sys2Proof.Machine.execStoreRecipe m dma s
  -- TelemetryCmds.lean
  | .regRead m dma => Sys2Proof.Machine.execRegRead m dma s
  | .regWrite m dma => Sys2Proof.Machine.execRegWrite m dma s
  | .commitCrc m dma => Sys2Proof.Machine.execCommitCrc m dma s
  | .snapshot m dma => Sys2Proof.Machine.execSnapshot m dma s
  | .poolAudit m dma => Sys2Proof.Machine.execPoolAudit m dma s
  | .seqState m dma => Sys2Proof.Machine.execSeqState m dma s
  -- ExportCmds.lean
  | .exportBind m dma => Sys2Proof.Machine.execExportBind m dma s
  | .exportUnbind m dma => Sys2Proof.Machine.execExportUnbind m dma s
  | .exportSlotWrite k cons => Sys2Proof.Machine.execExportSlotWrite k cons s
  -- FenceCmds.lean
  | .park m dma => Sys2Proof.Machine.execPark m dma s
  | .release m dma => Sys2Proof.Machine.execRelease m dma s
  | .fence m dma => Sys2Proof.Machine.execFence m dma s
  | .fencePowerOff a => Sys2Proof.Machine.execFencePowerOff a s
  | .unfence m dma rails stands => Sys2Proof.Machine.execUnfence m dma rails stands s
  -- SessionCmds.lean
  | .setSecRid m dma => Sys2Proof.Machine.execSetSecRid m dma s
  | .cellarTimeout m => Sys2Proof.Machine.execCellarTimeout m s
  -- ExciseCmds.lean
  | .excReport m dma => Sys2Proof.Machine.execExcReport m dma s
  | .excLogRead m dma => Sys2Proof.Machine.execExcLogRead m dma s
  | .excLoadVoucher m dma => Sys2Proof.Machine.execExcLoadVoucher m dma s
  | .excEnforce m dma => Sys2Proof.Machine.execExcEnforce m dma s
  | .excSetVoucherKey m dma => Sys2Proof.Machine.execExcSetVoucherKey m dma s
  | .excUpdate m dma => Sys2Proof.Machine.execExcUpdate m dma s
  | .excSeal m dma => Sys2Proof.Machine.execExcSeal m dma s
  | .excGetCert m dma => Sys2Proof.Machine.execExcGetCert m dma s
  | .exciseFeed => Sys2Proof.Machine.execExciseFeed s
  | .limitFeed => Sys2Proof.Machine.execLimitFeed s
  | .limitStale => Sys2Proof.Machine.execLimitStale s
  | .islandCommit => Sys2Proof.Machine.execIslandCommit s
  | .vddExcFail done => Sys2Proof.Machine.execVddExcFail done s
  | .islandRestart => Sys2Proof.Machine.execIslandRestart s
  | .excViewRefresh => Sys2Proof.Machine.execExcViewRefresh s
  -- SecurityCmds.lean
  | .secTakeOwnership m dma => Sys2Proof.Machine.execSecTakeOwnership m dma s
  | .secAddKey m dma => Sys2Proof.Machine.execSecAddKey m dma s
  | .secRevokeKey m dma => Sys2Proof.Machine.execSecRevokeKey m dma s
  | .secSetField m dma => Sys2Proof.Machine.execSecSetField m dma s
  | .secRma m dma => Sys2Proof.Machine.execSecRma m dma s
  | .secLoadFw m dma => Sys2Proof.Machine.execSecLoadFw m dma s
  | .secSetRollback m dma => Sys2Proof.Machine.execSecSetRollback m dma s
  | .secDebugChallenge m dma => Sys2Proof.Machine.execSecDebugChallenge m dma s
  | .secDebugOpen m dma => Sys2Proof.Machine.execSecDebugOpen m dma s
  | .parkWrite m dma => Sys2Proof.Machine.execParkWrite m dma s
  | .parkRead m dma => Sys2Proof.Machine.execParkRead m dma s
  -- CalCmds.lean
  | .calRun m dma => Sys2Proof.Machine.execCalRun m dma s
  | .calCancel m dma => Sys2Proof.Machine.execCalCancel m dma s
  | .calStore m dma => Sys2Proof.Machine.execCalStore m dma s
  -- MonCmds.lean
  | .monDiag m dma m1 m2 i1 i2 => Sys2Proof.Machine.execMonDiag m dma m1 m2 i1 i2 s
  -- CalCmds.lean
  | .calTempCheck a => Sys2Proof.Machine.execCalTempCheck a s
  | .calPeriodTrigger a => Sys2Proof.Machine.execCalPeriodTrigger a s
  | .calStepStart a => Sys2Proof.Machine.execCalStepStart a s
  | .calStepEnd a sel bad res => Sys2Proof.Machine.execCalStepEnd a sel bad res s
  | .calStepTimeout a => Sys2Proof.Machine.execCalStepTimeout a s
  | .calStale a => Sys2Proof.Machine.execCalStale a s
  -- MonCmds.lean
  | .monSeqFire x j => Sys2Proof.Machine.execMonSeqFire x j s
  | .monConversion x code => Sys2Proof.Machine.execMonConversion x code s
  | .brgConversion n code => Sys2Proof.Machine.execBrgConversion n code s
  | .brgExcCheck n current => Sys2Proof.Machine.execBrgExcCheck n current s
  -- KilnCmds.lean
  | .kilnTempRead n r => Sys2Proof.Machine.execKilnTempRead n r s
  | .kilnLevelStep => Sys2Proof.Machine.execKilnLevelStep s
  | .kilnRailRead r mv => Sys2Proof.Machine.execKilnRailRead r mv s
  | .kilnProcRead k mhz => Sys2Proof.Machine.execKilnProcRead k mhz s
  -- StartCmds.lean
  | .hostLinkChange up speed width => Sys2Proof.Machine.execHostLinkChange up speed width s
  | .railEnableTimeout tile => Sys2Proof.Machine.execRailEnableTimeout tile s
  -- ExciseCmds.lean
  | .vddExcReturn => Sys2Proof.Machine.execVddExcReturn s
  -- KilnCmds.lean
  | .kilnReadingStale n => Sys2Proof.Machine.execKilnReadingStale n s
  -- FlavasCmds.lean
  | .prbsLock l => Sys2Proof.Machine.execPrbsLock l s
  | .prbsLoss l errors => Sys2Proof.Machine.execPrbsLoss l errors s
  -- PortCmds.lean
  | .biasRampEnd z => Sys2Proof.Machine.execBiasRampEnd z s

end Sys2Proof.Machine
end

