-- ==== Sys2Proof/WellFormed.lean ====
section
/-! DEFINITION. Which commands are well formed: the ranges of operands that their types leave wider than the spec does.  A meaning
is total on every command; a sender sends only these. -/

namespace Sys2Proof

/-- Registers of a part of the partition map (R372). -/
def PartMap.count : PartMap → Nat
  | .tun => 8
  | .rfo => 36
  | .zp => 96
  | .lau => 128
  | .tap => 4
  | .frm => 20
  | .bar => 32

/-- Bytes that a DMA list can move in one direction: 255 descriptors of at most 2^32 - 4 bytes (R379). -/
def dmaMax : Nat := 255 * (2 ^ 32 - 4)

/-- The DMA of a mailbox command moved no more than its list can (R379). -/
def Dma.wf (d : Dma) : Bool :=
  decide (d.inp.length ≤ dmaMax) && (match d.fail with | some n => decide (n ≤ dmaMax) | none => true)

/-- A speed code and a width of a trained link (R355). -/
def linkOk (speed width : Nat) : Bool :=
  decide (1 ≤ speed ∧ speed ≤ 5) && (width == 1 || width == 2 || width == 4 || width == 8)

/-- Which counter of R22: an account, or 0xFF for state of no single one (R407), any queue, the one pool, a link, a Tap unit. -/
def counterOk (holder which : Nat) : Bool :=
  match holder with
  | 0 => decide (which < 16) || which == 0xFF
  | 1 => true
  | 2 => which == 0
  | _ => decide (which < 32)

/-- The command's operands lie in the ranges the spec gives them (DESIGN CHOICE, log entry 1). -/
def Instr.wf : Instr → Bool
  -- A counter of R22.
  | .ledgerBreak counter _ => counterOk counter.holder.val counter.which.toNat
  -- A port lies in its class.
  | .driverFaultRetest zf p _ => zf || decide (p.val < 288)
  -- A received frame without its FCS (R340).
  | .ethRxFrame _ f _ => decide (60 ≤ f.length ∧ f.length ≤ 9212)
  -- A management frame without its FCS (R340, R383).
  | .mgmtFrame _ f => decide (60 ≤ f.length ∧ f.length ≤ 9212)
  -- A posted write carries at most 512 bytes (R355).
  | .registerWrite _ _ xs => decide (1 ≤ xs.length ∧ xs.length ≤ 128)
  -- A read request asks for at most 4,096 bytes (R355).
  | .loRead _ _ bes => decide (1 ≤ bes.length ∧ bes.length ≤ 1024)
  -- A partition register lies in its map (R372).
  | .partWrite _ m j _ => decide (j.val < m.count)
  -- A trained speed and width (R355).
  | .hostLinkChange up speed width => !up || linkOk speed.toNat width.toNat
  -- What a DMA list moved (R379).
  | .getInfo _ dma => dma.wf
  | .getNonce _ dma => dma.wf
  | .openSession _ dma => dma.wf
  | .closeSession _ dma => dma.wf
  | .setKey _ dma => dma.wf
  | .echo _ dma => dma.wf
  | .loadProgram _ dma => dma.wf
  | .loadSamples _ dma => dma.wf
  | .loadDescriptors _ dma => dma.wf
  | .loadKernel _ dma => dma.wf
  | .loadDecision _ dma => dma.wf
  | .loadAnalysis _ dma => dma.wf
  | .loadRecipe _ dma => dma.wf
  | .storeRecipe _ dma => dma.wf
  | .regRead _ dma => dma.wf
  | .regWrite _ dma => dma.wf
  | .commitCrc _ dma => dma.wf
  | .snapshot _ dma => dma.wf
  | .poolAudit _ dma => dma.wf
  | .seqState _ dma => dma.wf
  | .exportBind _ dma => dma.wf
  | .exportUnbind _ dma => dma.wf
  | .park _ dma => dma.wf
  | .release _ dma => dma.wf
  | .fence _ dma => dma.wf
  | .unfence _ dma _ _ => dma.wf
  | .setSecRid _ dma => dma.wf
  | .excReport _ dma => dma.wf
  | .excLogRead _ dma => dma.wf
  | .excLoadVoucher _ dma => dma.wf
  | .excEnforce _ dma => dma.wf
  | .excSetVoucherKey _ dma => dma.wf
  | .excUpdate _ dma => dma.wf
  | .excSeal _ dma => dma.wf
  | .excGetCert _ dma => dma.wf
  | .secTakeOwnership _ dma => dma.wf
  | .secAddKey _ dma => dma.wf
  | .secRevokeKey _ dma => dma.wf
  | .secSetField _ dma => dma.wf
  | .secRma _ dma => dma.wf
  | .secLoadFw _ dma => dma.wf
  | .secSetRollback _ dma => dma.wf
  | .secDebugChallenge _ dma => dma.wf
  | .secDebugOpen _ dma => dma.wf
  | .parkWrite _ dma => dma.wf
  | .parkRead _ dma => dma.wf
  | .calRun _ dma => dma.wf
  | .calCancel _ dma => dma.wf
  | .calStore _ dma => dma.wf
  | .monDiag _ dma _ _ _ _ => dma.wf
  -- Every value of the operands' types is in range.
  | .porstRelease .. | .porstAssert | .pgLost .. | .tileRailsGood .. | .parkApplied .. | .boot | .startupReady | .refLost
  | .refOk | .pllLocked | .pllUnlocked | .watchdog | .ryvexUp | .parkLogicLost .. | .tlLoad .. | .sendSync ..
  | .sendCheck .. | .autoSyncCheck | .echoStart .. | .echoReqRx .. | .echoRspRx .. | .echoTimeout | .delaySetRx ..
  | .syncRx .. | .syncCheckRx .. | .tlCapture | .pairCaptured | .trigEdge .. | .tlPinPop .. | .pinArm .. | .pinPulse ..
  | .caIndex .. | .caMissedIndex | .caQuadEdge .. | .caWindowEntry .. | .start .. | .groupStart .. | .stop ..
  | .stopAtShot .. | .clear .. | .slackReset .. | .seqEnWrite .. | .tunEnWrite .. | .nop .. | .halt .. | .yieldCal ..
  | .wait .. | .waituntil .. | .alignAngle .. | .angleUnlocked .. | .waittrig .. | .trigTimeout .. | .sync ..
  | .barrierRelease .. | .barrierTimeout .. | .qmBarCfgWrite .. | .play .. | .teqFullStallEnd .. | .playz .. | .setbias ..
  | .rampbias .. | .fset .. | .fshift .. | .freset .. | .pframe .. | .measure .. | .acq .. | .br .. | .brr ..
  | .resultReady .. | .resultTimeout .. | .loop .. | .call .. | .ret .. | .ld .. | .st .. | .add .. | .sub .. | .and ..
  | .or .. | .xor .. | .shl .. | .shr .. | .asr .. | .mov .. | .cmp .. | .mul .. | .shotBegin .. | .creditStallEnd ..
  | .ringStallEnd .. | .kilnSkipEnd .. | .shotEnd .. | .shotClosed .. | .signal .. | .msgVisible .. | .waitmsg ..
  | .msgTimeout .. | .illegal .. | .ownerExtension .. | .calRequest .. | .pulseFire .. | .zpulseFire .. | .biasSetFire ..
  | .biasRampFire .. | .frameFire .. | .measureFire .. | .acqFire .. | .windowRecord .. | .resultWrite
  | .roundDeferredEval .. | .roundTimeout .. | .roundAction .. | .decWinEnable .. | .decBaseWrite .. | .decTableWrite ..
  | .frameTableWrite .. | .wftSwap | .wftSwapNow | .wftSwapApply | .wftCopy | .wftCopyDone | .rfoEnable .. | .rfoEnabled ..
  | .rfoDisable .. | .rfoMute .. | .rfoDriverFault .. | .rfoParkClear .. | .shaperReset .. | .zpEnable .. | .zpDisable ..
  | .zbStreamSample .. | .transferWindowOpen .. | .transferWindowEnd .. | .zbReadback .. | .zbCompliance ..
  | .zfDriverFault .. | .parkDone .. | .zParkClear .. | .readbackFaultClear .. | .rfiEnable .. | .rfiDisable .. | .kswap ..
  | .kswapNow .. | .kswapApply .. | .kcopy .. | .kcopyDone .. | .lauEnable .. | .anaEnable .. | .anaDisable ..
  | .anaDoorbell .. | .anaInterrupt .. | .anaInCopy .. | .anaTimer .. | .anaSendDone .. | .anaNop .. | .anaLd ..
  | .anaSt .. | .anaLdd .. | .anaSts .. | .anaMul .. | .anaMac .. | .anaMsb .. | .anaAdds .. | .anaClrs .. | .anaShs ..
  | .anaNorm .. | .anaLead .. | .anaAdd .. | .anaSub .. | .anaAnd .. | .anaOr .. | .anaXor .. | .anaShf .. | .anaLdi ..
  | .anaLdih .. | .anaSetau .. | .anaAbs .. | .anaCmp .. | .anaBr .. | .anaCall .. | .anaRet .. | .anaLooph .. | .anaRti ..
  | .anaWait .. | .anaHflag .. | .anaSend .. | .anaIord .. | .anaIowr .. | .anaHalt .. | .anaIllegal .. | .tapEnable ..
  | .tapDisable .. | .tapArm .. | .tapDisarm .. | .tapSegmentEnd .. | .tapRearmEnd .. | .tapSlotFree .. | .flvEnable ..
  | .flvDisable .. | .flvDetect .. | .flvTrained .. | .flvTrainTimeout .. | .flvLocked .. | .flvLockTimeout ..
  | .flvCaps .. | .flvCapsTimeout .. | .flitRx .. | .creditFlit .. | .timeExchange .. | .flvLockLost .. | .flvRetrain ..
  | .idleReq .. | .eidleEntry .. | .eidleExit .. | .prbsInject .. | .ntIncWrite .. | .ntStep .. | .ntLoad .. | .ntWrap
  | .ethTx .. | .ethTimedLaunch .. | .ethLink .. | .secRidWrite .. | .partLock .. | .vecLock .. | .queueReset ..
  | .cfgCrcCommit .. | .crcPass .. | .flr .. | .mbxRing .. | .sessionTimeout .. | .lockoutExpiry .. | .exportSlotWrite ..
  | .fencePowerOff .. | .cellarTimeout .. | .exciseFeed | .limitFeed | .limitStale | .islandCommit | .vddExcFail ..
  | .islandRestart | .excViewRefresh | .calTempCheck .. | .calPeriodTrigger .. | .calStepStart .. | .calStepEnd ..
  | .calStepTimeout .. | .calStale .. | .monSeqFire .. | .monConversion .. | .brgConversion .. | .brgExcCheck ..
  | .kilnTempRead .. | .kilnLevelStep | .kilnRailRead .. | .kilnProcRead .. | .railEnableTimeout .. | .vddExcReturn
  | .kilnReadingStale .. | .prbsLock .. | .prbsLoss .. | .biasRampEnd .. => true

end Sys2Proof
end

