-- ==== Sys2Proof/Safety.lean ====
section
/-! DEFINITION. What counts as a safe run, in the terms that claims use. -/

namespace Sys2Proof.Machine

/-- An outcome is a next state. -/
def goesOn (o : Host.Outcome State Fault Refusal) : Bool :=
  match o with
  | .next _ => true
  | .fault _ => false
  | .refused _ => false

/-- A state is canonical: the register file and the byte memory are in their one canonical form, so that states that hold the
same values are equal. -/
def Canonical (s : State) : Prop := Tab.wf 0 s.regs = true ∧ Memory.wf s.mem = true

/-- The Supervisor's stores hold no more than the spec gives them: the fault log 4,096 entries (R480), the snapshots of 16
requesters (R364). -/
def HostIf.Bounded (h : HostIf) : Prop := h.log.length ≤ 4096 ∧ h.snaps.length ≤ 16

/-- SHOTS_BEGUN = CREDIT_LOADED - CREDIT_BALANCE + UNCHARGED (R396). -/
def Account.Balanced (a : Account) : Prop := a.begun + a.balance = a.loaded + a.uncharged

/-- The audit log holds at most 1,024 entries (R406), and every account is balanced (R396). -/
def IslandData.Sound (d : IslandData) : Prop := d.log.length ≤ 1024 ∧ ∀ n, (Tab.get {} d.accounts n).Balanced

/-- What the island holds is sound, now and in its last commit. -/
def Excise.Sound (e : Excise) : Prop := e.cur.Sound ∧ e.saved.Sound

/-- The invariant of the model: the state is canonical, no store of R364, R406 or R480 exceeds its size, and every account of the
Excise Meter is balanced (R396). -/
structure Inv (s : State) : Prop where
  canonical : Canonical s
  host : s.host.Bounded
  exc : s.exc.Sound

/-- What no command undoes in the Supervisor: its stores stay within their sizes, and the INDEX of the fault log never falls
(R480). -/
structure HostIf.Grows (h k : HostIf) : Prop where
  bounded : h.Bounded → k.Bounded
  index : h.logIndex ≤ k.logIndex

/-- What no command undoes in the Excise Meter: the audit log stays within its size, the accounts stay balanced, and the feed
epoch never falls (R394, R396, R406). -/
structure Excise.Grows (e f : Excise) : Prop where
  sound : e.Sound → f.Sound
  epoch : e.epoch ≤ f.epoch

/-- What every command keeps, whatever else it does: the canonical form, the commands that wait, what has been sent outside, the
count of free values used, and what the Supervisor and the Excise feeds never undo. -/
structure Evolves (s t : State) : Prop where
  canonical : Canonical s → Canonical t
  pending : t.pending = s.pending
  outbox : s.outbox <:+ t.outbox
  free : s.free ≤ t.free
  host : s.host.Grows t.host
  exc : s.exc.Grows t.exc

/-- Every command that waits is well formed. -/
def wellQueued (s : State) : Bool := s.pending.all Instr.wf

/-- A state is safe: it has the invariant, and only well-formed commands wait. -/
def Safe (s : State) : Prop := Inv s ∧ wellQueued s = true

end Sys2Proof.Machine
end

