-- ==== Sys2Proof/Certificates/Slice0/Obligations.lean ====
section
/-! DEFINITION. What is claimed of the block: one proposition per obligation, with the words they share. -/

open Sys2Proof Sys2Proof.Machine

/-! ### Instructions of a sequencer -/

/-- The tick at which the next instruction of sequencer k begins: the end of the last one (R99). -/
abbrev beginTick (k : Nat) (s : State) : Nat := (s.seq k).readyAt

/-- The machine at the tick at which sequencer k's next instruction begins: time has passed to it. -/
def atIssue (k : Nat) (s : State) : State := advanceTo (beginTick k s) s

/-- The machine there as sequencer k's instruction begins: image 2.4's routine of it leaves the micro-state open unless the spec lists
it or it takes one cycle (R138; the model's choice, log entry 98). -/
def atBegin (k : Nat) (s : State) : State := opens (fetchWord k (atIssue k s) / 2 ^ 56) k (atIssue k s)

/-- The machine n ticks after that, as the passing of time alone leaves it; a cycle is 2 ticks. -/
def inTicks (k n : Nat) (s : State) : State := advanceTo (beginTick k s + n) (atBegin k s)

/-- Sequencer k issues opcode op: it is RUNNING with no routine and no abort under way, its program counter stands at an address of
the store, the word there has opcode op, which image 2.4's own routine executes, and its COND holds (R63, R98, R99, R104, R131). -/
def Issues (k op : Nat) (s : State) : Prop :=
  atBoundary k (atIssue k s) = true ∧ ((atIssue k s).seq k).pcOver = false
    ∧ fetchWord k (atIssue k s) / 2 ^ 56 = op ∧ byRule k op (atIssue k s) = true
    ∧ condHolds ((atIssue k s).seq k) (bits (fetchWord k (atIssue k s)) 52 4) = true

/-- The word that sequencer k issues. -/
abbrev issued (k : Nat) (s : State) : Nat := fetchWord k (atIssue k s)

/-- The field of n bits at bit lo of the word that sequencer k issues. -/
abbrev wordBits (k : Nat) (s : State) (lo n : Nat) : Nat := bits (issued k s) lo n

/-- Bit b of the word that sequencer k issues. -/
abbrev wordBit (k : Nat) (s : State) (b : Nat) : Bool := (issued k s).testBit b

/-- What the instructions of R105, R113, R115 and R118 do: NOP only retires, in 1 cycle; WAIT adds its immediate or its register
to the time cursor, in 1 cycle; WAITUNTIL raises the cursor to its target and sets C when that target lies behind it, in 2
cycles, and faults BAD_OPERAND when its MODE or pair gives no target; HALT outside a shot leaves the sequencer HALTED, in 2
cycles; YIELD_CAL outside a shot offers the span [cursor, cursor + n) to its tile's calibration and moves the cursor past it, in 3
cycles; both fault with 2EH inside a shot.  Each equation gives the whole next state. -/
def Obligations.TimingInstructionsMoveTheCursor : Prop :=
  (∀ (k : Fin 512) s, Issues k 0x00 s → exec (.nop k) s = .next (retire k (beginTick k s + 2) (inTicks k 2 s))) ∧
  (∀ (k : Fin 512) s, Issues k 0x08 s →
    let u := inTicks k 2 s
    exec (.wait k) s = .next (retire k (beginTick k s + 2) (u.set (SEQ_CURSOR k) (cursor k u +
      (if wordBit k s 49 then greg k (wordBits k s 32 4) u else wordBits k s 0 32))))) ∧
  (∀ (k : Fin 512) s x, Issues k 0x09 s →
    let u := inTicks k 4 s
    waitTarget k (issued k s) u = some x →
    exec (.waituntil k) s = .next (retire k (beginTick k s + 4)
      ((u.modSeq k fun q => { q with c := decide (x < cursor k u) }).set (SEQ_CURSOR k) (max (cursor k u) x)))) ∧
  (∀ (k : Fin 512) s, Issues k 0x09 s → waitTarget k (issued k s) (inTicks k 4 s) = none →
    exec (.waituntil k) s = .next (seqFault k 0x20 0x09 2 (beginTick k s + 4) (inTicks k 4 s))) ∧
  (∀ (k : Fin 512) s, Issues k 0x01 s →
    let u := inTicks k 4 s
    exec (.halt k) s = .next (if (u.seq k).shotOpen then seqFault k 0x2E 0x01 2 (beginTick k s + 4) u
      else setSeqState k stHalted (retire k (beginTick k s + 4) u))) ∧
  (∀ (k : Fin 512) s, Issues k 0x02 s →
    let u := inTicks k 6 s
    exec (.yieldCal k) s = .next (if (u.seq k).shotOpen then seqFault k 0x2E 0x02 3 (beginTick k s + 6) u
      else retire k (beginTick k s + 6)
        ((u.setCal (wordBits k s 45 3) { u.cal (wordBits k s 45 3) with
            offers := (u.cal (wordBits k s 45 3)).offers ++ [(cursor k u, cursor k u + wordBits k s 0 32)] }).set
          (SEQ_CURSOR k) (cursor k u + wordBits k s 0 32))))

/-- The A operand of an ALU word of sequencer k, in the machine u (R123). -/
def aluA (k : Nat) (s u : State) : BitVec 32 := .ofNat 32 (greg k (wordBits k s 40 4) u)

/-- The B operand: IMM when I = 1, else a register (R123). -/
def aluB (k : Nat) (s u : State) : BitVec 32 :=
  .ofNat 32 (if wordBit k s 39 then wordBits k s 0 32 else greg k (wordBits k s 32 4) u)

/-- Sequencer k's instruction retires at tick te, with the machine otherwise at u, without a transfer, and of the sequencer only
what f says changes besides: the loop stack and the program counter follow R116. -/
def Retires (k te : Nat) (f : Seq → Seq) (u t : State) : Prop :=
  t.seq k = { f (u.seq k) with
      stack := (loopNext (pcOf k u) (u.seq k).stack).1
      pcOver := decide ((loopNext (pcOf k u) (u.seq k).stack).2 ≥ 8192)
      lastPc := pcOf k u
      readyAt := te }
    ∧ t.get (SEQ_PC k) = (loopNext (pcOf k u) (u.seq k).stack).2 % 2 ^ 13

/-- The frame of a register-only instruction of sequencer k, against the machine u that the passing of time alone gives: only
registers and that sequencer change, and no register but those named; every byte of memory reads as before. -/
def OnlySeq (k : Nat) (regs : List Fld) (u t : State) : Prop :=
  t = { u with regs := t.regs, seqs := t.seqs }
    ∧ (∀ j, j ≠ k → t.seq j = u.seq j)
    ∧ (∀ f : Fld, f.key ∉ regs.map (·.key) → t.get f = u.get f)
    ∧ (∀ a, t.byte a = u.byte a)

/-- What an ALU instruction of 1 cycle leaves: Z and N of the result r, C and V as given, r in its destination when it writes
one, and nothing else of the machine changed but the program counter. -/
def AluLeaves (k : Nat) (s : State) (writes : Bool) (r : BitVec 32) (c v : Bool) (o : Host.Outcome State Fault Refusal) :
    Prop :=
  ∃ t, o = .next t
    ∧ Retires k (beginTick k s + 2) (fun q => { q with z := r == 0, n := r.msb, c := c, v := v }) (inTicks k 2 s) t
    ∧ (writes = true → greg k (wordBits k s 44 4) t = r.toNat)
    ∧ OnlySeq k (SEQ_PC k :: if writes then [SEQ_GREG_G k (wordBits k s 44 4)] else []) (inTicks k 2 s) t

/-- The arithmetic and logical instructions of R123 compute 32-bit vector arithmetic: ADD and SUB with carry out, no-borrow and
signed overflow; AND, OR, XOR clear C and V; MOV leaves C and V; CMP is SUB without its register. -/
def Obligations.AluInstructionsComputeBitVectors : Prop :=
  ∀ (k : Fin 512) s,
    let a := aluA k s (inTicks k 2 s)
    let b := aluB k s (inTicks k 2 s)
    let q := (inTicks k 2 s).seq k
    (Issues k 0x38 s → AluLeaves k s true (a + b) (decide (a.toNat + b.toNat ≥ 2 ^ 32)) (BitVec.saddOverflow a b)
      (exec (.add k) s)) ∧
    (Issues k 0x39 s → AluLeaves k s true (a - b) (decide (b ≤ a)) (BitVec.ssubOverflow a b) (exec (.sub k) s)) ∧
    (Issues k 0x3A s → AluLeaves k s true (a &&& b) false false (exec (.and k) s)) ∧
    (Issues k 0x3B s → AluLeaves k s true (a ||| b) false false (exec (.or k) s)) ∧
    (Issues k 0x3C s → AluLeaves k s true (a ^^^ b) false false (exec (.xor k) s)) ∧
    (Issues k 0x40 s → AluLeaves k s true b q.c q.v (exec (.mov k) s)) ∧
    (Issues k 0x41 s → AluLeaves k s false (a - b) (decide (b ≤ a)) (BitVec.ssubOverflow a b) (exec (.cmp k) s))

/-- The shifts of R123: A by B[4:0]; C is the last bit shifted out, 0 for a shift of 0; V stays. -/
def Obligations.ShiftInstructionsKeepV : Prop :=
  ∀ (k : Fin 512) s,
    let a := aluA k s (inTicks k 2 s)
    let n := (aluB k s (inTicks k 2 s)).toNat % 32
    let q := (inTicks k 2 s).seq k
    (Issues k 0x3D s → AluLeaves k s true (a <<< n) (n != 0 && a.getLsbD (32 - n)) q.v (exec (.shl k) s)) ∧
    (Issues k 0x3E s → AluLeaves k s true (a >>> n) (n != 0 && a.getLsbD (n - 1)) q.v (exec (.shr k) s)) ∧
    (Issues k 0x3F s → AluLeaves k s true (a.sshiftRight n) (n != 0 && a.getLsbD (n - 1)) q.v (exec (.asr k) s))

/-- MUL, LD and ST (R123, R124).  MUL multiplies the signed low 18 bits on the TAU, in 5 cycles and those that the TAU refused;
it writes the low 32 bits, sets Z and N from them and V when the product does not fit.  LD writes the data-space word, in 3
cycles or 4 from the sample memory; ST writes a word of the sample memory of its Tun in 2 cycles, and every other byte stays
as time alone leaves it; an address outside the table, and an ST elsewhere, faults with BAD_ADDRESS. -/
def Obligations.MulLdStFollowTheirTables : Prop :=
  (∀ (k : Fin 512) s, Issues k 0x42 s →
    let tau := tauRequest k (beginTick k s + 2) (inTicks k 2 s)
    let te := beginTick k s + 10 + 2 * tau.1
    let u := advanceTo te tau.2
    let p := sgn 18 (aluA k s u).toNat * sgn 18 (aluB k s u).toNat
    exec (.mul k) s = .next (retire k te (setGreg k (wordBits k s 44 4) (wrap 32 p)
      (u.modSeq k fun q =>
        { q with z := wrap 32 p == 0, n := (wrap 32 p).testBit 31,
                 v := !(decide (-2 ^ 31 ≤ p) && decide (p < 2 ^ 31)) })))) ∧
  (∀ (k : Fin 512) s v, Issues k 0x30 s →
    let a := dataAddr k (issued k s) (atBegin k s)
    let n := 2 * (if 0x40000 ≤ a ∧ a ≤ 0x7FFFF then 4 else 3)
    let t := beginTick k s + n
    dataWord k a t (inTicks k n s) = some v →
    exec (.ld k) s = .next (retire k t (setGreg k (wordBits k s 44 4) v (latchHi k a t (inTicks k n s))))) ∧
  (∀ (k : Fin 512) s, Issues k 0x30 s →
    let a := dataAddr k (issued k s) (atBegin k s)
    (0x4100 ≤ a ∧ a < 0x40000) ∨ 0x80000 ≤ a →
    exec (.ld k) s = .next (seqFault k 0x21 0x30 3 (beginTick k s + 6) (inTicks k 6 s))) ∧
  (∀ (k : Fin 512) s, Issues k 0x31 s →
    let a := dataAddr k (issued k s) (atBegin k s)
    let u := inTicks k 4 s
    let x := sampleAddr k a
    let v := greg k (wordBits k s 44 4) u
    0x40000 ≤ a ∧ a ≤ 0x7FFFF →
    ∃ t, exec (.st k) s = .next t ∧ Retires k (beginTick k s + 4) id u t
      ∧ t = { u with regs := t.regs, seqs := t.seqs, mem := t.mem }
      ∧ (∀ j, j ≠ k.val → t.seq j = u.seq j)
      ∧ (∀ f : Fld, f.key ≠ (SEQ_PC k).key → t.get f = u.get f)
      ∧ (∀ i, i < 4 → t.byte (x + i) = BitVec.ofNat 8 (v / 256 ^ i))
      ∧ (∀ y, y < x ∨ x + 4 ≤ y → t.byte y = u.byte y)) ∧
  (∀ (k : Fin 512) s, Issues k 0x31 s →
    let a := dataAddr k (issued k s) (atBegin k s)
    a < 0x40000 ∨ 0x80000 ≤ a →
    exec (.st k) s = .next (seqFault k 0x21 0x31 2 (beginTick k s + 4) (inTicks k 4 s)))

/-- What a sequencer's transfer of control leaves of the machine u (R116, R117): the program counter at `pc`, the stack as given,
the instruction's end at tick te, and nothing else changed. -/
def Jumps (k pc te : Nat) (st : List StackItem) (u t : State) : Prop :=
  t.get (SEQ_PC k) = pc % 2 ^ 13
    ∧ t.seq k = { u.seq k with stack := st, readyAt := te, lastPc := pcOf k u, pcOver := decide (pc ≥ 8192) }
    ∧ OnlySeq k [SEQ_PC k] u t

/-- R116 whole, and BR and RET of R117, with the frame of each: CALL pushes PC + 1 and jumps; LOOP pushes its body PC + 1 to END with
its COUNT, or with COUNT 0 pushes nothing and jumps to END + 1, faults with BAD_OPERAND when END lies below PC + 1 and, like CALL,
with STACK_OVERFLOW at a seventeenth push; when an instruction retires at END without a transfer, the top loop entry with that
END counts down and repeats its body, or is popped and the next entry is judged, and without such an entry the next instruction
is END + 1; a taken BR pops the loops whose body does not hold its target; RET pops to the most recent CALL entry. -/
def Obligations.ControlFlowMovesThePcAndStack : Prop :=
  (∀ (k : Fin 512) s, Issues k 0x28 s →
    let u := inTicks k 4 s
    ∃ t, exec (.br k) s = .next t ∧ Jumps k (branchTarget k (issued k s) u) (beginTick k s + 4)
      (popLoops (branchTarget k (issued k s) u) (u.seq k).stack) u t) ∧
  (∀ (k : Fin 512) s, Issues k 0x2B s →
    let u := inTicks k 4 s
    (u.seq k).stack.length < 16 →
    ∃ t, exec (.call k) s = .next t ∧ Jumps k (branchTarget k (issued k s) u) (beginTick k s + 4)
      (.call (pcOf k u + 1) :: (u.seq k).stack) u t) ∧
  (∀ (k : Fin 512) s ret st, Issues k 0x2C s →
    let u := inTicks k 4 s
    popCall (u.seq k).stack = some (ret, st) →
    ∃ t, exec (.ret k) s = .next t ∧ Jumps k ret (beginTick k s + 4) st u t) ∧
  (∀ (k : Fin 512) s, Issues k 0x2A s →
    let u := inTicks k 4 s
    let last := wordBits k s 0 13
    let count := if wordBit k s 49 then greg k (wordBits k s 24 4) u % 2 ^ 24 else wordBits k s 24 24
    let pc := pcOf k u
    pc < last →
    (count = 0 → ∃ t, exec (.loop k) s = .next t ∧ Jumps k (last + 1) (beginTick k s + 4) (u.seq k).stack u t) ∧
    (count ≠ 0 → (u.seq k).stack.length < 16 → ∃ t, exec (.loop k) s = .next t
      ∧ Jumps k (pc + 1) (beginTick k s + 4) (.loop (pc + 1) last count :: (u.seq k).stack) u t) ∧
    (count ≠ 0 → 16 ≤ (u.seq k).stack.length →
      exec (.loop k) s = .next (seqFault k 0x23 0x2A 2 (beginTick k s + 4) u))) ∧
  (∀ (k : Fin 512) s, Issues k 0x2A s →
    let u := inTicks k 4 s
    wordBits k s 0 13 ≤ pcOf k u → exec (.loop k) s = .next (seqFault k 0x20 0x2A 2 (beginTick k s + 4) u)) ∧
  (∀ (k : Fin 512) s, Issues k 0x00 s → ∃ t, exec (.nop k) s = .next t
    ∧ Retires k (beginTick k s + 2) id (inTicks k 2 s) t ∧ OnlySeq k [SEQ_PC k] (inTicks k 2 s) t) ∧
  (∀ pc first last n st, loopNext pc (.loop first last n :: st) =
    if last = pc then (if 1 < n then (.loop first last (n - 1) :: st, first) else loopNext pc st)
    else (.loop first last n :: st, pc + 1)) ∧
  (∀ pc ret st, loopNext pc [] = ([], pc + 1) ∧ loopNext pc (.call ret :: st) = (.call ret :: st, pc + 1)) ∧
  (∀ (k : Fin 512) s, Issues k 0x2B s →
    let u := inTicks k 4 s
    16 ≤ (u.seq k).stack.length → exec (.call k) s = .next (seqFault k 0x23 0x2B 2 (beginTick k s + 4) u)) ∧
  (∀ (k : Fin 512) s, Issues k 0x2C s →
    let u := inTicks k 4 s
    popCall (u.seq k).stack = none → exec (.ret k) s = .next (seqFault k 0x24 0x2C 2 (beginTick k s + 4) u))

/-- BRR (R119 to R122, R138, R267): at arming, the end of cycle 2, it compares the source's tag with the expected generation, which
RESGEN takes; resolved, it decides by the value of that tick, which RESVAL takes, clears V and jumps or falls through with the
catch-up of CATCH, two cycles later; behind, it stalls with STALL = RESULT; a stale or invalid source with ON_FAIL = FLAG sets V and
falls through, and with ON_FAIL = FAULT it faults with the failure's code; a taken target beyond 8,191 faults with PC_RANGE, and an
INDEX outside its source with BAD_OPERAND. -/
def Obligations.BrrResolvesStallsOrFails : Prop :=
  ∀ (k : Fin 512) s, Issues k 0x29 s →
    let w := issued k s
    let arm := inTicks k 4 s
    let g := brrExpected k w arm
    let te := beginTick k s + 8
    let a := modMicro k (fun m => { m with resgen := g }) arm
    let taken := brrTaken k w a
    let e (o : BrrOutcome) := advanceTo te (modMicro k (fun m => { m with resval := resvalOf k w o a }) a)
    let lead := wordBits k s 13 7
    let u := (e .resolve).modSeq k fun q => { q with v := false }
    let flagged (o : BrrOutcome) := (e o).modSeq k fun q => { q with v := true }
    (brrOk w = false → exec (.brr k) s = .next (seqFault k 0x20 0x29 2 (beginTick k s + 4) (atBegin k s))) ∧
    (brrOk w = true →
      (brrCompare k w g a = .resolve → taken.1 = true → taken.2 ≤ 8191 →
        exec (.brr k) s = .next (catchUp k lead te (wordBit k s 51) (branchTo k taken.2 te u))) ∧
      (brrCompare k w g a = .resolve → taken.1 = true → 8191 < taken.2 →
        exec (.brr k) s = .next (seqFault k 0x22 0x29 4 te (e .resolve))) ∧
      (brrCompare k w g a = .resolve → taken.1 = false →
        exec (.brr k) s = .next (catchUp k lead te (wordBit k s 51) (retire k te u))) ∧
      (brrCompare k w g a = .behind → exec (.brr k) s = .next (stallSeq k (.result g) (beginTick k s + 4) a)) ∧
      (∀ o, o = .stale ∨ o = .invalid → brrCompare k w g a = o → wordBit k s 49 = true →
        exec (.brr k) s = .next (catchUp k lead te (wordBit k s 51) (retire k te (flagged o)))) ∧
      (brrCompare k w g a = .stale → wordBit k s 49 = false →
        exec (.brr k) s = .next (seqFault k 0x26 0x29 4 te (e .stale))) ∧
      (brrCompare k w g a = .invalid → wordBit k s 49 = false →
        exec (.brr k) s = .next (seqFault k 0x27 0x29 4 te (e .invalid))))

/-- ALIGN_ANGLE, WAITTRIG, SYNC and WAITMSG (R52, R53, R82, R114, R125): each faults in cycle 2 on an operand outside its class; the
cursor goes to the aligned tick in the fourth cycle while the tracker is locked, and otherwise the instruction stalls; WAITTRIG
arms on its source and stalls until it fires; SYNC arrives at an enabled barrier of its partition; WAITMSG takes a visible head
message into its register, and stalls on an empty queue. -/
def Obligations.WaitingInstructionsArmOrTake : Prop :=
  (∀ (k : Fin 512) s, Issues k 0x0A s →
    let arm := inTicks k 4 s
    let u := advanceTo (beginTick k s + 8) arm
    let aligned := alignTick u (wordBits k s 0 3) (cursor k u)
    (windowEmpty arm (wordBits k s 0 3) = true →
      exec (.alignAngle k) s = .next (seqFault k 0x0C 0x0A 2 (beginTick k s + 4) arm)) ∧
    (windowEmpty arm (wordBits k s 0 3) = false → angleValid arm = true →
      exec (.alignAngle k) s = .next (retire k (beginTick k s + 8) (modMicro k (fun m => { m with angt := aligned })
        (u.set (SEQ_CURSOR k) aligned)))) ∧
    (windowEmpty arm (wordBits k s 0 3) = false → angleValid arm = false →
      exec (.alignAngle k) s = .next (stallSeq k .angle (beginTick k s + 4) arm))) ∧
  (∀ (k : Fin 512) s, Issues k 0x0B s →
    let arm := inTicks k 4 s
    (sourceOk (wordBits k s 42 6) = true →
      exec (.waittrig k) s = .next (stallSeq k (.trig (wordBits k s 42 6) (wordBits k s 30 12)) (beginTick k s + 4) arm)) ∧
    (sourceOk (wordBits k s 42 6) = false →
      exec (.waittrig k) s = .next (seqFault k 0x20 0x0B 2 (beginTick k s + 4) (atBegin k s)))) ∧
  (∀ (k : Fin 512) s, Issues k 0x0C s →
    let b := wordBits k s 0 8
    let arm := inTicks k 4 s
    (barPart b arm = seqPart k arm → barEnabled b arm = true →
      exec (.sync k) s = .next (stallSeq k (.barrier b) (beginTick k s + 4) (arrive k b (beginTick k s + 4) arm))) ∧
    (barPart b arm ≠ seqPart k arm → exec (.sync k) s = .next (seqFault k 0x05 0x0C 2 (beginTick k s + 4) arm)) ∧
    (barPart b arm = seqPart k arm → barEnabled b arm = false →
      exec (.sync k) s = .next (seqFault k 0x07 0x0C 2 (beginTick k s + 4) arm))) ∧
  (∀ (k : Fin 512) s, Issues k 0x51 s →
    let q := wordBits k s 32 16
    let arm := inTicks k 4 s
    let u := advanceTo (beginTick k s + 4 + 2) arm
    (q < 0x9800 → exec (.waitmsg k) s = .next (seqFault k 0x2B 0x51 2 (beginTick k s + 4) arm)) ∧
    (0x9800 ≤ q → arm.owner q ≠ seqPart k arm →
      exec (.waitmsg k) s = .next (seqFault k 0x05 0x51 2 (beginTick k s + 4) arm)) ∧
    (0x9800 ≤ q → arm.owner q = seqPart k arm →
      (∀ it, headVisible q (beginTick k s + 4) arm = some it →
        exec (.waitmsg k) s = .next (catchUp k (wordBits k s 0 7) (beginTick k s + 6) (wordBit k s 51)
          (retire k (beginTick k s + 6)
            (setGreg k (wordBits k s 28 4) (ofBytes (it.bytes.take 4))
              (modMicro k (fun m => { m with msghd := ofBytes (it.bytes.take 4) }) (u.popHead q).2))))) ∧
      (headVisible q (beginTick k s + 4) arm = none →
        exec (.waitmsg k) s = .next (stallSeq k .msg (beginTick k s + 4) arm))))

/-- The ticks that the Kiln's level makes SHOT_BEGIN wait: nothing at level 0, the level's pause in compatibility mode, else the
cycles it skips (R439). -/
def kilnWait (u : State) : Nat :=
  let l := u.get KILN_STATUS_LEVEL
  if l = 0 then 0 else if u.on KILN_CFG_THR_MODE then 2000 * u.get (KILN_SKIP_PAUSE l) else 2 * u.get (KILN_SKIP_SKIP l)

/-- SHOT_BEGIN and SHOT_END (R126, R127, R397, R439): SHOT_BEGIN inside a shot faults with SHOT_NESTED; a pending STOP_AT_SHOT halts
the sequencer; the Kiln's wait, a full backpressuring ring, and a LIMIT that is exhausted or left to lower-numbered sequencers stall
it; else the shot begins at its retirement, with the next shot number, SHOT_T0 the cursor put off by a compatibility pause, counted
for its partition, and the reservation it held until then released.  SHOT_END leaves the shot closing and goes on in 3 cycles, and
without a shot faults with NO_SHOT. -/
def ShotsAreChecked : Prop :=
  (∀ (k : Fin 512) s, Issues k 0x48 s →
    let t := beginTick k s + 4
    let u := inTicks k 4 s
    let p := seqPart k u
    let v := if (u.part p).enforced then meterReserve p (u.modSeq k fun q => { q with reserved := true }) else u
    let e := advanceTo (t + 4) v
    let p' := seqPart k e
    let x := if (e.seq k).reserved then meterRelease p' (e.modSeq k fun q => { q with reserved := false }) else e
    let y := meterBegin p' (t + 4) x
    let z := (advCursor k (y.seq k).pause y).inc (SEQ_SHOT k)
    let ready := (u.seq k).micro.active = false
    ((u.seq k).shotOpen = true → exec (.shotBegin k) s = .next (seqFault k 0x2C 0x48 2 t u)) ∧
    ((u.seq k).shotOpen = false → (u.seq k).stopNext = true →
      exec (.shotBegin k) s = .next (setSeqState k stHalted (u.modSeq k fun q =>
        { q with stopNext := false, readyAt := t + 2, micro := { q.micro with active := false, commits := 0 } }))) ∧
    ((u.seq k).shotOpen = false → (u.seq k).stopNext = false → kilnWait u ≠ 0 →
      exec (.shotBegin k) s = .next (stallSeq k
        (.kiln (t + kilnWait u) (if u.on KILN_CFG_THR_MODE then kilnWait u else 0)) t u)) ∧
    ((u.seq k).shotOpen = false → (u.seq k).stopNext = false → kilnWait u = 0 → ringHeld k u = true →
      exec (.shotBegin k) s = .next (stallSeq k .ring t u)) ∧
    (ready → (u.seq k).shotOpen = false → (u.seq k).stopNext = false → kilnWait u = 0 → ringHeld k u = false →
      creditHolds k p t u = true → trapByRule k 5 (ruleShadow k 5 (upcOf 0x48 3) t true [] u) = true →
      exec (.shotBegin k) s = .next (stallSeq k .credit t (ruleShadow k 5 (upcOf 0x48 3) t true [] u))) ∧
    ((v.seq k).micro.active = false → (u.seq k).shotOpen = false → (u.seq k).stopNext = false → kilnWait u = 0 →
      ringHeld k u = false → creditHolds k p t u = false →
      exec (.shotBegin k) s = .next (retire k (t + 4)
        (z.modSeq k fun q => { q with shotOpen := true, shotT0 := cursor k z, pause := 0 })))) ∧
  (∀ (k : Fin 512) s, Issues k 0x49 s →
    let u := inTicks k 6 s
    exec (.shotEnd k) s = .next (if (u.seq k).shotOpen then retire k (beginTick k s + 6)
        (u.modSeq k fun q => { q with shotOpen := false, closing := q.closing ++ [u.get (SEQ_SHOT k)] })
      else seqFault k 0x2D 0x49 3 (beginTick k s + 6) u))

/-- SIGNAL (R125, R327): a number below 0x9800 faults with BAD_QUEUE and another partition's queue with PARTITION; to a proxy the
message goes to its link, to an enabled queue with room it is appended, visible 16 ticks later at the earliest, and Z becomes 0;
a queue that is full or not enabled drops and counts it with DROP = 1, which sets Z, and else faults with MSG_FULL. -/
def SignalDelivers : Prop :=
  ∀ (k : Fin 512) s, Issues k 0x50 s →
    let q := wordBits k s 32 16
    let v := if wordBit k s 49 then greg k (wordBits k s 0 4) (atBegin k s) else wordBits k s 0 32
    let t := beginTick k s + 6
    let u := inTicks k 6 s
    let full := u.on (QM_Q_CTRL_Q_EN q) = false ∨ u.full q = true
    let u' := if u.on (QM_Q_CTRL_Q_EN q) then u.noteEmpty q else u
    (q < 0x9800 → exec (.signal k) s = .next (seqFault k 0x2B 0x50 3 t u)) ∧
    (0x9800 ≤ q → u.owner q ≠ seqPart k u → exec (.signal k) s = .next (seqFault k 0x05 0x50 3 t u)) ∧
    (0x9800 ≤ q → u.owner q = seqPart k u → ∀ p, proxyOf q u = some p →
      exec (.signal k) s = .next (retire k t ((txIngress
        (triggerMsg (u.get (FLV_PROXY_DST_DEV p)) (u.get (FLV_PROXY_DST_RQUEUE p)) v t u) u).modSeq k fun x =>
          { x with z := false }))) ∧
    (0x9800 ≤ q → u.owner q = seqPart k u → proxyOf q u = none → ¬full →
      exec (.signal k) s = .next (retire k t
        ((u.append q { bytes := toBytes 4 v, visible := visibleAt q t u }).modSeq k fun x => { x with z := false }))) ∧
    (0x9800 ≤ q → u.owner q = seqPart k u → proxyOf q u = none → full →
      (wordBit k s 48 = true →
        exec (.signal k) s = .next (retire k t ((u'.countDrop q 1).modSeq k fun x => { x with z := true }))) ∧
      (wordBit k s 48 = false → exec (.signal k) s = .next (seqFault k 0x2A 0x50 3 t u')))

/-- SHOT_BEGIN, SHOT_END and SIGNAL (R125 to R127, R327, R397, R439).  SHOT_BEGIN makes its five checks and the shot begins at its
retirement, with the next shot number, SHOT_T0 the cursor, and counted for its partition; SHOT_END leaves it closing and goes on in
3 cycles; a delivered message clears Z, and with DROP = 1 a message to a queue that is full or not enabled is counted and sets Z. -/
def Obligations.ShotsAndMessagesAreCounted : Prop := ShotsAreChecked ∧ SignalDelivers

/-- A write whose writing cycle begins at tick tw and ends at tw + 2, the machine standing at x before, and whose checks of R102
pass: slack is noted, the entry joins its queue, the cursor advances and the instruction retires, all at the end of that cycle. -/
def Writes (k tw : Nat) (x : State) (w : HeldWrite) (o : Host.Outcome State Fault Refusal) : Prop :=
  let u := advanceTo (tw + 2) (advanceTo tw x)
  ∀ j, (∀ i, checkWrite k w.kind w.target w.fine (tw + 2) (advanceTo tw x) ≠ .full i) →
    checkWrite k w.kind w.target w.fine (tw + 2) u = .ok j →
    o = .next (retire k (tw + 2) (advCursor k (advOf w u) (putEntry k w j (noteSlack k (tw + 2) u))))

/-- An entry writer of n cycles: with operands in their class it writes w in its last cycle, else it faults with BAD_OPERAND in the
cycle before (R111, R500). -/
def WritesInClass (k op n : Nat) (s : State) (ok : Bool) (w : HeldWrite) (o : Host.Outcome State Fault Refusal) : Prop :=
  (ok = true → Writes k (beginTick k s + 2 * (n - 1)) (atBegin k s) w o)
    ∧ (ok = false → o = .next (seqFault k 0x20 op (n - 1) (beginTick k s + 2 * (n - 1)) (atBegin k s)))

/-- The entry that an instruction writes: kind, target, A and B, with no fine part, advance or generation register. -/
def plainWrite (kind target a b : Nat) : HeldWrite :=
  { queue := 0, kind := kind, target := target, fine := 0, a := a, b := b, adv := 0, genReg := none }

/-- The operand of R107 at bit lo: n bits of the word, or the low m bits of a register when modifier bit b is set. -/
abbrev arg (k : Nat) (s : State) (lo n b m : Nat) : Nat := operand k (issued k s) lo n b m (atBegin k s)

/-- The instructions that write an entry (R108 to R112): with operands in their class, and the checks of R102 passed, each
writes the entry of R111 in its last cycle, and with an operand outside its class it faults with BAD_OPERAND in the cycle before;
PLAY scales its amplitude on the TAU with SCL = 1, and its odd pair, lane and frame fault in its cycles 2, 4 and 6. -/
def Obligations.EntryInstructionsWriteTheirEntry : Prop :=
  ∀ (k : Fin 512) s,
    let lane := arg k s 36 12 50 12
    let desc := arg k s 19 17 51 17
    let adv := if wordBit k s 48 then some desc else none
    let frame := arg k s 32 16 50 16
    let g := greg k (wordBits k s 32 4) (atBegin k s)
    let tau := if wordBit k s 49 then tauRequest k (beginTick k s + 4) (inTicks k 4 s) else (0, atBegin k s)
    let t := beginTick k s + 2 * tau.1
    let pair := gpair k (wordBits k s 10 4) tau.2
    let b := if wordBit k s 49 then putBits pair 16 16 (scaleAmp (bits pair 16 16) (bits pair 48 16)) else pair
    let hw := { plainWrite 0 lane desc b with fine := wordBits k s 14 5, advDesc := adv }
    (Issues k 0x10 s →
      (wordBits k s 10 4 % 2 = 1 →
        exec (.play k) s = .next (seqFault k 0x20 0x10 2 (beginTick k s + 4) (atBegin k s))) ∧
      (wordBits k s 10 4 % 2 ≠ 1 → 2303 < lane → exec (.play k) s = .next (seqFault k 0x20 0x10 4 (t + 8) tau.2)) ∧
      (wordBits k s 10 4 % 2 ≠ 1 → lane ≤ 2303 → 40959 < bits b 0 16 →
        exec (.play k) s = .next (seqFault k 0x20 0x10 6 (t + 12) (playStaged k hw tau.2))) ∧
      (wordBits k s 10 4 % 2 ≠ 1 → lane ≤ 2303 → bits b 0 16 ≤ 40959 →
        Writes k (t + 10) (playStaged k hw tau.2) hw (exec (.play k) s))) ∧
    (Issues k 0x11 s → WritesInClass k 0x11 4 s (targetOk .zlane lane)
      { plainWrite 1 lane desc ((if wordBit k s 49 then bits (greg k (wordBits k s 0 4) (atBegin k s)) 16 16
          else wordBits k s 0 16) * 2 ^ 16) with advDesc := adv } (exec (.playz k) s)) ∧
    (Issues k 0x12 s → WritesInClass k 0x12 3 s (targetOk .zb lane)
      (plainWrite 2 lane (arg k s 0 24 49 24 + wordBits k s 34 2 * 2 ^ 24) 0) (exec (.setbias k) s)) ∧
    (Issues k 0x13 s → WritesInClass k 0x13 4 s (targetOk .zb lane && g != 0)
      { plainWrite 3 lane (arg k s 0 24 49 24) g with adv := if wordBit k s 48 then g else 0 } (exec (.rampbias k) s)) ∧
    (Issues k 0x18 s → WritesInClass k 0x18 3 s (wordBits k s 28 4 % 2 == 0 && targetOk .frame frame)
      (plainWrite 6 frame 0 (gpair k (wordBits k s 28 4) (atBegin k s) % 2 ^ 48)) (exec (.fset k) s)) ∧
    (Issues k 0x19 s → WritesInClass k 0x19 2 s (targetOk .frame frame)
      (plainWrite 6 frame 1 (arg k s 0 32 49 32)) (exec (.fshift k) s)) ∧
    (Issues k 0x1A s → WritesInClass k 0x1A 2 s (targetOk .frame frame) (plainWrite 6 frame 2 0) (exec (.freset k) s)) ∧
    (Issues k 0x1B s → WritesInClass k 0x1B 2 s (targetOk .frame frame)
      (plainWrite 6 frame (3 + 4 * wordBits k s 1 1 + 8 * wordBits k s 0 1) 0) (exec (.pframe k) s)) ∧
    (Issues k 0x20 s → WritesInClass k 0x20 4 s (targetOk .lauter (arg k s 38 10 50 10))
      { plainWrite 4 (arg k s 38 10 50 10) (wordBits k s 34 4 + wordBits k s 18 16 * 2 ^ 16) 0 with
        genReg := if wordBit k s 49 then some (wordBits k s 14 4) else none } (exec (.measure k) s)) ∧
    (Issues k 0x21 s → WritesInClass k 0x21 3 s (targetOk .tap (wordBits k s 43 5))
      { plainWrite 5 (wordBits k s 43 5) (wordBits k s 30 8) 0 with fine := wordBits k s 38 5 } (exec (.acq k) s))

/-- The BIAS_SET entry that SETBIAS forms as its writing cycle ends in the machine u (R71, R109). -/
def biasEntry (k : Nat) (s u : State) : Entry :=
  { tick := cursor k u, fine := 0, kind := 2, seq := k, target := arg k s 36 12 50 12, shot := u.get (SEQ_SHOT k),
    a := arg k s 0 24 49 24 + wordBits k s 34 2 * 2 ^ 24, b := 0 }

/-- An accepted BIAS_SET entry joins the end of the queue that its target binds to, with the cursor as its tick and the shot
number it belongs to; no other queue of the sequencer, no other sequencer and no byte of memory changes (R68, R70, R71). -/
def Obligations.AcceptedEntryJoinsItsQueueAlone : Prop :=
  ∀ (k : Fin 512) s j, Issues k 0x12 s → targetOk .zb (arg k s 36 12 50 12) = true →
    let u := advanceTo (beginTick k s + 4 + 2) (inTicks k 4 s)
    (∀ i, checkWrite k 2 (arg k s 36 12 50 12) 0 (beginTick k s + 6) (inTicks k 4 s) ≠ .full i) →
    checkWrite k 2 (arg k s 36 12 50 12) 0 (beginTick k s + 6) u = .ok j →
    ∃ t, exec (.setbias k) s = .next t
      ∧ teq k j t = teq k j u ++ [biasEntry k s u]
      ∧ (∀ i, i ≠ j → teq k i t = teq k i u)
      ∧ (∀ i, i ≠ k.val → t.seq i = u.seq i)
      ∧ t.get (SEQ_CURSOR k) = u.get (SEQ_CURSOR k)
      ∧ (∀ a, t.byte a = u.byte a)
      ∧ t = { u with regs := t.regs, seqs := t.seqs, queues := t.queues }

/-- Sequencer k stalls for cause c. -/
abbrev Stalled (k : Nat) (c : Stall) (s : State) : Prop := (s.seq k).stall = some c

/-- The STALL code of what sequencer k waits for, 0 when it does not stall (R106). -/
abbrev stallCode (k : Nat) (s : State) : Nat := ((s.seq k).stall.map Stall.code).getD 0

/-- The machine when sequencer k's stall has lasted n ticks: the instruction faults there with a code, unless the stall ended in the
meantime (R500). -/
def afterLimit (k code n : Nat) (s : State) : State :=
  let t := (s.seq k).since + n
  let u := advanceTo t s
  if (u.seq k).stall.isSome then faultAt k code (presentUpc k u) (presentCommits k u) t u else u

/-- The timeouts of ALIGN_ANGLE, WAITTRIG, WAITMSG, BRR and SYNC (R53, R85, R114, R121, R125): a stall that lasts to its limit,
counted from the tick of arming, ends there in an abort-class fault with the code of its instruction; a limit of 0 never ends it,
and without such a stall nothing happens.  A message visible within the limit ends WAITMSG instead, and a result that arrives at the
very tick resolves BRR.  SYNC's limit counts from the first arrival of the open round, and every participant of it faults. -/
def Obligations.StallsTimeOutWithTheirCode : Prop :=
  (∀ (k : Fin 512) s, exec (.angleUnlocked k) s = .next (if stallCode k s = 6 then
    afterLimit k 0x0B (2000 * s.get TL_CA_ALIGN_TIMEOUT) s else s)) ∧
  (∀ (k : Fin 512) s, exec (.trigTimeout k) s = .next (if stallCode k s = 4 ∧ bits (fetchWord k s) 0 16 ≠ 0 then
    afterLimit k 0x28 (2000 * bits (fetchWord k s) 0 16) s else s)) ∧
  (∀ (k : Fin 512) s, stallCode k s ≠ 3 ∨ bits (fetchWord k s) 12 16 = 0 → exec (.msgTimeout k) s = .next s) ∧
  (∀ (k : Fin 512) s, stallCode k s = 3 → bits (fetchWord k s) 12 16 ≠ 0 →
    let n := 2000 * bits (fetchWord k s) 12 16
    let q := bits (fetchWord k s) 32 16
    (∀ it, headVisible q ((s.seq k).since + n) s = some it → msgTaker q s = some k.val →
      exec (.msgTimeout k) s = .next (msgArrived k q (max it.visible (s.seq k).since) (advanceTo it.visible s))) ∧
    (headVisible q ((s.seq k).since + n) s = none ∨ msgTaker q s ≠ some k.val →
      exec (.msgTimeout k) s = .next (afterLimit k 0x29 n s))) ∧
  (∀ (k : Fin 512) s, bits (fetchWord k s) 20 6 = 0 ∨ (∀ g, ¬Stalled k (.result g) s ∧ ¬Stalled k (.micro 0x2E g) s) →
    exec (.resultTimeout k) s = .next s) ∧
  (∀ (k : Fin 512) s g, Stalled k (.result g) s → (s.seq k).micro.active = false → bits (fetchWord k s) 20 6 ≠ 0 →
    let t := (s.seq k).since + 256 * bits (fetchWord k s) 20 6
    let u := resultReady k t (advanceTo t s)
    (∀ g', Stalled k (.result g') u →
      exec (.resultTimeout k) s = .next (brrFinish k (fetchWord k u) .timeout t (unstall k t u))) ∧
    ((u.seq k).stall = none → exec (.resultTimeout k) s = .next u)) ∧
  (∀ (b : Fin 256) s,
    let limit := s.get (QM_BAR_CFG_TIMEOUT b)
    let t := (s.bar b).first + 2000 * limit
    let u := settle b (t + 1) (advanceTo t s)
    let x := u.bar b
    let late := x.arrivals.filter fun a => t < a.2.2
    let gone := x.arrivals.filter fun a => a.2.2 ≤ t
    let v := u.setBar b { x with arrivals := late, first := (late.map (·.2.2)).headD 0 }
    exec (.barrierTimeout b) s = .next (if limit = 0 ∨ (s.bar b).arrivals.isEmpty then s
      else if x.arrivals.isEmpty ∨ x.first + 2000 * limit ≠ t then u
      else advanceTo (t + 8) ((gone.foldl (fun s a => abortTrap a.1 .fault 0x07 (presentUpc a.1 s) (presentCommits a.1 s) t s)
        (showBarrier b v)).event 765)))

/-- How stalls end by what they waited for (R82, R93, R103, R121, R125, R127, R397, R439): a complete barrier releases every
participant, 12 ticks after the arrival that completed it, at the greatest cursor; the writer that found a queue full writes again
when the head has fired; a BRR compares again on a new generation; a message goes to the sequencer that armed first; a raised
LIMIT makes SHOT_BEGIN's checks again, a ring with room and an expired Kiln wait let it go on with the next check; a closing shot
that is done completes.  Where what is waited for has not come, nothing changes but the time. -/
def Obligations.StallsEndWithWhatTheyWaitFor : Prop :=
  (∀ (b : Fin 256) s, ((settled b s).bar b).rounds = [] → exec (.barrierRelease b) s = .next s) ∧
  (∀ (b : Fin 256) s r rs, ((settled b s).bar b).rounds = r :: rs →
    let t := r.1 + 12
    let u := advanceTo t (settled b s)
    ((u.bar b).rounds = [] → exec (.barrierRelease b) s = .next u) ∧
    (∀ x rest, (u.bar b).rounds = x :: rest →
      let c := x.2.foldl (fun m a => max m a.2.1) 0
      let v := x.2.foldl (fun s a => release a.1 c t s) (u.setBar b { u.bar b with rounds := rest })
      exec (.barrierRelease b) s = .next ((showBarrier b v).inc (QM_BAR_STATUS_ROUNDS b)))) ∧
  (∀ (k : Fin 512) s w t, Stalled k (.teqFull w) s → (s.seq k).freedAt = some t →
    let u := unstall k (max t (s.seq k).since) s
    (u.seq k).micro.active = false →
    exec (.teqFullStallEnd k) s = .next (writeEntry k (fetchWord k u / 2 ^ 56) (cyclesOf (fetchWord k u / 2 ^ 56)) w
      (max t (s.seq k).since) u)) ∧
  (∀ (k : Fin 512) s, (s.seq k).freedAt = none → exec (.teqFullStallEnd k) s = .next s) ∧
  (∀ (k : Fin 512) s g,
    let t := max s.now (s.seq k).since
    let u := advanceTo t s
    let v := unstall k t (ruleShadow k 6 (upcOf 0x29 3) t true [] u)
    Stalled k (.result g) u →
    (brrCompare k (fetchWord k u) g u = .behind → exec (.resultReady k) s = .next u) ∧
    (brrCompare k (fetchWord k u) g u ≠ .behind → trapByRule k 6 v = true →
      exec (.resultReady k) s = .next (brrFinish k (fetchWord k u) (brrCompare k (fetchWord k u) g v) t v))) ∧
  (∀ (q : BitVec 16) s, (s.queue q.toNat).items = [] → exec (.msgVisible q) s = .next s) ∧
  (∀ (q : BitVec 16) s it rest, (s.queue q.toNat).items = it :: rest →
    let u := advanceTo it.visible s
    (msgTaker q.toNat u = none → exec (.msgVisible q) s = .next u) ∧
    (∀ k m, msgTaker q.toNat u = some k → Stalled k .msg u →
      let t := max it.visible (u.seq k).since
      headVisible q.toNat t u = some m →
      exec (.msgVisible q) s = .next (takeMsg k (fetchWord k u) t m (unstall k t u)))) ∧
  (∀ (k : Fin 512) s, Stalled k .credit s →
    let t := max s.now (s.seq k).since
    let p := seqPart k s
    exec (.creditStallEnd k) s = .next (if creditHolds k p t s then s else shotChecks k t (unstall k t s))) ∧
  (∀ (k : Fin 512) s, Stalled k .ring s →
    let t := max s.now (s.seq k).since
    let u := advanceTo t s
    exec (.ringStallEnd k) s = .next (if ringHeld k u ∨ (u.seq k).stall ≠ some .ring then u
      else creditCheck k t (unstall k t u))) ∧
  (∀ (k : Fin 512) s e pause, Stalled k (.kiln e pause) s →
    let u := advanceTo e s
    let v := u.inc KILN_SKIPPED (kilnSoFar (u.seq k) e)
    ∀ e' p', Stalled k (.kiln e' p') u →
      exec (.kilnSkipEnd k) s = .next (ringCheck k e (unstall k e (v.modSeq k fun q => { q with pause := pause })))) ∧
  (∀ (k : Fin 512) s, (s.seq k).stall = none → exec (.creditStallEnd k) s = .next s ∧ exec (.ringStallEnd k) s = .next s
    ∧ exec (.kilnSkipEnd k) s = .next s) ∧
  (∀ (k : Fin 512) s n, ((s.seq k).closing.find? fun n => shotDone k n s) = some n →
    let u := s.modSeq k fun q => { q with closing := q.closing.filter (· != n) }
    exec (.shotClosed k) s = .next (monTrigger 3 k s.now (meterComplete (seqPart k u) s.now u))) ∧
  (∀ (k : Fin 512) s, ((s.seq k).closing.find? fun n => shotDone k n s) = none → exec (.shotClosed k) s = .next s)

/-- The rows that end in a trap of their own or run a routine of microwords (R104, R105, R131, R143, R145, R158): an opcode whose
entry vector holds ILL takes the ILLEGAL abort trap, and a fetch from beyond address 8,191 the PC_RANGE one; an opcode whose vector
an owner or a patch has loaded runs its routine from there; a calibration request is acknowledged at an instruction boundary
outside a shot, two cycles in TRAPPED.  In another state the rows change nothing. -/
def Obligations.TrapsAndOwnerRoutinesAreTaken : Prop :=
  (∀ (k : Fin 512) s,
    let t := beginTick k s
    let u := atIssue k s
    let op := issued k s / 2 ^ 56
    exec (.illegal k) s = .next (if atBoundary k u = false then s
      else if (u.seq k).pcOver then faultAt k 0x22 (Config.bodyUpc 256 1 % 2 ^ 14) 0 (t + 2) u
      else if opIll k op u then seqFault k 0x0D op 1 (t + 2) u
      else s)) ∧
  (∀ (k : Fin 512) s,
    let t := beginTick k s
    let u := atIssue k s
    let op := issued k s / 2 ^ 56
    (atBoundary k u = true → (u.seq k).stall = none → (u.seq k).pcOver = false → byRule k op u = false → opIll k op u = false →
      exec (.ownerExtension k) s = .next (microGo k (microBegin k op t u))) ∧
    (((u.seq k).abort.any fun a => !a.loaded) = false → (u.seq k).stall = none → (u.seq k).micro.active = true →
      exec (.ownerExtension k) s = .next (microGo k u)) ∧
    (atBoundary k u = true → (u.seq k).stall = none → (u.seq k).pcOver = true →
      exec (.ownerExtension k) s = .next (faultAt k 0x22 (Config.bodyUpc 256 1 % 2 ^ 14) 0 (t + 2) u)) ∧
    (seqState k u ≠ stRunning → (u.seq k).micro.active = false → exec (.ownerExtension k) s = .next s) ∧
    ((u.seq k).stall.isSome → exec (.ownerExtension k) s = .next s) ∧
    (((u.seq k).abort.any fun a => !a.loaded) = true → exec (.ownerExtension k) s = .next s)) ∧
  (∀ (k : Fin 512) s,
    let t := beginTick k s
    let u := atIssue k s
    let q := u.seq k
    let v := ruleShadow k 7 (issued k s / 2 ^ 56) t (u.seq k).micro.stale [] (setSeqState k stTrapped u)
    let x := advanceTo (t + 2) ((v.modSeq k fun q => { q with readyAt := t + 4 }).later (t + 4) (.trapReturn k (t + 4)))
    (q.calReq = [] ∨ q.shotOpen ∨ atBoundary k u = false → exec (.calRequest k) s = .next s) ∧
    (q.calReq ≠ [] → q.shotOpen = false → atBoundary k u = true → trapByRule k 7 v = true →
      exec (.calRequest k) s = .next (if seqState k x = stTrapped then x.modSeq k fun q => { q with calReq := q.calReq.drop 1 } else x)))

/-- Requester r may write privileged fields (R360, R361). -/
abbrev Privileged (r : Req) (s : State) : Prop := isPriv r s = true

/-- A flag of sequencer k is set; event 128 + k reports its change (R63). -/
abbrev flagged (k : Nat) (f : Fld) (s : State) : State := s.flag f (128 + k)

/-- The sequencers of Tun t that a mask of GROUP_START names, in ascending order. -/
abbrev masked (t : Fin 64) (m : BitVec 8) : List Nat := (setBits 8 m.toNat).map (8 * t.val + ·)

/-- The abort-class trap that sequencer k has taken runs its abort routine to its end (R149). -/
def abortDone (k : Nat) (u : State) : State := match (u.seq k).abort with | some a => advanceTo a.ends u | none => u

/-- Commands of a privileged requester on sequencers, Tuns and barriers (R63 to R65, R81, R83, R86, R96), in every state.  START
runs the sequencer, or is refused with its flags; GROUP_START starts all the masked sequencers, or none and sets GROUP_REFUSED
beside the flags of those that fail (the model's choice, log entry 99).  STOP takes the trap HOST_STOP on a sequencer that runs a
program, at once on a stalled one; it aborts the shots of a HALTED or FAULTED one and makes it IDLE; an IDLE one stays.
STOP_AT_SHOT is noted where a program runs; CLEAR takes HALTED and FAULTED to IDLE with code NONE; SLACK_RESET restores SLACK_MIN;
EN and TUN_EN take their value, but 0 only at IDLE; QM_BAR_CFG is written while nothing waits at the barrier, and is else refused
with its flag. -/
def Obligations.SequencerControlFollowsItsState : Prop :=
  (∀ r (k : Fin 512) s, Privileged r s → exec (.start r k) s = .next (
    if startOk k s = false then flagged k (SEQ_STATUS_START_REFUSED k) s
    else if startLate k s.now s then flagged k (SEQ_STATUS_START_LATE k) (flagged k (SEQ_STATUS_START_REFUSED k) s)
    else startSeq k s.now s)) ∧
  (∀ r (t : Fin 64) m s, Privileged r s →
    (∀ j, j < 8 → m.toNat.testBit j = true → startOk (8 * t + j) s = true ∧ startLate (8 * t + j) s.now s = false) →
    exec (.groupStart r t m) s = .next ((masked t m).foldl (fun s k => startSeq k s.now s) s)) ∧
  (∀ r (t : Fin 64) m s j, Privileged r s → j < 8 → m.toNat.testBit j = true →
    startOk (8 * t + j) s = false ∨ startLate (8 * t + j) s.now s = true →
    let mark := fun (s : State) (k : Nat) =>
      if startOk k s = false then flagged k (SEQ_STATUS_START_REFUSED k) s
      else if startLate k s.now s then flagged k (SEQ_STATUS_START_LATE k) (flagged k (SEQ_STATUS_START_REFUSED k) s) else s
    exec (.groupStart r t m) s = .next (((masked t m).foldl mark s).flag (TUN_STATUS_GROUP_REFUSED t) (640 + t))) ∧
  (∀ r (k : Fin 512) s, Privileged r s → seqState k s = stRunning ∨ seqState k s = stTrapped → (s.seq k).stall = none →
    exec (.stop r k) s = .next (abortDone k (stopRunning k .hostStop s.now s))) ∧
  (∀ r (k : Fin 512) s, Privileged r s → seqState k s = stStalled → (s.seq k).stall.isSome → (s.seq k).abort = none →
    exec (.stop r k) s = .next (abortDone k (abortTrap k .hostStop 0x09 (presentUpc k s) (presentCommits k s) s.now s))) ∧
  (∀ r (k : Fin 512) s, Privileged r s → seqState k s = stHalted ∨ seqState k s = stFaulted →
    let u := abortShots k (inFlight k s) s.now s
    exec (.stop r k) s = .next (setSeqState k stIdle (if seqState k s = stHalted then u.set (SEQ_FAULT_CODE k) 0x09 else u))) ∧
  (∀ r (k : Fin 512) s, Privileged r s → seqState k s = stIdle → exec (.stop r k) s = .next s) ∧
  (∀ r (k : Fin 512) s, Privileged r s → exec (.stopAtShot r k) s = .next (
    if seqState k s = stRunning ∨ seqState k s = stStalled ∨ seqState k s = stTrapped then
      s.modSeq k fun q => { q with stopNext := true } else s)) ∧
  (∀ r (k : Fin 512) s, Privileged r s → seqState k s = stHalted ∨ seqState k s = stFaulted →
    ∃ t, exec (.clear r k) s = .next t ∧ seqState k t = stIdle ∧ t.get (SEQ_FAULT_CODE k) = 0 ∧ t.get (SEQ_FAULT_IADDR k) = 0
      ∧ (∀ j, t.seq j = s.seq j) ∧ (∀ a, t.byte a = s.byte a)
      ∧ (∀ j, j ≠ k → j < 512 → seqState j t = seqState j s)) ∧
  (∀ r (k : Fin 512) s, Privileged r s → seqState k s ≠ stHalted → seqState k s ≠ stFaulted →
    exec (.clear r k) s = .next s) ∧
  (∀ (k : Fin 512) s, exec (.slackReset k) s = .next (s.set (SEQ_SLACK_MIN k) 0x7FFFFFFF)) ∧
  (∀ r (k : Fin 512) on s, Privileged r s → exec (.seqEnWrite r k on) s = .next (
    if on = false ∧ s.on (SEQ_CTRL_EN k) = true ∧ seqState k s ≠ stIdle then flagged k (SEQ_STATUS_EN_REFUSED k) s
    else s.setB (SEQ_CTRL_EN k) on)) ∧
  (∀ r (t : Fin 64) s, Privileged r s → exec (.tunEnWrite r t true) s = .next (s.setB (TUN_CTRL_EN t) true)) ∧
  (∀ r (t : Fin 64) s, Privileged r s →
    s.on (TUN_CTRL_EN t) = false ∨ (∀ j, j < 8 → seqState (8 * t + j) s = stIdle) →
    exec (.tunEnWrite r t false) s = .next (s.setB (TUN_CTRL_EN t) false)) ∧
  (∀ r (t : Fin 64) s j, Privileged r s → s.on (TUN_CTRL_EN t) = true → j < 8 → seqState (8 * t + j) s ≠ stIdle →
    exec (.tunEnWrite r t false) s = .next (s.flag (TUN_STATUS_EN_REFUSED t) (640 + t))) ∧
  (∀ r (b : Fin 256) v s, Privileged r s → (s.bar b).arrivals = [] → (s.bar b).rounds = [] →
    exec (.qmBarCfgWrite r b v) s = .next ((s.set (QM_BAR_CFG_COUNT b) v.toNat).set (QM_BAR_CFG_TIMEOUT b) (v.toNat / 1024))) ∧
  (∀ r (b : Fin 256) v s, Privileged r s → (s.bar b).arrivals ≠ [] ∨ (s.bar b).rounds ≠ [] →
    exec (.qmBarCfgWrite r b v) s = .next (s.flagAlways QM_STATUS_CFG_WHILE_ENABLED 760))

/-- What a started sequencer holds (R64): RUNNING at address 0, flags 0, an empty stack, no shot open, its cursor START_LEAD
ticks after the tick of the START (or START_AT), and its registers and queues as they were. -/
def Obligations.StartGivesACleanRunningSequencer : Prop :=
  ∀ r (k : Fin 512) s, Privileged r s → startOk k s = true → startLate k s.now s = false →
    ∃ t, exec (.start r k) s = .next t ∧ seqState k t = stRunning ∧ t.get (SEQ_PC k) = 0
      ∧ t.get (SEQ_CURSOR k) =
          (if s.on (SEQ_CTRL_START_MODE k) then s.get (SEQ_START_AT k) else s.now + s.get (SEQ_START_LEAD k)) % 2 ^ 64
      ∧ (t.seq k).z = false ∧ (t.seq k).n = false ∧ (t.seq k).c = false ∧ (t.seq k).v = false
      ∧ (t.seq k).stack = [] ∧ (t.seq k).shotOpen = false ∧ (t.seq k).pcOver = false ∧ (t.seq k).readyAt = s.now
      ∧ (t.seq k).teqs = (s.seq k).teqs ∧ (t.seq k).closing = (s.seq k).closing
      ∧ (∀ j, j ≠ k.val → t.seq j = s.seq j) ∧ (∀ n, n < 16 → greg k n t = greg k n s) ∧ (∀ a, t.byte a = s.byte a)

/-- The kind of the head entry of queue j of sequencer k. -/
abbrev headKind (k j : Nat) (s : State) : Option Nat := (teq k j s).head?.map (·.kind)

/-- The command that fires a head entry of one kind from queue j of sequencer k (R78): what the order of R78 puts before the entry
takes place, time comes to its tick, it leaves the queue and acts, and its tile is noted as in use; a head of another kind, an empty
queue, and a head that has gone by then leave the machine as it stands. -/
def Fires (kind k j : Nat) (effect : Entry → State → State) (s : State) (o : Host.Outcome State Fault Refusal) : Prop :=
  (headKind k j s ≠ some kind → o = .next s) ∧
  (∀ e rest, teq k j s = e :: rest → e.kind = kind →
    let u := runTo (keyOf e.tick (rankEntry e.seq j kind)) s
    (headKind k j u ≠ some kind → o = .next u) ∧
    (∀ e' rest', teq k j u = e' :: rest' → e'.kind = kind →
      let v := effect e' (popTeq k j e'.tick u)
      o = .next (noteEntry e' (entryEnd e' v) v)))

/-- The firing of each entry kind (R78, R163, R164, R168, R214, R244, R306): the head entry of the command's kind fires on its
target, and a head of another kind, or an empty queue, leaves the state. -/
def Obligations.HeadEntriesFireByKind : Prop :=
  ∀ (k : Fin 512) (j : Fin 32) s,
    Fires 0 k j (fun e s => firePulse e.target e s) s (exec (.pulseFire k j) s) ∧
    Fires 1 k j (fun e s => firePulse e.target e s) s (exec (.zpulseFire k j) s) ∧
    Fires 2 k j (fun e s => fireBias (e.target - 2304) e s) s (exec (.biasSetFire k j) s) ∧
    Fires 3 k j (fun e s => fireBias (e.target - 2304) e s) s (exec (.biasRampFire k j) s) ∧
    Fires 4 k j fireMeasure s (exec (.measureFire k j) s) ∧
    Fires 5 k j (fun e s => tapTrigger e.target 1 0 0 (bits e.a 0 8) e.seq (32 * e.tick + e.fine) s) s
      (exec (.acqFire k j) s) ∧
    Fires 6 k j (fun e s => frameOp e.target e.a e.b s) s (exec (.frameFire k j) s)

/-- Decision windows (R272 to R275, R281, R283): a put-off round is judged at the tick it was put off to, an open one at its
TIMEOUT, the oldest round under way acts 32 ticks after its evaluation, each after what comes before it in that tick; EN takes a value
8 ticks from the write when the window is consistent, BASE likewise when the table has room for it, and is else refused with
EN_REFUSED; a whole dword of the Decision Table takes effect 8 ticks from its write, and a partial one is ignored and logged. -/
def Obligations.DecisionWindowsJudgeAndAct : Prop :=
  (∀ (d : Fin 64) s, (s.dec d).defer = none → exec (.roundDeferredEval d) s = .next s) ∧
  (∀ (d : Fin 64) s t, (s.dec d).defer = some t →
    let u := runTo (keyOf t (48000 + d)) s
    exec (.roundDeferredEval d) s = .next (judgeOnce d (max t u.now) u)) ∧
  (∀ (d : Fin 64) s, (s.dec d).start = none ∨ (s.dec d).tmo = 0 → exec (.roundTimeout d) s = .next s) ∧
  (∀ (d : Fin 64) s a, (s.dec d).start = some a → (s.dec d).tmo ≠ 0 →
    let t := a + 256 * (s.dec d).tmo
    let u := runTo (keyOf t (48000 + d)) s
    exec (.roundTimeout d) s = .next (judgeOnce d (max t u.now) u)) ∧
  (∀ (d : Fin 64) s, (s.dec d).rounds = [] → exec (.roundAction d) s = .next s) ∧
  (∀ (d : Fin 64) s r more, (s.dec d).rounds = r :: more →
    let u := runTo (keyOf (r.at_ + 32) (20000 + d)) s
    ((u.dec d).rounds = [] → exec (.roundAction d) s = .next u) ∧
    (∀ r' more', (u.dec d).rounds = r' :: more' →
      exec (.roundAction d) s = .next (roundAction d r' (r'.at_ + 32) u))) ∧
  (∀ r (d : Fin 64) on s, Privileged r s → exec (.decWinEnable r d on) s = .next (
    if on = true ∧ decRefused d s = true then s.flag DEC_STATUS_EN_REFUSED 741
    else (s.setB (DEC_WIN_CTRL_EN d) on).later (s.now + 8) (.decEn d on))) ∧
  (∀ r (d : Fin 64) v s, Privileged r s → exec (.decBaseWrite r d v) s = .next (
    if baseFits d v.toNat s then (s.set (DEC_WIN_BASE d) v.toNat).later (s.now + 8) (.decBase d v.toNat)
    else s.flag DEC_STATUS_EN_REFUSED 741)) ∧
  (∀ r (x : Fin 524288) be v s, exec (.decTableWrite r x be v) s = .next (
    if be = 0xF then (List.range 4).foldl
      (fun s k => s.later (s.now + 8) (.memByte (decTableAddr x + k) (BitVec.ofNat 8 (bits v.toNat (8 * k) 8)))) s
    else accessFault r .width true be.toNat (decTableAddr x) v.toNat s))

/-- Readout inputs and channels (R236, R238, R252, R256, R260, R266): the oldest window of a channel becomes its record 80 ticks
after its last sample, from the samples that the command brings; the router writes the oldest waiting record 8 ticks after its
production; where none waits nothing happens.  EN of an RFI is refused without its slices or in a fence, and else takes effect 64
ticks, from OFF 400,000 ticks, after the write, EN = 0 and a channel's EN 8 ticks after it, the latter when not refused. -/
def Obligations.ReadoutWindowsBecomeRecords : Prop :=
  (∀ (c : Fin 1024) xs ovs n s, (s.lau c).windows = [] → exec (.windowRecord c xs ovs n) s = .next s) ∧
  (∀ (c : Fin 1024) xs ovs n s w more, (s.lau c).windows = w :: more →
    let u := advanceTo (w.e + 80) s
    ((u.lau c).windows = [] → exec (.windowRecord c xs ovs n) s = .next u) ∧
    (∀ w' more', (u.lau c).windows = w' :: more' →
      let v := if n = 0 then u
        else (u.incSat (RFI_OVR_COUNT (c / 32)) n.toNat).flag (RFI_STATUS_OVERRANGE (c / 32)) (704 + c / 32)
      let zs := windowSamples w' (streamInts xs.stream) (xs.xs.map fun x => (x.1.toInt, x.2.toInt))
      exec (.windowRecord c xs ovs n) s = .next (produceWindow c w' (windowRecord c w' zs ovs v) v))) ∧
  (∀ s, s.recs = [] → exec .resultWrite s = .next s) ∧
  (∀ s r rest, s.recs = r :: rest →
    let u := runTo (keyOf (r.at_ + 8) rankRecord) s
    (u.recs = [] → exec .resultWrite s = .next u) ∧
    (∀ r' rest', u.recs = r' :: rest' →
      exec .resultWrite s = .next (routeRecord r' (r'.at_ + 8) { u with recs := rest' }))) ∧
  (∀ r (i : Fin 32) s, Privileged r s →
    let t := if rfiPower i s ≤ 1 then s.now + 400000 else s.now + 64
    let u := (s.setRfi i { s.rfi i with pend := (s.rfi i).pend ++ [t] }).setB (RFI_CTRL_EN i) true
    exec (.rfiEnable r i) s = .next (
      if s.on (RFI_STATUS_SLICES_OK i) = false ∨ fenced (i / 4) s = true then
        s.flagAlways (RFI_STATUS_EN_REFUSED i) (704 + i)
      else (if rfiPower i u = 0 then setRfiPower i 1 s.now u else u).later t (.rfiEnable i))) ∧
  (∀ r (i : Fin 32) s, Privileged r s →
    exec (.rfiDisable r i) s = .next ((s.setB (RFI_CTRL_EN i) false).later (s.now + 8) (.rfiDisable i))) ∧
  (∀ r (c : Fin 1024) on s, Privileged r s → exec (.lauEnable r c on) s = .next (
    if on = true ∧ lauRefused c s = true then lauFlag c (LAU_STATUS_EN_REFUSED c) s
    else (s.setB (LAU_CTRL_EN c) on).later (s.now + 8) (.lauEn c on)))

/-- A bank operation of RFI i's kernels is set for tick `at_`, with the mask as it stands. -/
abbrev kPends (i : Nat) (copy : Bool) (at_ : Nat) (s : State) : State :=
  (setKBank i (some { copy := copy, at_ := at_, mask := s.get (RFI_KSWAP_MASK i) }) s).later at_ (.kBank i at_)

/-- A bank operation of the Waveform Descriptor Table is set for tick `at_`, with the mask as it stands. -/
abbrev wPends (copy : Bool) (at_ : Nat) (s : State) : State :=
  (setWftBank (some { copy := copy, at_ := at_, mask := s.get WFT_SWAP_MASK }) s).later at_ (.wftBank at_)

/-- The kernel banks that a mask names change places, counted and reported (R259). -/
def kSwapped (i : Nat) (b : BankOp) (s : State) : State :=
  let u := setKBank i none s
  ((u.set (RFI_KBANK i) (u.get (RFI_KBANK i) ^^^ b.mask)).inc (RFI_KSWAP_COUNT i)).flagAlways (RFI_STATUS_KSWAP_DONE i) (704 + i)

/-- The descriptor banks that a mask names change places, counted and reported (R178). -/
def wSwapped (b : BankOp) (s : State) : State :=
  let u := setWftBank none s
  ((u.set WFT_BANK (u.get WFT_BANK ^^^ b.mask)).inc WFT_SWAP_COUNT).flagAlways WFT_STATUS_SWAP_DONE 30

/-- The banks of kernels and of waveform descriptors (R165, R177 to R179, R259), in every state.  A request is refused with SWAP_BUSY
while another is pending (or, of descriptors, while the table is not enabled), a swap less than 16 ticks ahead with SWAP_LATE, and
else set for its tick with the mask as it stands: 16 ticks ahead for SWAP_NOW, 4,000 for KCOPY and 128,000 for COPY, the
longest that the rules allow.  At its tick a swap exchanges the banks that the mask names, and a copy, when it completes, leaves in
the shadow banks what the active ones hold, with the held writes after it.  Without a pending one of its kind nothing happens.  A
write of dword 1 of a frame applies dword 0 that is held for it, 8 ticks later, and a partial write is ignored and logged. -/
def Obligations.BanksSwapAndCopyAtTheirTicks : Prop :=
  (∀ (i : Fin 32) s, exec (.kswap i) s = .next (
    if (s.rfi i).bank.isSome then s.flagAlways (RFI_STATUS_KSWAP_BUSY i) (704 + i)
    else if s.get (RFI_KSWAP_AT i) < s.now + 16 then s.flagAlways (RFI_STATUS_KSWAP_LATE i) (704 + i)
    else kPends i false (s.get (RFI_KSWAP_AT i)) s)) ∧
  (∀ (i : Fin 32) s, exec (.kswapNow i) s = .next (
    if (s.rfi i).bank.isSome then s.flagAlways (RFI_STATUS_KSWAP_BUSY i) (704 + i) else kPends i false (s.now + 16) s)) ∧
  (∀ (i : Fin 32) s, exec (.kcopy i) s = .next (
    if (s.rfi i).bank.isSome then s.flagAlways (RFI_STATUS_KSWAP_BUSY i) (704 + i) else kPends i true (s.now + 4000) s)) ∧
  (∀ (i : Fin 32) s b, (s.rfi i).bank = some b → b.copy = false →
    let u := runTo (keyOf b.at_ 0) s
    (b.at_ ≤ u.now → (u.rfi i).bank = some b → exec (.kswapApply i) s = .next (kSwapped i b u)) ∧
    (u.now < b.at_ ∨ (u.rfi i).bank = none → exec (.kswapApply i) s = .next u)) ∧
  (∀ (i : Fin 32) s b, (s.rfi i).bank = some b → b.copy = true → exec (.kcopyDone i) s = .next (kCopy i b s)) ∧
  (∀ (i : Fin 32) s, (s.rfi i).bank = none → exec (.kswapApply i) s = .next s ∧ exec (.kcopyDone i) s = .next s) ∧
  (∀ (i : Fin 32) s b, (s.rfi i).bank = some b → (b.copy = true → exec (.kswapApply i) s = .next s)
    ∧ (b.copy = false → exec (.kcopyDone i) s = .next s)) ∧
  (∀ s, exec .wftSwap s = .next (
    if wftAccepts s = false then s.flagAlways WFT_STATUS_SWAP_BUSY 30
    else if s.get WFT_SWAP_AT < s.now + 16 then s.flagAlways WFT_STATUS_SWAP_LATE 30
    else wPends false (s.get WFT_SWAP_AT) s)) ∧
  (∀ s, exec .wftSwapNow s = .next (
    if wftAccepts s = false then s.flagAlways WFT_STATUS_SWAP_BUSY 30 else wPends false (s.now + 16) s)) ∧
  (∀ s, exec .wftCopy s = .next (
    if wftAccepts s = false then s.flagAlways WFT_STATUS_SWAP_BUSY 30 else wPends true (s.now + 128000) s)) ∧
  (∀ s b, s.wft.bank = some b → b.copy = false →
    let u := runTo (keyOf b.at_ 0) s
    (b.at_ ≤ u.now → u.wft.bank = some b → exec .wftSwapApply s = .next (wSwapped b u)) ∧
    (u.now < b.at_ ∨ u.wft.bank = none → exec .wftSwapApply s = .next u)) ∧
  (∀ s b, s.wft.bank = some b → b.copy = true → exec .wftCopyDone s = .next (wftCopy b s)) ∧
  (∀ s, s.wft.bank = none → exec .wftSwapApply s = .next s ∧ exec .wftCopyDone s = .next s) ∧
  (∀ s b, s.wft.bank = some b → (b.copy = true → exec .wftSwapApply s = .next s)
    ∧ (b.copy = false → exec .wftCopyDone s = .next s)) ∧
  (∀ r (f : Fin 40960) dw be v s, be ≠ 0xF →
    exec (.frameTableWrite r f dw be v) s = .next (accessFault r .width true be.toNat (frameAddr f + 4 * dw) v.toNat s)) ∧
  (∀ r (f : Fin 40960) v s, exec (.frameTableWrite r f 0 0xF v) s = .next
    { s with host := { s.host with frameHeld := Tab.put 0 s.host.frameHeld f (v.toNat + 1) } }) ∧
  (∀ r (f : Fin 40960) v s,
    let low := match Tab.find? s.host.frameHeld f with | some h => h - 1 | none => s.rd (frameAddr f) 4
    exec (.frameTableWrite r f 1 0xF v) s = .next
      ({ s with host := { s.host with frameHeld := Tab.drop s.host.frameHeld f } }.later (s.now + 8)
        (.frameDword f 1 (low + 2 ^ 32 * (v.toNat % 2 ^ 16))))) ∧
  (∀ r (f : Fin 40960) v s,
    exec (.frameTableWrite r f 2 0xF v) s = .next (s.later (s.now + 8) (.frameDword f 2 v.toNat)) ∧
    exec (.frameTableWrite r f 3 0xF v) s = .next (s.later (s.now + 8) (.frameDword f 3 v.toNat)))

/-- RFO ports (R186, R190 to R193, R196 to R198, R468), in every state.  An enable is refused with EN_REFUSED, and with BAD_CENTRE
where CENTRE_N lies outside 32 to 192, or is pending for 64 ticks from HOLD or ACTIVE, else for 200 us, an OFF port whose rails are
good POWERING meanwhile; at its tick the port becomes ACTIVE and the rise of its gain begins, unless a Park came first or the port
is held.  Disable and MUTE act 8 ticks from the write; a driver fault parks the port with cause 1, and a test that finds it gone
forgets it; PARKED is cleared, with its causes, when none of them persists; a shaper reset is counted and sends one balanced
tick. -/
def Obligations.RfPortsEnableParkAndClear : Prop :=
  (∀ r (p : Fin 288) s, Privileged r s → rfoRefused p s = true →
    let u := if s.get (RFO_CFG_CENTRE_N p) < 32 ∨ 192 < s.get (RFO_CFG_CENTRE_N p) then s.setB (RFO_STATUS_BAD_CENTRE p) true else s
    exec (.rfoEnable r p) s = .next (u.flagAlways (RFO_STATUS_EN_REFUSED p) (rfoEvent p 2))) ∧
  (∀ r (p : Fin 288) s, Privileged r s → rfoRefused p s = false →
    let ten := if rfoCountsHold p s then s.now + 64 else s.now + 400000
    let u := ((s.setRfo p { s.rfo p with pend := (s.rfo p).pend ++ [ten], down := none }).setB (RFO_CTRL_EN p) true).later ten
      (.rfoEnable p)
    exec (.rfoEnable r p) s = .next (if rfoPower p u = psOff ∧ rfoFree p u = true then setRfoPower p psPowering u else u)) ∧
  (∀ (p : Fin 288) s, (s.rfo p).pend.min? = none → exec (.rfoEnabled p) s = .next s) ∧
  (∀ (p : Fin 288) s t, (s.rfo p).pend.min? = some t →
    let u := runTo (keyOf t 0) s
    let x := u.rfo p
    let v := u.setRfo p { x with pend := x.pend.filter (· != t) }
    let w := v.setRfo p { v.rfo p with enGain := x.enGain.next t true (v.on (RFO_CFG_HARD_MUTE p)) }
    (u.now < t ∨ x.pend.contains t = false → exec (.rfoEnabled p) s = .next u) ∧
    (t ≤ u.now → x.pend.contains t = true → exec (.rfoEnabled p) s = .next (if rfoFree p v then
      ((setRfoPower p psActive w).set (RFO_EN_TICK p) t).event (rfoEvent p 6) else v))) ∧
  (∀ r (p : Fin 288) s, Privileged r s →
    exec (.rfoDisable r p) s = .next ((s.setB (RFO_CTRL_EN p) false).later (s.now + 8) (.rfoOff p))) ∧
  (∀ (p : Fin 288) on s,
    exec (.rfoMute p on) s = .next ((s.setB (RFO_CTRL_MUTE p) on).later (s.now + 8) (.rfoMute p on))) ∧
  (∀ (p : Fin 288) s, exec (.rfoDriverFault p) s = .next (parkRfo p 1 s.now
    ((s.setRfo p { s.rfo p with fault := true }).flagAlways (RFO_STATUS_DRIVER_FAULT p) (rfoEvent p 1)))) ∧
  (∀ (p : Fin 768) s, exec (.driverFaultRetest false p false) s = .next (s.setRfo p { s.rfo p with fault := false })) ∧
  (∀ (p : Fin 768) s, exec (.driverFaultRetest true p false) s = .next (s.setZp p { s.zp p with fault := false })) ∧
  (∀ zf (p : Fin 768) s, exec (.driverFaultRetest zf p true) s = .next s) ∧
  (∀ (p : Fin 288) s, exec (.rfoParkClear p) s = .next (if rfoCauseStands p s then s
    else (s.setB (RFO_STATUS_PARKED p) false).setRfo p { s.rfo p with causes := [] })) ∧
  (∀ (p : Fin 288) s,
    exec (.shaperReset p) s = .next ((s.incSat (RFO_SHAPER_RESETS p)).emit (.shaperTick p)))

/-- The transfer window w of port z closes (R219 to R221, R227): a Park or another request has abandoned it, or the current left the
overlap and the change is deferred, counted and reported, or the new range comes into force; then a pending change looks for its
next opening. -/
def windowClosed (z : Nat) (w : ZWindow) (u : State) : State :=
  let x := u.zp z
  let v := (u.setZp z (noteWindow x w.opened (w.ends - 1))).setB (ZP_STATUS_TRANSFER z) false
  seekWindow z w.ends (
    if w.abandon then v.set (ZP_STATUS_PEND_RANGE z) w.after
    else if (excursion x.segs (overlap (zRange z v) w.range) w.opened (w.ends - 1)).isSome then
      (v.incSat (ZB_DEFERRALS z)).flagAlways (ZP_STATUS_RANGE_DEFERRED z) (zEvent z 11)
    else ((v.set (ZP_STATUS_RANGE z) w.range).set (ZB_CODE_RANGE z) w.range).set (ZP_STATUS_PEND_RANGE z) 3)

/-- Z ports (R208, R214 to R230), in every state.  An enable is refused of a parked or fenced port or one whose stream settings break
R216, and else pends for 64 ticks; a disable acts 8 ticks from the write.  A stream sample is taken from the queue at its modulator
cycle, an empty queue is an underrun, and the next instant is set.  A transfer window opens at the first modulator cycle that R219
allows and stays open for 4,000 ticks, then closes by the rules of `windowClosed`, a Park that waited for it beginning.  A park and a
ramp are done at their last tick, unless another current has come.  A read-back conversion falls into the slot that the sweep of
the model gives it (the model's choice, log entry 104).  The faults and clears are those of R225, R226 and R230. -/
def Obligations.ZPortsMoveRangeAndPark : Prop :=
  (∀ r (z : Fin 768) s, Privileged r s → exec (.zpEnable r z) s = .next (
    if s.on (ZP_STATUS_PARKED z) || fenced (z / 96) s || streamBad z s then
      s.flagAlways (ZP_STATUS_EN_REFUSED z) (zEvent z 13)
    else ((s.setZp z { s.zp z with pend := (s.zp z).pend ++ [s.now + 64] }).setB
      (ZP_CTRL_EN z) true).later (s.now + 64) (.zEnable z))) ∧
  (∀ r (z : Fin 768) s, Privileged r s →
    exec (.zpDisable r z) s = .next ((s.setB (ZP_CTRL_EN z) false).later (s.now + 8) (.zDisable z))) ∧
  (∀ (z : Fin 768) s, (s.zp z).stream = none → exec (.zbStreamSample z) s = .next s) ∧
  (∀ (z : Fin 768) s c, (s.zp z).stream = some c →
    let t := cycleTick c
    let u := advanceTo t s
    let next := c + max 1 (u.get (ZP_CFG_STREAM_DIV z))
    let v := (u.setZp z { u.zp z with stream := some next }).later (cycleTick next) (.zStream z next)
    let n := nextSample z t v
    (u.now < t ∨ (u.zp z).stream ≠ some c → exec (.zbStreamSample z) s = .next u) ∧
    (t ≤ u.now → (u.zp z).stream = some c →
      (n.1 = none → exec (.zbStreamSample z) s =
        .next ((n.2.incSat (ZB_UNDERRUNS z)).flagAlways (ZP_STATUS_UNDERRUN z) (zEvent z 12))) ∧
      (∀ x, n.1 = some x → exec (.zbStreamSample z) s = .next (bias z 0
        (codeCurrent (if bits x 24 2 = 3 then zTarget z n.2 else bits x 24 2) (sgn 24 x)) (bits x 24 2) t n.2)))) ∧
  (∀ (z : Fin 768) s, windowTick z s = none → exec (.transferWindowOpen z) s = .next s) ∧
  (∀ (z : Fin 768) s t, windowTick z s = some t →
    let u := runTo (keyOf t 0) s
    (u.now < t ∨ windowTick z u ≠ some t → exec (.transferWindowOpen z) s = .next u) ∧
    (t ≤ u.now → windowTick z u = some t → exec (.transferWindowOpen z) s = .next (((u.setZp z { u.zp z with
      window := some { opened := t, ends := t + 4000, range := zPend z u } }).setB (ZP_STATUS_TRANSFER z) true).later (t + 4000)
        (.zWindowEnd z t)))) ∧
  (∀ (z : Fin 768) s, (s.zp z).window = none → exec (.transferWindowEnd z) s = .next s) ∧
  (∀ (z : Fin 768) s w, (s.zp z).window = some w →
    let u := runTo (keyOf w.ends 0) s
    (u.now < w.ends ∨ (u.zp z).window = none → exec (.transferWindowEnd z) s = .next u) ∧
    (∀ w', w.ends ≤ u.now → (u.zp z).window = some w' → w'.opened = w.opened →
      exec (.transferWindowEnd z) s = .next (
        if w'.park then startPark z w.ends (windowClosed z w' u) else windowClosed z w' u))) ∧
  (∀ (z : Fin 768) (m : BitVec 12) s,
    let n := sweepNext z s
    let a := z.val / 96
    let u := advanceTo n.1 s
    let t := slotAt a (max u.now (u.mon a).freeAt)
    exec (.zbReadback z m) s = .next (if s.on (ZP_CFG_RB_EN z) && !tdacOn a 0 s then
      readback z t m.toInt (advanceTo t
        (u.setMon a { u.mon a with freeAt := t + 2000, sweep := some (n.2.getD t, z % 96) })) else s)) ∧
  (∀ (z : Fin 768) s, exec (.zbCompliance z) s = .next (s.flagAlways (ZP_STATUS_COMPLIANCE z) (zEvent z 12))) ∧
  (∀ (z : Fin 768) s, exec (.zfDriverFault z) s = .next (parkZ z 1 s.now
    ((s.setZp z { s.zp z with fault := true }).flagAlways (ZP_STATUS_DRIVER_FAULT z) (zEvent z 9)))) ∧
  (∀ (z : Fin 768) s, (s.zp z).park = none → exec (.parkDone z) s = .next s) ∧
  (∀ (z : Fin 768) s k, (s.zp z).park = some k →
    let u := advanceTo k.ends s
    (u.now < k.ends ∨ (u.zp z).park = none → exec (.parkDone z) s = .next u) ∧
    (∀ k', k.ends ≤ u.now → (u.zp z).park = some k' → exec (.parkDone z) s = .next (
      if k'.from_ = k.from_ ∧ k'.live = true ∧ k'.again = false then
        ((u.setZp z { u.zp z with park := none }).setB (ZP_STATUS_PARK_DONE z) true).setB (ZP_STATUS_RAMPING z) false
      else u))) ∧
  (∀ (z : Fin 768) s, (s.zp z).segs = [] → exec (.biasRampEnd z) s = .next s) ∧
  (∀ (z : Fin 768) s g more, (s.zp z).segs = g :: more →
    let u := runTo (keyOf (g.at_ + g.d) 0) s
    (u.now < g.at_ + g.d → exec (.biasRampEnd z) s = .next u) ∧
    (∀ g' more', g.at_ + g.d ≤ u.now → (u.zp z).segs = g' :: more' → exec (.biasRampEnd z) s = .next (
      if g'.at_ = g.at_ ∧ g'.d = g.d ∧ ((u.zp z).park.any fun k => k.live) = false then
        u.setB (ZP_STATUS_RAMPING z) false else u))) ∧
  (∀ (z : Fin 768) s, exec (.zParkClear z) s = .next (if zCauseStands z s then s
    else (s.setB (ZP_STATUS_PARKED z) false).setZp z { s.zp z with causes := [] })) ∧
  (∀ (z : Fin 768) s, exec (.readbackFaultClear z) s = .next (s.setB (ZP_STATUS_READBACK_FAULT z) false))

/-- Engine a is RUNNING with no interrupt due, the word at its program counter has opcode op, and a branch stands where one may
(R286, R290, R293, R295). -/
def AnaIssues (a op : Nat) (s : State) : Prop :=
  anaState a s = anRunning ∧ engIrqDue a s = false ∧ bits (engFetch a s) 26 6 = op
    ∧ (isBranchOp op = true → branchMisplaced a s = false)

/-- The instruction that engine a fetches in s, when it has opcode op, has its effect t and goes on as flow says, in one cycle. -/
def AnaDoes (a op : Nat) (s : State) (flow : EngFlow) (t : State) (o : Host.Outcome State Fault Refusal) : Prop :=
  AnaIssues a op s → o = .next (engFinish a flow t)

/-- The command of opcode op changes nothing when engine a is not to issue an instruction of that opcode: not RUNNING, an interrupt
due first, or another word at its program counter. -/
def AnaRests (a op : Nat) (s : State) (o : Host.Outcome State Fault Refusal) : Prop :=
  anaState a s ≠ anRunning ∨ engIrqDue a s = true ∨ bits (engFetch a s) 26 6 ≠ op → o = .next s

/-- What the engine faults with instead of going on (R301, R302): FAULTED, the code and the address of the instruction, and its
flag with event 801 + 2 a. -/
def AnaFaults (a code : Nat) (s : State) (o : Host.Outcome State Fault Refusal) : Prop :=
  o = .next ((((s.set (ANA_STATUS_STATE a) anFaulted).set (ANA_FAULT_CODE a) code).set (ANA_FAULT_FPC a) (s.get (ANA_PC a))).flag
    (ANA_STATUS_FAULT a) (801 + 2 * a))

/-- A branch, call or return of opcode op that stands in a delay slot or at a loop's end faults with code 3 (R293). -/
def AnaMisplaced (a op : Nat) (s : State) (o : Host.Outcome State Fault Refusal) : Prop :=
  anaState a s = anRunning → engIrqDue a s = false → bits (engFetch a s) 26 6 = op → branchMisplaced a s = true →
    AnaFaults a 3 s o

/-- The 24-bit instructions of an analysis engine (R289 to R292, R294): loads and stores through an address unit with its
post-modification, sums that saturate, bitwise operations, shifts, immediates, comparisons and the setting of an address unit; a
result is put in flight with its latency, and the flags are those of the result.  An LDD of a pair of units that R290 forbids
faults with ILLEGAL; a command whose instruction is not the one to issue changes nothing. -/
def Obligations.AnalysisWordInstructionsPutResultsInFlight : Prop :=
  ∀ (a : Fin 8) s,
    let w := engFetch a s
    let b := engBank a s
    let va := b.vI (bits w 20 3)
    let vb := operandB a w s
    let d := bits w 23 3
    let u := bits w 21 2
    let x := b.v.getD (bits w 20 3) 0
    let y := wrap 24 vb
    let n := sgn 5 (bits w 0 5)
    let sum := satI 24 (va + vb)
    let dif := satI 24 (va - vb)
    let res (i : Int) (s : State) := engResult a 1 (.v d) i (setEngBank a ((engBank a s).flags i) s)
    let ovf (o : Bool) := setEngBank a { b with o := o } s
    AnaDoes a 0x00 s .seq s (exec (.anaNop a) s) ∧
    AnaDoes a 0x01 s .seq (postMod a u (bits w 19 2) (engResult a 3 (.v d) (sgn 24 (engWord a (engAu a u s).p s)) s))
      (exec (.anaLd a) s) ∧
    AnaDoes a 0x02 s .seq (postMod a u (bits w 19 2) (setEngWord a (engAu a u s).p (wrap 32 (b.vI d)) s)) (exec (.anaSt a) s) ∧
    (u ≤ 1 → 2 ≤ bits w 14 2 → AnaDoes a 0x03 s .seq (postMod a (bits w 14 2) (bits w 12 2) (postMod a u (bits w 19 2)
      (engResult a 3 (.v (bits w 16 3)) (sgn 24 (engWord a (engAu a (bits w 14 2) s).p s))
        (engResult a 3 (.v d) (sgn 24 (engWord a (engAu a u s).p s)) s)))) (exec (.anaLdd a) s)) ∧
    AnaDoes a 0x10 s .seq (res sum (ovf (decide (sum ≠ va + vb)))) (exec (.anaAdd a) s) ∧
    AnaDoes a 0x11 s .seq (res dif (ovf (decide (dif ≠ va - vb)))) (exec (.anaSub a) s) ∧
    AnaDoes a 0x12 s .seq (res (sgn 24 (x &&& y)) s) (exec (.anaAnd a) s) ∧
    AnaDoes a 0x13 s .seq (res (sgn 24 (x ||| y)) s) (exec (.anaOr a) s) ∧
    AnaDoes a 0x14 s .seq (res (sgn 24 (x ^^^ y)) s) (exec (.anaXor a) s) ∧
    (0 ≤ n → AnaDoes a 0x15 s .seq (res (satI 24 (va * 2 ^ n.toNat))
      (ovf (decide (satI 24 (va * 2 ^ n.toNat) ≠ va * 2 ^ n.toNat)))) (exec (.anaShf a) s)) ∧
    (n < 0 → AnaDoes a 0x15 s .seq (res (va / (2 ^ (-n).toNat : Nat)) s) (exec (.anaShf a) s)) ∧
    AnaDoes a 0x16 s .seq (res (sgn 16 (bits w 0 16)) s) (exec (.anaLdi a) s) ∧
    AnaDoes a 0x17 s .seq (res (sgn 24 (putBits (b.v.getD d 0) 16 8 (bits w 0 8))) s) (exec (.anaLdih a) s) ∧
    (bits w 17 2 = 0 → AnaDoes a 0x18 s .seq (setEngAu a (bits w 23 2) { engAu a (bits w 23 2) s with
      p := wrap 16 (if bit w 16 then sgn 16 (bits w 0 16) else va) } s) (exec (.anaSetau a) s)) ∧
    (bits w 17 2 = 1 → AnaDoes a 0x18 s .seq (setEngAu a (bits w 23 2) { engAu a (bits w 23 2) s with
      oa := wrap 16 (if bit w 16 then sgn 16 (bits w 0 16) else va) } s) (exec (.anaSetau a) s)) ∧
    (bits w 17 2 = 2 → AnaDoes a 0x18 s .seq (setEngAu a (bits w 23 2) { engAu a (bits w 23 2) s with
      ob := wrap 16 (if bit w 16 then sgn 16 (bits w 0 16) else va) } s) (exec (.anaSetau a) s)) ∧
    (bits w 17 2 = 3 → AnaDoes a 0x18 s .seq
      (let v := wrap 18 (if bit w 16 then sgn 16 (bits w 0 16) else va)
       setEngAu a (bits w 23 2) { engAu a (bits w 23 2) s with w := bits v 16 2 * 2 ^ 16 + bits v 0 5 } s)
      (exec (.anaSetau a) s)) ∧
    AnaDoes a 0x19 s .seq (res (satI 24 (absI va)) (ovf (decide (satI 24 (absI va) ≠ absI va)))) (exec (.anaAbs a) s) ∧
    AnaDoes a 0x1B s .seq (setEngBank a ({ b with o := decide (dif ≠ va - vb) }.flags dif) s) (exec (.anaCmp a) s) ∧
    (AnaIssues a 0x03 s → 1 < u ∨ bits w 14 2 < 2 → AnaFaults a 1 s (exec (.anaLdd a) s)) ∧
    AnaRests a 0x00 s (exec (.anaNop a) s) ∧
    AnaRests a 0x01 s (exec (.anaLd a) s) ∧
    AnaRests a 0x02 s (exec (.anaSt a) s) ∧
    AnaRests a 0x03 s (exec (.anaLdd a) s) ∧
    AnaRests a 0x10 s (exec (.anaAdd a) s) ∧
    AnaRests a 0x11 s (exec (.anaSub a) s) ∧
    AnaRests a 0x12 s (exec (.anaAnd a) s) ∧
    AnaRests a 0x13 s (exec (.anaOr a) s) ∧
    AnaRests a 0x14 s (exec (.anaXor a) s) ∧
    AnaRests a 0x15 s (exec (.anaShf a) s) ∧
    AnaRests a 0x16 s (exec (.anaLdi a) s) ∧
    AnaRests a 0x17 s (exec (.anaLdih a) s) ∧
    AnaRests a 0x18 s (exec (.anaSetau a) s) ∧
    AnaRests a 0x19 s (exec (.anaAbs a) s) ∧
    AnaRests a 0x1B s (exec (.anaCmp a) s)

/-- The 56-bit sums of an analysis engine (R287 to R289, R292): MUL, MAC, MSB, ADDS and SHS saturate to 56 bits with SAT sticking,
an accumulation uses the sum of the instruction before it, CLRS clears the sum and SAT, STS stores a rounded and saturated word
and sets V, and LEAD and NORM give the exponent and the shifted sum; a command whose instruction is not the one to issue changes
nothing. -/
def Obligations.AnalysisSumsSaturateAndScale : Prop :=
  ∀ (a : Fin 8) s,
    let w := engFetch a s
    let b := engBank a s
    let k := bits w 23 1
    let sum := b.getS k
    let p := b.vI (bits w 20 3) * operandB a w s
    let n := sgn 6 (bits w 0 6)
    let e := leadExp sum
    let res (i : Int) := stickSat a (decide (satI 56 i ≠ i)) (engResult a 2 (.sum k) (satI 56 i) s)
    let acc (i : Int) := (res i).modAna a fun x => { x with acc := some (s.get (ANA_CYCLES a), engShadow a s, k, satI 56 i) }
    let v := stsValue sum (sgn 4 (bits w 8 4))
    AnaDoes a 0x05 s .seq (postMod a (bits w 21 2) (bits w 19 2) (setO a (decide (satI 24 v ≠ v))
      (setEngWord a (engAu a (bits w 21 2) s).p (wrap 32 (satI 24 v)) s))) (exec (.anaSts a) s) ∧
    AnaDoes a 0x08 s .seq (res p) (exec (.anaMul a) s) ∧
    AnaDoes a 0x09 s .seq (acc (engAccIn a k s + p)) (exec (.anaMac a) s) ∧
    AnaDoes a 0x0A s .seq (acc (engAccIn a k s - p)) (exec (.anaMsb a) s) ∧
    AnaDoes a 0x0B s .seq (acc (engAccIn a k s + b.vI (bits w 20 3) * 2 ^ 23)) (exec (.anaAdds a) s) ∧
    AnaDoes a 0x0C s .seq (engResult a 2 (.sum k) 0 (setEngBank a { b with sat := false } s)) (exec (.anaClrs a) s) ∧
    (0 ≤ n → AnaDoes a 0x0D s .seq (res (sum * 2 ^ n.toNat)) (exec (.anaShs a) s)) ∧
    (n < 0 → AnaDoes a 0x0D s .seq (res (sum / (2 ^ (-n).toNat : Nat))) (exec (.anaShs a) s)) ∧
    (0 ≤ e → AnaDoes a 0x0E s .seq (engResult a 2 (.sum k) (sum * 2 ^ e.toNat) (engResult a 2 (.v (bits w 23 3)) e s))
      (exec (.anaNorm a) s)) ∧
    (e < 0 → AnaDoes a 0x0E s .seq (engResult a 2 (.sum k) (sum / (2 ^ (-e).toNat : Nat))
      (engResult a 2 (.v (bits w 23 3)) e s)) (exec (.anaNorm a) s)) ∧
    AnaDoes a 0x0F s .seq (engResult a 2 (.v (bits w 23 3)) e (setEngBank a (b.flags e) s)) (exec (.anaLead a) s) ∧
    AnaRests a 0x05 s (exec (.anaSts a) s) ∧
    AnaRests a 0x08 s (exec (.anaMul a) s) ∧
    AnaRests a 0x09 s (exec (.anaMac a) s) ∧
    AnaRests a 0x0A s (exec (.anaMsb a) s) ∧
    AnaRests a 0x0B s (exec (.anaAdds a) s) ∧
    AnaRests a 0x0C s (exec (.anaClrs a) s) ∧
    AnaRests a 0x0D s (exec (.anaShs a) s) ∧
    AnaRests a 0x0E s (exec (.anaNorm a) s) ∧
    AnaRests a 0x0F s (exec (.anaLead a) s)

/-- The flow of an analysis engine (R290, R291, R293, R295, R301): a branch takes its target after two slots, CALL and RET keep
the return stack of 8, LOOPH pushes one of 4 loops, RTI leaves the shadow bank, WAIT sleeps unless a source is pending, HALT ends
in IDLE; a fifth loop, a ninth call, a RET without a call, an RTI outside an interrupt, a misplaced branch, a COND of none and an
undefined word fault with their codes; a command whose instruction is not the one to issue changes nothing. -/
def Obligations.AnalysisFlowAndItsFaults : Prop :=
  ∀ (a : Fin 8) s,
    let w := engFetch a s
    let b := engBank a s
    let calls := (s.ana a).calls
    (∀ c, engCond b (bits w 22 4) = some c →
      AnaDoes a 0x20 s (.branch (if c then some (bits w 0 14) else none) false) s (exec (.anaBr a) s)) ∧
    (engCond b (bits w 22 4) = some true → calls.length < 8 →
      AnaDoes a 0x21 s (.branch (some (bits w 0 14)) false)
        (s.modAna a fun e => { e with calls := (s.get (ANA_PC a) + 3) :: e.calls }) (exec (.anaCall a) s)) ∧
    (engCond b (bits w 22 4) = some false → AnaDoes a 0x21 s (.branch none false) s (exec (.anaCall a) s)) ∧
    (∀ ret rest, calls = ret :: rest → AnaDoes a 0x22 s (.branch (some ret) false)
      (s.modAna a fun e => { e with calls := rest }) (exec (.anaRet a) s)) ∧
    (bits w 14 12 = 0 → AnaDoes a 0x23 s (.skip (bits w 0 14 + 1)) s (exec (.anaLooph a) s)) ∧
    (bits w 14 12 ≠ 0 → b.loops.length < 4 → AnaDoes a 0x23 s (.skip (s.get (ANA_PC a) + 1))
      (setEngBank a { b with loops := .loop (s.get (ANA_PC a) + 1) (bits w 0 14) (bits w 14 12) :: b.loops } s)
      (exec (.anaLooph a) s)) ∧
    (engShadow a s = true → AnaDoes a 0x24 s (.branch (some (s.ana a).ira) true) s (exec (.anaRti a) s)) ∧
    AnaDoes a 0x25 s (if engPending a s = 0 then .stop anWaiting else .seq) s (exec (.anaWait a) s) ∧
    AnaDoes a 0x2A s (.stop anIdle) s (exec (.anaHalt a) s) ∧
    (AnaIssues a 0x23 s → bits w 14 12 ≠ 0 → 4 ≤ b.loops.length → AnaFaults a 4 s (exec (.anaLooph a) s)) ∧
    (AnaIssues a 0x21 s → engCond b (bits w 22 4) = some true → 8 ≤ calls.length → AnaFaults a 5 s (exec (.anaCall a) s)) ∧
    (AnaIssues a 0x22 s → calls = [] → AnaFaults a 6 s (exec (.anaRet a) s)) ∧
    (AnaIssues a 0x24 s → engShadow a s = false → AnaFaults a 7 s (exec (.anaRti a) s)) ∧
    (AnaIssues a 0x20 s → engCond b (bits w 22 4) = none → AnaFaults a 1 s (exec (.anaBr a) s)) ∧
    (AnaIssues a 0x21 s → engCond b (bits w 22 4) = none → AnaFaults a 1 s (exec (.anaCall a) s)) ∧
    AnaMisplaced a 0x20 s (exec (.anaBr a) s) ∧ AnaMisplaced a 0x21 s (exec (.anaCall a) s) ∧
    AnaMisplaced a 0x22 s (exec (.anaRet a) s) ∧ AnaMisplaced a 0x24 s (exec (.anaRti a) s) ∧
    (anaState a s = anRunning → engIrqDue a s = false → engIllegal w = true → AnaFaults a 1 s (exec (.anaIllegal a) s)) ∧
    (anaState a s ≠ anRunning ∨ engIrqDue a s = true ∨ engIllegal w = false → exec (.anaIllegal a) s = .next s) ∧
    AnaRests a 0x20 s (exec (.anaBr a) s) ∧
    AnaRests a 0x21 s (exec (.anaCall a) s) ∧
    AnaRests a 0x22 s (exec (.anaRet a) s) ∧
    AnaRests a 0x23 s (exec (.anaLooph a) s) ∧
    AnaRests a 0x24 s (exec (.anaRti a) s) ∧
    AnaRests a 0x25 s (exec (.anaWait a) s) ∧
    AnaRests a 0x2A s (exec (.anaHalt a) s)

/-- An analysis engine and what is outside it (R295, R297 to R300, R302, R303): enable, refused with its flag or begun 8 ticks
later, and disable, which keeps the cycles counted so far; an interrupt that is due switches to the shadow bank at 0x10 + 4 source;
the doorbell, the timer, a copied buffer and a completed SEND raise their sources; a buffer that does not fit its stream is passed
or dropped and counted, one without room waits, and a stream of an engine that does not run passes buffers in TEE and leaves them in
CONSUME; HFLAG, SEND, whose full queue stalls it, and the I/O registers.  Where there is nothing to take, nothing changes. -/
def Obligations.AnalysisEnginesMeetTheBlock : Prop :=
  ∀ (a : Fin 8) s,
    let w := engFetch a s
    let out := s.get (ANA_OUT_CFG_OUT_QUEUE a)
    let vd := (engBank a s).v.getD (bits w 23 3) 0
    (∀ r, Privileged r s → engRefused a s = false →
      exec (.anaEnable r a) s = .next (((s.modAna a fun e => { e with startAt := some (s.now + 8) }).setB (ANA_CTRL_EN a) true).later
        (s.now + 8) (.anaStart a))) ∧
    (∀ r, Privileged r s → engRefused a s = true →
      exec (.anaEnable r a) s = .next (s.flag (ANA_STATUS_EN_REFUSED a) (801 + 2 * a))) ∧
    (∀ r, Privileged r s → exec (.anaDisable r a) s = .next ((((engSettle a s.now s).modAna a fun e =>
      { e with startAt := none, flight := [], slots := 0, target := none, rti := false, acc := none, sends := [], held := false }).setB
        (ANA_CTRL_EN a) false).set (ANA_STATUS_STATE a) anIdle)) ∧
    exec (.anaDoorbell a) s = .next (engRaise a 4 s.now s) ∧
    exec (.anaInterrupt a) s = .next (if engIrqDue a s then
      ((engClock a (s.modAna a fun e => { e with ira := s.get (ANA_PC a) })).setB (ANA_STATUS_SHADOW a) true).set (ANA_PC a)
        (0x10 + 4 * lowBit 5 (engPending a s)) else s) ∧
    ((s.ana a).timer = none → exec (.anaTimer a) s = .next s) ∧
    (∀ v, (s.ana a).timer = some v →
      let ahead := sgn 48 (wrap 48 ((v : Int) - s.now))
      let u := if 0 < ahead then advanceTo (s.now + ahead.toNat) s else s
      exec (.anaTimer a) s = .next (engRaise a 3 u.now (u.modAna a fun e => { e with timer := none }))) ∧
    (∀ j : Fin 2,
      let q := s.get (ANA_IN_CFG_QUEUE a j)
      let tee := s.get (ANA_IN_CFG_MODE a j) == 1
      let len := s.get (ANA_IN_BUF_LEN a j)
      let wp := s.get (ANA_IN_WP a j)
      let awake := anaState a s = anRunning ∨ anaState a s = anWaiting
      (engInOn a j s = false ∨ nextBuffer q s = none → exec (.anaInCopy a j) s = .next s) ∧
      (∀ it, engInOn a j s = true → nextBuffer q s = some it →
        let c := convWords (s.get (ANA_IN_CFG_CONV a j)) q it
        let n := c.1.length
        let t := (putCircular a (s.get (ANA_IN_BUF_BASE a j)) len wp (inHeader q c.2 n it :: c.1) s).set (ANA_IN_WP a j)
          (wp + n + 1)
        let u := if tee then teeNext q t else consumeNext q it false t
        (¬awake → exec (.anaInCopy a j) s = .next (if tee then (teeNext q s).incSat (ANA_IN_SKIPS a) else s)) ∧
        (awake → len - 1 < n → exec (.anaInCopy a j) s = .next (((if tee then teeNext q s else consumeNext q it true s).incSat
          (ANA_IN_SKIPS a)).flag (ANA_STATUS_IN_SKIP a) (801 + 2 * a))) ∧
        (awake → n ≤ len - 1 → len < (wp + 2 ^ 24 - s.get (ANA_IN_RP a j)) % 2 ^ 24 + n + 1 →
          exec (.anaInCopy a j) s = .next s) ∧
        (awake → n ≤ len - 1 → (wp + 2 ^ 24 - s.get (ANA_IN_RP a j)) % 2 ^ 24 + n + 1 ≤ len →
          exec (.anaInCopy a j) s = .next (engRaise a j u.now u)))) ∧
    ((s.ana a).sends = [] → exec (.anaSendDone a) s = .next s) ∧
    (∀ p len rest, (s.ana a).sends = (p, len) :: rest →
      let t := s.append out { bytes := (List.range len).flatMap fun k => s.getBytes (engDataAddr a (p + k)) 4, records := 1 }
      exec (.anaSendDone a) s = .next (if s.full out then s.noteEmpty out
        else engRaise a 2 t.now (t.modAna a fun e => { e with sends := rest }))) ∧
    AnaDoes a 0x26 s .seq ((s.set (ANA_HOST_VAL_VALUE a) (bits w 0 16)).flagAlways (ANA_STATUS_HOST_FLAG a) (800 + 2 * a))
      (exec (.anaHflag a) s) ∧
    (bits w 0 16 ≠ 0 → s.full out = false → s.on (QM_Q_CTRL_Q_EN out) = true →
      AnaDoes a 0x27 s .seq (s.modAna a fun e => { e with sends := e.sends ++ [((engAu a (bits w 21 2) s).p, bits w 0 16)] })
        (exec (.anaSend a) s)) ∧
    (bits w 0 16 ≠ 0 → s.full out = true ∨ s.on (QM_Q_CTRL_Q_EN out) = false →
      AnaDoes a 0x27 s .hold ((s.incSat (ANA_OUT_STALLS a)).noteEmpty out) (exec (.anaSend a) s)) ∧
    (bits w 0 6 = 4 → AnaDoes a 0x28 s .seq (engResult a 1 (.v (bits w 23 3)) (sgn 24 (bits (s.ana a).at_ 0 24))
      (s.modAna a fun e => { e with tlMid := bits (s.ana a).at_ 24 24 })) (exec (.anaIord a) s)) ∧
    (bits w 0 6 ≠ 4 → AnaDoes a 0x28 s .seq (engResult a 1 (.v (bits w 23 3))
      (sgn 24 (match bits w 0 6 with
        | 0 => s.get (ANA_IN_WP a 0) | 1 => s.get (ANA_IN_RP a 0) | 2 => s.get (ANA_IN_WP a 1) | 3 => s.get (ANA_IN_RP a 1)
        | 5 => (s.ana a).tlMid | 8 => (s.ana a).irq | _ => 0)) s) (exec (.anaIord a) s)) ∧
    (bits w 0 6 = 1 → rpFits a 0 vd s = true → AnaDoes a 0x29 s .seq (s.set (ANA_IN_RP a 0) vd) (exec (.anaIowr a) s)) ∧
    (bits w 0 6 = 3 → rpFits a 1 vd s = true → AnaDoes a 0x29 s .seq (s.set (ANA_IN_RP a 1) vd) (exec (.anaIowr a) s)) ∧
    (AnaIssues a 0x29 s → bits w 0 6 = 1 → rpFits a 0 vd s = false → AnaFaults a 8 s (exec (.anaIowr a) s)) ∧
    (AnaIssues a 0x29 s → bits w 0 6 = 3 → rpFits a 1 vd s = false → AnaFaults a 8 s (exec (.anaIowr a) s)) ∧
    (AnaIssues a 0x27 s → bits w 0 16 = 0 → AnaFaults a 8 s (exec (.anaSend a) s)) ∧
    (bits w 0 6 = 7 →
      let at_ : Nat := (s.ana a).timerLo + vd * 2 ^ 24
      let late := sgn 48 (wrap 48 ((at_ : Int) - (s.ana a).at_)) ≤ 0
      (¬ late → AnaDoes a 0x29 s .seq (s.modAna a fun e => { e with timer := some at_ }) (exec (.anaIowr a) s)) ∧
      (late → AnaDoes a 0x29 s .seq (engRaise a 3 (s.ana a).at_ (s.modAna a fun e => { e with timer := none }))
        (exec (.anaIowr a) s))) ∧
    (bits w 0 6 ∉ [1, 3, 6, 7, 9] → AnaDoes a 0x29 s .seq s (exec (.anaIowr a) s)) ∧
    (bits w 0 6 = 6 → AnaDoes a 0x29 s .seq (s.modAna a fun e => { e with timerLo := vd }) (exec (.anaIowr a) s)) ∧
    (bits w 0 6 = 9 → AnaDoes a 0x29 s .seq (s.modAna a fun e => { e with irq := e.irq - (e.irq &&& vd) })
      (exec (.anaIowr a) s)) ∧
    AnaRests a 0x26 s (exec (.anaHflag a) s) ∧
    AnaRests a 0x27 s (exec (.anaSend a) s) ∧
    AnaRests a 0x28 s (exec (.anaIord a) s) ∧
    AnaRests a 0x29 s (exec (.anaIowr a) s)

/-- What an ADD of an analysis engine has done when it ends, with nothing in flight and no loop or slot open: the saturated sum
stands in its destination, Z, N and V follow it, CYCLES and the program counter have gone up by one, the other registers of
the bank, the sums, the other engines and every byte of memory are as before (R286, R287, R291, R292). -/
def Obligations.AnalysisAddLandsAfterOneCycle : Prop :=
  ∀ (a : Fin 8) s, AnaIssues a 0x10 s → (s.ana a).flight = [] → (s.ana a).slots = 0 → (engBank a s).loops = [] →
    s.get (ANA_PC a) < 0x3FFF → (engBank a s).v.length = 8 →
    let w := engFetch a s
    let x := (engBank a s).vI (bits w 20 3) + operandB a w s
    ∃ t, exec (.anaAdd a) s = .next t
      ∧ (engBank a t).vI (bits w 23 3) = satI 24 x
      ∧ (engBank a t).z = decide (satI 24 x = 0) ∧ (engBank a t).n = decide (satI 24 x < 0)
      ∧ (engBank a t).o = decide (satI 24 x ≠ x)
      ∧ (∀ r, r ≠ bits w 23 3 → (engBank a t).vI r = (engBank a s).vI r)
      ∧ (engBank a t).sum = (engBank a s).sum ∧ (engBank a t).au = (engBank a s).au
      ∧ t.get (ANA_PC a) = s.get (ANA_PC a) + 1
      ∧ t.get (ANA_CYCLES a) = (s.get (ANA_CYCLES a) + 1) % 2 ^ 64
      ∧ (∀ j, j ≠ a.val → t.ana j = s.ana j)
      ∧ (∀ y, t.byte y = s.byte y)

/-- Tap units (R307 to R309, R312, R313), in every state.  EN = 1 is taken, or refused and flagged; EN = 0 acts as DISARM and then
clears EN.  ARM acts 8 ticks on from IDLE or DONE, and is refused otherwise.  DISARM drops an ARM that has not acted and acts
itself: a capture goes on to its end, else the unit is IDLE.  A segment's end delivers the record and goes to IDLE, DONE or REARM as
R309 says; the end of REARM and the room that a unit waits for reserve a slot. -/
def Obligations.TapUnitsArmCaptureAndDeliver : Prop :=
  (∀ r (i : Fin 32) s, Privileged r s → exec (.tapEnable r i) s = .next (
    if tapEnRefused i s then s.flag (TAP_STATUS_EN_REFUSED i) (816 + i)
    else (s.setTap i { s.tap i with disable := false }).setB (TAP_CTRL_EN i) true)) ∧
  (∀ r (i : Fin 32) s, Privileged r s →
    let v := s.setTap i { s.tap i with disable := true }
    let u := v.setTap i { v.tap i with armAt := none }
    exec (.tapDisable r i) s = .next (if s.on (TAP_CTRL_EN i) = false then s
      else if tapState i s = tapCapturing then u.setTap i { u.tap i with disarm := true }
      else tapRelease i (32 * s.now) u)) ∧
  (∀ (i : Fin 32) s, exec (.tapArm i) s = .next (
    if s.on (TAP_CTRL_EN i) = true ∧ (tapState i s = tapIdle ∨ tapState i s = tapDone) then
      (s.setTap i { s.tap i with armAt := some (s.now + 8) }).later (s.now + 8) (.tapArm i (s.now + 8))
    else s.flag (TAP_STATUS_ARM_REFUSED i) (816 + i))) ∧
  (∀ (i : Fin 32) t s, act (.tapArm i t) t s = if (s.tap i).armAt = some t then
      tapReserve i t (((s.setTap i { s.tap i with armAt := none, tones := (s.tap i).tones.filter fun x => t < x.until_ }).set
        (TAP_SEG_DONE i) 0).inc (TAP_ACQ_COUNT i)) else s) ∧
  (∀ (i : Fin 32) s, ∃ t, exec (.tapDisarm i) s = .next t ∧ (t.tap i).armAt = none ∧
    (tapState i s = tapCapturing → tapState i t = tapCapturing ∧ (t.tap i).disarm = true ∧ (t.tap i).cap = (s.tap i).cap) ∧
    (tapState i s ≠ tapCapturing → tapState i t = tapIdle ∧ (t.tap i).cap = none)) ∧
  (∀ (i : Fin 32) xs s, ((tapSettle i s).tap i).cap = none → exec (.tapSegmentEnd i xs) s = .next (tapSettle i s)) ∧
  (∀ (i : Fin 32) xs s c, ((tapSettle i s).tap i).cap = some c →
    let u := advanceTo (ceilDiv c.ends 32) (tapSettle i s)
    ((u.tap i).cap = none → exec (.tapSegmentEnd i xs) s = .next u) ∧
    (∀ c', (u.tap i).cap = some c' →
      let v := tapDeliver i c' none (tapRaw i c' (xs.xs.map fun x => x.map BitVec.toNat) (streamInts xs.stream) u) u
      let t := ceilDiv c'.ends 32 + 32
      exec (.tapSegmentEnd i xs) s = .next (
        if (v.tap i).disarm then tapRelease i c'.ends v
        else if tapNseg i v ≤ v.get (TAP_SEG_DONE i) then (setTapState i tapDone c'.ends v).flag (TAP_STATUS_DONE i) (816 + i)
        else
          let w := setTapState i tapRearm c'.ends v
          let y := w.setTap i { w.tap i with rearmAt := t }
          if t ≤ y.now then tapRearmed i t y else y.later t (.tapRearm i t)))) ∧
  (∀ (i : Fin 32) s, exec (.tapRearmEnd i) s = .next (
    if tapState i s = tapRearm then advanceTo (s.tap i).rearmAt s else s)) ∧
  (∀ (i : Fin 32) t s, tapState i s = tapRearm → (s.tap i).rearmAt = t → tapRearmed i t s = tapReserve i t s) ∧
  (∀ (i : Fin 32) s, exec (.tapSlotFree i) s = .next (if tapState i s = tapWaitRoom ∧ tapSlotFree i s = true then
    let u := setTapState i tapArmed (32 * s.now) s
    u.setTap i { u.tap i with armedAt := s.now, slot := tapNextSlot i u } else s))

/-- The state of a Flavas link is none of those in which a command of it acts. -/
abbrev LinkNot (n st : Nat) (s : State) : Prop := linkState n s ≠ st

/-- The states of a Flavas link (R320, R328, R330, R331, R333, R334), in every state.  Enable, refused with its flag or to DETECT, and
disable; DETECT to TRAIN where every lane's far end is found, TRAIN to LOCK, LOCK to CAPS with the link's capability flit, and with
the peer's one to ACTIVE, or back to TRAIN for another width or an unexpected device; each timeout at its end; RETRAIN of an ACTIVE
link; EIDLE on request, on an idle ordered set or after quiet, and its exit.  In another state each changes nothing. -/
def Obligations.LinksMoveThroughTheirStates : Prop :=
  (∀ r (n : Fin 32) s, Privileged r s →
    let u := s.setB (FLV_CTRL_EN n) true
    exec (.flvEnable r n) s = .next (if linkRefused n s then s.flag (FLV_STATUS_EN_REFUSED n) (768 + n)
      else if linkState n u = lkDisabled then setLinkState n lkDetect u.now u else u)) ∧
  (∀ r (n : Fin 32) s, Privileged r s →
    let u := setLocks n false (holdFlits n s.now (s.setB (FLV_CTRL_EN n) false))
    exec (.flvDisable r n) s = .next (setLinkState n lkDisabled u.now (u.setLink n { u.link n with t1 := none }))) ∧
  (∀ (n : Fin 32) found s,
    let u := (List.range (linkWidth n s)).foldl (fun s k => s.setB (FLV_LANE_STATUS_DETECTED (n + k)) (found.getLsbD k)) s
    exec (.flvDetect n found) s = .next (if LinkNot n lkDetect s then s
      else if (List.range (linkWidth n s)).all fun k => found.getLsbD k then setLinkState n lkTrain u.now u else u)) ∧
  (∀ (n : Fin 32) s, exec (.flvTrained n) s = .next (if LinkNot n lkTrain s then s else setLinkState n lkLock s.now s)) ∧
  (∀ (n : Fin 32) s,
    let t := (s.link n).since + 4000000
    exec (.flvTrainTimeout n) s = .next (if LinkNot n lkTrain s then s else setLinkState n lkDetect t
      (((advanceTo t s).incSat (FLV_TRAIN_FAILS n)).flag (FLV_STATUS_TRAIN_FAIL n) (768 + n)))) ∧
  (∀ (n : Fin 32) s, exec (.flvLocked n) s = .next (if LinkNot n lkLock s then s else
    setLinkState n lkCaps s.now (setLocks n true (s.emit (.caps n (myDev s) (s.get (FLV_CFG_WIDTH n)) 64))))) ∧
  (∀ (n : Fin 32) s,
    let t := (s.link n).since + 200000
    exec (.flvLockTimeout n) s = .next (if LinkNot n lkLock s then s else setLinkState n lkTrain t (advanceTo t s))) ∧
  (∀ (n : Fin 32) (peer : Fin 64) (width : BitVec 2) depth s,
    let u := s.set (FLV_STATUS_PEER_DEV n) peer
    let v := u.flag (FLV_STATUS_PEER_MISMATCH n) (768 + n)
    exec (.flvCaps n peer width depth) s = .next (if LinkNot n lkCaps s then s
      else if u.on (FLV_CFG_PEER_CHK n) && u.get (FLV_CFG_PEER n) != peer.val then setLinkState n lkTrain v.now (setLocks n false v)
      else if width.toNat ≠ u.get (FLV_CFG_WIDTH n) then setLinkState n lkTrain u.now (setLocks n false u)
      else linkActive n u.now (linkRestore n depth.toNat u))) ∧
  (∀ (n : Fin 32) s,
    let t := (s.link n).since + 20000
    exec (.flvCapsTimeout n) s = .next (if LinkNot n lkCaps s then s
      else setLinkState n lkTrain t (setLocks n false (advanceTo t s)))) ∧
  (∀ r (n : Fin 32) s, Privileged r s → exec (.flvRetrain r n) s = .next (if LinkNot n lkActive s then s
    else setLinkState n lkLock s.now (setLocks n false ((holdFlits n s.now s).incSat (FLV_RETRAINS n))))) ∧
  (∀ r (n : Fin 32) s, Privileged r s →
    exec (.idleReq r n) s = .next (if LinkNot n lkActive s then s else enterIdle n s.now s)) ∧
  (∀ (n : Fin 32) s, exec (.eidleEntry n true) s = .next (if LinkNot n lkActive s then s else enterIdle n s.now s)) ∧
  (∀ (n : Fin 32) s,
    let wait := 2000 * max 1 (s.get (FLV_CFG_IDLE_AFTER n))
    let u := advanceTo ((s.link n).quiet + wait) s
    exec (.eidleEntry n false) s = .next (
      if linkState n s = lkActive ∧ s.on (FLV_CFG_AUTO_IDLE n) = true ∧ linkQuiet n s = true then
        (if linkState n u = lkActive ∧ linkQuiet n u = true ∧ (u.link n).quiet + wait ≤ u.now then enterIdle n u.now u else u)
      else s)) ∧
  (∀ (n : Fin 32) s,
    let u := advanceTo (((s.link n).exitAt).getD (s.now + 16)) s
    exec (.eidleExit n) s = .next (if LinkNot n lkEidle s then s
      else linkActive n u.now (u.incSat (FLV_IDLE_EXITS n))))

/-- Flits, credits, time exchanges and lane tests (R326, R329, R330, R332, R333, R335), in every state.  A good flit owes a credit,
gives back its CREDIT and is dispatched; one that fails its checks only owes the credit and is discarded; its blocks' invalid sync
headers are counted; one that comes in EIDLE is taken and starts the exit; one that the receiver held as its link left ACTIVE is
flushed.  Owed credits go in a flit of their own after 64 ticks; a TIME exchange starts every TIME_PERIOD microseconds; 16 invalid
sync headers retrain the link; a lane's checker locks, loses its lock, and has errors injected.  On a link or lane in another state
nothing changes. -/
def Obligations.FlitsCreditsAndLaneTests : Prop :=
  (∀ (n : Fin 32) (f : BitVec 528) s,
    let x := rxFlit f.toNat
    let u := flitConsume n (countSync n f.toNat s)
    let v := if flitOk x then (List.range (bits x 38 2)).foldl
        (fun s k => dispatch n (bits x 32 6) (bits x (64 + 128 * k) 128) s) (flitHeader n x u)
      else flitDiscard n u
    (linkState n s = lkActive → exec (.flitRx n f) s = .next (flvPump n 64 v)) ∧
    (linkState n s = lkEidle → exec (.flitRx n f) s = .next (
      if linkState n v = lkEidle ∧ (v.link n).exitAt = none then v.setLink n { v.link n with exitAt := some (v.now + 16) } else v)) ∧
    (LinkNot n lkActive s → LinkNot n lkEidle s → exec (.flitRx n f) s = .next (
      if s.now < (s.link n).flushTo then (flitConsume n s).incSat (FLV_FLUSHED n) else s))) ∧
  (∀ (n : Fin 32) s,
    let u := advanceTo ((s.link n).owedAt + 64) s
    exec (.creditFlit n) s = .next (if linkState n s = lkActive ∧ 0 < (s.link n).owed then
      (if 0 < (u.link n).owed ∧ 0 < u.get (FLV_CREDIT_TX_CREDITS n) then sendFlit n [] u else u) else s)) ∧
  (∀ (n : Fin 32) s,
    let u := advanceTo ((s.link n).timeAt + 2000 * s.get (FLV_CFG2_TIME_PERIOD n)) s
    exec (.timeExchange n) s = .next (if linkState n s = lkActive ∧ s.get (FLV_CFG2_TIME_PERIOD n) ≠ 0 then
      startTime n u.now u else s)) ∧
  (∀ (n : Fin 32) (k : Fin 4) s,
    let x := s.fibre (n + k)
    let u := (s.setFibre (n + k) { x with bad := 0 }).incSat (FLV_SYNC_ERRORS (n + k)) (16 - x.bad)
    let v := u.flag (FLV_STATUS_LOCK_LOST n) (768 + n)
    exec (.flvLockLost n k) s = .next (if LinkNot n lkActive s then s
      else setLinkState n lkLock u.now (setLocks n false ((holdFlits n u.now v).incSat (FLV_RETRAINS n))))) ∧
  (∀ r (l : Fin 32) s, Privileged r s →
    exec (.prbsInject r l) s = .next (s.setFibre l { s.fibre l with injected := (s.fibre l).injected + 1 })) ∧
  (∀ (l : Fin 32) s, exec (.prbsLock l) s = .next (
    if s.on (FLV_LANE_TEST_CHK l) && s.get (FLV_LANE_TEST_PATTERN l) != 0 && !s.on (FLV_LANE_STATUS_PRBS_LOCK l) then
      (s.setFibre l { s.fibre l with lockAt := some s.now }).setB (FLV_LANE_STATUS_PRBS_LOCK l) true
    else s)) ∧
  (∀ (l : Fin 32) errors s,
    let u := s.incSat (FLV_PRBS_ERRORS l) errors.toNat
    exec (.prbsLoss l errors) s = .next (if s.on (FLV_LANE_STATUS_PRBS_LOCK l) = false then s
      else if errors.toNat < 64 then u else (laneUnlock l u.now u).flag (FLV_LANE_STATUS_PRBS_LOSS l) (768 + l)))

/-- Writes of network time and the frames of the Ethernet ports (R340, R341, R343 to R345, R350 to R352, R383, R384), in every state.
NT_INC within 0.1 % of 2 ns is applied at the next 500 MHz cycle, and is refused otherwise or while EN = 0; a STEP or LOAD waits for
its cycle, is ignored with STEP_BUSY while one is pending, and has no effect while EN = 0; network time counts on to its next carry.
While the link is up, a received frame of 60 to 9,212 bytes is counted as an FCS error, taken as a pause, run or relayed as a
management frame, or queued with its stamp, or dropped and counted; a transmit frame leaves unless its LEN is bad, another is on
the line, or it would run into a waiting timed head; the timed head is judged at the cycle at which it is due; a change of the link
raises its event. -/
def Obligations.NetworkTimeAndFramesFollowTheirRules : Prop :=
  (∀ r (hi : Dword) s, Privileged r s →
    let x := pairLow (reqId r) 0x20014 NT_INC s
    let v := bits hi.toNat 0 8 * 2 ^ 32 + x.1 % 2 ^ 32
    exec (.ntIncWrite r hi) s = .next (
      if x.2.on NT_CTRL_EN = true ∧ 1998 * 2 ^ 32 ≤ 1000 * v ∧ 1000 * v ≤ 2002 * 2 ^ 32 then
        x.2.later (x.2.now + 4 - x.2.up % 4) (.ntInc v)
      else x.2.flagAlways NT_STATUS_INC_REFUSED 114)) ∧
  (∀ r s, Privileged r s →
    let did := fun (a : Action) =>
      if s.on NT_CTRL_EN = false then s
      else if s.on NT_STATUS_STEP_PENDING = true then s.flagAlways NT_STATUS_STEP_BUSY 114
      else (s.setB NT_STATUS_STEP_PENDING true).later (ntCycleAfter s.now s) a
    exec (.ntStep r) s = .next (did .ntStep) ∧ exec (.ntLoad r) s = .next (did .ntLoad)) ∧
  (∀ s, exec .ntWrap s = .next (if s.tl.counting = true then
    advanceTo (s.now + 4 * ceilDiv (2 ^ 64 - s.get NT_NOW) (s.get NT_INC) - s.up % 4) s else s)) ∧
  (∀ (e : Fin 2) f s, s.on (ETH_STATUS_LINK e) = false ∨ f.length < 60 ∨ 9212 < f.length →
    (∀ fcs, exec (.ethRxFrame e f fcs) s = .next s) ∧ exec (.mgmtFrame e f) s = .next s) ∧
  (∀ (e : Fin 2) f s, isMgmt e f s = false → exec (.mgmtFrame e f) s = .next s) ∧
  (∀ (e : Fin 2) f s, isMgmt e f s = true → exec (.mgmtFrame e f) s = exec (.ethRxFrame e f true) s) ∧
  (∀ (e : Fin 2) f s, s.on (ETH_STATUS_LINK e) = true → 60 ≤ f.length → f.length ≤ 9212 →
    let u := s.inc (ETH_RX_FRAMES e)
    let x := rxStamp e u
    let body := f.drop (typeOffset f + 2)
    exec (.ethRxFrame e f false) s = .next ((s.incSat (ETH_FCS_ERRORS e)).flag (ETH_STATUS_FCS_ERR e) (120 + e))
    ∧ exec (.ethRxFrame e f true) s = .next (
      if isPause f = true then (u.incSat (ETH_PAUSE_RX e)).flag (ETH_STATUS_PAUSE_RX e) (120 + e)
      else if isMgmt e f u = true then
        (if u.host.ryvexUp = false ∨ bodyOk body = false then u.incSat (ETH_RX_DROPS e)
          else if relayed body u = true then mgmtRelay e (frameBe f 6 6) body u
          else mgmtHere (.frame e (frameBe f 6 6)) body u)
      else if x.2.on (QM_Q_CTRL_Q_EN (ethQueue e 3)) = false then x.2.incSat (ETH_RX_DROPS e)
      else if x.2.full (ethQueue e 3) = true then (x.2.noteEmpty (ethQueue e 3)).incSat (ETH_RX_DROPS e)
      else x.2.append (ethQueue e 3) { bytes := rxHeader f x.1 ++ f })) ∧
  (∀ (e : Fin 2) bufs s,
    let v := bufs.foldl (fun s b => ethFetch (ethQueue e 0) b s) s
    let u := advanceTo (v.now + (ethFreeUp e v - v.up)) v
    (u.on (ETH_STATUS_LINK e) = false ∨ ethHead (ethQueue e 0) u = none → exec (.ethTx e bufs) s = .next u) ∧
    (∀ b, u.on (ETH_STATUS_LINK e) = true → ethHead (ethQueue e 0) u = some b → exec (.ethTx e bufs) s = .next (
      if txLenOk b = false then ethComplete e (ethQueue e 0) 4 none b u
      else if u.up < ethFreeUp e u ∨ ethBlocked e b u = true then u
      else ethSend e (ethQueue e 0) 0 (txStamp e u).1 b (txStamp e u).2))) ∧
  (∀ (e : Fin 2) bufs s,
    let u := advanceTo (bufs.foldl (fun s b => ethFetch (ethQueue e 1) b s) s).now
      (bufs.foldl (fun s b => ethFetch (ethQueue e 1) b s) s)
    (timedDue e u = none → exec (.ethTimedLaunch e bufs) s = .next u) ∧
    (∀ t, timedDue e u = some t → exec (.ethTimedLaunch e bufs) s = .next (timedJudge e (runTo (keyOf t rankLaunch) u)))) ∧
  (∀ (e : Fin 2) s, ethHead (ethQueue e 1) s = none → timedJudge e s = s) ∧
  (∀ (e : Fin 2) s b, ethHead (ethQueue e 1) s = some b →
    let u := s.setEth e { s.eth e with judge := s.up + 1 }
    timedJudge e s =
      if txLenOk b = false then ethComplete e (ethQueue e 1) 4 none b u
      else if 0 < launchIn b s then u
      else if launchIn b s = 0 then ethLaunch e b u
      else ethLate e b u) ∧
  (∀ (e : Fin 2) up s,
    let u := ((s.setB (ETH_STATUS_LINK e) up).setB (ETH_STATUS_FEC_LOCK e) up).event (116 + e)
    let v := deriveReady u
    exec (.ethLink e up) s = .next (if s.on (ETH_STATUS_LINK e) = up then s else if up then advanceTo (v.now + cyclesFrom v.up v) v else v))

/-- A frame arrives on a line that the device listens to, with its timing point at `stamp` (R30, R33, R35). -/
def BusArrives (up : Bool) (f : BitVec 84) (s : State) : Prop := f.toNat.testBit 0 = true ∧ busListens up s = true

/-- The machine at the tick of a frame's timing point. -/
abbrev busAt (stamp : BitVec 64) (s : State) : State := advanceTo (ceilDiv (s.instant stamp.toNat) 32) s

/-- The frame is a good one of TYPE `type` for this device (R35). -/
def BusGood (up : Bool) (type : Nat) (f : BitVec 84) (u : State) : Prop :=
  frError f.toNat up = false ∧ frType f.toNat = type ∧ (up = true ∨ frBcast f.toNat = true ∨ frAddr f.toNat = myDev u)

/-- The row of TYPE `type` frames on a line: on a line not listened to nothing happens; a frame in error is reported; one of another
type or for another device is discarded; a good one does what `does` says (R35). -/
def BusRow (up : Bool) (type : Nat) (c : BitVec 84 → BitVec 64 → Instr) (does : BitVec 84 → BitVec 64 → State → State) : Prop :=
  ∀ f stamp s,
    (¬ BusArrives up f s → exec (c f stamp) s = .next s) ∧
    (BusArrives up f s → frError f.toNat up = true →
      exec (c f stamp) s = .next ((busAt stamp s).flagAlways TL_STATUS_BUS_FRAME_ERR 102)) ∧
    (BusArrives up f s → frError f.toNat up = false → ¬ BusGood up type f (busAt stamp s) →
      exec (c f stamp) s = .next (busAt stamp s)) ∧
    (BusArrives up f s → BusGood up type f (busAt stamp s) → exec (c f stamp) s = .next (does f stamp (busAt stamp s)))

/-- The trigger bus (R31, R33, R35 to R40), in every state.  An aligned master sends at SYNC_AT, at every second, and its echo
requests; a follower answers an ECHO_REQ after 256 ticks, keeps its delay and the NOISY flag of it (its event is the model's choice,
log entry 94), steps at SYNC unless it has no delay or is active, and compares at SYNC_CHECK; the master takes a response, drops one
with another exchange number (the model's choice, log entry 93), or gives the device up after 16,808 ticks.  A frame in error is
reported, and one of another type or for another device is discarded. -/
def Obligations.TriggerBusAlignsTheDevices : Prop :=
  (∀ r s, Privileged r s →
    let at_ := s.get TL_SYNC_AT
    let did := fun (type : Nat) =>
      if masterReady s = false then s
      else if at_ < s.now + 64 then s.flagAlways TL_STATUS_SYNC_LATE 97
      else s.later at_ (.busLaunch type at_)
    exec (.sendSync r) s = .next (did 1) ∧ exec (.sendCheck r) s = .next (did 2)) ∧
  (∀ type at_ s, s.on TL_CTRL_EN = true → act (.busLaunch type at_) at_ s =
    fireSource 33 (32 * at_) at_ (holdLine (32 * at_)
      (s.emit (.busFrame (frameBits type 1 (myDev s) at_) (fineStamp (32 * at_ : Nat)))))) ∧
  (∀ s, s.tl.counting = false → exec .autoSyncCheck s = .next s) ∧
  (∀ s, s.tl.counting = true →
    let u := runTo (keyOf s.tl.checkNext rankCheck) s
    let m := u.tl.checkNext
    let v := { u with tl := { u.tl with checkNext := m + 2000000000 } }
    exec .autoSyncCheck s = .next (
      if masterReady v = true ∧ v.on TL_CFG_AUTO_CHECK = true then
        fireSource 33 (32 * m) m (holdLine (32 * m)
          (v.emit (.busFrame (frameBits 2 1 (myDev v) m) (fineStamp (32 * m : Nat)))))
      else v)) ∧
  (∀ r s, Privileged r s → exec (.echoStart r) s = .next (
    if masterReady s = true ∧ s.tl.echo = none then
      echoNext ((setBits 64 (s.get TL_ECHO_MASK)).filter (· != myDev s)) (s.setB TL_STATUS_ECHO_BUSY true)
    else s)) ∧
  BusRow false 3 .echoReqRx (fun f stamp u =>
    u.emit (.busFrame (frameBits 4 0 (myDev u) (frPayload f.toNat % 256)) (fineStamp (stamp.toNat + 32 * 256 : Nat)))) ∧
  BusRow true 4 .echoRspRx (fun f stamp u =>
    match u.tl.echo with
    | none => u
    | some e =>
      if frAddr f.toNat ≠ e.rest.headD 64 ∨ frPayload f.toNat % 256 ≠ e.exchange then u
      else
        let ds := ((u.instant stamp.toNat : Int) - e.reqStamp - 8192) :: e.delays
        if e.exchange = 63 then echoNext (e.rest.drop 1) (echoDone (e.rest.headD 64) ds u)
        else echoRequest e.rest (e.exchange + 1) ds u) ∧
  (∀ s, s.tl.echo = none → exec .echoTimeout s = .next s) ∧
  (∀ s e, s.tl.echo = some e →
    let u := runTo (keyOf (e.reqStamp / 32 + 16808) rankEcho) s
    (u.tl.echo = none → exec .echoTimeout s = .next u) ∧
    (∀ x, u.tl.echo = some x → exec .echoTimeout s = .next (echoNext (x.rest.drop 1)
      ((u.setB (TL_ECHO_RESULT_VALID (x.rest.headD 64)) false).flagAlways TL_STATUS_ECHO_NO_REPLY 99)))) ∧
  BusRow false 5 .delaySetRx (fun f _ u =>
    let v := (u.set TL_DELAY_DELAY (frPayload f.toNat)).setB TL_STATUS_DELAY_VALID true
    if (frPayload f.toNat).testBit 63 then v.flagAlways TL_STATUS_ECHO_NOISY 99 else v) ∧
  BusRow false 1 .syncRx (fun f stamp u =>
    let c := syncError (frPayload f.toNat) (u.instant stamp.toNat) u
    let v := fireSource 33 (32 * u.now) u.now u
    if v.on TL_STATUS_DELAY_VALID = false then v.flagAlways TL_STATUS_SYNC_NO_DELAY 97
    else if tlActive v = true then stepRefused (v.setI TL_SYNC_ERR (satI 32 c))
    else syncStep c v) ∧
  BusRow false 2 .syncCheckRx (fun f stamp u =>
    let c := syncError (frPayload f.toNat) (u.instant stamp.toNat) u
    let v := (fireSource 33 (32 * u.now) u.now u).setI TL_SYNC_ERR (satI 32 c)
    if absI c > v.get TL_CFG_DRIFT_TOL then v.flagAlways TL_STATUS_ALIGN_DRIFT 101 else v)

/-- Timeline captures, trigger pins and the Cycle Angle (R31, R42 to R54), in every state.  A LOAD takes effect 8 ticks and a CAPTURE
1 tick from the write, a pair is captured each second; an accepted edge is stamped and fires its source after its delay; a pin armed
at least 32 ticks ahead pulses at its tick, and one armed later raises PIN_LATE; a real index updates P and is judged against TOL, the
first only starts the tracker, one out of range is not used; a missed one is made up, and fires source 32 at the tick at which the miss
is found (the model's choice, log entry 95); a quadrature edge moves the count; the entry into a window fires its source.  A disabled
pin or tracker takes nothing. -/
def Obligations.EdgesStampPulseAndTrack : Prop :=
  (∀ r s, Privileged r s → exec (.tlLoad r) s = .next (s.later (s.now + 8) .tlLoad)) ∧
  (∀ s, exec .tlCapture s = .next (s.later (s.now + 1) .capture)) ∧
  (∀ s,
    let u := runTo (keyOf s.tl.pairNext rankPair) s
    exec .pairCaptured s = .next (if s.tl.counting = true then
      pairCapture 0 { u with tl := { u.tl with pairNext := u.tl.pairNext + 2000000000 } } else s)) ∧
  (∀ (n : Fin 22) falling stamp s, pinAccepts n (b2n falling) s = true →
    let at_ := ceilDiv (s.instant stamp.toNat) 32 + (if n.val < 16 then 24 else 16) + s.get (TL_PIN_CFG_FILT n)
    let st := fineStamp ((stamp.toNat : Int) - pinComp n s)
    exec (.trigEdge n falling stamp) s = .next (fireSource n st at_ (pinStamp n st (b2n falling) (advanceTo at_ s)))) ∧
  (∀ (n : Fin 22) falling stamp s, pinAccepts n (b2n falling) s = false → exec (.trigEdge n falling stamp) s = .next s) ∧
  (∀ (pin : BitVec 5) s, exec (.tlPinPop pin) s = .next (if pin.toNat < 22 then
    showPin pin.toNat (s.setPin pin.toNat { s.pin pin.toNat with fifo := (s.pin pin.toNat).fifo.drop 1 }) else s)) ∧
  (∀ (n : Fin 22) (at_ : BitVec 64) s,
    let u := s.set (TL_PIN_AT n) at_.toNat
    (pinTimed n u = false → exec (.pinArm n at_) s = .next u) ∧
    (pinTimed n u = true → u.now + 32 ≤ at_.toNat →
      exec (.pinArm n at_) s = .next (u.setPin n { u.pin n with armed := some at_.toNat })) ∧
    (pinTimed n u = true → at_.toNat < u.now + 32 → exec (.pinArm n at_) s =
      .next ((u.setPin n { u.pin n with armed := none }).flagAlways TL_STATUS_PIN_LATE 104))) ∧
  (∀ (n : Fin 22) s, (s.pin n).armed = none → exec (.pinPulse n) s = .next s) ∧
  (∀ (n : Fin 22) s at_, (s.pin n).armed = some at_ →
    let u := advanceTo at_ s
    let st := fineStamp ((32 * at_ : Nat) - pinComp n u)
    let w := if u.get (TL_PIN_CFG_PULSE_W n) = 0 then 256 else u.get (TL_PIN_CFG_PULSE_W n)
    (pinTimed n u = false → exec (.pinPulse n) s = .next (u.setPin n { u.pin n with armed := none })) ∧
    (pinTimed n u = true → ∃ t : State, exec (.pinPulse n) s = .next (t.emit (.pinPulse n st w))
      ∧ t = { u with tl := { u.tl with pins := t.tl.pins } } ∧ (t.pin n).pulse = some (st, w) ∧ (t.pin n).armed = none
      ∧ (t.pin n).fifo = (u.pin n).fifo ∧ ∀ j, j ≠ n.val → t.pin j = u.pin j)) ∧
  (∀ (stamp : BitVec 64) s, caOn s = false ∨ s.get TL_CA_CFG_MODE = 3 → exec (.caIndex stamp) s = .next s) ∧
  (∀ (stamp : BitVec 64) s, caOn s = true → s.get TL_CA_CFG_MODE ≠ 3 →
    let x := s.instant stamp.toNat
    let t := ceilDiv x 32
    let u := advanceTo t s
    let a := u.tl.angle
    let v := (u.set TL_CA_LAST_IDX x).inc TL_CA_INDEX_COUNT
    let m := 8 * x - a.tIdx
    exec (.caIndex stamp) s = .next (
      if a.started = false then
        fireSource 32 (32 * t) t (caRestart (8 * x) t (modAngle (fun a => { a with started := true }) v))
      else if m < 20000 * 256 ∨ m > 2 ^ 36 * 256 then
        (modAngle (fun a => { a with good := 0 }) v).flagAlways TL_CA_STATUS_PERIOD_RANGE 110
      else fireSource 32 (32 * t) t (caUsed (8 * x) m (sgn 16 (angleFine v (8 * x : Nat))) t v))) ∧
  (∀ s, ¬ (caOn s = true ∧ s.tl.angle.started = true ∧ s.tl.angle.pSet = true) → exec .caMissedIndex s = .next s) ∧
  (∀ s, caOn s = true → s.tl.angle.started = true → s.tl.angle.pSet = true →
    let u := runTo (keyOf (max s.now (caMissTick s)) rankMiss) s
    let t := u.now
    let n := u.tl.angle.misses + 1
    let was := if u.tl.angle.changed = t then u.tl.angle.was else angleAt u (t - 1)
    let v := modAngle (fun a =>
      { a with tIdx := a.tIdx + u.get TL_CA_PERIOD, misses := n, good := 0, changed := t, was := was }) (markAngle t u)
    let x := (((v.setB TL_CA_STATUS_COASTING true).setB TL_CA_STATUS_MISSED_INDEX true).incSat TL_CA_MISS_COUNT).event 108
    (caMissAt u = none → exec .caMissedIndex s = .next u) ∧
    (∀ t', caMissAt u = some t' → t < t' → exec .caMissedIndex s = .next u) ∧
    (∀ t', caMissAt u = some t' → t' ≤ t → exec .caMissedIndex s = .next (fireSource 32 (32 * t) t
      (if x.on TL_CA_STATUS_LOCKED && n ≥ max 1 (x.get TL_CA_CFG_MISS_MAX) then caUnlock x else x)))) ∧
  (∀ lead (stamp : BitVec 64) s, ¬ (caOn s = true ∧ s.get TL_CA_CFG_MODE = 2) → exec (.caQuadEdge lead stamp) s = .next s) ∧
  (∀ lead (stamp : BitVec 64) s, caOn s = true → s.get TL_CA_CFG_MODE = 2 →
    let x := s.instant stamp.toNat
    let u := advanceTo (ceilDiv x 32) s
    let d : Int := if lead != u.on TL_CA_CFG_DIR_INV then 1 else -1
    let before := if u.tl.angle.changed = u.now then u.tl.angle.was else angleAt u (u.now - 1)
    exec (.caQuadEdge lead stamp) s = .next (modAngle (fun a => { a with
      count := a.count + d, quadStep := 8 * x - a.quadStamp, quadStamp := 8 * x, changed := u.now, was := before })
      (markAngle u.now u))) ∧
  (∀ (k : Fin 8) (at_ : BitVec 64) s,
    let u := advanceTo at_.toNat s
    let v := angleAt u u.now
    let before := if u.tl.angle.changed = u.now then u.tl.angle.was else angleAt u (u.now - 1)
    exec (.caWindowEntry k at_) s = .next (
      if caOn s = true ∧ angleValid u = true ∧ inWindow u k v = true ∧ inWindow u k before = false then
        fireSource (24 + k) (32 * u.now) u.now u
      else s))

/-- Accesses of a host through BAR0, BAR2 and configuration space (R89, R91, R354, R357 to R367, R369, R372, R382), in every state.
A write request writes its dwords in ascending address order, each as the register or window that it reaches says, and one outside
PF0's space is logged as UNIMPLEMENTED or WIDTH; a read request answers its dwords after every earlier write has been applied;
HOST_SEC_RID takes one write and logs the next; the locks set; a set PART_LOCK refuses the partition map, and else each nibble of it
changes on its own, but one whose resource is in use stays with PART_BUSY; a queue reset returns its descriptors and counts what
they held as dropped (the model's choice, log entry 26), and the fixed queues refuse it; COMMIT takes a reference at the first pass
that begins after it, and a pass sets CRC and, where a reference is set and not suspended and the block was enabled all along,
reports a difference; a Function Level Reset closes the function's sessions.  Through BAR2 a function's MSI-X table is written, a
dword at a time, and a vector unmasked with its pending bit set sends its message; a write of its configuration space sets Bus
Master Enable; the reset of a function clears all three (the places of these registers are the model's choice, log entry 113). -/
def Obligations.HostAccessesReachTheirFields : Prop :=
  (∀ r addr s, exec (.registerWrite r addr []) s = .next s) ∧
  (∀ r (addr : BitVec 26) (be : BitVec 4) (v : Dword) s, r.space ≠ .bar0 →
    let a := addr.toNat - addr.toNat % 4
    let others := s.host.master.filter (· != r.fn.val)
    let masters := if v.getLsbD 2 then r.fn.val :: others else others
    exec (.registerWrite r addr [(be, v)]) s = .next (
      if r.space = .bar2 then (if be = 0xF then bar2Write r.fn a v.toNat s else s)
      else if a = 4 ∧ be.getLsbD 0 = true then { s with host := { s.host with master := masters } }
      else s)) ∧
  (∀ fn a v s, (msixVectors fn).1 ≤ a / 16 → bar2Write fn a v s = s) ∧
  (∀ fn j v s, j < (msixVectors fn).1 →
    let n := (msixVectors fn).2 + j
    bar2Write fn (16 * j) v s = setMsix n { s.msix n with addr := putBits (s.msix n).addr 0 32 (v - v % 4) } s
    ∧ bar2Write fn (16 * j + 4) v s = setMsix n { s.msix n with addr := putBits (s.msix n).addr 32 32 v } s
    ∧ bar2Write fn (16 * j + 8) v s = setMsix n { s.msix n with data := v } s
    ∧ bar2Write fn (16 * j + 12) v s = setMsix n { s.msix n with masked := v.testBit 0 } s) ∧
  (∀ v x s,
    let t := { s with host := { s.host with msix := Tab.put {} s.host.msix v x } }
    setMsix v x s = if x.masked = false ∧ s.host.pba.contains v = true then
        { t with host := { t.host with pba := s.host.pba.filter (· != v) } }.emit (.msix v x.addr x.data)
      else t) ∧
  (∀ r (addr : BitVec 26) (be : BitVec 4) (v : Dword) xs s, r.space = .bar0 →
    let a := addr.toNat - addr.toNat % 4
    let u := match pf0Offset r a with
      | some x => writeDword r be.toNat x v.toNat s
      | none => accessFault r (if be.toNat = 0xF then .unimplemented else .width) true be.toNat (a % 2 ^ 26) v.toNat s
    exec (.registerWrite r addr ((be, v) :: xs)) s = .next (writeRequest r (a + 4) xs u)) ∧
  (∀ r addr bes s,
    let a := addr.toNat - addr.toNat % 4
    let u := applyWrites s
    let x := if r.space = .bar0 then readRequest r a bes u
      else ((List.range bes.length).map fun j => if r.space = .bar2 then bar2Read r.fn (a + 4 * j) u
        else if a + 4 * j = 4 then (if u.host.master.contains r.fn.val then 4 else 0) else 0, u)
    exec (.loRead r addr bes) s =
      .next (x.2.emit (.completion r.fn.val r.rid.toNat (x.1.foldr (fun d n => d + 2 ^ 32 * n) 0)))) ∧
  (∀ r (rid : BitVec 16) s, Privileged r s →
    let t := (s.set HOST_SEC_RID_RID rid.toNat).setB HOST_SEC_RID_VALID true
    exec (.secRidWrite r rid) s = .next (
      if s.host.secWritten then accessFault r .wonce true 0xF HOST_SEC_RID_RID.dword rid.toNat s
      else { t with host := { t.host with secWritten := true } })) ∧
  (∀ r s, Privileged r s → exec (.partLock r) s = .next (s.setB GLB_LOCK_PART_LOCK true)) ∧
  (∀ r s, Privileged r s → exec (.vecLock r) s = .next (s.setB GLB_LOCK_VEC_LOCK true)) ∧
  (∀ r m (j : Fin 128) (v : Dword) s, Privileged r s →
    let f := partFld m j
    let nibbleWrite := fun (s : State) (k : Nat) =>
      let old := bits (s.get f) (4 * k) 4
      let new_ := bits v.toNat (4 * k) 4
      let t := s.set f (putBits (s.get f) (4 * k) 4 new_)
      if new_ = old then s
      else if partBusy m (8 * j + k) s = true then s.flagAlways GLB_STATUS_PART_BUSY 1
      else if m = .tun then audit audPartChange 0xFF (8 * j + k) new_ t else t
    exec (.partWrite r m j v) s = .next (
      if s.on GLB_LOCK_PART_LOCK = true then accessFault r .locked true 0xF f.dword v.toNat s
      else (List.range 8).foldl nibbleWrite s)) ∧
  (∀ r s, Privileged r s →
    let q := qmSel (reqId r) s
    let n := (s.queue q).items.foldl (fun n it => n + it.records) 0
    let t := s.setQueue q { s.queue q with items := [], dropped := (s.queue q).dropped + n, nextSeq := 0 }
    let u := { t with exports := t.exports.map fun (e : Nat × Export) =>
      if e.2.queue = q then (e.1, { e.2 with done := 0 }) else e }
    exec (.queueReset r) s = .next (if q < 0x4000 then s.setB QM_STATUS_Q_FIXED true
      else ((u.inc (QM_Q_DROPS q) n).giveBack q (s.queue q).items.length).showQueue q)) ∧
  (∀ r b s, Privileged r s → exec (.cfgCrcCommit r b) s = .next (s.setCrc b { s.crcOf b with
    commit := if (s.crcOf b).commit = 0 then 1 else if (s.crcOf b).commit = 2 then 3 else (s.crcOf b).commit })) ∧
  (∀ b s,
    let r := crcRegs b
    let t := s.set r.crc (crcOfBlock b s)
    let x := t.crcOf b
    let u := t.setCrc b { x with commit := if x.commit = 1 ∨ x.commit = 3 then 2 else 0, began := t.on r.en }
    let w := if 2 ≤ x.commit then
      (u.set r.ref (crcOfBlock b s)).setCrc b { (u.set r.ref (crcOfBlock b s)).crcOf b with refSet := true, suspend := false } else u
    exec (.crcPass b) s = .next (
      if (w.crcOf b).refSet && !(w.crcOf b).suspend && x.began && t.on r.en && crcOfBlock b s != w.get r.ref then crcMismatch b w
      else w)) ∧
  (∀ (fn : Fin 2) s, exec (.flr fn) s = .next ((List.range 12).foldl (fun s m =>
    match (s.mbx m).session with
    | some e => if e.origin = .host fn.val then closeSession m s else s
    | none => s) (functionReset fn s))) ∧
  (∀ fn s,
    let mine := fun v => decide ((msixVectors fn).2 ≤ v ∧ v < (msixVectors fn).2 + (msixVectors fn).1)
    functionReset fn s = { s with host := { s.host with
      msix := s.host.msix.filter fun x => !mine x.1
      pba := s.host.pba.filter fun v => !mine v
      master := s.host.master.filter (· != fn) } })

/-- Checks 3 to 5 of R377 of the command of row c in mailbox m, which meets the Cellar's errors `dma.ecc` (R456): the status it fails
with, or its role, and the state after them.  A command that waits in BUSY has passed them. -/
def admitted (c : Spec) (m : Nat) (dma : Dma) (s : State) : Except (Nat × State) (Nat × State) :=
  let t := dma.ecc.foldl (fun s e => cellarError e s) s
  if t.host.waits.contains m = true then .ok ((t.mbx m).role, t)
  else if stationOk m c t = false then .error (stNoSession, t)
  else if tagOk m c t = false then .error (stBadTag, t)
  else match accept m c t with
    | (.error st, u) => .error (st, u)
    | (.ok role, u) => .ok (role, u)

/-- The check that a command of row c fails before its own parameters are looked at, as the status it ends with and the state in which
it ends: the station of its session, its TAG, the session, SEQ or role, its lengths and DMA list, the room for its response, a reserved
bit of its header, or a DMA list of a function whose Bus Master Enable is 0 (R377, R379). -/
def turnedAway (c : Spec) (m : Nat) (dma : Dma) (size : Cmd → State → Nat) (s : State) : Option (Nat × State) :=
  match admitted c m dma s with
  | .error x => some x
  | .ok (role, u) =>
    match layout m role c dma (cmdPayload m u) (cmdFlags m u) with
    | .error st => some (st, u)
    | .ok (x, ds) =>
      if (if dmaTotal ds true = 0 then 4080 else dmaTotal ds true) < size x u then some (stBadLength, u)
      else if cmdFlags m u / 2 ≠ 0 ∨ cmdField m 10 2 u ≠ 0 then some (stBadParam, u)
      else if ds ≠ [] ∧ busMaster (dmaFn m u) u = false then some (stDmaFault, u)
      else none

/-- Mailbox m's command of row c is next and fails none of these checks: x is the command, ds its DMA list, and u the state with the
session's SEQ and last use. -/
def Passes (c : Spec) (m : Nat) (dma : Dma) (size : Cmd → State → Nat) (x : Cmd) (ds : List DmaDesc) (s u : State) : Prop :=
  isNext m c.op s = true ∧ turnedAway c m dma size s = none ∧ ∃ role, admitted c m dma s = .ok (role, u)
    ∧ layout m role c dma (cmdPayload m u) (cmdFlags m u) = .ok (x, ds)

/-- The command passes, and no tile that it names is held (R376): it runs from u, in which it no longer waits. -/
def Takes (c : Spec) (m : Nat) (dma : Dma) (size : Cmd → State → Nat) (x : Cmd) (ds : List DmaDesc) (s u : State) : Prop :=
  ∃ v, Passes c m dma size x ds s v ∧ namedTiles c.op x.ps &&& heldTiles m v = 0
    ∧ u = { v with host := { v.host with waits := v.host.waits.filter (· != m) } }

/-- A command of row c in mailbox m: one that is not next to be taken changes nothing; one that fails a check ends with that status;
one that names a held tile waits in BUSY; any other does what `does` says and is answered (R374 to R377, R379). -/
def Obeys (c : Spec) (m : Nat) (dma : Dma) (size : Cmd → State → Nat) (does : Cmd → State → Reply × State) (s : State)
    (o : Host.Outcome State Fault Refusal) : Prop :=
  (isNext m c.op s = false → o = .next s) ∧
  (∀ st u, isNext m c.op s = true → turnedAway c m dma size s = some (st, u) → o = .next (finish m ⟨st, []⟩ u)) ∧
  (∀ x ds u, Passes c m dma size x ds s u → namedTiles c.op x.ps &&& heldTiles m u ≠ 0 → o = .next (waitBusy m x.role u)) ∧
  (∀ x ds u, Takes c m dma size x ds s u → o = .next (answer m ds dma (does x u).1 (does x u).2))

/-- No room is needed for a response payload. -/
abbrev noSize : Cmd → State → Nat := fun _ _ => 0

/-- A write of n records of the Cellar: CELLAR_TIMEOUT 10 s on where the temperature has left its range under the queued write,
TEMP_INHIBIT where it is out of range from the start, both with WRITE_FAIL, else as `did` says (R386, R464). -/
abbrev inCellar (n : Nat) (u : State) (did : State) : Reply × State :=
  if u.cel.late = true then
    let v := advanceTo (u.now + 20000000000) u
    (⟨stCellarTimeout, []⟩, (({ v with cel := { v.cel with late := false } }).setB CEL_STATUS_WRITE_FAIL true).event 80)
  else if cellarWarm u = true then (⟨stOk, []⟩, celWrote n did)
  else (⟨stTempInhibit, []⟩, (u.setB CEL_STATUS_WRITE_FAIL true).event 80)

/-- A refusal with a status. -/
abbrev no (st : Nat) (u : State) : Reply × State := (⟨st, []⟩, u)

/-- A command that ends OK without a response payload. -/
abbrev ok (t : State) : Reply × State := (⟨stOk, []⟩, t)

/-- Doorbells, sessions and keys (R373 to R386), in every state.  A RING posts the command of a mailbox that is neither POSTED nor
BUSY, and is refused on another; the mailboxes of management frames refuse it.  A command that is next either fails one of checks 1
to 6, or waits in BUSY for a tile that it names and another command holds, or is taken.  A nonce is given for a role and kept for 10
s; a session is opened by the right MAC over it and closes on command, on expiry or with a failure counted; a lockout ends; the
keys, the identity, ECHO; a Cellar write that has waited ends.  How a frame's session is bound to its station, that a stale nonce is
used up, and what a role without a key does are the model's choices (log entries 54 to 56, 84). -/
def Obligations.MailboxSessionsOpenAndClose : Prop :=
  (∀ r (m : Fin 16) s, (4 ≤ m.val ∧ m.val < 12) ∨ Privileged r s → exec (.mbxRing r m) s = .next (
    if 12 ≤ m.val ∨ mbState m s = mbPosted ∨ mbState m s = mbBusy then s.flag (MBX_DB_RING_REFUSED m) (880 + m)
    else post m (.host r.fn) s)) ∧
  (∀ c m dma size s, isNext m c.op s = true → turnedAway c m dma size s = none → ∃ x ds u, Passes c m dma size x ds s u) ∧
  (∀ (m : Fin 16) s, (s.mbx m).session = none → exec (.sessionTimeout m) s = .next s) ∧
  (∀ (m : Fin 16) s e, (s.mbx m).session = some e →
    let u := advanceTo (s.now + (e.at_ + 7200000000000 - s.up)) s
    exec (.sessionTimeout m) s = .next ((u.setMbx m { u.mbx m with session := none }).setB (MBX_DB_SESSION_OPEN m) false)) ∧
  (∀ (m : Fin 16) s, (s.mbx m).lockEnd = none → exec (.lockoutExpiry m) s = .next s) ∧
  (∀ (m : Fin 16) s t, (s.mbx m).lockEnd = some t →
    let u := advanceTo (s.now + (t - s.up)) s
    exec (.lockoutExpiry m) s = .next ((u.setMbx m { u.mbx m with lockEnd := none }).setB (MBX_DB_LOCKOUT m) false)) ∧
  (∀ (m : Fin 16) dma s, Obeys (coreSpec 0x0001) m dma (fun _ _ => 32) (fun _ u => (⟨stOk, infoBytes u⟩, u)) s
    (exec (.getInfo m dma) s)) ∧
  (∀ (m : Fin 16) dma s, Obeys (coreSpec 0x0002) m dma (fun _ _ => 52) (fun x u =>
    let r := le x.ps 0 1
    let n := freeBytes 32 u
    let v := n.2.setMbx m { n.2.mbx m with nonce := some ⟨n.1, r, n.2.up⟩ }
    if 3 < r ∨ le x.ps 1 3 ≠ 0 then no stBadParam u
    else if lockedOut m u = true then no stLockedOut u
    else match roleKey r v with
      | some k => (⟨stOk, n.1 ++ k.salt ++ toBytes 4 k.iter⟩, v)
      | none => (⟨stOk, n.1 ++ (freeBytes 20 v).1⟩, (freeBytes 20 v).2)) s (exec (.getNonce m dma) s)) ∧
  (∀ (m : Fin 16) dma s, Obeys (coreSpec 0x0003) m dma (fun _ _ => 4) (fun x u =>
    let r := le x.ps 0 1
    let v := u.setMbx m { u.mbx m with nonce := none }
    let failed := (⟨stAuthFail, []⟩, countFail m v)
    if 3 < r ∨ le x.ps 1 3 ≠ 0 then no stBadParam u
    else if lockedOut m u = true then no stLockedOut u
    else match nonceFor m r u with
      | none => no stNonceStale v
      | some n => match roleKey r v with
        | none => failed
        | some k =>
          let tag := Config.freeValue v.fresh.1 % 65535 + 1
          let w := v.fresh.2
          let t := w.setMbx m { w.mbx m with session := some ⟨tag, r, 0, w.up, (w.mbx m).origin, k.v, n⟩, fails := 0 }
          if roleOpen r v = true ∧ slice x.ps 4 32 = hmac k.v (n ++ [BitVec.ofNat 8 r]) then
            (⟨stOk, toBytes 2 tag ++ toBytes 2 0⟩, t.setB (MBX_DB_SESSION_OPEN m) true)
          else failed) s (exec (.openSession m dma) s)) ∧
  (∀ (m : Fin 16) dma s, Obeys (coreSpec 0x0004) m dma noSize (fun _ u =>
    ok ((u.setMbx m { u.mbx m with session := none }).setB (MBX_DB_SESSION_OPEN m) false)) s (exec (.closeSession m dma) s)) ∧
  (∀ (m : Fin 16) dma s, Obeys (coreSpec 0x0005) m dma noSize (fun x u =>
    let r := le x.ps 0 1
    let keys := Tab.list u.cel.roles r ⟨slice x.ps 4 32, slice x.ps 36 16, le x.ps 52 4⟩
    if x.role ≠ max r 1 ∧ r ≤ 3 then no stRoleDenied u
    else if 3 < r ∨ le x.ps 1 3 ≠ 0 ∨ le x.ps 52 4 < 10000 then no stBadParam u
    else inCellar 1 u { u with cel := { u.cel with roles := keys, lost := u.cel.lost.filter (· != r) } }) s (exec (.setKey m dma) s)) ∧
  (∀ (m : Fin 16) dma s, Obeys (coreSpec 0x0010) m dma (fun c _ => c.ps.length) (fun x u => (⟨stOk, x.ps⟩, u)) s
    (exec (.echo m dma) s)) ∧
  (∀ (m : Fin 16) dma s, Obeys (coreSpec 0x0504) m dma noSize (fun x u =>
    let rid := le x.ps 0 2
    if 1 < le x.ps 2 1 ∨ le x.ps 3 1 ≠ 0 then no stBadParam u
    else if u.host.secWritten = true then no stStateConflict u
    else if le x.ps 2 1 = 0 then ok (secRidWrite supervisor rid u)
    else inCellar 1 u (secRidWrite supervisor rid { u with cel := { u.cel with secRid := some rid } })) s
    (exec (.setSecRid m dma) s)) ∧
  (∀ q s, isNext q.m (cmdOp q.m s) s = false ∨ cellarWarm s = true → exec (.cellarTimeout q) s = .next s) ∧
  (∀ q s t, isNext q.m (cmdOp q.m s) s = true → cellarWarm s = false →
    cellarCommand q.m q.dma { s with cel := { s.cel with late := true } } = .next t →
    exec (.cellarTimeout q) s = .next { t with cel := { t.cel with late := false } })

/-- The load commands (R20, R62, R131, R153, R177, R180, R264, R283, R296, R379, R386), in every state: each checks its target and
range, wants the sequencer IDLE or the engine disabled where the memory is theirs, stores the whole units of its data in the memory
that it names, and answers OK, or DMA_FAULT when its data ended early.  A LOAD_PROGRAM waits while both host paths are lost (the
model's choice, log entry 107).  LOAD_RECIPE loads every masked Tun; where all fail, it ends with the status of the lowest, and
STORE_RECIPE keeps an image with the patches behind it (the model's choices, log entry 35). -/
def Obligations.LoadCommandsFillTheMemories : Prop :=
  ∀ (m : Fin 16) dma s,
    let stored := fun (x : Cmd) (t : State) => ((⟨if x.short then stDmaFault else stOk, []⟩, t) : Reply × State)
    let whole := fun (n : Nat) (x : Cmd) => x.data.take (x.data.length / n * n)
    (hostPath s = false → exec (.loadProgram m dma) s = .next s) ∧
    (hostPath s = true → Obeys (coreSpec 0x0100) m dma noSize (fun x u =>
      let k := le x.ps 0 2
      if 512 ≤ k ∨ le x.ps 2 2 ≠ 0 ∨ 8192 < le x.ps 4 4 + le x.ps 8 4 then no stBadParam u
      else if seqState k u ≠ stIdle then no stStateConflict u
      else stored x (u.setBytes (instrStoreBase + 0x10000 * k + 8 * le x.ps 4 4) (whole 8 x))) s (exec (.loadProgram m dma) s)) ∧
    Obeys (coreSpec 0x0101) m dma noSize (fun x u =>
      if 64 ≤ le x.ps 0 2 ∨ le x.ps 2 2 ≠ 0 ∨ 262144 < le x.ps 4 4 + le x.ps 8 4 then no stBadParam u
      else stored x (u.setBytes (sampleBase + 0x100000 * le x.ps 0 2 + 4 * le x.ps 4 4) (whole 4 x))) s
      (exec (.loadSamples m dma) s) ∧
    Obeys (coreSpec 0x0102) m dma noSize (fun x u =>
      if 131072 < le x.ps 0 4 + le x.ps 4 4 then no stBadParam u
      else stored x (superWrite (0x1100000 + 16 * le x.ps 0 4) ((whole 16 x).length / 4) (whole 16 x) u)) s
      (exec (.loadDescriptors m dma) s) ∧
    Obeys (coreSpec 0x0103) m dma noSize (fun x u =>
      if 1024 ≤ le x.ps 0 2 ∨ le x.ps 2 2 ≠ 0 ∨ 0x2200 < le x.ps 4 4 + le x.ps 8 4 ∨ 0x2200 ≤ le x.ps 4 4 then no stBadParam u
      else stored x (superBytes (0x2000000 + 0x4000 * le x.ps 0 2 + le x.ps 4 4) x.data u)) s (exec (.loadKernel m dma) s) ∧
    Obeys (coreSpec 0x0104) m dma noSize (fun x u =>
      if 524288 < le x.ps 0 4 + le x.ps 4 4 then no stBadParam u
      else stored x (superWrite (0x1600000 + 4 * le x.ps 0 4) ((whole 4 x).length / 4) (whole 4 x) u)) s
      (exec (.loadDecision m dma) s) ∧
    Obeys (coreSpec 0x0105) m dma noSize (fun x u =>
      let a := le x.ps 0 1
      let prog := le x.ps 1 1
      if 8 ≤ a ∨ 1 < prog ∨ le x.ps 2 2 ≠ 0 ∨ (if prog = 1 then 16384 else 65536) < le x.ps 4 4 + le x.ps 8 4 then no stBadParam u
      else if prog = 1 ∧ u.on (ANA_CTRL_EN a) = true then no stStateConflict u
      else stored x (superWrite (0x3000000 + 0x80000 * a + 0x40000 * prog + 4 * le x.ps 4 4) ((whole 4 x).length / 4) (whole 4 x)
        u)) s (exec (.loadAnalysis m dma) s) ∧
    Obeys (coreSpec 0x0106) m dma (fun _ _ => 128) (fun x u =>
      let r := recipeEach (le x.ps 0 8) x.data 64 u
      let mine := (setBits 64 (le x.ps 0 8)).map fun t => r.1.reverse.getD t 0
      if x.short then no stDmaFault u
      else if mine.all (· == 0) then (⟨stOk, r.1.reverse.flatMap (toBytes 2)⟩, r.2)
      else if mine.any (· == 0) then (⟨stPartial, r.1.reverse.flatMap (toBytes 2)⟩, r.2)
      else (⟨mine.headD 0, []⟩, r.2)) s (exec (.loadRecipe m dma) s) ∧
    (∀ mask c t u, recipeEach mask c 0 u = ([], u) ∧
      recipeEach mask c (t + 1) u =
        if mask.testBit t then
          ((recipeLoad t c (recipeEach mask c t u).2).1 :: (recipeEach mask c t u).1, (recipeLoad t c (recipeEach mask c t u).2).2)
        else (0 :: (recipeEach mask c t u).1, (recipeEach mask c t u).2)) ∧
    Obeys (coreSpec 0x0107) m dma noSize (fun x u =>
      let kept := if cnKind x.data = 0 then [x.data] else u.cel.recipes ++ [x.data]
      if x.short then no stDmaFault u
      else if recipeRecords x.data = none ∨ cnKind x.data = 2 then no 0x0021 u
      else if 0x200000 < recipeBytes kept then no stBadParam u
      else inCellar 1 u { u with cel := { u.cel with recipes := kept } }) s (exec (.storeRecipe m dma) s)

/-- Register, telemetry, export, Park and fence commands (R196, R197, R227, R230, R231, R386 to R389, R475 to R477), in every state.
The Supervisor reads and writes dwords in the order of the payload, an Operator not those barred to it; COMMIT_CRC ends with the
references set; SNAPSHOT, POOL_AUDIT and SEQ_STATE change nothing; a bound export writes one slot and advances PROD while its ring
has room; PARK and RELEASE act on the ports named; FENCE stays BUSY until the tile's supplies are off, after the last PARK_DONE or 2
s, and UNFENCE lifts it once its rails are good, but not while its cause stands.  The log of an offset that is no dword, an export's
order and the waits of FENCE and UNFENCE are the model's choices (log entries 54, 58, 59, 72, 89). -/
def Obligations.TelemetryExportAndFenceCommands : Prop :=
  (∀ (m : Fin 16) dma s,
    Obeys (coreSpec 0x0200) m dma (fun c _ => 4 * le c.ps 0 4) (fun x u =>
      let r := superReads (listed x 4 0) (applyWrites u)
      if le x.ps 0 4 = 0 ∨ 1019 < le x.ps 0 4 then no stBadParam u else (⟨stOk, r.1⟩, r.2)) s (exec (.regRead m dma) s) ∧
    Obeys (coreSpec 0x0201) m dma noSize (fun x u =>
      if x.role = 0 ∧ (listed x 8 0).any operatorBarred = true then no stRoleDenied u
      else if le x.ps 0 4 = 0 ∨ 509 < le x.ps 0 4 then no stBadParam u
      else ok (superWrites ((listed x 8 0).zip (listed x 8 4)) u)) s (exec (.regWrite m dma) s) ∧
    Obeys (coreSpec 0x0202) m dma (fun c _ => 4 * le c.ps 0 4) (fun x u =>
      let bs := (listed x 4 0).filterMap commitBlock
      let v := bs.foldl (fun s b => commitNow b s) u
      if le x.ps 0 4 = 0 ∨ 1019 < le x.ps 0 4 ∨ bs.length ≠ le x.ps 0 4 then no stBadParam u
      else (⟨stOk, bs.flatMap fun b => toBytes 4 (v.get (crcRegs b).ref)⟩, v)) s (exec (.commitCrc m dma) s) ∧
    Obeys (coreSpec 0x0300) m dma (fun c _ => snapshotLength (le c.ps 0 4) (le c.ps 4 4)) (fun x u =>
      if 32 ≤ le x.ps 0 4 ∨ 64 < le x.ps 4 4 then no stBadParam u
      else (⟨stOk, snapshotBytes (le x.ps 0 4) ((List.range (le x.ps 4 4)).map fun k => le x.ps (8 + 2 * k) 2) u⟩, u)) s
      (exec (.snapshot m dma) s) ∧
    Obeys (coreSpec 0x0301) m dma (fun _ _ => 16) (fun _ u =>
      let a := u.get QM_POOL_ALLOC
      let f := u.get QM_POOL_FREE
      let c := countedDescriptors u
      (⟨if a + f = 1048576 ∧ c = a then stOk else stAuditFail, toBytes 4 a ++ toBytes 4 f ++ toBytes 4 c ++ toBytes 4 0⟩, u)) s
      (exec (.poolAudit m dma) s) ∧
    Obeys (coreSpec 0x0302) m dma (fun _ _ => 140) (fun x u =>
      let k := le x.ps 0 2
      if 512 ≤ k ∨ le x.ps 2 2 ≠ 0 then no stBadParam u
      else if seqState k u < 2 then no stStateConflict u
      else (⟨stOk, toBytes 4 (seqState k u) ++ (List.range 17).flatMap fun j => toBytes 8 ((u.seq k).shadow.getD j 0)⟩, u)) s
      (exec (.seqState m dma) s) ∧
    Obeys (coreSpec 0x0400) m dma noSize (fun x u =>
      let e : Export := { queue := le x.ps 0 2, slots := le x.ps 4 4, bytes := le x.ps 8 4, addr := le x.ps 12 8 }
      if exportable e.queue = false ∨ 1007 < le x.ps 2 2 ∨ powerIn 4 16 e.slots = false ∨ powerIn 12 20 e.bytes = false then
        no stBadParam u
      else if exported e.queue u = true ∨ (u.exportOf (le x.ps 2 2)).isSome = true then no stStateConflict u
      else ok { u with exports := Tab.list u.exports (le x.ps 2 2) e }) s (exec (.exportBind m dma) s) ∧
    Obeys (coreSpec 0x0401) m dma noSize (fun x u =>
      let q := le x.ps 0 2
      let kept := u.exports.filter fun e => !(e.2.queue == q && e.2.done == 0)
      let left := kept.map fun (e : Nat × Export) => if e.2.queue = q then (e.1, { e.2 with off := true }) else e
      if exportable q = false ∨ le x.ps 2 2 ≠ 0 then no stBadParam u
      else if exported q u = false then no stStateConflict u
      else ok { u with exports := left }) s (exec (.exportUnbind m dma) s) ∧
    Obeys (coreSpec 0x0500) m dma noSize (fun x u => if portsOk (portItems x) = false then no stBadParam u
      else ok ((portItems x).foldl (fun s p => if p.1 = 0 then parkRfo p.2 6 s.now s else parkZ p.2 6 s.now s) u)) s
      (exec (.park m dma) s) ∧
    Obeys (coreSpec 0x0501) m dma noSize (fun x u => if portsOk (portItems x) = false then no stBadParam u
      else ok ((portItems x).foldl (fun s p => if p.1 = 0 then rfoRelease p.2 s else zRelease p.2 s) u)) s
      (exec (.release m dma) s) ∧
    (isNext m 0x0502 s = false → exec (.fence m dma) s = .next s) ∧
    (∀ st u, isNext m 0x0502 s = true → turnedAway (coreSpec 0x0502) m dma noSize s = some (st, u) →
      exec (.fence m dma) s = .next (finish m ⟨st, []⟩ u)) ∧
    (∀ x ds u, Takes (coreSpec 0x0502) m dma noSize x ds s u →
      let a := le x.ps 0 1
      let v := fenceTile a 1 false u.now u
      let w := { v with host := { v.host with posted := v.host.posted.filter (· != m.val) } }
      exec (.fence m dma) s = .next (
        if 8 ≤ a ∨ le x.ps 1 3 ≠ 0 then finish m ⟨stBadParam, []⟩ u
        else if fenced a u = true then finish m ⟨stOk, []⟩ u
        else if tilePowered a u = false then finish m ⟨stOk, []⟩ v
        else (w.setMbx m { w.mbx m with tile := some a }).set (MBX_DB_STATE m) mbBusy)) ∧
    (∀ x ds u, Passes (coreSpec 0x0502) m dma noSize x ds s u → namedTiles 0x0502 x.ps &&& heldTiles m u ≠ 0 →
      exec (.fence m dma) s = .next (waitBusy m x.role u)) ∧
    (∀ rails stands, Obeys (coreSpec 0x0503) m dma noSize (fun x u =>
      let a := le x.ps 0 1
      if 8 ≤ a ∨ le x.ps 1 3 ≠ 0 then no stBadParam u
      else if fenceStands a stands u = true then no stStateConflict u
      else if rails then ok (liftFence a u)
      else no stStateConflict (advanceTo (u.now + 100000000) u)) s (exec (.unfence m dma rails stands) s))) ∧
  (∀ (k : Fin 1008) cons s,
    (s.exportOf k = none ∨ s.on HOST_CTRL_EN = false ∨ s.on HOST_STATUS_LINK_UP = false → exec (.exportSlotWrite k cons) s = .next s) ∧
    (∀ x, s.exportOf k = some x → exportHead x.queue s = none → exec (.exportSlotWrite k cons) s = .next s) ∧
    (∀ x it, s.exportOf k = some x → exportHead x.queue s = some it → s.on HOST_CTRL_EN = true → s.on HOST_STATUS_LINK_UP = true →
      let rest := it.bytes.drop x.done
      let part := rest.take (x.bytes - 16)
      let prod := (x.prod + 1) % 2 ^ 64
      let more := decide (x.bytes - 16 < rest.length)
      let u := (s.emit (.hostWrite 0 (x.addr + x.bytes * (x.prod % x.slots)) (slotHeader x.queue part.length more it ++ part))).emit
        (.hostWrite 0 (x.addr + x.bytes * x.slots) (toBytes 8 prod))
      let v := (u.popHead x.queue).2
      exec (.exportSlotWrite k cons) s = .next (
        if x.slots ≤ (x.prod + 2 ^ 64 - cons.toNat) % 2 ^ 64 then s
        else if more then { u with exports := Tab.list u.exports k { x with prod := prod, done := x.done + part.length } }
        else if x.off then { v with exports := Tab.drop v.exports k }
        else { v with exports := Tab.list v.exports k { x with prod := prod, done := 0 } }))) ∧
  (∀ (a : Fin 8) s,
    let u := untilParked 1024 a (fenceTick a s + 4000000000) s
    exec (.fencePowerOff a) s = .next (
      if fenced a s = true ∧ fenceCause a s = 1 ∧ tilePowered a s = true then
        rejectAll ((fenceWaiters a (tileOff a u.now u)).foldl
          (fun s m => finish m ⟨stOk, []⟩ (s.setMbx m { s.mbx m with tile := none })) (tileOff a u.now u))
      else s)) ∧
  (∀ a limit s, untilParked 0 a limit s = advanceTo limit s ∧ ∀ n,
    (parkedAll a s = true → untilParked (n + 1) a limit s = s) ∧
    (parkedAll a s = false → (∀ t, nextParkStep a s = some t → t < limit →
      untilParked (n + 1) a limit s = untilParked n a limit (advanceTo t s)) ∧
      ((∀ t, nextParkStep a s = some t → limit ≤ t) → untilParked (n + 1) a limit s = advanceTo limit s)))

/-- Excise commands and the island's events (R393 to R411, R447), in every state.  A report and the log change nothing in the
accounts; an accepted voucher credits its account alone by exactly its amount and leaves its serial as the greatest, committed, and
a refused one is logged; ENFORCE, a key, an image and the seal act on the island and are logged; while the island is down the
commands end EXC_DOWN, and on a CQ-256-S those of the meter end NOT_AVAILABLE; a feed brings every account up to the control die's
totals, the limits follow, and an enforced partition whose limits are 200,000 ticks old holds; a commit waits for the temperature; a
failure, a return and a restart of the island.  The order of these checks, the rhythm of the island's events and the digest of an
empty log are the model's choices (log entries 2, 12, 60, 61). -/
def Obligations.ExciseAccountsFollowTheirCommands : Prop :=
  (∀ v s,
    let n := le v 6 1
    let t := voucherLoad v s
    t.account n = { s.account n with
        loaded := (s.account n).loaded + le v 0x18 8
        balance := (s.account n).balance + le v 0x18 8
        serial := some (le v 0x10 8) }
      ∧ (∀ j, j ≠ n → t.account j = s.account j)
      ∧ (s.exc.up = true → cellarWarm s = true → t.exc.saved = t.exc.cur)) ∧
  (∀ type_ account x y s, s.exc.up = true →
    let t := audit type_ account x y s
    ∃ e, t.exc.cur.log = (e :: s.exc.cur.log).take 1024 ∧ t.exc.cur.nextIndex = s.exc.cur.nextIndex + 1
      ∧ e.index = s.exc.cur.nextIndex ∧ e.tick = s.now ∧ e.nt = s.get NT_NOW / 2 ^ 32 ∧ e.wraps = s.get NT_WRAPS
      ∧ e.type_ = type_ ∧ e.account = account ∧ e.arg0 = x % 2 ^ 64 ∧ e.arg1 = y % 2 ^ 64
      ∧ (∀ l rest, s.exc.cur.log = l :: rest → e.chain = (sha384 l.bytes).take 20)
      ∧ (s.exc.cur.log = [] → e.chain = List.replicate 20 0) ∧ ∀ j, t.account j = s.account j) ∧
  (∀ (m : Fin 16) dma s,
    let island := fun (u : State) (r : Reply × State) => if islandUp u = true then r else no 0x0045 u
    let meter := fun (u : State) (r : Reply × State) => island u (if metered u = true then r else no stNotAvailable u)
    Obeys (exciseSpec 0x0600) m dma (fun c _ => 0xC0 + 72 * popcount 16 (le c.ps 0 2) + 96) (fun x u =>
      if le x.ps 2 2 ≠ 0 then no stBadParam u
      else island u (
        let last := match u.exc.cur.log with
          | e :: _ => (sha384 e.bytes, u)
          | [] => freeBytes 48 u
        let body := reportBody (le x.ps 0 2) (slice x.ps 4 32) last.1 last.2
        (⟨stOk, body ++ (Config.reportSign (sha384 body)).toList⟩, last.2))) s (exec (.excReport m dma) s) ∧
    Obeys (exciseSpec 0x0601) m dma (fun c s => 64 * (logEntries (le c.ps 0 8) (le c.ps 8 4) s).length) (fun x u =>
      if le x.ps 8 4 = 0 ∨ 60 < le x.ps 8 4 then no stBadParam u
      else island u (⟨stOk, (logEntries (le x.ps 0 8) (le x.ps 8 4) u).flatMap AuditEntry.bytes⟩, u)) s
      (exec (.excLogRead m dma) s) ∧
    Obeys (exciseSpec 0x0602) m dma noSize (fun x u =>
      let st := voucherCheck x.ps u
      let who := if le x.ps 6 1 ≤ 15 then le x.ps 6 1 else 0xFF
      meter u (if st = 0 then inCellar 1 u (voucherLoad x.ps u)
        else (⟨st, []⟩, (audit audVoucherRefused who (le x.ps 0x10 8) st u).event 72))) s (exec (.excLoadVoucher m dma) s) ∧
    Obeys (exciseSpec 0x0603) m dma noSize (fun x u =>
      let old := u.exc.cur.enforce
      let new_ := if le x.ps 2 1 = 1 then old ||| le x.ps 0 2 else old &&& (0xFFFF ^^^ le x.ps 0 2)
      if 1 < le x.ps 2 1 ∨ le x.ps 3 1 ≠ 0 then no stBadParam u
      else meter u (ok (
        if new_ = old then u else audit audEnforce 0xFF new_ old (u.modIsland fun d => { d with enforce := new_ })))) s
      (exec (.excEnforce m dma) s) ∧
    Obeys (exciseSpec 0x0604) m dma noSize (fun x u =>
      let slot := le x.ps 0 1
      let key := slice x.ps 4 97
      if 3 < slot ∨ le x.ps 1 3 ≠ 0 ∨ le x.ps 101 3 ≠ 0 then no stBadParam u
      else meter u (inCellar 1 u (islandCommit (audit audVoucherKey 0xFF slot (le (keyId key) 0 8)
        (u.modIsland fun d => { d with keys := Tab.list d.keys slot key }))))) s (exec (.excSetVoucherKey m dma) s) ∧
    Obeys (exciseSpec 0x0605) m dma noSize (fun x u =>
      if x.short then no stDmaFault u
      else island u (if exciseCheck x.data = 0 then inCellar 1 u (exciseLoad x.data u) else no (exciseCheck x.data) u)) s
      (exec (.excUpdate m dma) s) ∧
    Obeys (exciseSpec 0x0606) m dma noSize (fun x u =>
      let digest := sha384 (toBytes 8 (u.get GLB_UID) ++ sealId u ++ toBytes 8 u.exc.cur.breaks)
      let v := u.modIsland fun d => { d with sealed := true }
      meter u (
        if x.ps.take 48 ≠ sealId u then no 0x0044 u
        else if ecdsaVerify Config.sealRoot.toList digest (slice x.ps 48 96) = true then
          inCellar 1 u (islandCommit ((audit audSealed 0xFF v.exc.cur.breaks (sealWord v) v).event 74))
        else no 0x0023 u)) s (exec (.excSeal m dma) s) ∧
    Obeys (exciseSpec 0x0607) m dma (fun _ _ => 4 + 272 * (Config.reportIssuers.val + 1)) (fun _ u =>
      island u (⟨stOk, reportChain u⟩, u)) s
      (exec (.excGetCert m dma) s)) ∧
  (∀ s,
    let u := advanceTo (s.now + ((s.exc.fedAt / 2000 + 1) * 2000 - s.up)) s
    exec .exciseFeed s = .next (islandFeed false { u with exc := { u.exc with fedAt := u.up } })) ∧
  (∀ s,
    let u := advanceTo (s.now + ((s.exc.limitAt / 2000 + 1) * 2000 - s.up)) s
    exec .limitFeed s = .next (limitFeed { u with exc := { u.exc with limitAt := u.up } })) ∧
  (∀ s, lastLimit s = none → exec .limitStale s = .next s) ∧
  (∀ s t, lastLimit s = some t → exec .limitStale s = .next (advanceTo (s.now + (t + 200000 - s.up)) s)
    ∧ ∀ n x, n < 16 → (s.part n).enforced = true → t + 200000 ≤ s.upOf x → creditHeld n x s = true) ∧
  (∀ s, exec .islandCommit s = .next (
    if s.exc.up = false then s
    else if s.on KILN_STATUS_CEL_INHIBIT = true then { s with exc := { s.exc with dirty := true } }
    else { s with exc := { s.exc with saved := s.exc.cur, dirty := false } })) ∧
  (∀ s done,
    let kept := done && cellarWarm s
    exec (.vddExcFail done) s = .next (if s.exc.up = false then s else islandDown { s with exc :=
      { s.exc with up := false, saved := if kept then s.exc.cur else s.exc.saved, dirty := !kept, downAt := s.exc.epoch } })) ∧
  (∀ s, exec .vddExcReturn s = .next (if s.exc.up = true then s
    else if s.exc.dirty = true then ledgerBreak 0xFF 0 0 (islandStart s) else islandStart s)) ∧
  (∀ s, exec .islandRestart s = .next (if s.exc.up = true then
    islandStart (islandDown { s with exc := { s.exc with downAt := s.exc.epoch } }) else s)) ∧
  (∀ s,
    let u := advanceTo (s.now + ((s.exc.viewAt / 2000 + 1) * 2000 - s.up)) s
    exec .excViewRefresh s = .next (excView { u with exc := { u.exc with viewAt := u.up } }))

/-- Lifecycle, keys, firmware, debug port and Park Table (R444 to R452, R457, R458, R460 to R462), in every state.  Ownership moves
BLANK to OWNED with its root and key; FIELD follows OWNED, and RMA FIELD by a signature; a certified key enters its slot and a
revoked one leaves it; a verified Ryvex is written beside the active one; the rollback floor only rises; a signed challenge opens
the debug port, and is used up by it; PARK_WRITE writes both copies.  A state, key, certificate, image or signature that is not the
right one ends the command with its status, and a wrong proof of a role counts towards the lockout.  What the bytes of a certificate
and of a Park Table are where the spec leaves it open is the model's choice (log entries 68, 69). -/
def Obligations.SecurityCommandsMoveTheLifecycle : Prop :=
  (∀ p s, lifecycle (takeOwnership p s) = 1 ∧ (takeOwnership p s).on SEC_STATUS_OWNER_ROOT_SET = true
    ∧ roleKey 1 (takeOwnership p s) = some ⟨slice p 100 32, slice p 132 16, le p 148 4⟩) ∧
  (∀ k cert s, k < 8 → (installKey k cert s).on (SEC_SLOT_VALID k) = true ∧ (emptySlot k s).on (SEC_SLOT_VALID k) = false
    ∧ (installKey k cert s).get (SEC_SLOT_USAGE k) = le cert 6 2 % 2 ^ (SEC_SLOT_USAGE k).width
    ∧ (emptySlot k s).get (SEC_SLOT_USAGE k) = 0) ∧
  ∀ (m : Fin 16) dma s,
    Obeys (secSpec 0x0700) m dma noSize (fun x u =>
      if le x.ps 97 3 ≠ 0 then no stBadParam u
      else if lifecycle u ≠ 0 then no 0x0050 u
      else inCellar 1 u (takeOwnership x.ps u)) s (exec (.secTakeOwnership m dma) s) ∧
    Obeys (secSpec 0x0701) m dma noSize (fun x u =>
      let cert := x.ps.drop 4
      if slotDenied x = true then no stRoleDenied u
      else if slotParams x = false then no stBadParam u
      else if certValid cert u = true ∧ rootOf (le x.ps 0 1) u = some (slice cert 0x80 48) then
        inCellar 1 u (installKey (slotOf x) cert u)
      else no 0x0052 u) s (exec (.secAddKey m dma) s) ∧
    Obeys (secSpec 0x0702) m dma noSize (fun x u =>
      if slotDenied x = true then no stRoleDenied u
      else if slotParams x = false then no stBadParam u
      else if u.on (SEC_SLOT_VALID (slotOf x)) = false then no 0x0054 u
      else inCellar 1 u ((emptySlot (slotOf x) u).flagAlways SEC_STATUS_KEY_CHANGE 66)) s (exec (.secRevokeKey m dma) s) ∧
    Obeys (secSpec 0x0703) m dma noSize (fun _ u =>
      if lifecycle u ≠ 1 then no 0x0050 u else inCellar 1 u ((u.set SEC_STATUS_LIFECYCLE 2).event 64)) s
      (exec (.secSetField m dma) s) ∧
    Obeys (secSpec 0x0704) m dma noSize (fun x u =>
      let digest := sha384 (toBytes 8 (u.get GLB_UID) ++ [0x52, 0x4D, 0x41, 0x21])
      let v := [4, 5, 6, 7].foldl (fun s k => emptySlot k s) u
      let w := { v with cel := { v.cel with roles := Tab.drop (Tab.drop v.cel.roles 0) 1 } }
      if lifecycle u ≠ 2 then no 0x0050 u
      else if signedBy (trustedIds 0 useDebug u) digest x.ps = true then
        inCellar 1 u ((w.set SEC_STATUS_LIFECYCLE 3).event 64)
      else no 0x0023 u) s (exec (.secRma m dma) s) ∧
    Obeys { secSpec 0x0705 with sess := !s.host.recovery } m dma noSize (fun x u =>
      if x.short then no stDmaFault u
      else if ryvexCheck x.data u = 0 then inCellar 2 u (loadFirmware x.data u) else no (ryvexCheck x.data u) u) s
      (exec (.secLoadFw m dma) s) ∧
    Obeys (secSpec 0x0706) m dma (fun _ _ => 4) (fun _ u =>
      let v := max (u.get SEC_FW_MIN) (u.get GLB_FW)
      if u.cel.late = false ∧ cellarWarm u = true then (⟨stOk, toBytes 4 v⟩, celWrote 1 (u.set SEC_FW_MIN v))
      else inCellar 1 u u) s (exec (.secSetRollback m dma) s) ∧
    Obeys (secSpec 0x0707) m dma (fun _ _ => 32) (fun _ u =>
      let r := freeBytes 20 u
      let ch := toBytes 8 (u.get GLB_UID) ++ toBytes 1 (myDev u) ++ toBytes 1 (lifecycle u)
        ++ toBytes 2 (u.get SEC_DEBUG_COUNT) ++ r.1
      (⟨stOk, ch⟩, r.2.setMbx m { r.2.mbx m with challenge := some (ch, u.up) })) s (exec (.secDebugChallenge m dma) s) ∧
    Obeys (secSpec 0x0708) m dma noSize (fun x u =>
      let v := u.setMbx m { u.mbx m with challenge := none }
      let opened := if islandUp v = true then audit audDebugReopen 0xFF x.role 0 v else v
      if le x.ps 0 1 ≠ x.role ∨ le x.ps 1 3 ≠ 0 then no stBadParam u
      else match (u.mbx m).challenge with
        | none => no 0x0053 v
        | some (ch, at_) =>
          if at_ + 120000000000 < v.up then no 0x0053 v
          else if signedBy (trustedIds (if x.role = 3 then 0 else 1) useDebug v) (sha384 (ch ++ toBytes 1 x.role))
            (slice x.ps 4 96) = false then (⟨0x0023, []⟩, countFail m v)
          else if metered v = true ∧ islandUp v = false then no 0x0045 v
          else inCellar 1 opened
            (((opened.set SEC_DEBUG_COUNT (opened.get SEC_DEBUG_COUNT + 1)).setB SEC_STATUS_DEBUG_OPEN true).event 67)) s
      (exec (.secDebugOpen m dma) s) ∧
    Obeys (secSpec 0x0709) m dma noSize (fun x u =>
      let kind := le x.ps 0 1
      if 1 < kind ∨ le x.ps 1 1 ≠ 0 ∨ le x.ps 6 2 ≠ 0
          ∨ (if kind = 0 then 288 else 768) < le x.ps 2 2 + (parkEntries x).length
          ∨ (parkEntries x).any (parkReserved kind) = true then no stBadParam u
      else inCellar 2 u (parkWrite kind (le x.ps 2 2) (parkEntries x) u)) s (exec (.parkWrite m dma) s) ∧
    Obeys (secSpec 0x070A) m dma (fun _ _ => 7312) (fun _ u => (⟨stOk, parkTable ((parkCopy u).getD {})⟩, u)) s
      (exec (.parkRead m dma) s)

/-- Calibration (R423 to R429), in every state.  A run is requested of every tile of the mask, but of none where one of them is
fenced; a cancelled run ends after its step; a store keeps the selections; the temperature and the period request runs, the period
once for each run; the next step that is not skipped starts where it may, and a run with none left completes; a step ends with its
outcome or times out; a request that nothing starts becomes stale.  Which tile's step goes first and what a store holds are the
model's choices (log entries 62, 63). -/
def Obligations.CalibrationRunsItsSteps : Prop :=
  (∀ (m : Fin 16) dma s,
    Obeys (calSpec 0x0800) m dma noSize (fun x u =>
      if 1 < le x.ps 1 1 ∨ le x.ps 2 2 ≠ 0 then no stBadParam u
      else if (maskTiles (le x.ps 0 1)).any (fun a => fenced a u) = true then no 0x0070 u
      else ok ((maskTiles (le x.ps 0 1)).foldl (fun s a => calRequest a (if le x.ps 1 1 = 1 then 9 else 1) s.now s) u)) s
      (exec (.calRun m dma) s) ∧
    Obeys (calSpec 0x0801) m dma noSize (fun x u => if le x.ps 1 3 ≠ 0 then no stBadParam u
      else ok ((maskTiles (le x.ps 0 1)).foldl (fun s a =>
        if s.get (CAL_STATE_STATE a) ≠ 2 then s
        else if (s.cal a).step.isSome then s.setCal a { s.cal a with cancel := true }
        else calDrop a s) u)) s (exec (.calCancel m dma) s) ∧
    Obeys (calSpec 0x0802) m dma noSize (fun x u => if le x.ps 1 3 ≠ 0 then no stBadParam u
      else inCellar (maskTiles (le x.ps 0 1)).length u ((maskTiles (le x.ps 0 1)).foldl (fun s a => calStore a s) u)) s
      (exec (.calStore m dma) s)) ∧
  (∀ (a : Fin 8) s, exec (.calTempCheck a) s = .next (
    if s.on CAL_CTRL_EN = true ∧ s.on (CAL_CFG_AUTO_T a) = true ∧ s.on (KILN_TILE_TEMP_VALID a) = true
      ∧ max 1 (s.get (CAL_CFG_CAL_DT a)) < absI (s.getI (KILN_TILE_TEMP_T a) - s.getI (CAL_T_REF a)) then
      calRequest a 3 s.now s else s)) ∧
  (∀ (a : Fin 8) s,
    let u := advanceTo ((s.cal a).lastEnd + s.get (CAL_PERIOD a) * 2000000000) s
    let v := u.setCal a { u.cal a with fired := some (u.cal a).lastEnd }
    exec (.calPeriodTrigger a) s = .next (
      if s.on CAL_CTRL_EN = true ∧ s.on (CAL_CFG_AUTO_P a) = true ∧ s.get (CAL_PERIOD a) ≠ 0
        ∧ (s.cal a).fired ≠ some (s.cal a).lastEnd then calRequest a 2 u.now v else s)) ∧
  (∀ (a : Fin 8) s, s.get (CAL_STATE_STATE a) = 0 ∨ (s.cal a).step ≠ none → exec (.calStepStart a) s = .next s) ∧
  (∀ (a : Fin 8) s, s.get (CAL_STATE_STATE a) ≠ 0 → (s.cal a).step = none →
    let n := calFirst a (s.cal a).next s
    let len := if n = 46 then 0 else stepTicks n
    (calWhen a len s = none → exec (.calStepStart a) s = .next s) ∧
    (∀ t, calWhen a len s = some t →
      let u := advanceTo t s
      let v := u.incSat (CAL_SKIPS a) (calSkips a (u.cal a).next n u)
      exec (.calStepStart a) s = .next (
        if n ≠ 46 then calStart a n t v
        else calFinish a t (if (u.cal a).started then v
          else v.setCal a { u.cal a with temp0 := v.get (KILN_TILE_TEMP_T a) })))) ∧
  (∀ (a : Fin 8) sel bad res s, (s.cal a).step = none →
    exec (.calStepEnd a sel bad res) s = .next s ∧ exec (.calStepTimeout a) s = .next s) ∧
  (∀ (a : Fin 8) sel bad res s st, (s.cal a).step = some st →
    let t := st.at_ + stepTicks st.step
    let u := advanceTo t s
    exec (.calStepEnd a sel bad res) s = .next (calNext a st (max t u.now)
      (calApply a st sel.toNat bad.toNat res.toNat u))) ∧
  (∀ (a : Fin 8) s st, (s.cal a).step = some st →
    let t := st.at_ + 2000 * max 100 (s.get (CAL_STEP_TMO a))
    let u := advanceTo t s
    exec (.calStepTimeout a) s = .next (calNext a st (max t u.now) (calFail a st.step true u))) ∧
  (∀ (a : Fin 8) s, exec (.calStale a) s = .next (if s.get (CAL_STATE_STATE a) = 1 then
    (advanceTo ((s.cal a).reqAt + 2000000 * s.get (CAL_WAIT a)) s).flag (CAL_STATE_CAL_STALE a) (864 + a) else s))

/-- Monitors and bridges (R412 to R422, R429), in every state.  As time passes, an entry fires and requests a conversion, an overrun
flagged, and a conversion begins in its slot; its result gives its code, 0 for a reserved input, with LATE when it started after its
trigger; MON_DIAG computes gain and offset from four codes; a bridge conversion enters the filter and, every NW of them, gives an
output; the excitation is judged against its limits.  Nothing happens with EN = 0, for an entry with no trigger due, or with no
request waiting.  The rounding of quotients, the slots and the first outputs are the model's choices (log entries 3, 64, 65). -/
def Obligations.MonitorsConvertWhenTriggered : Prop :=
  (∀ (m : Fin 16) dma (m1 m2 i1 i2 : BitVec 12) s, Obeys (calSpec 0x0803) m dma (fun _ _ => 8) (fun c u =>
    let x := le c.ps 0 1
    let i := le c.ps 1 1
    let code := fun (v : BitVec 12) => if inputListed x i then v.toInt else 0
    let d := code m2 - code m1
    let g := openQuotient ((d - 3072) * 65536) 3072 u
    let o := openQuotient (code m1 + code m2) 2 g.2
    let isOpen := decide (absI d ≤ 4 * absI (code i2 - code i1))
    if 9 < x ∨ 63 < i ∨ le c.ps 2 2 ≠ 0 then no stBadParam u
    else if x < 8 ∧ fenced x u = true then no 0x0070 u
    else (⟨stOk, toBytes 4 (wrap 32 g.1) ++ toBytes 2 (wrap 16 o.1) ++ toBytes 1 (b2n isOpen) ++ toBytes 1 0⟩, o.2)) s
    (exec (.monDiag m dma m1 m2 i1 i2) s)) ∧
  (∀ (x : Fin 10) (j : Fin 8) s, s.on MON_CTRL_EN = false ∨ monFires x j s = none → exec (.monSeqFire x j) s = .next s) ∧
  (∀ (x : Fin 10) (j : Fin 8) s t, s.on MON_CTRL_EN = true → monFires x j s = some t →
    exec (.monSeqFire x j) s = .next (runTo (keyOf t rankStart) s)) ∧
  (∀ x j t s,
    let u := monTaken x j t s
    let v := u.setMon x { u.mon x with waiting := (u.mon x).waiting.filter (·.1 != j) ++ [(j, t)] }
    doEv (.monFire x j) t s = (if (u.mon x).waiting.any fun w => w.1 == j then
      (v.incSat (MON_OVERRUNS x)).flag (MON_SAR_STATUS_OVERRUN x) 856 else v)) ∧
  (∀ x t s, monNext x s = none → doEv (.monStart x) t s = s) ∧
  (∀ x t s j fire at_, monNext x s = some (j, fire, at_) →
    doEv (.monStart x) t s = s.setMon x { s.mon x with
      waiting := (s.mon x).waiting.filter (·.1 != j), freeAt := at_ + 2000
      begun := (s.mon x).begun ++ [⟨j, fire, at_, s.get (MON_SEQ_INPUT x j)⟩] }) ∧
  (∀ (x : Fin 10) code s, (s.mon x).begun = [] → monNext x s = none → exec (.monConversion x code) s = .next s) ∧
  (∀ (x : Fin 10) (code : BitVec 12) s, (s.mon x).begun ≠ [] ∨ monNext x s ≠ none →
    let u := match (s.mon x).begun, monNext x s with
      | [], some n => runTo (keyOf n.2.2 (rankStart + 1)) s
      | _, _ => s
    ((u.mon x).begun = [] → exec (.monConversion x code) s = .next u) ∧
    (∀ c more, (u.mon x).begun = c :: more →
      let gives := fun (s : State) =>
        let v := s.setMon x { s.mon x with begun := (s.mon x).begun.drop 1 }
        let w := (((v.set (MON_RES_CODE x c.entry) (if inputListed x c.input then code.toNat else 0)).setB
          (MON_RES_VALID x c.entry) true).setB (MON_RES_LATE x c.entry) (decide (c.fire < c.at_)))
        let y := (w.setB (MON_RES_TEST x c.entry) (tdacOn x c.input w)).set (MON_RES_TICK x c.entry) c.at_
        if c.fire < c.at_ then y.flag (MON_SAR_STATUS_LATE x) 856 else y
      exec (.monConversion x code) s = .next (withTick (c.at_ + 2000) gives u))) ∧
  (∀ (n : Fin 8) s, s.on (BRG_CTRL_EN n) = false →
    (∀ code, exec (.brgConversion n code) s = .next s) ∧ ∀ current, exec (.brgExcCheck n current) s = .next s) ∧
  (∀ (n : Fin 8) (code : BitVec 12) s, s.on (BRG_CTRL_EN n) = true →
    let t := brgSlot n s
    let u := advanceTo (t + 2000) s
    let rail := code.toInt == -2048 || code.toInt == 2047
    let suspect := rail || u.on (BRG_STATUS_BROKEN n) || u.on (BRG_STATUS_EXC_FAULT n) || tdacOn (8 + n / 4) (n % 4) u
    let b := Tab.get {} u.brgs n
    let nw := brgNw n u
    let c := { b with codes := ((code.toInt, suspect, t) :: b.codes).take (3 * nw - 2), count := b.count + 1 }
    let v := brgBreak n rail { u with brgs := Tab.put {} u.brgs n c }
    exec (.brgConversion n code) s = .next (if (b.count + 1) % nw = 0 then brgOutput n (t + 2000) v else v)) ∧
  (∀ (n : Fin 8) (current : BitVec 16) s, s.on (BRG_CTRL_EN n) = true →
    let x := 8 + n.val / 4
    let r := advanceTo (Tab.get {} s.brgs n).dueAt s
    let t := slotAt x (max r.now (r.mon x).freeAt)
    let d := Tab.get {} r.brgs n
    let u := { r with brgs := Tab.put {} r.brgs n { d with dueAt := d.dueAt + ((t - d.dueAt) / 2000000 + 1) * 2000000 } }
    let v := (advanceTo (t + 2000) (u.setMon x { u.mon x with freeAt := t + 2000 })).set (BRG_EXC_I_I_EXC n) current.toNat
    let b := Tab.get {} v.brgs n
    let mark := b.codes.map fun c => (c.1, c.2.1 || decide (b.passAt ≤ c.2.2), c.2.2)
    let low := decide (current.toNat < v.get (BRG_CFG_I_MIN n))
    let high := decide (25000 < current.toNat)
    let bad := { v with brgs := Tab.put {} v.brgs n { b with codes := mark, off := b.off || high } }.setB (BRG_STATUS_EXC_FAULT n) true
    let w := if low then bad.flagAlways (BRG_STATUS_EXC_OPEN n) (848 + n) else bad
    exec (.brgExcCheck n current) s = .next (
      if low = false ∧ high = false then
        { v with brgs := Tab.put {} v.brgs n { b with passAt := t, off := false } }.setB (BRG_STATUS_EXC_FAULT n) false
      else if high then w.flagAlways (BRG_STATUS_EXC_SHORT n) (848 + n) else w))

/-- The Kiln (R433 to R441), in every state.  Under PORST_L, and before the first lock of the tick PLL, nothing is read.  A
temperature is a good reading between -40 and 150 C and makes its sensor faulty outside it, and the tile, the inhibit, the range and
the Kiln itself are judged after it; a sensor not read for 10 ms stops the Kiln; the level steps every STEP_MS; a rail is out of
range outside its limits, and a fault at the second such reading; a slow process is flagged.  What the spec leaves open of these
judgements is the model's choice (log entry 67). -/
def Obligations.KilnJudgesItsReadings : Prop :=
  (∀ (n : Fin 49) r (q : Fin 24) mv (k : Fin 32) mhz s, kilnClocked s = false → exec (.kilnTempRead n r) s = .next s
    ∧ exec (.kilnRailRead q mv) s = .next s ∧ exec (.kilnProcRead k mhz) s = .next s) ∧
  (∀ (n : Fin 49) (r : BitVec 16) s, kilnClocked s = true →
    let past := (s.sensor n).past
    let a := keepReading n r.toInt (s.set (KILN_TEMP_T n) r.toNat)
    let b := judgeRate n past r.toInt
      (if r.toInt < -640 ∨ 2400 < r.toInt then faultActs n (sensorFault n a) else goodReading n past r.toInt a)
    let c := if n.val < 32 then tileTemp (n / 4) b else b
    exec (.kilnTempRead n r) s = .next (judgeKiln (judgeRange (if n.val = 48 then judgeInhibit c else c)))) ∧
  (∀ (n : Fin 49) s, exec (.kilnReadingStale n) s = .next (if s.host.kilnUp = true ∧ faulty n s = false then
    setKiln false (advanceTo ((s.sensor n).readAt + 20000001) s) else s)) ∧
  (∀ s,
    let u := advanceTo (s.kiln.levelAt + 2000000 * max 1 (s.get KILN_CFG_STEP_MS)) s
    let l := u.get KILN_STATUS_LEVEL
    exec .kilnLevelStep s = .next (
      if s.get KILN_STATUS_LEVEL = 0 then s
      else if throttling u = true then setLevel (if l < levelMax u then l + 1 else l) u
      else if stackFaulty u = true then u else setLevel (l - 1) u)) ∧
  (∀ (r : Fin 24) (mv : BitVec 16) s, kilnClocked s = true →
    let out := decide (mv.toInt < s.getI (KILN_RAIL_LIM_LO r)) || decide (s.getI (KILN_RAIL_LIM_HI r) < mv.toInt)
    let u := (s.set (KILN_RAIL_MV r) mv.toNat).setB (KILN_RAIL_OUT r) out
    let v := { u with kiln := { u.kiln with railOut := u.kiln.railOut.filter (· != r.val) } }
    let w := { u with kiln := { u.kiln with railOut := r.val :: u.kiln.railOut } }
    exec (.kilnRailRead r mv) s = .next (judgeRange (
      if out = false then v
      else if s.on (KILN_RAIL_OUT r) = true ∧ u.kiln.railOut.contains r.val = false then w.flagAlways KILN_STATUS_RAIL_FAULT 38
      else u))) ∧
  (∀ (k : Fin 32) (mhz : BitVec 16) s, kilnClocked s = true →
    let low := s.get KILN_PROC_MIN != 0 && decide (mhz.toNat < s.get KILN_PROC_MIN)
    let u := (s.set (KILN_PROC_MHZ k) mhz.toNat).setB (KILN_PROC_LOW k) low
    exec (.kilnProcRead k mhz) s = .next (if low then u.flagAlways KILN_STATUS_PROC_LOW 39 else u))

/-- The machine as PORST_L leaves it: the final feed goes to the island, the device is reset, and the tiles that are powered hold
(R394, R471); under PORST_L nothing more happens. -/
def underPorst (s : State) : State :=
  if s.host.porst then s
  else (islandFeed true s).host.powered.foldl (fun r a => warmHold (islandFeed true s) a r) (porstReset (islandFeed true s))

/-- Reset, power, clocks, start-up and the loss of a service (R17 to R29, R355, R394, R450, R467 to R473, R486), in every state.
PORST_L resets the device after a final feed and its release begins an epoch; rails, boot, Park Table and clocks in turn bring READY
up; a lost rail, Park logic, reference, lock or Ryvex takes it down; an uncorrectable error in a counter's storage is reported; an
input that repeats what is, and one that PORST_L or the start-up's order does not let act, changes nothing.  When each of these
takes effect is the model's choice (log entries 2, 61, 71). -/
def Obligations.StartUpBringsTheServicesUp : Prop :=
  (∀ s, exec .porstAssert s = .next (underPorst s)) ∧
  (∀ (dev : BitVec 6) s,
    let u := s.set GLB_DEVID_DEV_ID dev.toNat
    let v := { u with
      host := { u.host with porst := false, held := u.host.powered }
      exc := { u.exc with
        epoch := u.exc.epoch + 1
        parts := (List.range 16).map fun n => (n, {
          base := (u.account n).begun, enforced := metered u && (islandNow u).enforce.testBit n }) } }
    exec (.porstRelease dev) s = .next (if s.host.porst = true then audit audPowerUp 0xFF v.exc.epoch 0 v else s)) ∧
  (∀ rail (a : Fin 8) tile up speed width s, s.host.porst = true →
    exec (.pgLost rail) s =
      .next (((railTiles rail).filter fun a => tilePowered a s).foldl (fun s a => tileOff a s.now s) s)
    ∧ exec (.tileRailsGood a) s = .next (if tilePowered a s = true then s else holdTile a s)
    ∧ exec (.parkApplied a) s = .next s
    ∧ exec (.railEnableTimeout tile) s = .next s ∧ exec (.parkLogicLost a) s = .next s ∧ exec .boot s = .next s
    ∧ exec .startupReady s = .next s ∧ exec .ryvexUp s = .next s ∧ exec .pllLocked s = .next s
    ∧ exec (.hostLinkChange up speed width) s = .next s) ∧
  (∀ (a : Fin 8) s, s.host.porst = false →
    let railFence := fun (s : State) (a : Nat) => fenceTile a 4 true s.now s
    exec (.pgLost .core) s = .next (underPorst s)
    ∧ exec (.pgLost .biasP) s = .next ((List.range 8).foldl railFence (s.event 10 20))
    ∧ exec (.pgLost .biasN) s = .next ((List.range 8).foldl railFence (s.event 10 21))
    ∧ exec (.pgLost (.atd a)) s = .next (if tilePowered a s = true then railFence (s.event 10 (4 + a)) a else s)
    ∧ exec (.pgLost (.a18 a)) s = .next (if tilePowered a s = true then railFence (s.event 10 (12 + a)) a else s)
    ∧ exec (.railEnableTimeout none) s = .next (if s.host.ryvexUp = true then
        (List.range 8).foldl railFence { s with host := { s.host with enBias := false, enTiles := [] } } else s)
    ∧ exec (.railEnableTimeout (some a)) s =
        .next (if s.host.ryvexUp = true ∧ tilePowered a s = false then railFence s a else s)) ∧
  (∀ (a : Fin 8) s, s.host.porst = false →
    let u := { s with host := { s.host with parkLost := a.val :: s.host.parkLost.filter (· != a.val) } }
    exec (.tileRailsGood a) s = .next (if tilePowered a s = false then deriveReady ((holdTile a s).event 11 a) else s)
    ∧ exec (.parkApplied a) s = .next (if s.host.ryvexUp = true ∧ s.host.held.contains a.val = true then
        applyPark true a s.now s else s)
    ∧ exec (.parkLogicLost a) s = .next (if tilePowered a s = true then fenceTile a 2 true u.now (deriveReady u) else s)) ∧
  (∀ s, s.host.porst = false →
    let b := bootSlots s
    let u := (List.range 64).foldl (fun s t => recipeStart t s) s
    exec .boot s = .next (if s.tl.counting = true ∧ s.host.ryvexUp = false ∧ s.host.recovery = false then
        rejectAll (if b.host.ryvexUp = true then readCellar (checkExcise b) else b) else s)
    ∧ exec .startupReady s = .next (if s.host.ryvexUp = true ∧ s.host.started = false then
        deriveReady { u with host := { u.host with started := true } } else s)
    ∧ exec .ryvexUp s = .next (if s.host.started = true ∧ s.host.ryvexUp = false ∧ s.host.recovery = false then
        rejectAll (if b.host.ryvexUp = true then deriveReady ((checkExcise b).event 9) else b) else s)) ∧
  (∀ s, checkExcise s = if s.exc.saved.imageBad = true then
      (s.setB SEC_STATUS_EXC_VERIFIED false).flagAlways SEC_STATUS_EXC_IMAGE_BAD 68
    else s.setB SEC_STATUS_EXC_VERIFIED true) ∧
  (∀ s,
    let t := s.event 8
    let u := closeMailboxes { t with host := { t.host with ryvexUp := false } }
    exec .watchdog s = .next (if s.host.ryvexUp = true then serviceLoss u.now u else s)) ∧
  (∀ s,
    let u := { s with host := { s.host with refPresent := false } }
    let v := { s with host := { s.host with refPresent := true } }
    exec .refLost s = .next (if s.host.refPresent = false then s
      else if s.host.porst = true then u else serviceLoss u.now (u.event 4))
    ∧ exec .refOk s = .next (if s.host.refPresent = true then s
      else if s.host.porst = true then v else deriveReady (v.event 5))) ∧
  (∀ s, s.host.porst = false →
    let u := (s.setB TL_STATUS_PLL_LOCKED true).event 7
    exec .pllLocked s = .next (if s.host.refPresent = true ∧ s.on TL_STATUS_PLL_LOCKED = false then
      deriveReady { u with tl := { u.tl with counting := true } } else s)) ∧
  (∀ s,
    let u := (s.setB TL_STATUS_PLL_LOCKED false).event 6
    exec .pllUnlocked s = .next (if s.on TL_STATUS_PLL_LOCKED = true then
      serviceLoss u.now ((u.setB TL_STATUS_ALIGNED false).event 103) else s)) ∧
  (∀ (counter : CounterId) (word : BitVec 64) s,
    let holder := counter.holder.val
    let which := counter.which.toNat
    let u := { s with broken := s.broken ++ [(holder, which)] }
    exec (.ledgerBreak counter word) s = .next (
      if holder = 3 then u.event (768 + which % 32) which
      else if holder = 4 then u.event (816 + which % 32) which
      else if holder = 2 then u.event (760 + Config.ledgerEvent 65536 % 8) which
      else if holder ≠ 0 then u.event (760 + Config.ledgerEvent which % 8) which
      else
        let v := if word.toNat.testBit 63 = true then u else cellarCount (word.toNat % 2 ^ 26) u
        if v.exc.up = true then (audit audLedgerBreak which 2 word.toNat v).event 75 which else v)) ∧
  (∀ up (speed : BitVec 3) (width : BitVec 4) s, s.host.porst = false →
    (up = true → s.tl.counting = false → exec (.hostLinkChange up speed width) s = .next s) ∧
    (up = false ∨ s.tl.counting = true → exec (.hostLinkChange up speed width) s = .next (deriveReady (((s.setB HOST_STATUS_LINK_UP up).set HOST_STATUS_SPEED
      (if up then speed.toNat else 0)).set HOST_STATUS_WIDTH (if up then width.toNat else 0)))))

/-! ### The whole block -/

/-- A step takes the command at the front of the queue and runs it with the rest of the queue behind it. -/
def Obligations.QueueFrontIsExecuted : Prop :=
  ∀ c rest (s : State), step { s with pending := c :: rest } = exec c { s with pending := rest }

/-- The model's choice (log entry 2): on an empty queue one tick passes.  A Timeline that does not count stays; where no waiting effect
comes before the end of the next tick and no pulse or filter forms samples, TL_NOW goes up by one, and network time by NT_INC as
every fourth tick that was counted ends (log entry 11). -/
def Obligations.EmptyQueueLetsOneTickPass : Prop :=
  (∀ (s : State), s.pending = [] → step s = .next (tick s)) ∧
  (∀ (s : State), s.pending = [] → s.tl.counting = false → step s = .next s) ∧
  (∀ (s : State), s.pending = [] → s.tl.counting = true → (∀ k e, nextEv s = some (k, e) → keyOf (s.now + 1) 1 ≤ k) →
    s.lanes = [] → samplesQuiet s.now s = true →
    let u := s.set TL_NOW (s.now + 1)
    step s = .next (if s.up / 4 < s.upOf (s.now + 1) / 4 then setNt (u.get NT_NOW + u.get NT_INC : Nat) u else u))

/-- What the spec says of the machine at reset (R27, R62, R63, R91, R165, R253, R373, R480 and the Reset columns): nothing waits,
the Timeline is 0, every sequencer is IDLE with its slack at its greatest, every descriptor is free, every barrier, mailbox and
engine rests, and no fault is in the log. -/
def Obligations.ResetValuesFollowTheSpec : Prop :=
  State.reset.pending = [] ∧ State.reset.outbox = [] ∧ State.reset.now = 0 ∧ State.reset.tl.counting = false
    ∧ (∀ k, k < 512 → seqState k State.reset = stIdle ∧ State.reset.get (SEQ_SLACK_MIN k) = 0x7FFFFFFF
        ∧ State.reset.get (SEQ_START_LEAD k) = 2000 ∧ State.reset.get (SEQ_SHOT k) = 0 ∧ (State.reset.seq k).stack = []
        ∧ fetchWord k State.reset = 2 ^ 64 - 1)
    ∧ State.reset.get QM_POOL_FREE = 1048576 ∧ State.reset.get QM_POOL_ALLOC = 0
    ∧ (∀ q, q < 65536 → (State.reset.queue q).items = [] ∧ State.reset.get (QM_Q_CFG_LIMIT q) = 4096)
    ∧ (∀ c, c < 1024 → State.reset.get (LAU_GEN c) = 0) ∧ (∀ m, m < 16 → mbState m State.reset = 0)
    ∧ (∀ a, a < 8 → anaState a State.reset = anIdle) ∧ (∀ i, i < 32 → tapState i State.reset = tapIdle)
    ∧ (∀ n, n < 32 → linkState n State.reset = lkDisabled)
    ∧ State.reset.get KILN_CFG_L_MAX = 4 ∧ State.reset.get TL_CA_ALIGN_TIMEOUT = 2000000
    ∧ State.reset.get (KILN_THR_SHUTDOWN 48) = 2000 ∧ State.reset.get HOST_AF_COUNT = 0 ∧ State.reset.host.log = []

/-- The state after reset has the invariant. -/
def Obligations.ResetHasTheInvariant : Prop := Sys2Proof.Machine.Inv State.reset

/-- The invariant holds after every step from a state that has it, whatever command runs (R364, R396, R406, R480). -/
def Obligations.EveryStepKeepsTheInvariant : Prop := ∀ s t, Sys2Proof.Machine.Inv s → step s = .next t → Sys2Proof.Machine.Inv t

/-- No command stops the block, and none undoes what no command may: the canonical form, the commands that wait, what was sent, the
sizes of the fault log and the audit log, the feed epoch and the balance of the accounts (R394, R396, R406, R473, R480). -/
def Obligations.EveryCommandGoesOnAndKeepsTheRecords : Prop := ∀ c s, ∃ t, exec c s = .next t ∧ Evolves s t

/-- One shot charged to an account: a credit when the balance has one, else counted as uncharged (R396). -/
def chargeOne (a : Account) : Account :=
  if 1 ≤ a.balance then { a with begun := a.begun + 1, balance := a.balance - 1 }
  else { a with begun := a.begun + 1, uncharged := a.uncharged + 1 }

/-- R396: each begun shot takes one credit of its account or counts as uncharged; an abort refunds nothing; SHOTS_BEGUN =
CREDIT_LOADED - CREDIT_BALANCE + UNCHARGED in every account after every command; the CQ-256-S accepts no voucher, and an
account without one has UNCHARGED = SHOTS_BEGUN. -/
def Obligations.ChargesKeepTheAccountsBalanced : Prop :=
  (∀ a : Account, a.charge 0 = a) ∧ (∀ (a : Account) k, a.charge (k + 1) = chargeOne (a.charge k)) ∧
  (∀ (a : Account) p x y same, (a.feed p x same).balance = (a.feed p y same).balance
    ∧ (a.feed p x same).uncharged = (a.feed p y same).uncharged) ∧
  (∀ (a : Account) p x same, p.begun = a.lBegun → same = true → (a.feed p x same).balance = a.balance) ∧
  (∀ c (s t : State) n, s.exc.Sound → exec c s = .next t → (t.account n).Balanced) ∧
  (∀ (m : Fin 16) dma x ds s u, Takes (exciseSpec 0x0602) m dma noSize x ds s u → islandUp u = true → metered u = false →
    exec (.excLoadVoucher m dma) s = .next (answer m ds dma ⟨stNotAvailable, []⟩ u)) ∧
  (∀ a : Account, a.Balanced → a.loaded = 0 → a.balance = 0 → a.uncharged = a.begun)

/-! ### Access faults -/

/-- The registers that a report of an access fault may change: the access-fault log and its flag (R368), the pending bits of events,
and, for the copy of the fault log in queue 0xFFFF (R480), the counts of the pool and of that queue. -/
def ReportKey (x : Nat) : Prop :=
  x = HOST_STATUS_ACCESS_FAULT.key ∨ (HOST_AF_COUNT.key ≤ x ∧ x < (HOST_AF_ADDR 16).key)
    ∨ ((GLB_EVT_PEND 0).key ≤ x ∧ x < (GLB_EVT_PEND 32).key) ∨ x = QM_STATUS_POOL_LOW.key ∨ x = QM_STATUS_POOL_EMPTY.key
    ∨ x = QM_POOL_FREE.key
    ∨ x = QM_POOL_ALLOC.key ∨ ((QM_PART_USED 0).key ≤ x ∧ x < (QM_PART_USED 16).key) ∨ x = (QM_Q_STATUS_COUNT 0xFFFF).key
    ∨ x = (QM_Q_STATUS_FULL 0xFFFF).key ∨ x = (QM_Q_DROPS 0xFFFF).key

/-- Of s, only what a report of an access fault writes has changed in t: nothing of any unit and no byte of memory. -/
def OnlyReported (s t : State) : Prop :=
  t = { s with regs := t.regs, outbox := t.outbox, queues := t.queues, host := t.host }
    ∧ t.host = { s.host with
        log := t.host.log, logIndex := t.host.logIndex, logOver := t.host.logOver, logHeld := t.host.logHeld,
        logLost := t.host.logLost, pba := t.host.pba }
    ∧ (∀ q, q ≠ 0xFFFF → t.queue q = s.queue q) ∧ (∀ f : Fld, ¬ ReportKey f.key → t.get f = s.get f)

/-- A command that writes a privileged field, sent by requester r. -/
def WritesPrivileged (r : Req) : Instr → Prop
  | .tlLoad q => q = r | .sendSync q => q = r | .sendCheck q => q = r | .echoStart q => q = r
  | .start q _ => q = r | .groupStart q _ _ => q = r | .stop q _ => q = r | .stopAtShot q _ => q = r | .clear q _ => q = r
  | .seqEnWrite q _ _ => q = r | .tunEnWrite q _ _ => q = r | .qmBarCfgWrite q _ _ => q = r | .queueReset q => q = r
  | .partWrite q _ _ _ => q = r | .partLock q => q = r | .vecLock q => q = r | .secRidWrite q _ => q = r
  | .cfgCrcCommit q _ => q = r | .rfoEnable q _ => q = r | .rfoDisable q _ => q = r | .zpEnable q _ => q = r
  | .zpDisable q _ => q = r | .rfiEnable q _ => q = r | .rfiDisable q _ => q = r | .lauEnable q _ _ => q = r
  | .decWinEnable q _ _ => q = r | .decBaseWrite q _ _ => q = r | .anaEnable q _ => q = r | .anaDisable q _ => q = r
  | .tapEnable q _ => q = r | .tapDisable q _ => q = r | .flvEnable q _ => q = r | .flvDisable q _ => q = r
  | .flvRetrain q _ => q = r | .idleReq q _ => q = r | .prbsInject q _ => q = r | .ntIncWrite q _ => q = r
  | .ntStep q => q = r | .ntLoad q => q = r | .mbxRing q m => q = r ∧ (m.val < 4 ∨ 12 ≤ m.val)
  | _ => False

/-- A requester that is not privileged leaves every privileged field unchanged: whatever it commands, the block is as before, but for
the report of the fault (R360, R361, R368); PF1 is never privileged, nor any requester of the link while VALID = 0. -/
def Obligations.UnprivilegedRequestersChangeNothing : Prop :=
  (∀ r s, isPriv r s = true ↔ (r.sup = true ∨ (r.fn = 0 ∧ s.on HOST_SEC_RID_VALID = true
    ∧ r.rid.toNat = s.get HOST_SEC_RID_RID))) ∧
  (∀ r c s, isPriv r s = false → WritesPrivileged r c → ∃ t, exec c s = .next t ∧ OnlyReported s t)

/-- A partial write is ignored and flagged ACCESS_WIDTH; a write to an unimplemented offset is ignored and flagged UNIMPLEMENTED;
each fault adds one entry to the log at HOST_AF_WR, which advances modulo 16, is counted, and sets the flag, with event 0 when the flag
was clear (R358, R368). -/
def Obligations.AccessFaultsAreLoggedOnly : Prop :=
  (∀ r (addr : BitVec 26) (be : BitVec 4) v s a, r.space = .bar0 → be ≠ 0xF → pf0Offset r (addr.toNat - addr.toNat % 4) = some a →
    exec (.registerWrite r addr [(be, v)]) s = .next (accessFault r .width true be.toNat (a - a % 4) v.toNat s)) ∧
  (∀ r (addr : BitVec 26) v s a, r.space = .bar0 → pf0Offset r (addr.toNat - addr.toNat % 4) = some a → windowAddr (a - a % 4) s = none →
    regPlace (a - a % 4) = none →
    exec (.registerWrite r addr [(0xF, v)]) s = .next (accessFault r .unimplemented true 0xF (a - a % 4) v.toNat s)) ∧
  (∀ r (f : Fin 40960) dw be v s, be ≠ 0xF → ∃ t, exec (.frameTableWrite r f dw be v) s = .next t ∧ OnlyReported s t) ∧
  (∀ r (x : Fin 524288) be v s, be ≠ 0xF → ∃ t, exec (.decTableWrite r x be v) s = .next t ∧ OnlyReported s t) ∧
  (∀ r c write be addr data s,
    let e := s.get HOST_AF_WR
    let t := accessFault r c write be addr data s
    OnlyReported s t ∧ t.get (HOST_AF_ADDR e) = addr % 2 ^ 26 ∧ t.get (HOST_AF_INFO_RID e) = r.rid.toNat
      ∧ t.get (HOST_AF_INFO_FN e) = r.fn.val ∧ t.on (HOST_AF_INFO_SUP e) = r.sup ∧ t.on (HOST_AF_INFO_WRITE e) = write
      ∧ t.get (HOST_AF_INFO_BE e) = be % 16 ∧ t.get (HOST_AF_INFO_CAUSE e) = c.code
      ∧ t.get (HOST_AF_DATA e) = (if write then data % 2 ^ 32 else 0) ∧ t.get (HOST_AF_TICK e) = s.now % 2 ^ 32
      ∧ t.get HOST_AF_WR = (e + 1) % 16 ∧ t.get HOST_AF_COUNT = min (s.get HOST_AF_COUNT + 1) (2 ^ 32 - 1)
      ∧ t.on HOST_STATUS_ACCESS_FAULT = true ∧ (s.on HOST_STATUS_ACCESS_FAULT = false → t.evtPend 0 = true)
      ∧ (∀ j, j < 16 → j ≠ e → t.get (HOST_AF_ADDR j) = s.get (HOST_AF_ADDR j)
          ∧ t.get (HOST_AF_INFO_CAUSE j) = s.get (HOST_AF_INFO_CAUSE j) ∧ t.get (HOST_AF_DATA j) = s.get (HOST_AF_DATA j)))

/-! ### Rules over many commands -/

/-- The sequencer instructions by opcode (R105). -/
def seqRows : List (Nat × (Fin 512 → Instr)) :=
  [(0x00, .nop), (0x01, .halt), (0x02, .yieldCal), (0x08, .wait), (0x09, .waituntil), (0x0A, .alignAngle), (0x0B, .waittrig),
   (0x0C, .sync), (0x10, .play), (0x11, .playz), (0x12, .setbias), (0x13, .rampbias), (0x18, .fset), (0x19, .fshift),
   (0x1A, .freset), (0x1B, .pframe), (0x20, .measure), (0x21, .acq), (0x28, .br), (0x29, .brr)]
  ++ [(0x2A, .loop), (0x2B, .call), (0x2C, .ret), (0x30, .ld), (0x31, .st), (0x38, .add), (0x39, .sub), (0x3A, .and),
   (0x3B, .or), (0x3C, .xor), (0x3D, .shl), (0x3E, .shr), (0x3F, .asr), (0x40, .mov), (0x41, .cmp), (0x42, .mul),
   (0x48, .shotBegin), (0x49, .shotEnd), (0x50, .signal), (0x51, .waitmsg)]

/-- An instruction that image 2.4 executes and whose COND is false retires in 1 cycle and changes nothing that time alone does not
change, but that the program counter moves on and a loop that ends here counts (R99, R116). -/
def Obligations.FalseConditionsOnlyRetire : Prop :=
  (∀ q : Seq, condHolds q 0x0 = true ∧ condHolds q 0x1 = q.z ∧ condHolds q 0x2 = !q.z ∧ condHolds q 0x3 = q.n
    ∧ condHolds q 0x4 = !q.n ∧ condHolds q 0x5 = q.c ∧ condHolds q 0x6 = !q.c ∧ condHolds q 0x7 = q.v ∧ condHolds q 0x8 = !q.v
    ∧ condHolds q 0x9 = (q.c && !q.z) ∧ condHolds q 0xA = (!q.c || q.z) ∧ condHolds q 0xB = decide (q.n = q.v)
    ∧ condHolds q 0xC = decide (q.n ≠ q.v) ∧ condHolds q 0xD = (!q.z && decide (q.n = q.v))
    ∧ condHolds q 0xE = (q.z || decide (q.n ≠ q.v)) ∧ condHolds q 0xF = false) ∧
  (∀ row ∈ seqRows, ∀ (k : Fin 512) s,
    let u := atIssue k s
    atBoundary k u = true → (u.seq k).pcOver = false → issued k s / 2 ^ 56 = row.1 → byRule k row.1 u = true →
    condHolds (u.seq k) (wordBits k s 52 4) = false →
    let x := advanceTo (beginTick k s + 2) u
    ∃ t, exec (row.2 k) s = .next t ∧ Retires k (beginTick k s + 2) id x t ∧ OnlySeq k [SEQ_PC k] x t)

/-- R113: WAIT adds IMM, or g(GS) when REG = 1; WAITUNTIL sets the cursor to the greater of itself and the target of its MODE, and C
when the target was below the cursor, with Z, N and V unchanged; SHOT_T0 is the cursor at the last SHOT_BEGIN's retirement, and
before the first the cursor set by START.  WAIT takes 1 cycle and WAITUNTIL 2. -/
def Obligations.WaitsMoveTheCursorToTheirTarget : Prop :=
  (∀ (k : Fin 512) s, Issues k 0x08 s →
    let u := inTicks k 2 s
    ∃ t, exec (.wait k) s = .next t
      ∧ t.get (SEQ_CURSOR k) = (u.get (SEQ_CURSOR k)
          + (if wordBit k s 49 then greg k (wordBits k s 32 4) u else wordBits k s 0 32)) % 2 ^ 64
      ∧ Retires k (beginTick k s + 2) id u t ∧ OnlySeq k [SEQ_PC k, SEQ_CURSOR k] u t) ∧
  (∀ (k : Fin 512) s x, Issues k 0x09 s →
    let u := inTicks k 4 s
    let g := wordBits k s 32 4
    ((wordBits k s 46 2 = 0 ∧ g % 2 = 0 ∧ x = greg k g u + 2 ^ 32 * greg k (g + 1) u)
      ∨ (wordBits k s 46 2 = 1 ∧ x = (u.seq k).shotT0 + wordBits k s 0 32)
      ∨ (wordBits k s 46 2 = 2 ∧ x = (u.seq k).shotT0 + greg k g u)) →
    ∃ t, exec (.waituntil k) s = .next t ∧ t.get (SEQ_CURSOR k) = max (u.get (SEQ_CURSOR k)) x % 2 ^ 64
      ∧ Retires k (beginTick k s + 4) (fun q => { q with c := decide (x < u.get (SEQ_CURSOR k)) }) u t
      ∧ OnlySeq k [SEQ_PC k, SEQ_CURSOR k] u t) ∧
  (∀ (k : Fin 512) s, Issues k 0x09 s → wordBits k s 46 2 = 3 ∨ (wordBits k s 46 2 = 0 ∧ wordBits k s 32 4 % 2 = 1) →
    exec (.waituntil k) s = .next (seqFault k 0x20 0x09 2 (beginTick k s + 4) (inTicks k 4 s))) ∧
  (∀ (k : Fin 512) s, Issues k 0x48 s →
    let u := inTicks k 4 s
    (u.seq k).micro.active = false → (u.seq k).shotOpen = false → (u.seq k).stopNext = false → kilnWait u = 0 →
    ringHeld k u = false → creditHolds k (seqPart k u) (beginTick k s + 4) u = false →
    ∃ t, exec (.shotBegin k) s = .next t ∧ (t.seq k).shotT0 = t.get (SEQ_CURSOR k) ∧ (t.seq k).shotOpen = true
      ∧ (t.seq k).readyAt = beginTick k s + 8) ∧
  (∀ r (k : Fin 512) s, Privileged r s → startOk k s = true → startLate k s.now s = false →
    ∃ t, exec (.start r k) s = .next t ∧ (t.seq k).shotT0 = t.get (SEQ_CURSOR k))

/-- The checks of an entry's write in their order (R68 to R70, R73, R75, R80, R88, R102, R103), on a SETBIAS: a queue that is full
as its writing cycle begins, or as it ends, takes the trap TEQ_FULL; else, as that cycle ends, an unbound target, an entry before
the last of its queue, a tick too far ahead, a tick nearer than the minimum lead, a fenced tile and another's target fault; only the
last three reach the deadline check that notes the slack; and a write that passes joins its queue.  That the room is tested at both
ends of the cycle is the model's choice (log entry 29). -/
def Obligations.EntriesAreCheckedBeforeTheyAreWritten : Prop :=
  ∀ (k : Fin 512) s, Issues k 0x12 s → targetOk .zb (arg k s 36 12 50 12) = true →
    let n := arg k s 36 12 50 12
    let w := plainWrite 2 n (arg k s 0 24 49 24 + wordBits k s 34 2 * 2 ^ 24) 0
    let x := inTicks k 4 s
    let tw := beginTick k s + 6
    let u := advanceTo tw x
    let tick := u.get (SEQ_CURSOR k)
    let fault (code : Nat) (u : State) := exec (.setbias k) s = .next (seqFault k code 0x12 3 tw u)
    (∀ j, checkWrite k 2 n 0 tw x = .full j → exec (.setbias k) s = .next (teqFullTrap k 0x12 w j (beginTick k s + 4) x)) ∧
    (∀ j, boundQueue k .zb n x = some j → 16 ≤ (teq k j x).length → checkWrite k 2 n 0 tw x = .full j) ∧
    ((∀ j, checkWrite k 2 n 0 tw x ≠ .full j) →
      (boundQueue k .zb n u = none → fault 0x04 u) ∧
      (∀ j, boundQueue k .zb n u = some j →
        (16 ≤ (teq k j u).length → exec (.setbias k) s = .next (teqFullTrap k 0x12 w j (beginTick k s + 4) u)) ∧
        ((teq k j u).length < 16 → ∀ e, (teq k j u).getLast? = some e →
          tick < e.tick ∨ (tick = e.tick ∧ 0 < e.fine) → fault 0x03 u) ∧
        ((teq k j u).length < 16 → (∀ e, (teq k j u).getLast? = some e → e.tick < tick ∨ (e.tick = tick ∧ e.fine = 0)) →
          (tw + 2 ^ 39 ≤ tick → fault 0x02 u) ∧
          (tick < tw + minLead k .zb n → fault 0x01 (noteSlack k tw u)) ∧
          (tw + minLead k .zb n ≤ tick → tick < tw + 2 ^ 39 → targetFenced .zb n u = true → fault 0x06 (noteSlack k tw u)) ∧
          (tw + minLead k .zb n ≤ tick → tick < tw + 2 ^ 39 → targetFenced .zb n u = false →
            targetPart .zb n u ≠ seqPart k u → fault 0x05 (noteSlack k tw u)) ∧
          (tw + minLead k .zb n ≤ tick → tick < tw + 2 ^ 39 → targetFenced .zb n u = false →
            targetPart .zb n u = seqPart k u →
            ∃ t, exec (.setbias k) s = .next t ∧ teq k j t = teq k j u ++ [biasEntry k s u]))))

/-- R94: a message that SIGNAL appends joins the end of its queue and becomes visible 16 ticks after SIGNAL retires, or with the
message ahead of it if that is later; so visibility never falls along a queue, and WAITMSG finds a queue without a visible message
empty. -/
def Obligations.MessagesBecomeVisibleInOrder : Prop :=
  (∀ (k : Fin 512) s, Issues k 0x50 s →
    let q := wordBits k s 32 16
    let v := if wordBit k s 49 then greg k (wordBits k s 0 4) (atBegin k s) else wordBits k s 0 32
    let at_ := beginTick k s + 6
    let u := inTicks k 6 s
    let old := (u.queue q).items
    0x9800 ≤ q → u.owner q = seqPart k u → proxyOf q u = none → u.on (QM_Q_CTRL_Q_EN q) = true → u.full q = false →
    old.Pairwise (fun x y => x.visible ≤ y.visible) →
    ∃ t it, exec (.signal k) s = .next t ∧ (old ++ [it]) <+: (t.queue q).items
      ∧ (q ≠ 0xFFFF → (t.queue q).items = old ++ [it]) ∧ it.bytes = toBytes 4 v
      ∧ it.visible = max (at_ + 16) ((old.getLast?.map (·.visible)).getD 0)
      ∧ (old ++ [it]).Pairwise (fun x y => x.visible ≤ y.visible)) ∧
  (∀ (k : Fin 512) s, Issues k 0x51 s →
    let q := wordBits k s 32 16
    let arm := inTicks k 4 s
    0x9800 ≤ q → arm.owner q = seqPart k arm → (∀ it ∈ (arm.queue q).items, beginTick k s + 4 < it.visible) →
    exec (.waitmsg k) s = .next (stallSeq k .msg (beginTick k s + 4) arm))

/-- Every descriptor is free or in one queue (R91, and R22: allocated + free = 1,048,576): an append takes one descriptor and a take
gives it back; the queue is first in, first out, and no other queue changes but 0xFFFF, which may receive the fault log. -/
def Obligations.DescriptorsAreFreeOrQueued : Prop :=
  (∀ q it (s : State), s.full q = false → s.get QM_POOL_ALLOC + s.get QM_POOL_FREE = 1048576 →
    let t := s.append q it
    t.get QM_POOL_ALLOC + t.get QM_POOL_FREE = 1048576 ∧ ((s.queue q).items ++ [it]) <+: (t.queue q).items
      ∧ (q ≠ 0xFFFF → (t.queue q).items = (s.queue q).items ++ [it] ∧ t.get QM_POOL_ALLOC ≥ s.get QM_POOL_ALLOC + 1)
      ∧ (∀ j, j ≠ q → j ≠ 0xFFFF → t.queue j = s.queue j)) ∧
  (∀ q (s : State) it rest, (s.queue q).items = it :: rest → 0 < s.get QM_POOL_ALLOC →
    s.get QM_POOL_ALLOC + s.get QM_POOL_FREE = 1048576 →
    let t := (s.popHead q).2
    (s.popHead q).1 = some it ∧ t.get QM_POOL_ALLOC + 1 = s.get QM_POOL_ALLOC ∧ t.get QM_POOL_FREE = s.get QM_POOL_FREE + 1
      ∧ (t.queue q).items = rest ∧ (∀ j, j ≠ q → t.queue j = s.queue j) ∧ (∀ a, t.byte a = s.byte a)) ∧
  (∀ q (s : State), (s.queue q).items = [] → s.popHead q = (none, s))

/-- Registers and memories hold what was last written (R62, R359): a field reads as its value modulo its width, a run of bytes reads
back whole, a little-endian number reads back modulo its size, and everything else reads as before. -/
def Obligations.RegistersAndMemoriesReadAsWritten : Prop :=
  (∀ (s : State) f v, (s.set f v).get f = v % 2 ^ f.width) ∧
  (∀ (s : State) f v (g : Fld), g.key ≠ f.key → (s.set f v).get g = s.get g) ∧
  (∀ (s : State) f v a, (s.set f v).byte a = s.byte a) ∧
  (∀ (s : State) a bs, (s.setBytes a bs).getBytes a bs.length = bs) ∧
  (∀ (s : State) a bs x, x < a ∨ a + bs.length ≤ x → (s.setBytes a bs).byte x = s.byte x) ∧
  (∀ (s : State) a bs (f : Fld), (s.setBytes a bs).get f = s.get f) ∧
  (∀ (s : State) a n v, (s.wr a n v).rd a n = v % 256 ^ n) ∧
  (∀ (s : State) a, s.mem = [] → s.byte a = memDefault a)

/-- R289: e is 9 less than the number of bits below bit 55 that equal it, -9 to 46, and 46 for 0; the shifted sum of a number other
than 0 has bits 55 to 46 equal and bit 45 different, and STS with K = 0 gives it a magnitude of 0.5 to 1.0; LEAD writes e, NORM
writes e and the shifted sum. -/
def Obligations.LeadAndNormNormaliseTheSum : Prop :=
  (∀ x : Int, -2 ^ 55 ≤ x → x < 2 ^ 55 →
    let e := leadExp x
    let n := (e + 9).toNat
    let y : Int := (if 0 ≤ e then x * 2 ^ e.toNat else x / (2 ^ (-e).toNat : Nat))
    e ≤ 46 ∧ -9 ≤ e ∧ n ≤ 55
      ∧ (∀ i, 55 - n ≤ i → i < 55 → (x / 2 ^ i) % 2 = (x / 2 ^ 55) % 2)
      ∧ (n < 55 → (x / 2 ^ (54 - n)) % 2 ≠ (x / 2 ^ 55) % 2)
      ∧ (x = 0 → e = 46)
      ∧ (x ≠ 0 → (2 ^ 45 ≤ y ∧ y < 2 ^ 46) ∨ (-2 ^ 46 ≤ y ∧ y < -2 ^ 45))
      ∧ (x ≠ 0 → 2 ^ 22 ≤ absI (stsValue y 0) ∧ absI (stsValue y 0) ≤ 2 ^ 23)) ∧
  (∀ (a : Fin 8) s,
    let w := engFetch a s
    let x := (engBank a s).getS (bits w 23 1)
    let e := leadExp x
    AnaDoes a 0x0F s .seq (engResult a 2 (.v (bits w 23 3)) e (setEngBank a ((engBank a s).flags e) s)) (exec (.anaLead a) s) ∧
    AnaDoes a 0x0E s .seq (engResult a 2 (.sum (bits w 23 1)) (if 0 ≤ e then x * 2 ^ e.toNat else x / (2 ^ (-e).toNat : Nat))
      (engResult a 2 (.v (bits w 23 3)) e s)) (exec (.anaNorm a) s))

/-- R134, R158: in a routine of microwords, a microword whose UCOND is false takes its cycle and is followed by the next micro-address,
whether or not it has LAST; so is a true one without a jump and without LAST; a sequential step from 0x3FFF faults with UPC_RANGE;
a micro-op closed to owners faults with EXT_VIOLATION, and a marked one without COMMIT with COMMIT_MISSING.  How many microwords one
command runs is the model's choice (log entry 33). -/
def Obligations.MicrowordsFollowTheirCondition : Prop :=
  ∀ (k : Fin 512) s,
    let s1 := atIssue k s
    let t0 := (s1.seq k).readyAt
    let mw := microword k (s1.seq k).micro.upc s1
    let u := advanceTo (if uAtStart (uopOf mw) then t0 else t0 + 2) s1
    let m := (u.seq k).micro
    let cond := uCond (u.seq k) (fetchWord k u) (bits mw 36 4)
    let go (o : State) := exec (.ownerExtension k) s = .next (
      match (o.seq k).abort with
      | some a => advanceTo a.ends o
      | none => o)
    seqState k s1 = stRunning → (s1.seq k).abort = none → (s1.seq k).stall = none → (s1.seq k).micro.active = true →
    m.active = true → (u.seq k).abort = none →
    (cond = false → m.upc < 0x3FFF → go (microRun 1023 k (microGoto k (m.upc + 1) (t0 + 2) u))) ∧
    (cond = false → m.upc = 0x3FFF → go (microFault k 0x41 (t0 + 2) u)) ∧
    (cond = true → 0x3000 ≤ m.upc → uClosed (uopOf mw) = true → go (microFault k 0x43 (t0 + 2) u)) ∧
    (cond = true → m.upc < 0x3000 ∨ uClosed (uopOf mw) = false → uMarkedC (uopOf mw) = true → uCommit mw = false →
      go (microFault k 0x46 (t0 + 2) u)) ∧
    (cond = true → m.upc < 0x3000 ∨ uClosed (uopOf mw) = false →
      (uMarkedC (uopOf mw) = true → uCommit mw = true) → ∀ a b v, uSources k mw (t0 + 2) u = some (a, b) →
      uExec k mw (fetchWord k u) t0 (t0 + 2) a b u = .done v → uLast mw = false → uCommit mw = false →
      (v.seq k).micro.upc = m.upc → m.upc < 0x3FFF → (v.seq k).micro.active = true →
      go (microRun 1023 k (microGoto k (m.upc + 1) ((v.seq k).readyAt + 2) v)))

/-- A loaded trap routine whose first microword, at `vector`, is a UTRET returns in no cycle of its own (R143, R144). -/
abbrev returnsAtOnce (k vector t : Nat) (s : State) : State := if uTretAt k vector s = true then uReturn k t s else s

/-- Stalls of routines of microwords, and of instructions whose trap vector an owner has loaded (R103, R120, R121, R126, R143 to
R147): WRES compares again on a new generation, and takes RESULT_READY or, inside a trap routine, faults with TRAP_NESTED; past its
TIMEOUT it goes on with a timeout's result; a microword that found a queue full executes again, and the waits for room and for
credit end; a routine of the store runs where the vector of RESULT_READY, CREDIT_EXHAUSTED or CAL_REQUEST was loaded.  An owner's
routine runs from no opcode of image 2.4 and none that holds ILL, and neither during an abort of image 2.4 nor in a stall. -/
def Obligations.RoutinesGoOnAfterTheirStalls : Prop :=
  (∀ (k : Fin 512) s g,
    let t := max s.now (s.seq k).since
    let u := advanceTo t s
    let w := fetchWord k u
    let v := u.modSeq k fun q => { q with shadow := shadowWords k 6 t u }
    Stalled k (.micro 0x2E g) u →
    (brrCompare k w g u = .behind → exec (.resultReady k) s = .next u) ∧
    (brrCompare k w g u ≠ .behind → (u.seq k).micro.trap.isSome →
      exec (.resultReady k) s = .next (microFault k 0x40 (t + 2) u)) ∧
    (brrCompare k w g u ≠ .behind → (u.seq k).micro.trap = none → exec (.resultReady k) s = .next (microGo k (
      if trapByRule k 6 v then
        microDone k t (fun m => { m with resval := resvalOf k (fetchWord k v) (brrCompare k (fetchWord k v) g v) v }) v
      else returnsAtOnce k 0x106 t (trapBegin k 6 .word t v))))) ∧
  (∀ (k : Fin 512) s g,
    let t := max s.now (s.seq k).since
    let u := advanceTo t s
    let v := unstall k t (ruleShadow k 6 (upcOf 0x29 3) t true [] u)
    Stalled k (.result g) u → brrCompare k (fetchWord k u) g u ≠ .behind → trapByRule k 6 v = false →
    exec (.resultReady k) s = .next (microGo k (returnsAtOnce k 0x106 t (trapBegin k 6 (.result g) t v)))) ∧
  (∀ (k : Fin 512) s,
    let u := advanceTo (max s.now (s.seq k).since) s
    (∀ g, ¬Stalled k (.result g) u ∧ ¬Stalled k (.micro 0x2E g) u) → exec (.resultReady k) s = .next u) ∧
  (∀ (k : Fin 512) s g, Stalled k (.micro 0x2E g) s → (s.seq k).micro.active = true → bits (fetchWord k s) 20 6 ≠ 0 →
    let t := (s.seq k).micro.armed + 256 * bits (fetchWord k s) 20 6
    let u := resultReady k t (advanceTo t s)
    (∀ g', Stalled k (.micro 0x2E g') u → exec (.resultTimeout k) s = .next (microGo k (microDone k t
      (fun m => { m with resval := resvalOf k (fetchWord k u) .timeout u }) u))) ∧
    ((u.seq k).stall = none → exec (.resultTimeout k) s = .next u)) ∧
  (∀ (k : Fin 512) s w t, Stalled k (.teqFull w) s → (s.seq k).freedAt = some t →
    let u := unstall k (max t (s.seq k).since) s
    (u.seq k).micro.active = true → exec (.teqFullStallEnd k) s = .next (microGo k u)) ∧
  (∀ (k : Fin 512) s x t, Stalled k (.micro 0x3E x) s → (s.seq k).freedAt = some t →
    let m := (s.seq k).micro
    let e := max t (s.seq k).since
    exec (.teqFullStallEnd k) s = .next (microGo k (
      if m.trap.isSome ∧ uTretAt k (m.upc + 1) s = true then uReturn k e (unstall k e s)
      else microDone k e (fun m => m) s))) ∧
  (∀ (k : Fin 512) s x, Stalled k (.micro 0x3F x) s →
    let t := max s.now (s.seq k).since
    let m := (s.seq k).micro
    exec (.creditStallEnd k) s = .next (if creditHolds k (seqPart k s) t s then s
      else microGo k (if m.trap.isSome ∧ uTretAt k (m.upc + 1) s = true then uReturn k t (unstall k t s)
        else microDone k t (fun m => m) s))) ∧
  (∀ (k : Fin 512) s, Issues k 0x48 s →
    let t := beginTick k s + 4
    let u := inTicks k 4 s
    let v := ruleShadow k 5 (upcOf 0x48 3) t true [] u
    (u.seq k).micro.active = false → (u.seq k).shotOpen = false → (u.seq k).stopNext = false → kilnWait u = 0 →
    ringHeld k u = false → creditHolds k (seqPart k u) t u = true → trapByRule k 5 v = false →
    (v.seq k).micro.active = false → exec (.shotBegin k) s = .next (trapBegin k 5 .shot t v)) ∧
  (∀ (k : Fin 512) s,
    let t := beginTick k s
    let u := atIssue k s
    let q := u.seq k
    let v := ruleShadow k 7 (issued k s / 2 ^ 56) t (u.seq k).micro.stale [] (setSeqState k stTrapped u)
    q.calReq ≠ [] → q.shotOpen = false → atBoundary k u = true → trapByRule k 7 v = false →
    exec (.calRequest k) s = .next (microGo k (trapBegin k 7 .boundary t v))) ∧
  (∀ (k : Fin 512) s,
    let u := atIssue k s
    let op := issued k s / 2 ^ 56
    (u.seq k).abort.any (!·.loaded) = true ∨ (u.seq k).stall.isSome
      ∨ (atBoundary k u = true ∧ (u.seq k).pcOver = false ∧ (byRule k op u = true ∨ opIll k op u = true)) →
    exec (.ownerExtension k) s = .next s)
end

