-- ==== Sys2Proof/Laws/Memory.lean ====
section
/-! SUPPORT. Laws of the byte memory: reading after writing, and the canonical form, which every memory operation keeps. -/

namespace Sys2Proof.Machine

theorem Memory.read_list_same (m : Memory) (a : Nat) (b : Byte) : Memory.read (Memory.list m a b) a = b := by
  induction m with
  | nil => simp [Memory.list, Memory.read]
  | cons p m ih =>
    obtain ⟨i, c⟩ := p
    unfold Memory.list
    split
    · simp_all [Memory.read]
    · split <;> simp_all [Memory.read]

theorem Memory.read_list_ne (m : Memory) {a x : Nat} (b : Byte) (h : x ≠ a) :
    Memory.read (Memory.list m a b) x = Memory.read m x := by
  induction m with
  | nil => simp [Memory.list, Memory.read, h]
  | cons p m ih =>
    obtain ⟨i, c⟩ := p
    unfold Memory.list
    split
    · simp_all [Memory.read]
    · split <;> simp_all [Memory.read]

theorem Memory.read_drop_same (m : Memory) (a : Nat) : Memory.read (Memory.drop m a) a = memDefault a := by
  induction m with
  | nil => rfl
  | cons p m ih => obtain ⟨i, c⟩ := p; unfold Memory.drop; split <;> simp_all [Memory.read]

theorem Memory.read_drop_ne (m : Memory) {a x : Nat} (h : x ≠ a) : Memory.read (Memory.drop m a) x = Memory.read m x := by
  induction m with
  | nil => rfl
  | cons p m ih => obtain ⟨i, c⟩ := p; unfold Memory.drop; split <;> simp_all [Memory.read]

@[simp] theorem Memory.read_write_same (m : Memory) (a : Nat) (b : Byte) : Memory.read (Memory.write m a b) a = b := by
  unfold Memory.write
  split
  · simp_all [Memory.read_drop_same]
  · exact Memory.read_list_same m a b

theorem Memory.read_write_ne (m : Memory) {a x : Nat} (b : Byte) (h : x ≠ a) :
    Memory.read (Memory.write m a b) x = Memory.read m x := by
  unfold Memory.write
  split
  · exact Memory.read_drop_ne m h
  · exact Memory.read_list_ne m b h

/-- The canonical form says: no byte listed is what its address reads as anyway, and the addresses rise strictly. -/
theorem Memory.wf_iff (m : Memory) :
    Memory.wf m = true ↔ (∀ p ∈ m, p.2 ≠ memDefault p.1) ∧ m.Pairwise (fun p q => p.1 < q.1) := by
  induction m with
  | nil => simp [Memory.wf]
  | cons p m ih =>
    cases m with
    | nil => obtain ⟨i, v⟩ := p; simp [Memory.wf]
    | cons q m =>
      obtain ⟨i, v⟩ := p
      obtain ⟨j, w⟩ := q
      simp only [Memory.wf, Bool.and_eq_true, decide_eq_true_eq, ih, List.pairwise_cons, List.mem_cons, forall_eq_or_imp]
      constructor
      · rintro ⟨⟨a, b⟩, ⟨c, e⟩, f, g⟩
        exact ⟨⟨a, c, e⟩, ⟨b, fun x hx => Nat.lt_trans b (f x hx)⟩, f, g⟩
      · rintro ⟨⟨a, c, e⟩, ⟨b, _⟩, f, g⟩
        exact ⟨⟨a, b⟩, ⟨c, e⟩, f, g⟩

theorem Memory.mem_drop {m : Memory} {a : Nat} {p : Nat × Byte} (h : p ∈ Memory.drop m a) : p ∈ m := by
  induction m with
  | nil => simp [Memory.drop] at h
  | cons q m ih =>
    obtain ⟨i, w⟩ := q
    unfold Memory.drop at h
    split at h
    · exact List.mem_cons_of_mem _ (ih h)
    · rcases List.mem_cons.1 h with h | h
      · exact h ▸ List.mem_cons_self
      · exact List.mem_cons_of_mem _ (ih h)

theorem Memory.mem_list {m : Memory} {a : Nat} {b : Byte} {p : Nat × Byte} (h : p ∈ Memory.list m a b) :
    p = (a, b) ∨ p ∈ m := by
  induction m with
  | nil => simpa [Memory.list] using h
  | cons q m ih =>
    obtain ⟨i, w⟩ := q
    unfold Memory.list at h
    split at h
    · next e => subst e; rcases List.mem_cons.1 h with h | h <;> simp_all
    · split at h
      · rcases List.mem_cons.1 h with h | h <;> simp_all
      · rcases List.mem_cons.1 h with h | h
        · simp_all
        · rcases ih h with h | h <;> simp_all

theorem Memory.wf_drop {m : Memory} (a : Nat) (h : Memory.wf m = true) : Memory.wf (Memory.drop m a) = true := by
  rw [Memory.wf_iff] at *
  obtain ⟨hv, hs⟩ := h
  refine ⟨fun p hp => hv p (Memory.mem_drop hp), ?_⟩
  clear hv
  induction m with
  | nil => exact List.Pairwise.nil
  | cons q m ih =>
    obtain ⟨i, w⟩ := q
    rw [List.pairwise_cons] at hs
    unfold Memory.drop
    split
    · exact ih hs.2
    · exact List.pairwise_cons.2 ⟨fun p hp => hs.1 p (Memory.mem_drop hp), ih hs.2⟩

theorem Memory.wf_list {m : Memory} (a : Nat) {b : Byte} (hb : b ≠ memDefault a) (h : Memory.wf m = true) :
    Memory.wf (Memory.list m a b) = true := by
  rw [Memory.wf_iff] at *
  obtain ⟨hn, hs⟩ := h
  refine ⟨fun p hp => ?_, ?_⟩
  · rcases Memory.mem_list hp with rfl | hp
    · exact hb
    · exact hn p hp
  · clear hn
    induction m with
    | nil => exact List.pairwise_singleton _ _
    | cons q m ih =>
      obtain ⟨i, w⟩ := q
      rw [List.pairwise_cons] at hs
      unfold Memory.list
      split
      · next e => exact List.pairwise_cons.2 ⟨fun p hp => hs.1 p hp, hs.2⟩
      · split
        · next _ hlt =>
          refine List.pairwise_cons.2 ⟨fun p hp => ?_, List.pairwise_cons.2 hs⟩
          rcases List.mem_cons.1 hp with rfl | hp
          · exact hlt
          · exact Nat.lt_trans hlt (hs.1 p hp)
        · next hne hlt =>
          refine List.pairwise_cons.2 ⟨fun p hp => ?_, ih hs.2⟩
          rcases Memory.mem_list hp with rfl | hp
          · exact Nat.lt_of_le_of_ne (Nat.le_of_not_lt hlt) (fun e => hne e.symm)
          · exact hs.1 p hp

/-- Writing a byte keeps the canonical form. -/
theorem Memory.wf_write {m : Memory} (a : Nat) (b : Byte) (h : Memory.wf m = true) : Memory.wf (Memory.write m a b) = true := by
  unfold Memory.write
  split
  · exact Memory.wf_drop a h
  · next e => exact Memory.wf_list a e h

/-- Writing any bytes keeps the canonical form. -/
theorem Memory.wf_writes {α : Type} (l : List α) (f : α → Nat) (g : α → Byte) {m : Memory} (h : Memory.wf m = true) :
    Memory.wf (l.foldl (fun m x => Memory.write m (f x) (g x)) m) = true := by
  induction l generalizing m with
  | nil => exact h
  | cons x l ih => exact ih (Memory.wf_write _ _ h)

/-- Copying a range keeps the canonical form. -/
theorem Memory.wf_copyRange (src dst n : Nat) {m : Memory} (h : Memory.wf m = true) :
    Memory.wf (Memory.copyRange src dst n m) = true := Memory.wf_writes _ _ _ (Memory.wf_writes _ _ _ h)

end Sys2Proof.Machine
end

