-- ==== Sys2Proof/Laws/Tab.lean ====
section
/-! SUPPORT. Laws of sparse tables: reading after writing, and the canonical form. -/

namespace Sys2Proof.Machine

variable {α : Type}

theorem Tab.find?_list_same (t : Tab α) (k : Nat) (v : α) : Tab.find? (Tab.list t k v) k = some v := by
  induction t with
  | nil => simp [Tab.list, Tab.find?]
  | cons p t ih =>
    obtain ⟨i, w⟩ := p
    unfold Tab.list
    split
    · simp_all [Tab.find?]
    · split <;> simp_all [Tab.find?]

theorem Tab.find?_list_ne (t : Tab α) {k j : Nat} (v : α) (h : j ≠ k) : Tab.find? (Tab.list t k v) j = Tab.find? t j := by
  induction t with
  | nil => simp [Tab.list, Tab.find?, h]
  | cons p t ih =>
    obtain ⟨i, w⟩ := p
    unfold Tab.list
    split
    · simp_all [Tab.find?]
    · split <;> simp_all [Tab.find?]

theorem Tab.find?_drop_same (t : Tab α) (k : Nat) : Tab.find? (Tab.drop t k) k = none := by
  induction t with
  | nil => rfl
  | cons p t ih => obtain ⟨i, w⟩ := p; unfold Tab.drop; split <;> simp_all [Tab.find?]

theorem Tab.find?_drop_ne (t : Tab α) {k j : Nat} (h : j ≠ k) : Tab.find? (Tab.drop t k) j = Tab.find? t j := by
  induction t with
  | nil => rfl
  | cons p t ih => obtain ⟨i, w⟩ := p; unfold Tab.drop; split <;> simp_all [Tab.find?]

variable [DecidableEq α]

@[simp] theorem Tab.get_put_same (d : α) (t : Tab α) (k : Nat) (v : α) : Tab.get d (Tab.put d t k v) k = v := by
  unfold Tab.get Tab.put
  split
  · simp_all [Tab.find?_drop_same]
  · simp [Tab.find?_list_same]

theorem Tab.get_put_ne (d : α) (t : Tab α) {k j : Nat} (v : α) (h : j ≠ k) :
    Tab.get d (Tab.put d t k v) j = Tab.get d t j := by
  unfold Tab.get Tab.put
  split
  · rw [Tab.find?_drop_ne t h]
  · rw [Tab.find?_list_ne t v h]

/-- The canonical form says: no listed value is the default, and the indices rise strictly. -/
theorem Tab.wf_iff (d : α) (t : Tab α) :
    Tab.wf d t = true ↔ (∀ p ∈ t, p.2 ≠ d) ∧ t.Pairwise (fun p q => p.1 < q.1) := by
  induction t with
  | nil => simp [Tab.wf]
  | cons p t ih =>
    cases t with
    | nil => obtain ⟨i, v⟩ := p; simp [Tab.wf]
    | cons q t =>
      obtain ⟨i, v⟩ := p
      obtain ⟨j, w⟩ := q
      simp only [Tab.wf, Bool.and_eq_true, decide_eq_true_eq, ih, List.pairwise_cons, List.mem_cons, forall_eq_or_imp]
      constructor
      · rintro ⟨⟨a, b⟩, ⟨c, e⟩, f, g⟩
        exact ⟨⟨a, c, e⟩, ⟨b, fun x hx => Nat.lt_trans b (f x hx)⟩, f, g⟩
      · rintro ⟨⟨a, c, e⟩, ⟨b, _⟩, f, g⟩
        exact ⟨⟨a, b⟩, ⟨c, e⟩, f, g⟩

omit [DecidableEq α] in
theorem Tab.mem_drop {t : Tab α} {k : Nat} {p : Nat × α} (h : p ∈ Tab.drop t k) : p ∈ t := by
  induction t with
  | nil => simp [Tab.drop] at h
  | cons q t ih =>
    obtain ⟨i, w⟩ := q
    unfold Tab.drop at h
    split at h
    · exact List.mem_cons_of_mem _ (ih h)
    · rcases List.mem_cons.1 h with h | h
      · exact h ▸ List.mem_cons_self
      · exact List.mem_cons_of_mem _ (ih h)

omit [DecidableEq α] in
theorem Tab.mem_list {t : Tab α} {k : Nat} {v : α} {p : Nat × α} (h : p ∈ Tab.list t k v) : p = (k, v) ∨ p ∈ t := by
  induction t with
  | nil => simpa [Tab.list] using h
  | cons q t ih =>
    obtain ⟨i, w⟩ := q
    unfold Tab.list at h
    split at h
    · next e => subst e; rcases List.mem_cons.1 h with h | h <;> simp_all
    · split at h
      · rcases List.mem_cons.1 h with h | h <;> simp_all
      · rcases List.mem_cons.1 h with h | h
        · simp_all
        · rcases ih h with h | h <;> simp_all

theorem Tab.wf_drop (d : α) {t : Tab α} (k : Nat) (h : Tab.wf d t = true) : Tab.wf d (Tab.drop t k) = true := by
  rw [Tab.wf_iff] at *
  obtain ⟨hv, hs⟩ := h
  refine ⟨fun p hp => hv p (Tab.mem_drop hp), ?_⟩
  clear hv
  induction t with
  | nil => exact List.Pairwise.nil
  | cons q t ih =>
    obtain ⟨i, w⟩ := q
    rw [List.pairwise_cons] at hs
    unfold Tab.drop
    split
    · exact ih hs.2
    · exact List.pairwise_cons.2 ⟨fun p hp => hs.1 p (Tab.mem_drop hp), ih hs.2⟩

theorem Tab.wf_list (d : α) {t : Tab α} (k : Nat) {v : α} (hv : v ≠ d) (h : Tab.wf d t = true) :
    Tab.wf d (Tab.list t k v) = true := by
  rw [Tab.wf_iff] at *
  obtain ⟨hn, hs⟩ := h
  refine ⟨fun p hp => ?_, ?_⟩
  · rcases Tab.mem_list hp with rfl | hp
    · exact hv
    · exact hn p hp
  · clear hn
    induction t with
    | nil => exact List.pairwise_singleton _ _
    | cons q t ih =>
      obtain ⟨i, w⟩ := q
      rw [List.pairwise_cons] at hs
      unfold Tab.list
      split
      · next e => exact List.pairwise_cons.2 ⟨hs.1, hs.2⟩
      · split
        · next _ hlt =>
          refine List.pairwise_cons.2 ⟨fun p hp => ?_, List.pairwise_cons.2 hs⟩
          rcases List.mem_cons.1 hp with rfl | hp
          · exact hlt
          · exact Nat.lt_trans hlt (hs.1 p hp)
        · next hne hlt =>
          refine List.pairwise_cons.2 ⟨fun p hp => ?_, ih hs.2⟩
          rcases Tab.mem_list hp with rfl | hp
          · exact Nat.lt_of_le_of_ne (Nat.le_of_not_lt hlt) (fun e => hne e.symm)
          · exact hs.1 p hp

/-- Writing a table keeps its canonical form. -/
theorem Tab.wf_put (d : α) {t : Tab α} (k : Nat) (v : α) (h : Tab.wf d t = true) : Tab.wf d (Tab.put d t k v) = true := by
  unfold Tab.put
  split
  · exact Tab.wf_drop d k h
  · next e => exact Tab.wf_list d k e h

end Sys2Proof.Machine
end

