-- ==== Sys2Proof/Laws/State.lean ====
section
/-! SUPPORT. What the plainest updates of the state leave, field by field, and reading a register or a byte after writing one. -/

namespace Sys2Proof.Machine

/-! ### Registers and bytes -/

/-- A field reads what was written, modulo its width. -/
@[simp] theorem State.get_set_same (s : State) (f : Fld) (v : Nat) : (s.set f v).get f = v % 2 ^ f.width := by
  unfold State.get State.set
  rw [Tab.get_put_same, Nat.xor_assoc, Nat.xor_self, Nat.xor_zero, Nat.mod_mod]

/-- A field holds no more than its width. -/
theorem State.get_lt (s : State) (f : Fld) : s.get f < 2 ^ f.width := Nat.mod_lt _ (Nat.two_pow_pos _)

/-- Writing a field leaves every field with another place. -/
theorem State.get_set_ne (s : State) {f g : Fld} (v : Nat) (h : g.key ≠ f.key) : (s.set f v).get g = s.get g := by
  unfold State.get State.set
  rw [Tab.get_put_ne 0 s.regs _ h]

theorem State.on_setB_same (s : State) (f : Fld) (b : Bool) (h : f.width ≠ 0) : (s.setB f b).on f = b := by
  have h1 : 1 < 2 ^ f.width := Nat.one_lt_two_pow h
  cases b <;> simp [State.on, State.setB, b2n, Nat.mod_eq_of_lt h1]

/-- A byte reads what was written. -/
@[simp] theorem State.byte_setByte_same (s : State) (a : Nat) (b : Byte) : (s.setByte a b).byte a = b :=
  Memory.read_write_same s.mem a b

/-- Writing a byte leaves every other byte. -/
theorem State.byte_setByte_ne (s : State) {a x : Nat} (b : Byte) (h : x ≠ a) : (s.setByte a b).byte x = s.byte x :=
  Memory.read_write_ne s.mem b h

@[simp] theorem State.byte_set (s : State) (f : Fld) (v a : Nat) : (s.set f v).byte a = s.byte a := rfl
@[simp] theorem State.get_setByte (s : State) (a : Nat) (b : Byte) (f : Fld) : (s.setByte a b).get f = s.get f := rfl

/-! ### Units -/

@[simp] theorem State.seq_setSeq_same (s : State) (k : Nat) (x : Seq) : (s.setSeq k x).seq k = x := Tab.get_put_same _ _ _ _
theorem State.seq_setSeq_ne (s : State) {k j : Nat} (x : Seq) (h : j ≠ k) : (s.setSeq k x).seq j = s.seq j :=
  Tab.get_put_ne _ _ _ h
@[simp] theorem State.bar_setBar_same (s : State) (k : Nat) (x : Barrier) : (s.setBar k x).bar k = x := Tab.get_put_same _ _ _ _
theorem State.bar_setBar_ne (s : State) {k j : Nat} (x : Barrier) (h : j ≠ k) : (s.setBar k x).bar j = s.bar j :=
  Tab.get_put_ne _ _ _ h
@[simp] theorem State.queue_setQueue_same (s : State) (k : Nat) (x : Queue) : (s.setQueue k x).queue k = x := Tab.get_put_same _ _ _ _
theorem State.queue_setQueue_ne (s : State) {k j : Nat} (x : Queue) (h : j ≠ k) : (s.setQueue k x).queue j = s.queue j :=
  Tab.get_put_ne _ _ _ h
@[simp] theorem State.tun_setTun_same (s : State) (k : Nat) (x : Tun) : (s.setTun k x).tun k = x := Tab.get_put_same _ _ _ _
theorem State.tun_setTun_ne (s : State) {k j : Nat} (x : Tun) (h : j ≠ k) : (s.setTun k x).tun j = s.tun j :=
  Tab.get_put_ne _ _ _ h
@[simp] theorem State.mbx_setMbx_same (s : State) (k : Nat) (x : Mbx) : (s.setMbx k x).mbx k = x := Tab.get_put_same _ _ _ _
theorem State.mbx_setMbx_ne (s : State) {k j : Nat} (x : Mbx) (h : j ≠ k) : (s.setMbx k x).mbx j = s.mbx j :=
  Tab.get_put_ne _ _ _ h

/-! ### Fields that an update leaves -/

@[simp] theorem State.set_pending (s : State) (f : Fld) (v : Nat) : (s.set f v).pending = s.pending := rfl
@[simp] theorem State.set_mem (s : State) (f : Fld) (v : Nat) : (s.set f v).mem = s.mem := rfl
@[simp] theorem State.set_outbox (s : State) (f : Fld) (v : Nat) : (s.set f v).outbox = s.outbox := rfl
@[simp] theorem State.set_due (s : State) (f : Fld) (v : Nat) : (s.set f v).due = s.due := rfl
@[simp] theorem State.set_free (s : State) (f : Fld) (v : Nat) : (s.set f v).free = s.free := rfl
@[simp] theorem State.set_tl (s : State) (f : Fld) (v : Nat) : (s.set f v).tl = s.tl := rfl
@[simp] theorem State.set_seqs (s : State) (f : Fld) (v : Nat) : (s.set f v).seqs = s.seqs := rfl
@[simp] theorem State.set_tuns (s : State) (f : Fld) (v : Nat) : (s.set f v).tuns = s.tuns := rfl
@[simp] theorem State.set_bars (s : State) (f : Fld) (v : Nat) : (s.set f v).bars = s.bars := rfl
@[simp] theorem State.set_queues (s : State) (f : Fld) (v : Nat) : (s.set f v).queues = s.queues := rfl
@[simp] theorem State.set_host (s : State) (f : Fld) (v : Nat) : (s.set f v).host = s.host := rfl
@[simp] theorem State.set_recs (s : State) (f : Fld) (v : Nat) : (s.set f v).recs = s.recs := rfl
@[simp] theorem State.set_exc (s : State) (f : Fld) (v : Nat) : (s.set f v).exc = s.exc := rfl
@[simp] theorem State.set_laus (s : State) (f : Fld) (v : Nat) : (s.set f v).laus = s.laus := rfl
@[simp] theorem State.set_rfis (s : State) (f : Fld) (v : Nat) : (s.set f v).rfis = s.rfis := rfl
@[simp] theorem State.set_rv (s : State) (f : Fld) (v : Nat) : (s.set f v).rv = s.rv := rfl
@[simp] theorem State.set_taps (s : State) (f : Fld) (v : Nat) : (s.set f v).taps = s.taps := rfl
@[simp] theorem State.set_lanes (s : State) (f : Fld) (v : Nat) : (s.set f v).lanes = s.lanes := rfl
@[simp] theorem State.set_wft (s : State) (f : Fld) (v : Nat) : (s.set f v).wft = s.wft := rfl
@[simp] theorem State.set_links (s : State) (f : Fld) (v : Nat) : (s.set f v).links = s.links := rfl
@[simp] theorem State.set_fibres (s : State) (f : Fld) (v : Nat) : (s.set f v).fibres = s.fibres := rfl
@[simp] theorem State.set_decs (s : State) (f : Fld) (v : Nat) : (s.set f v).decs = s.decs := rfl
@[simp] theorem State.set_rfos (s : State) (f : Fld) (v : Nat) : (s.set f v).rfos = s.rfos := rfl
@[simp] theorem State.set_zps (s : State) (f : Fld) (v : Nat) : (s.set f v).zps = s.zps := rfl
@[simp] theorem State.set_cals (s : State) (f : Fld) (v : Nat) : (s.set f v).cals = s.cals := rfl
@[simp] theorem State.set_mons (s : State) (f : Fld) (v : Nat) : (s.set f v).mons = s.mons := rfl
@[simp] theorem State.set_brgs (s : State) (f : Fld) (v : Nat) : (s.set f v).brgs = s.brgs := rfl
@[simp] theorem State.set_kiln (s : State) (f : Fld) (v : Nat) : (s.set f v).kiln = s.kiln := rfl
@[simp] theorem State.set_anas (s : State) (f : Fld) (v : Nat) : (s.set f v).anas = s.anas := rfl
@[simp] theorem State.set_mbxs (s : State) (f : Fld) (v : Nat) : (s.set f v).mbxs = s.mbxs := rfl
@[simp] theorem State.set_cel (s : State) (f : Fld) (v : Nat) : (s.set f v).cel = s.cel := rfl
@[simp] theorem State.set_exports (s : State) (f : Fld) (v : Nat) : (s.set f v).exports = s.exports := rfl
@[simp] theorem State.set_relays (s : State) (f : Fld) (v : Nat) : (s.set f v).relays = s.relays := rfl
@[simp] theorem State.set_load (s : State) (f : Fld) (v : Nat) : (s.set f v).load = s.load := rfl
@[simp] theorem State.set_broken (s : State) (f : Fld) (v : Nat) : (s.set f v).broken = s.broken := rfl
@[simp] theorem State.set_fences (s : State) (f : Fld) (v : Nat) : (s.set f v).fences = s.fences := rfl
@[simp] theorem State.set_seq (s : State) (f : Fld) (v : Nat) (j0 : Nat) : (s.set f v).seq j0 = s.seq j0 := rfl
@[simp] theorem State.set_bar (s : State) (f : Fld) (v : Nat) (j0 : Nat) : (s.set f v).bar j0 = s.bar j0 := rfl
@[simp] theorem State.set_queue (s : State) (f : Fld) (v : Nat) (j0 : Nat) : (s.set f v).queue j0 = s.queue j0 := rfl
@[simp] theorem State.set_tun (s : State) (f : Fld) (v : Nat) (j0 : Nat) : (s.set f v).tun j0 = s.tun j0 := rfl
@[simp] theorem State.set_mbx (s : State) (f : Fld) (v : Nat) (j0 : Nat) : (s.set f v).mbx j0 = s.mbx j0 := rfl

@[simp] theorem State.setByte_pending (s : State) (a : Nat) (b : Byte) : (s.setByte a b).pending = s.pending := rfl
@[simp] theorem State.setByte_regs (s : State) (a : Nat) (b : Byte) : (s.setByte a b).regs = s.regs := rfl
@[simp] theorem State.setByte_outbox (s : State) (a : Nat) (b : Byte) : (s.setByte a b).outbox = s.outbox := rfl
@[simp] theorem State.setByte_due (s : State) (a : Nat) (b : Byte) : (s.setByte a b).due = s.due := rfl
@[simp] theorem State.setByte_free (s : State) (a : Nat) (b : Byte) : (s.setByte a b).free = s.free := rfl
@[simp] theorem State.setByte_tl (s : State) (a : Nat) (b : Byte) : (s.setByte a b).tl = s.tl := rfl
@[simp] theorem State.setByte_seqs (s : State) (a : Nat) (b : Byte) : (s.setByte a b).seqs = s.seqs := rfl
@[simp] theorem State.setByte_tuns (s : State) (a : Nat) (b : Byte) : (s.setByte a b).tuns = s.tuns := rfl
@[simp] theorem State.setByte_bars (s : State) (a : Nat) (b : Byte) : (s.setByte a b).bars = s.bars := rfl
@[simp] theorem State.setByte_queues (s : State) (a : Nat) (b : Byte) : (s.setByte a b).queues = s.queues := rfl
@[simp] theorem State.setByte_host (s : State) (a : Nat) (b : Byte) : (s.setByte a b).host = s.host := rfl
@[simp] theorem State.setByte_recs (s : State) (a : Nat) (b : Byte) : (s.setByte a b).recs = s.recs := rfl
@[simp] theorem State.setByte_exc (s : State) (a : Nat) (b : Byte) : (s.setByte a b).exc = s.exc := rfl
@[simp] theorem State.setByte_laus (s : State) (a : Nat) (b : Byte) : (s.setByte a b).laus = s.laus := rfl
@[simp] theorem State.setByte_rfis (s : State) (a : Nat) (b : Byte) : (s.setByte a b).rfis = s.rfis := rfl
@[simp] theorem State.setByte_rv (s : State) (a : Nat) (b : Byte) : (s.setByte a b).rv = s.rv := rfl
@[simp] theorem State.setByte_taps (s : State) (a : Nat) (b : Byte) : (s.setByte a b).taps = s.taps := rfl
@[simp] theorem State.setByte_lanes (s : State) (a : Nat) (b : Byte) : (s.setByte a b).lanes = s.lanes := rfl
@[simp] theorem State.setByte_wft (s : State) (a : Nat) (b : Byte) : (s.setByte a b).wft = s.wft := rfl
@[simp] theorem State.setByte_links (s : State) (a : Nat) (b : Byte) : (s.setByte a b).links = s.links := rfl
@[simp] theorem State.setByte_fibres (s : State) (a : Nat) (b : Byte) : (s.setByte a b).fibres = s.fibres := rfl
@[simp] theorem State.setByte_decs (s : State) (a : Nat) (b : Byte) : (s.setByte a b).decs = s.decs := rfl
@[simp] theorem State.setByte_rfos (s : State) (a : Nat) (b : Byte) : (s.setByte a b).rfos = s.rfos := rfl
@[simp] theorem State.setByte_zps (s : State) (a : Nat) (b : Byte) : (s.setByte a b).zps = s.zps := rfl
@[simp] theorem State.setByte_cals (s : State) (a : Nat) (b : Byte) : (s.setByte a b).cals = s.cals := rfl
@[simp] theorem State.setByte_mons (s : State) (a : Nat) (b : Byte) : (s.setByte a b).mons = s.mons := rfl
@[simp] theorem State.setByte_brgs (s : State) (a : Nat) (b : Byte) : (s.setByte a b).brgs = s.brgs := rfl
@[simp] theorem State.setByte_kiln (s : State) (a : Nat) (b : Byte) : (s.setByte a b).kiln = s.kiln := rfl
@[simp] theorem State.setByte_anas (s : State) (a : Nat) (b : Byte) : (s.setByte a b).anas = s.anas := rfl
@[simp] theorem State.setByte_mbxs (s : State) (a : Nat) (b : Byte) : (s.setByte a b).mbxs = s.mbxs := rfl
@[simp] theorem State.setByte_cel (s : State) (a : Nat) (b : Byte) : (s.setByte a b).cel = s.cel := rfl
@[simp] theorem State.setByte_exports (s : State) (a : Nat) (b : Byte) : (s.setByte a b).exports = s.exports := rfl
@[simp] theorem State.setByte_relays (s : State) (a : Nat) (b : Byte) : (s.setByte a b).relays = s.relays := rfl
@[simp] theorem State.setByte_load (s : State) (a : Nat) (b : Byte) : (s.setByte a b).load = s.load := rfl
@[simp] theorem State.setByte_broken (s : State) (a : Nat) (b : Byte) : (s.setByte a b).broken = s.broken := rfl
@[simp] theorem State.setByte_fences (s : State) (a : Nat) (b : Byte) : (s.setByte a b).fences = s.fences := rfl
@[simp] theorem State.setByte_seq (s : State) (a : Nat) (b : Byte) (j0 : Nat) : (s.setByte a b).seq j0 = s.seq j0 := rfl
@[simp] theorem State.setByte_bar (s : State) (a : Nat) (b : Byte) (j0 : Nat) : (s.setByte a b).bar j0 = s.bar j0 := rfl
@[simp] theorem State.setByte_queue (s : State) (a : Nat) (b : Byte) (j0 : Nat) : (s.setByte a b).queue j0 = s.queue j0 := rfl
@[simp] theorem State.setByte_tun (s : State) (a : Nat) (b : Byte) (j0 : Nat) : (s.setByte a b).tun j0 = s.tun j0 := rfl
@[simp] theorem State.setByte_mbx (s : State) (a : Nat) (b : Byte) (j0 : Nat) : (s.setByte a b).mbx j0 = s.mbx j0 := rfl

@[simp] theorem State.emit_pending (s : State) (o : Out) : (s.emit o).pending = s.pending := rfl
@[simp] theorem State.emit_regs (s : State) (o : Out) : (s.emit o).regs = s.regs := rfl
@[simp] theorem State.emit_mem (s : State) (o : Out) : (s.emit o).mem = s.mem := rfl
@[simp] theorem State.emit_due (s : State) (o : Out) : (s.emit o).due = s.due := rfl
@[simp] theorem State.emit_free (s : State) (o : Out) : (s.emit o).free = s.free := rfl
@[simp] theorem State.emit_tl (s : State) (o : Out) : (s.emit o).tl = s.tl := rfl
@[simp] theorem State.emit_seqs (s : State) (o : Out) : (s.emit o).seqs = s.seqs := rfl
@[simp] theorem State.emit_tuns (s : State) (o : Out) : (s.emit o).tuns = s.tuns := rfl
@[simp] theorem State.emit_bars (s : State) (o : Out) : (s.emit o).bars = s.bars := rfl
@[simp] theorem State.emit_queues (s : State) (o : Out) : (s.emit o).queues = s.queues := rfl
@[simp] theorem State.emit_host (s : State) (o : Out) : (s.emit o).host = s.host := rfl
@[simp] theorem State.emit_recs (s : State) (o : Out) : (s.emit o).recs = s.recs := rfl
@[simp] theorem State.emit_exc (s : State) (o : Out) : (s.emit o).exc = s.exc := rfl
@[simp] theorem State.emit_laus (s : State) (o : Out) : (s.emit o).laus = s.laus := rfl
@[simp] theorem State.emit_rfis (s : State) (o : Out) : (s.emit o).rfis = s.rfis := rfl
@[simp] theorem State.emit_rv (s : State) (o : Out) : (s.emit o).rv = s.rv := rfl
@[simp] theorem State.emit_taps (s : State) (o : Out) : (s.emit o).taps = s.taps := rfl
@[simp] theorem State.emit_lanes (s : State) (o : Out) : (s.emit o).lanes = s.lanes := rfl
@[simp] theorem State.emit_wft (s : State) (o : Out) : (s.emit o).wft = s.wft := rfl
@[simp] theorem State.emit_links (s : State) (o : Out) : (s.emit o).links = s.links := rfl
@[simp] theorem State.emit_fibres (s : State) (o : Out) : (s.emit o).fibres = s.fibres := rfl
@[simp] theorem State.emit_decs (s : State) (o : Out) : (s.emit o).decs = s.decs := rfl
@[simp] theorem State.emit_rfos (s : State) (o : Out) : (s.emit o).rfos = s.rfos := rfl
@[simp] theorem State.emit_zps (s : State) (o : Out) : (s.emit o).zps = s.zps := rfl
@[simp] theorem State.emit_cals (s : State) (o : Out) : (s.emit o).cals = s.cals := rfl
@[simp] theorem State.emit_mons (s : State) (o : Out) : (s.emit o).mons = s.mons := rfl
@[simp] theorem State.emit_brgs (s : State) (o : Out) : (s.emit o).brgs = s.brgs := rfl
@[simp] theorem State.emit_kiln (s : State) (o : Out) : (s.emit o).kiln = s.kiln := rfl
@[simp] theorem State.emit_anas (s : State) (o : Out) : (s.emit o).anas = s.anas := rfl
@[simp] theorem State.emit_mbxs (s : State) (o : Out) : (s.emit o).mbxs = s.mbxs := rfl
@[simp] theorem State.emit_cel (s : State) (o : Out) : (s.emit o).cel = s.cel := rfl
@[simp] theorem State.emit_exports (s : State) (o : Out) : (s.emit o).exports = s.exports := rfl
@[simp] theorem State.emit_relays (s : State) (o : Out) : (s.emit o).relays = s.relays := rfl
@[simp] theorem State.emit_load (s : State) (o : Out) : (s.emit o).load = s.load := rfl
@[simp] theorem State.emit_broken (s : State) (o : Out) : (s.emit o).broken = s.broken := rfl
@[simp] theorem State.emit_fences (s : State) (o : Out) : (s.emit o).fences = s.fences := rfl
@[simp] theorem State.emit_get (s : State) (o : Out) (g0 : Fld) : (s.emit o).get g0 = s.get g0 := rfl
@[simp] theorem State.emit_byte (s : State) (o : Out) (x0 : Nat) : (s.emit o).byte x0 = s.byte x0 := rfl
@[simp] theorem State.emit_seq (s : State) (o : Out) (j0 : Nat) : (s.emit o).seq j0 = s.seq j0 := rfl
@[simp] theorem State.emit_bar (s : State) (o : Out) (j0 : Nat) : (s.emit o).bar j0 = s.bar j0 := rfl
@[simp] theorem State.emit_queue (s : State) (o : Out) (j0 : Nat) : (s.emit o).queue j0 = s.queue j0 := rfl
@[simp] theorem State.emit_tun (s : State) (o : Out) (j0 : Nat) : (s.emit o).tun j0 = s.tun j0 := rfl
@[simp] theorem State.emit_mbx (s : State) (o : Out) (j0 : Nat) : (s.emit o).mbx j0 = s.mbx j0 := rfl

@[simp] theorem State.later_pending (s : State) (t : Nat) (a : Action) : (s.later t a).pending = s.pending := rfl
@[simp] theorem State.later_regs (s : State) (t : Nat) (a : Action) : (s.later t a).regs = s.regs := rfl
@[simp] theorem State.later_mem (s : State) (t : Nat) (a : Action) : (s.later t a).mem = s.mem := rfl
@[simp] theorem State.later_outbox (s : State) (t : Nat) (a : Action) : (s.later t a).outbox = s.outbox := rfl
@[simp] theorem State.later_free (s : State) (t : Nat) (a : Action) : (s.later t a).free = s.free := rfl
@[simp] theorem State.later_tl (s : State) (t : Nat) (a : Action) : (s.later t a).tl = s.tl := rfl
@[simp] theorem State.later_seqs (s : State) (t : Nat) (a : Action) : (s.later t a).seqs = s.seqs := rfl
@[simp] theorem State.later_tuns (s : State) (t : Nat) (a : Action) : (s.later t a).tuns = s.tuns := rfl
@[simp] theorem State.later_bars (s : State) (t : Nat) (a : Action) : (s.later t a).bars = s.bars := rfl
@[simp] theorem State.later_queues (s : State) (t : Nat) (a : Action) : (s.later t a).queues = s.queues := rfl
@[simp] theorem State.later_host (s : State) (t : Nat) (a : Action) : (s.later t a).host = s.host := rfl
@[simp] theorem State.later_recs (s : State) (t : Nat) (a : Action) : (s.later t a).recs = s.recs := rfl
@[simp] theorem State.later_exc (s : State) (t : Nat) (a : Action) : (s.later t a).exc = s.exc := rfl
@[simp] theorem State.later_laus (s : State) (t : Nat) (a : Action) : (s.later t a).laus = s.laus := rfl
@[simp] theorem State.later_rfis (s : State) (t : Nat) (a : Action) : (s.later t a).rfis = s.rfis := rfl
@[simp] theorem State.later_rv (s : State) (t : Nat) (a : Action) : (s.later t a).rv = s.rv := rfl
@[simp] theorem State.later_taps (s : State) (t : Nat) (a : Action) : (s.later t a).taps = s.taps := rfl
@[simp] theorem State.later_lanes (s : State) (t : Nat) (a : Action) : (s.later t a).lanes = s.lanes := rfl
@[simp] theorem State.later_wft (s : State) (t : Nat) (a : Action) : (s.later t a).wft = s.wft := rfl
@[simp] theorem State.later_links (s : State) (t : Nat) (a : Action) : (s.later t a).links = s.links := rfl
@[simp] theorem State.later_fibres (s : State) (t : Nat) (a : Action) : (s.later t a).fibres = s.fibres := rfl
@[simp] theorem State.later_decs (s : State) (t : Nat) (a : Action) : (s.later t a).decs = s.decs := rfl
@[simp] theorem State.later_rfos (s : State) (t : Nat) (a : Action) : (s.later t a).rfos = s.rfos := rfl
@[simp] theorem State.later_zps (s : State) (t : Nat) (a : Action) : (s.later t a).zps = s.zps := rfl
@[simp] theorem State.later_cals (s : State) (t : Nat) (a : Action) : (s.later t a).cals = s.cals := rfl
@[simp] theorem State.later_mons (s : State) (t : Nat) (a : Action) : (s.later t a).mons = s.mons := rfl
@[simp] theorem State.later_brgs (s : State) (t : Nat) (a : Action) : (s.later t a).brgs = s.brgs := rfl
@[simp] theorem State.later_kiln (s : State) (t : Nat) (a : Action) : (s.later t a).kiln = s.kiln := rfl
@[simp] theorem State.later_anas (s : State) (t : Nat) (a : Action) : (s.later t a).anas = s.anas := rfl
@[simp] theorem State.later_mbxs (s : State) (t : Nat) (a : Action) : (s.later t a).mbxs = s.mbxs := rfl
@[simp] theorem State.later_cel (s : State) (t : Nat) (a : Action) : (s.later t a).cel = s.cel := rfl
@[simp] theorem State.later_exports (s : State) (t : Nat) (a : Action) : (s.later t a).exports = s.exports := rfl
@[simp] theorem State.later_relays (s : State) (t : Nat) (a : Action) : (s.later t a).relays = s.relays := rfl
@[simp] theorem State.later_load (s : State) (t : Nat) (a : Action) : (s.later t a).load = s.load := rfl
@[simp] theorem State.later_broken (s : State) (t : Nat) (a : Action) : (s.later t a).broken = s.broken := rfl
@[simp] theorem State.later_fences (s : State) (t : Nat) (a : Action) : (s.later t a).fences = s.fences := rfl
@[simp] theorem State.later_get (s : State) (t : Nat) (a : Action) (g0 : Fld) : (s.later t a).get g0 = s.get g0 := rfl
@[simp] theorem State.later_byte (s : State) (t : Nat) (a : Action) (x0 : Nat) : (s.later t a).byte x0 = s.byte x0 := rfl
@[simp] theorem State.later_seq (s : State) (t : Nat) (a : Action) (j0 : Nat) : (s.later t a).seq j0 = s.seq j0 := rfl
@[simp] theorem State.later_bar (s : State) (t : Nat) (a : Action) (j0 : Nat) : (s.later t a).bar j0 = s.bar j0 := rfl
@[simp] theorem State.later_queue (s : State) (t : Nat) (a : Action) (j0 : Nat) : (s.later t a).queue j0 = s.queue j0 := rfl
@[simp] theorem State.later_tun (s : State) (t : Nat) (a : Action) (j0 : Nat) : (s.later t a).tun j0 = s.tun j0 := rfl
@[simp] theorem State.later_mbx (s : State) (t : Nat) (a : Action) (j0 : Nat) : (s.later t a).mbx j0 = s.mbx j0 := rfl

@[simp] theorem State.setSeq_pending (s : State) (k : Nat) (q : Seq) : (s.setSeq k q).pending = s.pending := rfl
@[simp] theorem State.setSeq_regs (s : State) (k : Nat) (q : Seq) : (s.setSeq k q).regs = s.regs := rfl
@[simp] theorem State.setSeq_mem (s : State) (k : Nat) (q : Seq) : (s.setSeq k q).mem = s.mem := rfl
@[simp] theorem State.setSeq_outbox (s : State) (k : Nat) (q : Seq) : (s.setSeq k q).outbox = s.outbox := rfl
@[simp] theorem State.setSeq_due (s : State) (k : Nat) (q : Seq) : (s.setSeq k q).due = s.due := rfl
@[simp] theorem State.setSeq_free (s : State) (k : Nat) (q : Seq) : (s.setSeq k q).free = s.free := rfl
@[simp] theorem State.setSeq_tl (s : State) (k : Nat) (q : Seq) : (s.setSeq k q).tl = s.tl := rfl
@[simp] theorem State.setSeq_tuns (s : State) (k : Nat) (q : Seq) : (s.setSeq k q).tuns = s.tuns := rfl
@[simp] theorem State.setSeq_bars (s : State) (k : Nat) (q : Seq) : (s.setSeq k q).bars = s.bars := rfl
@[simp] theorem State.setSeq_queues (s : State) (k : Nat) (q : Seq) : (s.setSeq k q).queues = s.queues := rfl
@[simp] theorem State.setSeq_host (s : State) (k : Nat) (q : Seq) : (s.setSeq k q).host = s.host := rfl
@[simp] theorem State.setSeq_recs (s : State) (k : Nat) (q : Seq) : (s.setSeq k q).recs = s.recs := rfl
@[simp] theorem State.setSeq_exc (s : State) (k : Nat) (q : Seq) : (s.setSeq k q).exc = s.exc := rfl
@[simp] theorem State.setSeq_laus (s : State) (k : Nat) (q : Seq) : (s.setSeq k q).laus = s.laus := rfl
@[simp] theorem State.setSeq_rfis (s : State) (k : Nat) (q : Seq) : (s.setSeq k q).rfis = s.rfis := rfl
@[simp] theorem State.setSeq_rv (s : State) (k : Nat) (q : Seq) : (s.setSeq k q).rv = s.rv := rfl
@[simp] theorem State.setSeq_taps (s : State) (k : Nat) (q : Seq) : (s.setSeq k q).taps = s.taps := rfl
@[simp] theorem State.setSeq_lanes (s : State) (k : Nat) (q : Seq) : (s.setSeq k q).lanes = s.lanes := rfl
@[simp] theorem State.setSeq_wft (s : State) (k : Nat) (q : Seq) : (s.setSeq k q).wft = s.wft := rfl
@[simp] theorem State.setSeq_links (s : State) (k : Nat) (q : Seq) : (s.setSeq k q).links = s.links := rfl
@[simp] theorem State.setSeq_fibres (s : State) (k : Nat) (q : Seq) : (s.setSeq k q).fibres = s.fibres := rfl
@[simp] theorem State.setSeq_decs (s : State) (k : Nat) (q : Seq) : (s.setSeq k q).decs = s.decs := rfl
@[simp] theorem State.setSeq_rfos (s : State) (k : Nat) (q : Seq) : (s.setSeq k q).rfos = s.rfos := rfl
@[simp] theorem State.setSeq_zps (s : State) (k : Nat) (q : Seq) : (s.setSeq k q).zps = s.zps := rfl
@[simp] theorem State.setSeq_cals (s : State) (k : Nat) (q : Seq) : (s.setSeq k q).cals = s.cals := rfl
@[simp] theorem State.setSeq_mons (s : State) (k : Nat) (q : Seq) : (s.setSeq k q).mons = s.mons := rfl
@[simp] theorem State.setSeq_brgs (s : State) (k : Nat) (q : Seq) : (s.setSeq k q).brgs = s.brgs := rfl
@[simp] theorem State.setSeq_kiln (s : State) (k : Nat) (q : Seq) : (s.setSeq k q).kiln = s.kiln := rfl
@[simp] theorem State.setSeq_anas (s : State) (k : Nat) (q : Seq) : (s.setSeq k q).anas = s.anas := rfl
@[simp] theorem State.setSeq_mbxs (s : State) (k : Nat) (q : Seq) : (s.setSeq k q).mbxs = s.mbxs := rfl
@[simp] theorem State.setSeq_cel (s : State) (k : Nat) (q : Seq) : (s.setSeq k q).cel = s.cel := rfl
@[simp] theorem State.setSeq_exports (s : State) (k : Nat) (q : Seq) : (s.setSeq k q).exports = s.exports := rfl
@[simp] theorem State.setSeq_relays (s : State) (k : Nat) (q : Seq) : (s.setSeq k q).relays = s.relays := rfl
@[simp] theorem State.setSeq_load (s : State) (k : Nat) (q : Seq) : (s.setSeq k q).load = s.load := rfl
@[simp] theorem State.setSeq_broken (s : State) (k : Nat) (q : Seq) : (s.setSeq k q).broken = s.broken := rfl
@[simp] theorem State.setSeq_fences (s : State) (k : Nat) (q : Seq) : (s.setSeq k q).fences = s.fences := rfl
@[simp] theorem State.setSeq_get (s : State) (k : Nat) (q : Seq) (g0 : Fld) : (s.setSeq k q).get g0 = s.get g0 := rfl
@[simp] theorem State.setSeq_byte (s : State) (k : Nat) (q : Seq) (x0 : Nat) : (s.setSeq k q).byte x0 = s.byte x0 := rfl
@[simp] theorem State.setSeq_bar (s : State) (k : Nat) (q : Seq) (j0 : Nat) : (s.setSeq k q).bar j0 = s.bar j0 := rfl
@[simp] theorem State.setSeq_queue (s : State) (k : Nat) (q : Seq) (j0 : Nat) : (s.setSeq k q).queue j0 = s.queue j0 := rfl
@[simp] theorem State.setSeq_tun (s : State) (k : Nat) (q : Seq) (j0 : Nat) : (s.setSeq k q).tun j0 = s.tun j0 := rfl
@[simp] theorem State.setSeq_mbx (s : State) (k : Nat) (q : Seq) (j0 : Nat) : (s.setSeq k q).mbx j0 = s.mbx j0 := rfl

@[simp] theorem State.setBar_pending (s : State) (b : Nat) (x : Barrier) : (s.setBar b x).pending = s.pending := rfl
@[simp] theorem State.setBar_regs (s : State) (b : Nat) (x : Barrier) : (s.setBar b x).regs = s.regs := rfl
@[simp] theorem State.setBar_mem (s : State) (b : Nat) (x : Barrier) : (s.setBar b x).mem = s.mem := rfl
@[simp] theorem State.setBar_outbox (s : State) (b : Nat) (x : Barrier) : (s.setBar b x).outbox = s.outbox := rfl
@[simp] theorem State.setBar_due (s : State) (b : Nat) (x : Barrier) : (s.setBar b x).due = s.due := rfl
@[simp] theorem State.setBar_free (s : State) (b : Nat) (x : Barrier) : (s.setBar b x).free = s.free := rfl
@[simp] theorem State.setBar_tl (s : State) (b : Nat) (x : Barrier) : (s.setBar b x).tl = s.tl := rfl
@[simp] theorem State.setBar_seqs (s : State) (b : Nat) (x : Barrier) : (s.setBar b x).seqs = s.seqs := rfl
@[simp] theorem State.setBar_tuns (s : State) (b : Nat) (x : Barrier) : (s.setBar b x).tuns = s.tuns := rfl
@[simp] theorem State.setBar_queues (s : State) (b : Nat) (x : Barrier) : (s.setBar b x).queues = s.queues := rfl
@[simp] theorem State.setBar_host (s : State) (b : Nat) (x : Barrier) : (s.setBar b x).host = s.host := rfl
@[simp] theorem State.setBar_recs (s : State) (b : Nat) (x : Barrier) : (s.setBar b x).recs = s.recs := rfl
@[simp] theorem State.setBar_exc (s : State) (b : Nat) (x : Barrier) : (s.setBar b x).exc = s.exc := rfl
@[simp] theorem State.setBar_laus (s : State) (b : Nat) (x : Barrier) : (s.setBar b x).laus = s.laus := rfl
@[simp] theorem State.setBar_rfis (s : State) (b : Nat) (x : Barrier) : (s.setBar b x).rfis = s.rfis := rfl
@[simp] theorem State.setBar_rv (s : State) (b : Nat) (x : Barrier) : (s.setBar b x).rv = s.rv := rfl
@[simp] theorem State.setBar_taps (s : State) (b : Nat) (x : Barrier) : (s.setBar b x).taps = s.taps := rfl
@[simp] theorem State.setBar_lanes (s : State) (b : Nat) (x : Barrier) : (s.setBar b x).lanes = s.lanes := rfl
@[simp] theorem State.setBar_wft (s : State) (b : Nat) (x : Barrier) : (s.setBar b x).wft = s.wft := rfl
@[simp] theorem State.setBar_links (s : State) (b : Nat) (x : Barrier) : (s.setBar b x).links = s.links := rfl
@[simp] theorem State.setBar_fibres (s : State) (b : Nat) (x : Barrier) : (s.setBar b x).fibres = s.fibres := rfl
@[simp] theorem State.setBar_decs (s : State) (b : Nat) (x : Barrier) : (s.setBar b x).decs = s.decs := rfl
@[simp] theorem State.setBar_rfos (s : State) (b : Nat) (x : Barrier) : (s.setBar b x).rfos = s.rfos := rfl
@[simp] theorem State.setBar_zps (s : State) (b : Nat) (x : Barrier) : (s.setBar b x).zps = s.zps := rfl
@[simp] theorem State.setBar_cals (s : State) (b : Nat) (x : Barrier) : (s.setBar b x).cals = s.cals := rfl
@[simp] theorem State.setBar_mons (s : State) (b : Nat) (x : Barrier) : (s.setBar b x).mons = s.mons := rfl
@[simp] theorem State.setBar_brgs (s : State) (b : Nat) (x : Barrier) : (s.setBar b x).brgs = s.brgs := rfl
@[simp] theorem State.setBar_kiln (s : State) (b : Nat) (x : Barrier) : (s.setBar b x).kiln = s.kiln := rfl
@[simp] theorem State.setBar_anas (s : State) (b : Nat) (x : Barrier) : (s.setBar b x).anas = s.anas := rfl
@[simp] theorem State.setBar_mbxs (s : State) (b : Nat) (x : Barrier) : (s.setBar b x).mbxs = s.mbxs := rfl
@[simp] theorem State.setBar_cel (s : State) (b : Nat) (x : Barrier) : (s.setBar b x).cel = s.cel := rfl
@[simp] theorem State.setBar_exports (s : State) (b : Nat) (x : Barrier) : (s.setBar b x).exports = s.exports := rfl
@[simp] theorem State.setBar_relays (s : State) (b : Nat) (x : Barrier) : (s.setBar b x).relays = s.relays := rfl
@[simp] theorem State.setBar_load (s : State) (b : Nat) (x : Barrier) : (s.setBar b x).load = s.load := rfl
@[simp] theorem State.setBar_broken (s : State) (b : Nat) (x : Barrier) : (s.setBar b x).broken = s.broken := rfl
@[simp] theorem State.setBar_fences (s : State) (b : Nat) (x : Barrier) : (s.setBar b x).fences = s.fences := rfl
@[simp] theorem State.setBar_get (s : State) (b : Nat) (x : Barrier) (g0 : Fld) : (s.setBar b x).get g0 = s.get g0 := rfl
@[simp] theorem State.setBar_byte (s : State) (b : Nat) (x : Barrier) (x0 : Nat) : (s.setBar b x).byte x0 = s.byte x0 := rfl
@[simp] theorem State.setBar_seq (s : State) (b : Nat) (x : Barrier) (j0 : Nat) : (s.setBar b x).seq j0 = s.seq j0 := rfl
@[simp] theorem State.setBar_queue (s : State) (b : Nat) (x : Barrier) (j0 : Nat) : (s.setBar b x).queue j0 = s.queue j0 := rfl
@[simp] theorem State.setBar_tun (s : State) (b : Nat) (x : Barrier) (j0 : Nat) : (s.setBar b x).tun j0 = s.tun j0 := rfl
@[simp] theorem State.setBar_mbx (s : State) (b : Nat) (x : Barrier) (j0 : Nat) : (s.setBar b x).mbx j0 = s.mbx j0 := rfl

@[simp] theorem State.setQueue_pending (s : State) (q : Nat) (x : Queue) : (s.setQueue q x).pending = s.pending := rfl
@[simp] theorem State.setQueue_regs (s : State) (q : Nat) (x : Queue) : (s.setQueue q x).regs = s.regs := rfl
@[simp] theorem State.setQueue_mem (s : State) (q : Nat) (x : Queue) : (s.setQueue q x).mem = s.mem := rfl
@[simp] theorem State.setQueue_outbox (s : State) (q : Nat) (x : Queue) : (s.setQueue q x).outbox = s.outbox := rfl
@[simp] theorem State.setQueue_due (s : State) (q : Nat) (x : Queue) : (s.setQueue q x).due = s.due := rfl
@[simp] theorem State.setQueue_free (s : State) (q : Nat) (x : Queue) : (s.setQueue q x).free = s.free := rfl
@[simp] theorem State.setQueue_tl (s : State) (q : Nat) (x : Queue) : (s.setQueue q x).tl = s.tl := rfl
@[simp] theorem State.setQueue_seqs (s : State) (q : Nat) (x : Queue) : (s.setQueue q x).seqs = s.seqs := rfl
@[simp] theorem State.setQueue_tuns (s : State) (q : Nat) (x : Queue) : (s.setQueue q x).tuns = s.tuns := rfl
@[simp] theorem State.setQueue_bars (s : State) (q : Nat) (x : Queue) : (s.setQueue q x).bars = s.bars := rfl
@[simp] theorem State.setQueue_host (s : State) (q : Nat) (x : Queue) : (s.setQueue q x).host = s.host := rfl
@[simp] theorem State.setQueue_recs (s : State) (q : Nat) (x : Queue) : (s.setQueue q x).recs = s.recs := rfl
@[simp] theorem State.setQueue_exc (s : State) (q : Nat) (x : Queue) : (s.setQueue q x).exc = s.exc := rfl
@[simp] theorem State.setQueue_laus (s : State) (q : Nat) (x : Queue) : (s.setQueue q x).laus = s.laus := rfl
@[simp] theorem State.setQueue_rfis (s : State) (q : Nat) (x : Queue) : (s.setQueue q x).rfis = s.rfis := rfl
@[simp] theorem State.setQueue_rv (s : State) (q : Nat) (x : Queue) : (s.setQueue q x).rv = s.rv := rfl
@[simp] theorem State.setQueue_taps (s : State) (q : Nat) (x : Queue) : (s.setQueue q x).taps = s.taps := rfl
@[simp] theorem State.setQueue_lanes (s : State) (q : Nat) (x : Queue) : (s.setQueue q x).lanes = s.lanes := rfl
@[simp] theorem State.setQueue_wft (s : State) (q : Nat) (x : Queue) : (s.setQueue q x).wft = s.wft := rfl
@[simp] theorem State.setQueue_links (s : State) (q : Nat) (x : Queue) : (s.setQueue q x).links = s.links := rfl
@[simp] theorem State.setQueue_fibres (s : State) (q : Nat) (x : Queue) : (s.setQueue q x).fibres = s.fibres := rfl
@[simp] theorem State.setQueue_decs (s : State) (q : Nat) (x : Queue) : (s.setQueue q x).decs = s.decs := rfl
@[simp] theorem State.setQueue_rfos (s : State) (q : Nat) (x : Queue) : (s.setQueue q x).rfos = s.rfos := rfl
@[simp] theorem State.setQueue_zps (s : State) (q : Nat) (x : Queue) : (s.setQueue q x).zps = s.zps := rfl
@[simp] theorem State.setQueue_cals (s : State) (q : Nat) (x : Queue) : (s.setQueue q x).cals = s.cals := rfl
@[simp] theorem State.setQueue_mons (s : State) (q : Nat) (x : Queue) : (s.setQueue q x).mons = s.mons := rfl
@[simp] theorem State.setQueue_brgs (s : State) (q : Nat) (x : Queue) : (s.setQueue q x).brgs = s.brgs := rfl
@[simp] theorem State.setQueue_kiln (s : State) (q : Nat) (x : Queue) : (s.setQueue q x).kiln = s.kiln := rfl
@[simp] theorem State.setQueue_anas (s : State) (q : Nat) (x : Queue) : (s.setQueue q x).anas = s.anas := rfl
@[simp] theorem State.setQueue_mbxs (s : State) (q : Nat) (x : Queue) : (s.setQueue q x).mbxs = s.mbxs := rfl
@[simp] theorem State.setQueue_cel (s : State) (q : Nat) (x : Queue) : (s.setQueue q x).cel = s.cel := rfl
@[simp] theorem State.setQueue_exports (s : State) (q : Nat) (x : Queue) : (s.setQueue q x).exports = s.exports := rfl
@[simp] theorem State.setQueue_relays (s : State) (q : Nat) (x : Queue) : (s.setQueue q x).relays = s.relays := rfl
@[simp] theorem State.setQueue_load (s : State) (q : Nat) (x : Queue) : (s.setQueue q x).load = s.load := rfl
@[simp] theorem State.setQueue_broken (s : State) (q : Nat) (x : Queue) : (s.setQueue q x).broken = s.broken := rfl
@[simp] theorem State.setQueue_fences (s : State) (q : Nat) (x : Queue) : (s.setQueue q x).fences = s.fences := rfl
@[simp] theorem State.setQueue_get (s : State) (q : Nat) (x : Queue) (g0 : Fld) : (s.setQueue q x).get g0 = s.get g0 := rfl
@[simp] theorem State.setQueue_byte (s : State) (q : Nat) (x : Queue) (x0 : Nat) : (s.setQueue q x).byte x0 = s.byte x0 := rfl
@[simp] theorem State.setQueue_seq (s : State) (q : Nat) (x : Queue) (j0 : Nat) : (s.setQueue q x).seq j0 = s.seq j0 := rfl
@[simp] theorem State.setQueue_bar (s : State) (q : Nat) (x : Queue) (j0 : Nat) : (s.setQueue q x).bar j0 = s.bar j0 := rfl
@[simp] theorem State.setQueue_tun (s : State) (q : Nat) (x : Queue) (j0 : Nat) : (s.setQueue q x).tun j0 = s.tun j0 := rfl
@[simp] theorem State.setQueue_mbx (s : State) (q : Nat) (x : Queue) (j0 : Nat) : (s.setQueue q x).mbx j0 = s.mbx j0 := rfl

@[simp] theorem State.setTun_pending (s : State) (t : Nat) (x : Tun) : (s.setTun t x).pending = s.pending := rfl
@[simp] theorem State.setTun_regs (s : State) (t : Nat) (x : Tun) : (s.setTun t x).regs = s.regs := rfl
@[simp] theorem State.setTun_mem (s : State) (t : Nat) (x : Tun) : (s.setTun t x).mem = s.mem := rfl
@[simp] theorem State.setTun_outbox (s : State) (t : Nat) (x : Tun) : (s.setTun t x).outbox = s.outbox := rfl
@[simp] theorem State.setTun_due (s : State) (t : Nat) (x : Tun) : (s.setTun t x).due = s.due := rfl
@[simp] theorem State.setTun_free (s : State) (t : Nat) (x : Tun) : (s.setTun t x).free = s.free := rfl
@[simp] theorem State.setTun_tl (s : State) (t : Nat) (x : Tun) : (s.setTun t x).tl = s.tl := rfl
@[simp] theorem State.setTun_seqs (s : State) (t : Nat) (x : Tun) : (s.setTun t x).seqs = s.seqs := rfl
@[simp] theorem State.setTun_bars (s : State) (t : Nat) (x : Tun) : (s.setTun t x).bars = s.bars := rfl
@[simp] theorem State.setTun_queues (s : State) (t : Nat) (x : Tun) : (s.setTun t x).queues = s.queues := rfl
@[simp] theorem State.setTun_host (s : State) (t : Nat) (x : Tun) : (s.setTun t x).host = s.host := rfl
@[simp] theorem State.setTun_recs (s : State) (t : Nat) (x : Tun) : (s.setTun t x).recs = s.recs := rfl
@[simp] theorem State.setTun_exc (s : State) (t : Nat) (x : Tun) : (s.setTun t x).exc = s.exc := rfl
@[simp] theorem State.setTun_laus (s : State) (t : Nat) (x : Tun) : (s.setTun t x).laus = s.laus := rfl
@[simp] theorem State.setTun_rfis (s : State) (t : Nat) (x : Tun) : (s.setTun t x).rfis = s.rfis := rfl
@[simp] theorem State.setTun_rv (s : State) (t : Nat) (x : Tun) : (s.setTun t x).rv = s.rv := rfl
@[simp] theorem State.setTun_taps (s : State) (t : Nat) (x : Tun) : (s.setTun t x).taps = s.taps := rfl
@[simp] theorem State.setTun_lanes (s : State) (t : Nat) (x : Tun) : (s.setTun t x).lanes = s.lanes := rfl
@[simp] theorem State.setTun_wft (s : State) (t : Nat) (x : Tun) : (s.setTun t x).wft = s.wft := rfl
@[simp] theorem State.setTun_links (s : State) (t : Nat) (x : Tun) : (s.setTun t x).links = s.links := rfl
@[simp] theorem State.setTun_fibres (s : State) (t : Nat) (x : Tun) : (s.setTun t x).fibres = s.fibres := rfl
@[simp] theorem State.setTun_decs (s : State) (t : Nat) (x : Tun) : (s.setTun t x).decs = s.decs := rfl
@[simp] theorem State.setTun_rfos (s : State) (t : Nat) (x : Tun) : (s.setTun t x).rfos = s.rfos := rfl
@[simp] theorem State.setTun_zps (s : State) (t : Nat) (x : Tun) : (s.setTun t x).zps = s.zps := rfl
@[simp] theorem State.setTun_cals (s : State) (t : Nat) (x : Tun) : (s.setTun t x).cals = s.cals := rfl
@[simp] theorem State.setTun_mons (s : State) (t : Nat) (x : Tun) : (s.setTun t x).mons = s.mons := rfl
@[simp] theorem State.setTun_brgs (s : State) (t : Nat) (x : Tun) : (s.setTun t x).brgs = s.brgs := rfl
@[simp] theorem State.setTun_kiln (s : State) (t : Nat) (x : Tun) : (s.setTun t x).kiln = s.kiln := rfl
@[simp] theorem State.setTun_anas (s : State) (t : Nat) (x : Tun) : (s.setTun t x).anas = s.anas := rfl
@[simp] theorem State.setTun_mbxs (s : State) (t : Nat) (x : Tun) : (s.setTun t x).mbxs = s.mbxs := rfl
@[simp] theorem State.setTun_cel (s : State) (t : Nat) (x : Tun) : (s.setTun t x).cel = s.cel := rfl
@[simp] theorem State.setTun_exports (s : State) (t : Nat) (x : Tun) : (s.setTun t x).exports = s.exports := rfl
@[simp] theorem State.setTun_relays (s : State) (t : Nat) (x : Tun) : (s.setTun t x).relays = s.relays := rfl
@[simp] theorem State.setTun_load (s : State) (t : Nat) (x : Tun) : (s.setTun t x).load = s.load := rfl
@[simp] theorem State.setTun_broken (s : State) (t : Nat) (x : Tun) : (s.setTun t x).broken = s.broken := rfl
@[simp] theorem State.setTun_fences (s : State) (t : Nat) (x : Tun) : (s.setTun t x).fences = s.fences := rfl
@[simp] theorem State.setTun_get (s : State) (t : Nat) (x : Tun) (g0 : Fld) : (s.setTun t x).get g0 = s.get g0 := rfl
@[simp] theorem State.setTun_byte (s : State) (t : Nat) (x : Tun) (x0 : Nat) : (s.setTun t x).byte x0 = s.byte x0 := rfl
@[simp] theorem State.setTun_seq (s : State) (t : Nat) (x : Tun) (j0 : Nat) : (s.setTun t x).seq j0 = s.seq j0 := rfl
@[simp] theorem State.setTun_bar (s : State) (t : Nat) (x : Tun) (j0 : Nat) : (s.setTun t x).bar j0 = s.bar j0 := rfl
@[simp] theorem State.setTun_queue (s : State) (t : Nat) (x : Tun) (j0 : Nat) : (s.setTun t x).queue j0 = s.queue j0 := rfl
@[simp] theorem State.setTun_mbx (s : State) (t : Nat) (x : Tun) (j0 : Nat) : (s.setTun t x).mbx j0 = s.mbx j0 := rfl

@[simp] theorem State.setMbx_pending (s : State) (m : Nat) (x : Mbx) : (s.setMbx m x).pending = s.pending := rfl
@[simp] theorem State.setMbx_regs (s : State) (m : Nat) (x : Mbx) : (s.setMbx m x).regs = s.regs := rfl
@[simp] theorem State.setMbx_mem (s : State) (m : Nat) (x : Mbx) : (s.setMbx m x).mem = s.mem := rfl
@[simp] theorem State.setMbx_outbox (s : State) (m : Nat) (x : Mbx) : (s.setMbx m x).outbox = s.outbox := rfl
@[simp] theorem State.setMbx_due (s : State) (m : Nat) (x : Mbx) : (s.setMbx m x).due = s.due := rfl
@[simp] theorem State.setMbx_free (s : State) (m : Nat) (x : Mbx) : (s.setMbx m x).free = s.free := rfl
@[simp] theorem State.setMbx_tl (s : State) (m : Nat) (x : Mbx) : (s.setMbx m x).tl = s.tl := rfl
@[simp] theorem State.setMbx_seqs (s : State) (m : Nat) (x : Mbx) : (s.setMbx m x).seqs = s.seqs := rfl
@[simp] theorem State.setMbx_tuns (s : State) (m : Nat) (x : Mbx) : (s.setMbx m x).tuns = s.tuns := rfl
@[simp] theorem State.setMbx_bars (s : State) (m : Nat) (x : Mbx) : (s.setMbx m x).bars = s.bars := rfl
@[simp] theorem State.setMbx_queues (s : State) (m : Nat) (x : Mbx) : (s.setMbx m x).queues = s.queues := rfl
@[simp] theorem State.setMbx_host (s : State) (m : Nat) (x : Mbx) : (s.setMbx m x).host = s.host := rfl
@[simp] theorem State.setMbx_recs (s : State) (m : Nat) (x : Mbx) : (s.setMbx m x).recs = s.recs := rfl
@[simp] theorem State.setMbx_exc (s : State) (m : Nat) (x : Mbx) : (s.setMbx m x).exc = s.exc := rfl
@[simp] theorem State.setMbx_laus (s : State) (m : Nat) (x : Mbx) : (s.setMbx m x).laus = s.laus := rfl
@[simp] theorem State.setMbx_rfis (s : State) (m : Nat) (x : Mbx) : (s.setMbx m x).rfis = s.rfis := rfl
@[simp] theorem State.setMbx_rv (s : State) (m : Nat) (x : Mbx) : (s.setMbx m x).rv = s.rv := rfl
@[simp] theorem State.setMbx_taps (s : State) (m : Nat) (x : Mbx) : (s.setMbx m x).taps = s.taps := rfl
@[simp] theorem State.setMbx_lanes (s : State) (m : Nat) (x : Mbx) : (s.setMbx m x).lanes = s.lanes := rfl
@[simp] theorem State.setMbx_wft (s : State) (m : Nat) (x : Mbx) : (s.setMbx m x).wft = s.wft := rfl
@[simp] theorem State.setMbx_links (s : State) (m : Nat) (x : Mbx) : (s.setMbx m x).links = s.links := rfl
@[simp] theorem State.setMbx_fibres (s : State) (m : Nat) (x : Mbx) : (s.setMbx m x).fibres = s.fibres := rfl
@[simp] theorem State.setMbx_decs (s : State) (m : Nat) (x : Mbx) : (s.setMbx m x).decs = s.decs := rfl
@[simp] theorem State.setMbx_rfos (s : State) (m : Nat) (x : Mbx) : (s.setMbx m x).rfos = s.rfos := rfl
@[simp] theorem State.setMbx_zps (s : State) (m : Nat) (x : Mbx) : (s.setMbx m x).zps = s.zps := rfl
@[simp] theorem State.setMbx_cals (s : State) (m : Nat) (x : Mbx) : (s.setMbx m x).cals = s.cals := rfl
@[simp] theorem State.setMbx_mons (s : State) (m : Nat) (x : Mbx) : (s.setMbx m x).mons = s.mons := rfl
@[simp] theorem State.setMbx_brgs (s : State) (m : Nat) (x : Mbx) : (s.setMbx m x).brgs = s.brgs := rfl
@[simp] theorem State.setMbx_kiln (s : State) (m : Nat) (x : Mbx) : (s.setMbx m x).kiln = s.kiln := rfl
@[simp] theorem State.setMbx_anas (s : State) (m : Nat) (x : Mbx) : (s.setMbx m x).anas = s.anas := rfl
@[simp] theorem State.setMbx_cel (s : State) (m : Nat) (x : Mbx) : (s.setMbx m x).cel = s.cel := rfl
@[simp] theorem State.setMbx_exports (s : State) (m : Nat) (x : Mbx) : (s.setMbx m x).exports = s.exports := rfl
@[simp] theorem State.setMbx_relays (s : State) (m : Nat) (x : Mbx) : (s.setMbx m x).relays = s.relays := rfl
@[simp] theorem State.setMbx_load (s : State) (m : Nat) (x : Mbx) : (s.setMbx m x).load = s.load := rfl
@[simp] theorem State.setMbx_broken (s : State) (m : Nat) (x : Mbx) : (s.setMbx m x).broken = s.broken := rfl
@[simp] theorem State.setMbx_fences (s : State) (m : Nat) (x : Mbx) : (s.setMbx m x).fences = s.fences := rfl
@[simp] theorem State.setMbx_get (s : State) (m : Nat) (x : Mbx) (g0 : Fld) : (s.setMbx m x).get g0 = s.get g0 := rfl
@[simp] theorem State.setMbx_byte (s : State) (m : Nat) (x : Mbx) (x0 : Nat) : (s.setMbx m x).byte x0 = s.byte x0 := rfl
@[simp] theorem State.setMbx_seq (s : State) (m : Nat) (x : Mbx) (j0 : Nat) : (s.setMbx m x).seq j0 = s.seq j0 := rfl
@[simp] theorem State.setMbx_bar (s : State) (m : Nat) (x : Mbx) (j0 : Nat) : (s.setMbx m x).bar j0 = s.bar j0 := rfl
@[simp] theorem State.setMbx_queue (s : State) (m : Nat) (x : Mbx) (j0 : Nat) : (s.setMbx m x).queue j0 = s.queue j0 := rfl
@[simp] theorem State.setMbx_tun (s : State) (m : Nat) (x : Mbx) (j0 : Nat) : (s.setMbx m x).tun j0 = s.tun j0 := rfl

end Sys2Proof.Machine
end

