-- ==== Sys2Proof/Laws/EngineOps.lean ====
section
/-! SUPPORT. What the issue of an analysis engine's instruction answers, said once. -/

namespace Sys2Proof.Machine

@[simp] theorem State.ana_modAna_same (s : State) (a : Nat) (f : Engine → Engine) : (s.modAna a f).ana a = f (s.ana a) :=
  Tab.get_put_same _ _ _ _
theorem State.ana_modAna_ne (s : State) {a j : Nat} (f : Engine → Engine) (h : j ≠ a) : (s.modAna a f).ana j = s.ana j :=
  Tab.get_put_ne _ _ _ h
@[simp] theorem State.ana_setAna_same (s : State) (a : Nat) (x : Engine) : (s.setAna a x).ana a = x := Tab.get_put_same _ _ _ _
theorem State.ana_setAna_ne (s : State) {a j : Nat} (x : Engine) (h : j ≠ a) : (s.setAna a x).ana j = s.ana j :=
  Tab.get_put_ne _ _ _ h
@[simp] theorem State.ana_set (s : State) (f : Fld) (v a : Nat) : (s.set f v).ana a = s.ana a := rfl
@[simp] theorem State.get_modAna (s : State) (a : Nat) (f : Engine → Engine) (g : Fld) : (s.modAna a f).get g = s.get g := rfl
@[simp] theorem State.on_modAna (s : State) (a : Nat) (f : Engine → Engine) (g : Fld) : (s.modAna a f).on g = s.on g := rfl
@[simp] theorem State.byte_modAna (s : State) (a : Nat) (f : Engine → Engine) (x : Nat) : (s.modAna a f).byte x = s.byte x := rfl
@[simp] theorem State.get_setAna (s : State) (a : Nat) (x : Engine) (g : Fld) : (s.setAna a x).get g = s.get g := rfl
@[simp] theorem State.on_setAna (s : State) (a : Nat) (x : Engine) (g : Fld) : (s.setAna a x).on g = s.on g := rfl
@[simp] theorem State.byte_setAna (s : State) (a : Nat) (x : Engine) (y : Nat) : (s.setAna a x).byte y = s.byte y := rfl

/-- An engine faults at the address of the instruction (R301, R302). -/
theorem engFault_eq (a code : Nat) (s : State) :
    engFault a code s = ((((s.set (ANA_STATUS_STATE a) anFaulted).set (ANA_FAULT_CODE a) code).set (ANA_FAULT_FPC a)
      (s.get (ANA_PC a))).flag (ANA_STATUS_FAULT a) (801 + 2 * a)) := by
  unfold engFault
  have h1 : (ANA_PC a).key ≠ (ANA_FAULT_CODE a).key := by simp only [ANA_PC, ANA_FAULT_CODE]; omega
  have h2 : (ANA_PC a).key ≠ (ANA_STATUS_STATE a).key := by simp only [ANA_PC, ANA_STATUS_STATE]; omega
  simp only [State.get_set_ne _ _ h1, State.get_set_ne _ _ h2]

/-- An issued instruction whose effect is defined finishes with its flow. -/
theorem engIssue_ok {op a : Nat} {s t : State} {flow : EngFlow} {f : Nat → State → Except Nat (State × EngFlow)}
    (h1 : anaState a s = anRunning) (h2 : engIrqDue a s = false) (h3 : bits (engFetch a s) 26 6 = op)
    (h4 : isBranchOp op = true → branchMisplaced a s = false) (hf : f (engFetch a s) s = .ok (t, flow)) :
    engIssue op a s f = engFinish a flow t := by
  simp only [engIssue, h1, h2, h3]
  by_cases hb : isBranchOp op = true
  · simp [h4 hb, hf]
  · simp [hb, hf]

/-- An issued instruction whose effect is a fault faults with its code. -/
theorem engIssue_error {op a code : Nat} {s : State} {f : Nat → State → Except Nat (State × EngFlow)}
    (h1 : anaState a s = anRunning) (h2 : engIrqDue a s = false) (h3 : bits (engFetch a s) 26 6 = op)
    (h4 : isBranchOp op = true → branchMisplaced a s = false) (hf : f (engFetch a s) s = .error code) :
    engIssue op a s f = engFault a code s := by
  simp only [engIssue, h1, h2, h3]
  by_cases hb : isBranchOp op = true
  · simp [h4 hb, hf]
  · simp [hb, hf]

end Sys2Proof.Machine
end

