-- ==== Sys2Proof/Laws/Evolves.lean ====
section
/-! SUPPORT. What every operation keeps (Evolves), for the plainest operations; the files Laws/Ev*.lean say it of every
operation and of every command, in the order of the model's files. -/

namespace Sys2Proof.Machine

theorem HostIf.Grows.refl (h : HostIf) : h.Grows h := ⟨id, Nat.le_refl _⟩
theorem Excise.Grows.refl (e : Excise) : e.Grows e := ⟨id, Nat.le_refl _⟩

/-- An update of the other fields. -/
theorem HostIf.Grows.upd (h : HostIf) (qmSel : List (Nat × Nat)) (frameRead : List (Nat × Nat × Nat)) (frameHeld : Tab
    Nat) (msix : Tab Msix) (pba : List Nat) (master : List Nat) (eths : Tab EthLine) (secWritten : Bool) (crcs : Tab Crc)
    (logOver : Nat) (logHeld : Nat) (logLost : Bool) (refPresent : Bool) (ryvexUp : Bool) (kilnUp : Bool) (parkLost :
    List Nat) (powered : List Nat) (started : Bool) (recovery : Bool) (posted : List Nat) (waits : List Nat) (porst :
    Bool) (held : List Nat) (enBias : Bool) (enTiles : List Nat) :
    h.Grows (HostIf.mk h.snaps qmSel frameRead frameHeld msix pba master eths secWritten crcs h.log h.logIndex logOver
    logHeld logLost refPresent ryvexUp kilnUp parkLost powered started recovery posted waits porst held enBias enTiles)
    := ⟨id, Nat.le_refl _⟩

/-- An update of the other fields. -/
theorem Excise.Grows.upd (h : Excise) (parts : Tab Part) (up : Bool) (dirty : Bool) (fedAt : Nat) (limitAt : Nat) (viewAt
    : Nat) (downAt : Nat) :
    h.Grows (Excise.mk parts h.epoch up h.cur h.saved dirty fedAt limitAt viewAt downAt) := ⟨id, Nat.le_refl _⟩

/-- A new working copy of the island's data. -/
theorem Excise.Grows.cur (h : Excise) (parts : Tab Part) (up : Bool) (dirty : Bool) (fedAt : Nat) (limitAt : Nat) (viewAt
    : Nat) (downAt : Nat) (c : IslandData)
    (k : h.Sound → c.Sound) : h.Grows (Excise.mk parts h.epoch up c h.saved dirty fedAt limitAt viewAt downAt) :=
  ⟨fun b => ⟨k b, b.2⟩, Nat.le_refl _⟩

/-- A new last commit of the island's data. -/
theorem Excise.Grows.saved (h : Excise) (parts : Tab Part) (up : Bool) (dirty : Bool) (fedAt : Nat) (limitAt : Nat)
    (viewAt : Nat) (downAt : Nat) (c : IslandData)
    (k : h.Sound → c.Sound) : h.Grows (Excise.mk parts h.epoch up h.cur c dirty fedAt limitAt viewAt downAt) :=
  ⟨fun b => ⟨b.1, k b⟩, Nat.le_refl _⟩

theorem Evolves.refl (s : State) : Evolves s s :=
  ⟨id, rfl, List.suffix_rfl, Nat.le_refl _, HostIf.Grows.refl _, Excise.Grows.refl _⟩

theorem Evolves.trans {a s t : State} (h : Evolves a s) (k : Evolves s t) : Evolves a t :=
  ⟨k.canonical ∘ h.canonical, k.pending.trans h.pending, h.outbox.trans k.outbox, Nat.le_trans h.free k.free,
    ⟨k.host.bounded ∘ h.host.bounded, Nat.le_trans h.host.index k.host.index⟩,
    ⟨k.exc.sound ∘ h.exc.sound, Nat.le_trans h.exc.epoch k.exc.epoch⟩⟩

/-- The invariant passes along. -/
theorem Evolves.inv {s t : State} (h : Evolves s t) (i : Inv s) : Inv t :=
  ⟨h.canonical i.canonical, h.host.bounded i.host, h.exc.sound i.exc⟩

/-- An update of the other fields keeps all of it. -/
theorem Evolves.upd {a s : State} (h : Evolves a s)
    (due : List (Nat × Action)) (tl : Timeline) (seqs : Tab Seq) (tuns : Tab Tun) (bars : Tab Barrier) (queues : 
    Tab Queue) (host : HostIf) (recs : List Rec) (exc : Excise) (laus : Tab Lau) (rfis : Tab Rfi) (rv : Tab 
    Tagged) (taps : Tab Tap) (lanes : Tab (List Pulse)) (wft : Wft) (links : Tab Link) (fibres : Tab Lane) (decs : 
    Tab Decision) (rfos : Tab Rfo) (zps : Tab Zp) (cals : Tab Cal) (mons : Tab Mon) (brgs : Tab Bridge) (kiln : 
    Kiln) (anas : Tab Engine) (mbxs : Tab Mbx) (cel : Cellar) (exports : List (Nat × Export)) (relays : Relays) 
    (load : List (Nat × Option Nat)) (broken : List (Nat × Nat)) (fences : Tab Nat)
    (hh : s.host.Grows host) (he : s.exc.Grows exc) :
    Evolves a (State.mk s.pending s.regs s.mem s.outbox due s.free tl seqs tuns bars queues host recs exc laus rfis rv taps lanes wft 
      links fibres decs rfos zps cals mons brgs kiln anas mbxs cel exports relays load broken fences) :=
  h.trans ⟨id, rfl, List.suffix_rfl, Nat.le_refl _, hh, he⟩

theorem State.set_evolves {a s : State} (h : Evolves a s) (f : Fld) (v : Nat) : Evolves a (s.set f v) :=
  h.trans ⟨fun c => ⟨Tab.wf_put 0 _ _ c.1, c.2⟩, rfl, List.suffix_rfl, Nat.le_refl _, HostIf.Grows.refl _,
    Excise.Grows.refl _⟩

/-- A change of the memory alone that keeps its form. -/
theorem Evolves.memory {a s : State} (h : Evolves a s) (m : Memory) (hm : Memory.wf s.mem = true → Memory.wf m = true) :
    Evolves a { s with mem := m } :=
  h.trans ⟨fun c => ⟨c.1, hm c.2⟩, rfl, List.suffix_rfl, Nat.le_refl _, HostIf.Grows.refl _, Excise.Grows.refl _⟩

theorem State.setByte_evolves {a s : State} (h : Evolves a s) (x : Nat) (b : Byte) : Evolves a (s.setByte x b) :=
  h.memory _ (Memory.wf_write x b)

theorem State.emit_evolves {a s : State} (h : Evolves a s) (o : Out) : Evolves a (s.emit o) :=
  h.trans ⟨id, rfl, List.suffix_cons _ _, Nat.le_refl _, HostIf.Grows.refl _, Excise.Grows.refl _⟩

theorem State.fresh_evolves {a s : State} (h : Evolves a s) : Evolves a s.fresh.2 :=
  h.trans ⟨id, rfl, List.suffix_rfl, Nat.le_succ _, HostIf.Grows.refl _, Excise.Grows.refl _⟩

/-- The free counter goes on. -/
theorem Evolves.addFree {a s : State} (h : Evolves a s) (n : Nat) : Evolves a { s with free := s.free + n } :=
  h.trans ⟨id, rfl, List.suffix_rfl, Nat.le_add_right _ _, HostIf.Grows.refl _, Excise.Grows.refl _⟩

theorem Evolves.ite {a s t : State} {c : Prop} [Decidable c] (h : Evolves a s) (k : Evolves a t) :
    Evolves a (if c then s else t) := by
  split
  · exact h
  · exact k

theorem Evolves.ite_snd {a : State} {β : Type} {p q : β × State} {c : Prop} [Decidable c] (h : Evolves a p.2)
    (k : Evolves a q.2) : Evolves a (if c then p else q).2 := by
  split
  · exact h
  · exact k

theorem Evolves.ite_fst {a : State} {β : Type} {p q : State × β} {c : Prop} [Decidable c] (h : Evolves a p.1)
    (k : Evolves a q.1) : Evolves a (if c then p else q).1 := by
  split
  · exact h
  · exact k

theorem Evolves.foldl {a s : State} {α : Type} (l : List α) (f : State → α → State) (h : Evolves a s)
    (hf : ∀ t x, Evolves a t → Evolves a (f t x)) : Evolves a (l.foldl f s) := by
  induction l generalizing s with
  | nil => exact h
  | cons x l ih => exact ih (hf s x h)

/-- A fold over a state beside other data. -/
theorem Evolves.foldl_snd {a : State} {α β : Type} (l : List α) (f : β × State → α → β × State) (p : β × State)
    (h : Evolves a p.2) (hf : ∀ q x, Evolves a q.2 → Evolves a (f q x).2) : Evolves a (l.foldl f p).2 := by
  induction l generalizing p with
  | nil => exact h
  | cons x l ih => exact ih _ (hf p x h)

/-- A fold over a state beside other data. -/
theorem Evolves.foldl_fst {a : State} {α β : Type} (l : List α) (f : State × β → α → State × β) (p : State × β)
    (h : Evolves a p.1) (hf : ∀ q x, Evolves a q.1 → Evolves a (f q x).1) : Evolves a (l.foldl f p).1 := by
  induction l generalizing p with
  | nil => exact h
  | cons x l ih => exact ih _ (hf p x h)

theorem Evolves.fst {a s : State} {β : Type} {p : State × β} {b : β} (e : p = (s, b)) (h : Evolves a p.1) : Evolves a s := by
  subst e; exact h

theorem Evolves.snd {a s : State} {β : Type} {p : β × State} {b : β} (e : p = (b, s)) (h : Evolves a p.2) : Evolves a s := by
  subst e; exact h

theorem Evolves.getD {a s : State} {o : Option State} (h : Evolves a s) (k : ∀ t, o = some t → Evolves a t) :
    Evolves a (o.getD s) := by
  cases o with
  | none => exact h
  | some t => exact k t rfl

/-- A command's answer: a next state, and what every command keeps. -/
def Answers (s : State) (o : Host.Outcome State Fault Refusal) : Prop := ∃ t, o = .next t ∧ Evolves s t

theorem Answers.next {s t : State} (h : Evolves s t) : Answers s (.next t) := ⟨t, rfl, h⟩

theorem Answers.ite {s : State} {c : Prop} [Decidable c] {o q : Host.Outcome State Fault Refusal} (h : Answers s o)
    (k : Answers s q) : Answers s (if c then o else q) := by
  split
  · exact h
  · exact k

end Sys2Proof.Machine
end

