-- ==== Sys2Proof/Laws/EvOps.lean ====
section
/-! SUPPORT. What the operations of Machine/Ops.lean keep (Evolves). -/

namespace Sys2Proof.Machine

theorem State.setB_evolves {base s : State} (ev : Evolves base s) (f : Fld) (b : Bool) :
    Evolves base (State.setB s f b) := by
  unfold State.setB
  repeat' first
    | with_reducible assumption | (intro)
    | with_reducible apply State.set_evolves
    | split | (dsimp only; split)

theorem State.setI_evolves {base s : State} (ev : Evolves base s) (f : Fld) (i : Int) :
    Evolves base (State.setI s f i) := by
  unfold State.setI
  repeat' first
    | with_reducible assumption | (intro)
    | with_reducible apply State.set_evolves
    | split | (dsimp only; split)

theorem State.inc_evolves {base s : State} (ev : Evolves base s) (f : Fld) (n : Nat) :
    Evolves base (State.inc s f n) := by
  unfold State.inc
  repeat' first
    | with_reducible assumption | (intro)
    | with_reducible apply State.set_evolves
    | split | (dsimp only; split)

theorem State.incSat_evolves {base s : State} (ev : Evolves base s) (f : Fld) (n : Nat) :
    Evolves base (State.incSat s f n) := by
  unfold State.incSat
  repeat' first
    | with_reducible assumption | (intro)
    | with_reducible apply State.set_evolves
    | split | (dsimp only; split)

theorem State.later_evolves {base s : State} (ev : Evolves base s) (t : Nat) (a : Action) :
    Evolves base (State.later s t a) := by
  unfold State.later
  repeat' first
    | with_reducible assumption | (intro)
    | split | (dsimp only; split)
    | with_reducible apply Evolves.upd | with_reducible apply HostIf.Grows.refl | with_reducible apply HostIf.Grows.upd
    | with_reducible apply Excise.Grows.refl | with_reducible apply Excise.Grows.upd
    | exact ⟨id, Nat.le_refl _⟩ | exact ⟨id, Nat.le_succ _⟩

theorem State.setBytes_evolves {base s : State} (ev : Evolves base s) (a : Nat) (bs : List Byte) :
    Evolves base (s.setBytes a bs) := by
  induction bs generalizing s a with
  | nil => exact ev
  | cons b bs ih => exact ih (State.setByte_evolves ev a b) (a + 1)

theorem State.wr_evolves {base s : State} (ev : Evolves base s) (a : Nat) (n : Nat) (v : Nat) :
    Evolves base (State.wr s a n v) := by
  unfold State.wr
  repeat' first
    | with_reducible assumption | (intro)
    | with_reducible apply State.setBytes_evolves
    | split | (dsimp only; split)

theorem State.copyBytes_evolves {base s : State} (ev : Evolves base s) (src : Nat) (dst : Nat) (n : Nat) :
    Evolves base (State.copyBytes s src dst n) := by
  unfold State.copyBytes
  repeat' first
    | with_reducible assumption | (intro)
    | with_reducible apply State.setBytes_evolves
    | split | (dsimp only; split)

theorem State.setSeq_evolves {base s : State} (ev : Evolves base s) (k : Nat) (q : Seq) :
    Evolves base (State.setSeq s k q) := by
  unfold State.setSeq
  repeat' first
    | with_reducible assumption | (intro)
    | split | (dsimp only; split)
    | with_reducible apply Evolves.upd | with_reducible apply HostIf.Grows.refl | with_reducible apply HostIf.Grows.upd
    | with_reducible apply Excise.Grows.refl | with_reducible apply Excise.Grows.upd
    | exact ⟨id, Nat.le_refl _⟩ | exact ⟨id, Nat.le_succ _⟩

theorem State.modSeq_evolves {base s : State} (ev : Evolves base s) (k : Nat) (f : Seq → Seq) :
    Evolves base (State.modSeq s k f) := by
  unfold State.modSeq
  repeat' first
    | with_reducible assumption | (intro)
    | with_reducible apply State.setSeq_evolves
    | split | (dsimp only; split)

theorem State.setBar_evolves {base s : State} (ev : Evolves base s) (b : Nat) (x : Barrier) :
    Evolves base (State.setBar s b x) := by
  unfold State.setBar
  repeat' first
    | with_reducible assumption | (intro)
    | split | (dsimp only; split)
    | with_reducible apply Evolves.upd | with_reducible apply HostIf.Grows.refl | with_reducible apply HostIf.Grows.upd
    | with_reducible apply Excise.Grows.refl | with_reducible apply Excise.Grows.upd
    | exact ⟨id, Nat.le_refl _⟩ | exact ⟨id, Nat.le_succ _⟩

theorem State.setQueue_evolves {base s : State} (ev : Evolves base s) (q : Nat) (x : Queue) :
    Evolves base (State.setQueue s q x) := by
  unfold State.setQueue
  repeat' first
    | with_reducible assumption | (intro)
    | split | (dsimp only; split)
    | with_reducible apply Evolves.upd | with_reducible apply HostIf.Grows.refl | with_reducible apply HostIf.Grows.upd
    | with_reducible apply Excise.Grows.refl | with_reducible apply Excise.Grows.upd
    | exact ⟨id, Nat.le_refl _⟩ | exact ⟨id, Nat.le_succ _⟩

theorem State.setTun_evolves {base s : State} (ev : Evolves base s) (t : Nat) (x : Tun) :
    Evolves base (State.setTun s t x) := by
  unfold State.setTun
  repeat' first
    | with_reducible assumption | (intro)
    | split | (dsimp only; split)
    | with_reducible apply Evolves.upd | with_reducible apply HostIf.Grows.refl | with_reducible apply HostIf.Grows.upd
    | with_reducible apply Excise.Grows.refl | with_reducible apply Excise.Grows.upd
    | exact ⟨id, Nat.le_refl _⟩ | exact ⟨id, Nat.le_succ _⟩

theorem State.setMbx_evolves {base s : State} (ev : Evolves base s) (m : Nat) (x : Mbx) :
    Evolves base (State.setMbx s m x) := by
  unfold State.setMbx
  repeat' first
    | with_reducible assumption | (intro)
    | split | (dsimp only; split)
    | with_reducible apply Evolves.upd | with_reducible apply HostIf.Grows.refl | with_reducible apply HostIf.Grows.upd
    | with_reducible apply Excise.Grows.refl | with_reducible apply Excise.Grows.upd
    | exact ⟨id, Nat.le_refl _⟩ | exact ⟨id, Nat.le_succ _⟩

theorem State.setPin_evolves {base s : State} (ev : Evolves base s) (n : Nat) (x : Pin) :
    Evolves base (State.setPin s n x) := by
  unfold State.setPin
  repeat' first
    | with_reducible assumption | (intro)
    | split | (dsimp only; split)
    | with_reducible apply Evolves.upd | with_reducible apply HostIf.Grows.refl | with_reducible apply HostIf.Grows.upd
    | with_reducible apply Excise.Grows.refl | with_reducible apply Excise.Grows.upd
    | exact ⟨id, Nat.le_refl _⟩ | exact ⟨id, Nat.le_succ _⟩

theorem State.showQueue_evolves {base s : State} (ev : Evolves base s) (q : Nat) :
    Evolves base (State.showQueue s q) := by
  unfold State.showQueue
  repeat' first
    | with_reducible assumption | (intro)
    | with_reducible apply State.set_evolves | with_reducible apply State.setB_evolves
    | split | (dsimp only; split)

theorem State.appendRaw_evolves {base s : State} (ev : Evolves base s) (q : Nat) (it : Item) :
    Evolves base (State.appendRaw s q it) := by
  unfold State.appendRaw
  repeat' first
    | with_reducible assumption | (intro)
    | with_reducible apply State.set_evolves | with_reducible apply State.inc_evolves
    | with_reducible apply State.setQueue_evolves | with_reducible apply State.showQueue_evolves
    | split | (dsimp only; split)

theorem State.giveBack_evolves {base s : State} (ev : Evolves base s) (q : Nat) (n : Nat) :
    Evolves base (State.giveBack s q n) := by
  unfold State.giveBack
  repeat' first
    | with_reducible assumption | (intro)
    | with_reducible apply State.set_evolves | with_reducible apply State.inc_evolves
    | split | (dsimp only; split)

theorem State.popHead_evolves {base s : State} (ev : Evolves base s) (q : Nat) : Evolves base (s.popHead q).2 := by
  unfold State.popHead
  dsimp only
  split
  · exact ev
  · exact State.showQueue_evolves (State.giveBack_evolves (State.setQueue_evolves ev _ _) _ _) _

theorem State.countDrop_evolves {base s : State} (ev : Evolves base s) (q : Nat) (n : Nat) :
    Evolves base (State.countDrop s q n) := by
  unfold State.countDrop
  repeat' first
    | with_reducible assumption | (intro)
    | with_reducible apply State.inc_evolves | with_reducible apply State.setQueue_evolves
    | split | (dsimp only; split)

theorem State.sendVector_evolves {base s : State} (ev : Evolves base s) (v : Nat) :
    Evolves base (State.sendVector s v) := by
  unfold State.sendVector
  repeat' first
    | with_reducible assumption | (intro)
    | with_reducible apply State.emit_evolves | with_reducible apply Evolves.ite
    | split | (dsimp only; split)
    | with_reducible apply Evolves.upd | with_reducible apply HostIf.Grows.refl | with_reducible apply HostIf.Grows.upd
    | with_reducible apply Excise.Grows.refl | with_reducible apply Excise.Grows.upd
    | exact ⟨id, Nat.le_refl _⟩ | exact ⟨id, Nat.le_succ _⟩

theorem State.pend_evolves {base s : State} (ev : Evolves base s) (n : Nat) :
    Evolves base (State.pend s n) := by
  unfold State.pend
  repeat' first
    | with_reducible assumption | (intro)
    | with_reducible apply State.set_evolves | with_reducible apply State.sendVector_evolves
    | with_reducible apply Evolves.ite
    | split | (dsimp only; split)

theorem State.logEntry_evolves {base s : State} (ev : Evolves base s) (event : Nat) (code : Nat) :
    Evolves base (State.logEntry s event code).1 := by
  unfold State.logEntry
  dsimp only
  split
  · exact ev.trans ⟨id, rfl, List.suffix_rfl, Nat.le_refl _, ⟨id, Nat.le_refl _⟩, Excise.Grows.refl _⟩
  · refine ev.trans ⟨id, rfl, List.suffix_rfl, Nat.le_refl _, ⟨fun b => ⟨?_, b.2⟩, Nat.le_succ _⟩, Excise.Grows.refl _⟩
    exact Nat.le_trans (List.length_take_le _ _) (Nat.le_refl _)

theorem State.stick_evolves {base s : State} (ev : Evolves base s) (f : Fld) :
    Evolves base (State.stick s f).1 := by
  unfold State.stick
  repeat' first
    | with_reducible assumption | (intro)
    | with_reducible apply State.setB_evolves
    | split | (dsimp only; split)
    | dsimp only

theorem State.eventN_evolves {base s : State} (ev : Evolves base s) (fuel n code : Nat) :
    Evolves base (State.eventN fuel s n code) := by
  induction fuel generalizing s n code with
  | zero => exact State.pend_evolves ev n
  | succ fuel ih =>
    have up : ∀ {t : State} (f : Fld) (n : Nat), Evolves base t →
        Evolves base (if t.on f then t else State.eventN fuel (t.setB f true) n 0) :=
      fun f n h => Evolves.ite h (ih (State.setB_evolves h f true) n 0)
    unfold State.eventN
    refine Evolves.ite (State.pend_evolves ev n) ?_
    have h1 := State.logEntry_evolves (State.pend_evolves ev n) n code
    generalize State.logEntry (s.pend n) n code = p at h1
    obtain ⟨s1, lost⟩ := p
    have h2 : Evolves base (if lost && !s1.host.logLost && s1.on GLB_STATUS_READY then
        State.eventN fuel { s1 with host := { s1.host with logLost := true } } 17 0 else s1) :=
      Evolves.ite (ih (Evolves.upd h1 _ _ _ _ _ _ _ _ _ _ _ _ _ _ _ _ _ _ _ _ _ _ _ _ _ _ _ _ _ _ _ _
        (HostIf.Grows.upd ..) (Excise.Grows.refl _)) 17 0) h1
    dsimp only
    generalize (if lost && !s1.host.logLost && s1.on GLB_STATUS_READY then
        State.eventN fuel { s1 with host := { s1.host with logLost := true } } 17 0 else s1) = s2 at h2 ⊢
    split
    · exact h2
    · refine Evolves.ite ?_ ?_
      · exact Evolves.ite (up _ _ (State.countDrop_evolves h2 _ _)) (State.countDrop_evolves h2 _ _)
      · have h3 := State.appendRaw_evolves h2 0xFFFF { bytes := (‹FaultLog›).bytes }
        have h4 := Evolves.ite (c := (s2.appendRaw 0xFFFF { bytes := (‹FaultLog›).bytes }).poolEmpty = true)
          (up QM_STATUS_POOL_EMPTY 761 h3) h3
        refine Evolves.ite (ih ?_ 764 0) ?_ <;> exact Evolves.ite (up _ _ h4) h4

theorem State.event_evolves {base s : State} (ev : Evolves base s) (n : Nat) (code : Nat) :
    Evolves base (State.event s n code) := by
  unfold State.event
  repeat' first
    | with_reducible assumption | (intro)
    | with_reducible apply State.eventN_evolves
    | split | (dsimp only; split)

theorem State.flag_evolves {base s : State} (ev : Evolves base s) (f : Fld) (n : Nat) :
    Evolves base (State.flag s f n) := by
  unfold State.flag
  repeat' first
    | with_reducible assumption | (intro)
    | with_reducible apply State.stick_evolves | with_reducible apply State.event_evolves
    | with_reducible apply Evolves.ite
    | split | (dsimp only; split)
    | refine Evolves.fst (by with_reducible assumption) ?_ | refine Evolves.snd (by with_reducible assumption) ?_

theorem State.flagAlways_evolves {base s : State} (ev : Evolves base s) (f : Fld) (n : Nat) :
    Evolves base (State.flagAlways s f n) := by
  unfold State.flagAlways
  repeat' first
    | with_reducible assumption | (intro)
    | with_reducible apply State.setB_evolves | with_reducible apply State.event_evolves
    | split | (dsimp only; split)

theorem State.append_evolves {base s : State} (ev : Evolves base s) (q : Nat) (it : Item) :
    Evolves base (State.append s q it) := by
  unfold State.append
  repeat' first
    | with_reducible assumption | (intro)
    | with_reducible apply State.appendRaw_evolves | with_reducible apply State.event_evolves
    | with_reducible apply State.flag_evolves | with_reducible apply Evolves.ite
    | split | (dsimp only; split)

theorem State.noteEmpty_evolves {base s : State} (ev : Evolves base s) (q : Nat) :
    Evolves base (State.noteEmpty s q) := by
  unfold State.noteEmpty
  repeat' first
    | with_reducible assumption | (intro)
    | with_reducible apply State.flag_evolves | with_reducible apply Evolves.ite
    | split | (dsimp only; split)

end Sys2Proof.Machine
end

