-- ==== Sys2Proof/Laws/EvAccess.lean ====
section
/-! SUPPORT. What the operations of Machine/Access.lean keep (Evolves). -/

namespace Sys2Proof.Machine

theorem accessFault_evolves {base s : State} (ev : Evolves base s) (r : Req) (c : AccessCause) (write : Bool) (be : Nat)
    (addr : Nat) (data : Nat) :
    Evolves base (accessFault r c write be addr data s) := by
  unfold accessFault
  repeat' first
    | with_reducible assumption | (intro)
    | with_reducible apply State.set_evolves | with_reducible apply State.setB_evolves
    | with_reducible apply State.inc_evolves | with_reducible apply State.incSat_evolves
    | with_reducible apply State.flag_evolves | with_reducible apply Evolves.ite
    | split | (dsimp only; split)

theorem privileged_evolves {base s : State} (ev : Evolves base s) (r : Req) (f : Fld) (v : Nat) (k : State → State) (hk :
    ∀ t, Evolves base t → Evolves base (k t)) :
    Evolves base (privileged r f v s k) := by
  unfold privileged
  repeat' first
    | with_reducible assumption | (intro)
    | with_reducible apply hk | with_reducible apply accessFault_evolves | with_reducible apply Evolves.ite
    | split | (dsimp only; split)

end Sys2Proof.Machine
end

