-- ==== Sys2Proof/Laws/EvMeter.lean ====
section
/-! SUPPORT. What the operations of Machine/Meter.lean keep (Evolves). -/

namespace Sys2Proof.Machine

theorem State.setPart_evolves {base s : State} (ev : Evolves base s) (n : Nat) (p : Part) :
    Evolves base (State.setPart s n p) := by
  unfold State.setPart
  repeat' first
    | with_reducible assumption | (intro)
    | split | (dsimp only; split)
    | with_reducible apply Evolves.upd | with_reducible apply HostIf.Grows.refl | with_reducible apply HostIf.Grows.upd
    | with_reducible apply Excise.Grows.refl | with_reducible apply Excise.Grows.upd
    | exact ⟨id, Nat.le_refl _⟩ | exact ⟨id, Nat.le_succ _⟩

theorem meterBegin_evolves {base s : State} (ev : Evolves base s) (n : Nat) (t : Nat) :
    Evolves base (meterBegin n t s) := by
  unfold meterBegin
  repeat' first
    | with_reducible assumption | (intro)
    | with_reducible apply State.setPart_evolves
    | split | (dsimp only; split)

theorem meterComplete_evolves {base s : State} (ev : Evolves base s) (n : Nat) (t : Nat) :
    Evolves base (meterComplete n t s) := by
  unfold meterComplete
  repeat' first
    | with_reducible assumption | (intro)
    | with_reducible apply State.setPart_evolves
    | split | (dsimp only; split)

theorem meterAbort_evolves {base s : State} (ev : Evolves base s) (n : Nat) (t : Nat) :
    Evolves base (meterAbort n t s) := by
  unfold meterAbort
  repeat' first
    | with_reducible assumption | (intro)
    | with_reducible apply State.setPart_evolves
    | split | (dsimp only; split)

theorem meterRecord_evolves {base s : State} (ev : Evolves base s) (n : Nat) :
    Evolves base (meterRecord n s) := by
  unfold meterRecord
  repeat' first
    | with_reducible assumption | (intro)
    | with_reducible apply State.setPart_evolves
    | split | (dsimp only; split)

theorem meterReserve_evolves {base s : State} (ev : Evolves base s) (n : Nat) :
    Evolves base (meterReserve n s) := by
  unfold meterReserve
  repeat' first
    | with_reducible assumption | (intro)
    | with_reducible apply State.setPart_evolves
    | split | (dsimp only; split)

theorem meterRelease_evolves {base s : State} (ev : Evolves base s) (n : Nat) :
    Evolves base (meterRelease n s) := by
  unfold meterRelease
  repeat' first
    | with_reducible assumption | (intro)
    | with_reducible apply State.setPart_evolves
    | split | (dsimp only; split)

end Sys2Proof.Machine
end

