-- ==== Sys2Proof/Laws/EvRecords.lean ====
section
/-! SUPPORT. What the operations of Machine/Records.lean keep (Evolves). -/

namespace Sys2Proof.Machine

theorem State.setLau_evolves {base s : State} (ev : Evolves base s) (c : Nat) (x : Lau) :
    Evolves base (State.setLau s c x) := by
  unfold State.setLau
  repeat' first
    | with_reducible assumption | (intro)
    | split | (dsimp only; split)
    | with_reducible apply Evolves.upd | with_reducible apply HostIf.Grows.refl | with_reducible apply HostIf.Grows.upd
    | with_reducible apply Excise.Grows.refl | with_reducible apply Excise.Grows.upd
    | exact ⟨id, Nat.le_refl _⟩ | exact ⟨id, Nat.le_succ _⟩

theorem lauFlag_evolves {base s : State} (ev : Evolves base s) (c : Nat) (f : Fld) :
    Evolves base (lauFlag c f s) := by
  unfold lauFlag
  repeat' first
    | with_reducible assumption | (intro)
    | with_reducible apply State.flagAlways_evolves
    | split | (dsimp only; split)

theorem lauFlags_evolves {base s : State} (ev : Evolves base s) (c : Nat) (flags : Nat) :
    Evolves base (lauFlags c flags s) := by
  unfold lauFlags
  repeat' first
    | with_reducible assumption | (intro)
    | with_reducible apply lauFlag_evolves | with_reducible apply Evolves.ite
    | split | (dsimp only; split)

theorem produce_evolves {base s : State} (ev : Evolves base s) (r : Rec) :
    Evolves base (produce r s) := by
  unfold produce
  repeat' first
    | with_reducible assumption | (intro)
    | with_reducible apply meterRecord_evolves | with_reducible apply State.inc_evolves
    | with_reducible apply State.incSat_evolves | with_reducible apply lauFlags_evolves
    | with_reducible apply State.modSeq_evolves | with_reducible apply Evolves.ite
    | split | (dsimp only; split)
    | with_reducible apply Evolves.upd | with_reducible apply HostIf.Grows.refl | with_reducible apply HostIf.Grows.upd
    | with_reducible apply Excise.Grows.refl | with_reducible apply Excise.Grows.upd
    | exact ⟨id, Nat.le_refl _⟩ | exact ⟨id, Nat.le_succ _⟩

end Sys2Proof.Machine
end

