-- ==== Sys2Proof/Laws/EvSequencer.lean ====
section
/-! SUPPORT. What the operations of Machine/Sequencer.lean keep (Evolves). -/

namespace Sys2Proof.Machine

theorem setSeqState_evolves {base s : State} (ev : Evolves base s) (k : Nat) (st : Nat) :
    Evolves base (setSeqState k st s) := by
  unfold setSeqState
  repeat' first
    | with_reducible assumption | (intro)
    | with_reducible apply State.set_evolves | with_reducible apply State.event_evolves | with_reducible apply Evolves.ite
    | split | (dsimp only; split)

theorem stallSeq_evolves {base s : State} (ev : Evolves base s) (k : Nat) (c : Stall) (t : Nat) :
    Evolves base (stallSeq k c t s) := by
  unfold stallSeq
  repeat' first
    | with_reducible assumption | (intro)
    | with_reducible apply State.set_evolves | with_reducible apply setSeqState_evolves
    | with_reducible apply State.modSeq_evolves
    | split | (dsimp only; split)

theorem unstall_evolves {base s : State} (ev : Evolves base s) (k : Nat) (t : Nat) :
    Evolves base (unstall k t s) := by
  unfold unstall
  repeat' first
    | with_reducible assumption | (intro)
    | with_reducible apply State.set_evolves | with_reducible apply setSeqState_evolves
    | with_reducible apply State.modSeq_evolves
    | with_reducible apply Evolves.getD
    | split | (dsimp only; split)

theorem setPc_evolves {base s : State} (ev : Evolves base s) (k : Nat) (pc : Nat) :
    Evolves base (setPc k pc s) := by
  unfold setPc
  repeat' first
    | with_reducible assumption | (intro)
    | with_reducible apply State.set_evolves | with_reducible apply State.modSeq_evolves
    | split | (dsimp only; split)

theorem setGreg_evolves {base s : State} (ev : Evolves base s) (k : Nat) (n : Nat) (v : Nat) :
    Evolves base (setGreg k n v s) := by
  unfold setGreg
  repeat' first
    | with_reducible assumption | (intro)
    | with_reducible apply State.set_evolves
    | split | (dsimp only; split)

theorem advCursor_evolves {base s : State} (ev : Evolves base s) (k : Nat) (n : Nat) :
    Evolves base (advCursor k n s) := by
  unfold advCursor
  repeat' first
    | with_reducible assumption | (intro)
    | with_reducible apply State.set_evolves
    | split | (dsimp only; split)

theorem raiseCursor_evolves {base s : State} (ev : Evolves base s) (k : Nat) (t : Nat) :
    Evolves base (raiseCursor k t s) := by
  unfold raiseCursor
  repeat' first
    | with_reducible assumption | (intro)
    | with_reducible apply State.set_evolves
    | split | (dsimp only; split)

theorem setTeq_evolves {base s : State} (ev : Evolves base s) (k : Nat) (j : Nat) (es : List Entry) :
    Evolves base (setTeq k j es s) := by
  unfold setTeq
  repeat' first
    | with_reducible assumption | (intro)
    | with_reducible apply State.set_evolves | with_reducible apply State.setB_evolves
    | with_reducible apply State.modSeq_evolves
    | split | (dsimp only; split)

theorem abortRecords_evolves {base s : State} (ev : Evolves base s) (es : List Entry) (t : Nat) (toRv : Bool) :
    Evolves base (abortRecords es t toRv s) := by
  unfold abortRecords
  repeat' first
    | with_reducible assumption | (intro)
    | with_reducible apply produce_evolves | with_reducible apply Evolves.ite | with_reducible apply Evolves.foldl
    | with_reducible apply Evolves.foldl_snd | with_reducible apply Evolves.foldl_fst
    | split | (dsimp only; split)

theorem State.setCal_evolves {base s : State} (ev : Evolves base s) (a : Nat) (x : Cal) :
    Evolves base (State.setCal s a x) := by
  unfold State.setCal
  repeat' first
    | with_reducible assumption | (intro)
    | split | (dsimp only; split)
    | with_reducible apply Evolves.upd | with_reducible apply HostIf.Grows.refl | with_reducible apply HostIf.Grows.upd
    | with_reducible apply Excise.Grows.refl | with_reducible apply Excise.Grows.upd
    | exact ⟨id, Nat.le_refl _⟩ | exact ⟨id, Nat.le_succ _⟩

theorem noteTile_evolves {base s : State} (ev : Evolves base s) (a : Nat) (t : Nat) :
    Evolves base (noteTile a t s) := by
  unfold noteTile
  repeat' first
    | with_reducible assumption | (intro)
    | with_reducible apply State.setCal_evolves
    | split | (dsimp only; split)

theorem noteEntry_evolves {base s : State} (ev : Evolves base s) (e : Entry) (t : Nat) :
    Evolves base (noteEntry e t s) := by
  unfold noteEntry
  repeat' first
    | with_reducible assumption | (intro)
    | with_reducible apply noteTile_evolves
    | split | (dsimp only; split)
    | refine Evolves.fst (by with_reducible assumption) ?_ | refine Evolves.snd (by with_reducible assumption) ?_

theorem discardEntries_evolves {base s : State} (ev : Evolves base s) (k : Nat) (p : Entry → Bool) (t : Nat) (toRv :
    Entry → Bool) :
    Evolves base (discardEntries k p t toRv s) := by
  unfold discardEntries
  repeat' first
    | with_reducible assumption | (intro)
    | with_reducible apply setTeq_evolves | with_reducible apply abortRecords_evolves
    | with_reducible apply noteEntry_evolves | with_reducible apply State.setQueue_evolves
    | with_reducible apply Evolves.foldl | with_reducible apply Evolves.foldl_snd | with_reducible apply Evolves.foldl_fst
    | split | (dsimp only; split)

theorem abortShot_evolves {base s : State} (ev : Evolves base s) (k : Nat) (n : Nat) (t : Nat) :
    Evolves base (abortShot k n t s) := by
  unfold abortShot
  repeat' first
    | with_reducible assumption | (intro)
    | with_reducible apply meterAbort_evolves | with_reducible apply State.modSeq_evolves
    | with_reducible apply discardEntries_evolves
    | split | (dsimp only; split)

theorem abortShots_evolves {base s : State} (ev : Evolves base s) (k : Nat) (ns : List Nat) (t : Nat) :
    Evolves base (abortShots k ns t s) := by
  unfold abortShots
  repeat' first
    | with_reducible assumption | (intro)
    | with_reducible apply abortShot_evolves | with_reducible apply Evolves.foldl | with_reducible apply Evolves.foldl_snd
    | with_reducible apply Evolves.foldl_fst
    | split | (dsimp only; split)

theorem showBarrier_evolves {base s : State} (ev : Evolves base s) (b : Nat) :
    Evolves base (showBarrier b s) := by
  unfold showBarrier
  repeat' first
    | with_reducible assumption | (intro)
    | with_reducible apply State.set_evolves | with_reducible apply Evolves.ite | with_reducible apply Evolves.foldl
    | with_reducible apply Evolves.foldl_snd | with_reducible apply Evolves.foldl_fst
    | split | (dsimp only; split)

theorem settle_evolves {base s : State} (ev : Evolves base s) (b : Nat) (t : Nat) :
    Evolves base (settle b t s) := by
  unfold settle
  repeat' first
    | with_reducible assumption | (intro)
    | with_reducible apply State.setBar_evolves
    | split | (dsimp only; split)

theorem withdraw_evolves {base s : State} (ev : Evolves base s) (k : Nat) (t : Nat) :
    Evolves base (withdraw k t s) := by
  unfold withdraw
  repeat' first
    | with_reducible assumption | (intro)
    | with_reducible apply State.setBar_evolves | with_reducible apply showBarrier_evolves
    | with_reducible apply settle_evolves
    | split | (dsimp only; split)
    | refine Evolves.fst (by with_reducible assumption) ?_ | refine Evolves.snd (by with_reducible assumption) ?_

theorem arrive_evolves {base s : State} (ev : Evolves base s) (k : Nat) (b : Nat) (t : Nat) :
    Evolves base (arrive k b t s) := by
  unfold arrive
  repeat' first
    | with_reducible assumption | (intro)
    | with_reducible apply State.setBar_evolves | with_reducible apply showBarrier_evolves
    | with_reducible apply settle_evolves | with_reducible apply Evolves.ite
    | split | (dsimp only; split)

theorem abortAt_evolves {base s : State} (ev : Evolves base s) (k : Nat) (kind : AbortKind) (code : Nat) (upc : Nat) (pc
    : Nat) (commits : Nat) (t : Nat) :
    Evolves base (abortAt k kind code upc pc commits t s) := by
  unfold abortAt
  repeat' first
    | with_reducible assumption | (intro)
    | with_reducible apply State.set_evolves | with_reducible apply setSeqState_evolves
    | with_reducible apply State.inc_evolves | with_reducible apply State.incSat_evolves
    | with_reducible apply State.later_evolves | with_reducible apply meterRelease_evolves
    | with_reducible apply State.modSeq_evolves | with_reducible apply abortShots_evolves
    | with_reducible apply withdraw_evolves | with_reducible apply Evolves.ite
    | split | (dsimp only; split)
    | refine Evolves.fst (by with_reducible assumption) ?_ | refine Evolves.snd (by with_reducible assumption) ?_

theorem abortTrap_evolves {base s : State} (ev : Evolves base s) (k : Nat) (kind : AbortKind) (code : Nat) (upc : Nat)
    (commits : Nat) (t : Nat) :
    Evolves base (abortTrap k kind code upc commits t s) := by
  unfold abortTrap
  repeat' first
    | with_reducible assumption | (intro)
    | with_reducible apply abortAt_evolves
    | split | (dsimp only; split)

theorem abortEnd_evolves {base s : State} (ev : Evolves base s) (k : Nat) (t : Nat) :
    Evolves base (abortEnd k t s) := by
  unfold abortEnd
  repeat' first
    | with_reducible assumption | (intro)
    | with_reducible apply State.set_evolves | with_reducible apply setSeqState_evolves
    | with_reducible apply setPc_evolves | with_reducible apply raiseCursor_evolves
    | with_reducible apply State.modSeq_evolves | with_reducible apply Evolves.ite
    | split | (dsimp only; split)
    | refine Evolves.fst (by with_reducible assumption) ?_ | refine Evolves.snd (by with_reducible assumption) ?_

theorem stopTrap_evolves {base s : State} (ev : Evolves base s) (k : Nat) (kind : AbortKind) (t : Nat) :
    Evolves base (stopTrap k kind t s) := by
  unfold stopTrap
  repeat' first
    | with_reducible assumption | (intro)
    | with_reducible apply State.modSeq_evolves | with_reducible apply abortShots_evolves
    | with_reducible apply abortTrap_evolves | with_reducible apply Evolves.ite
    | split | (dsimp only; split)

theorem retire_evolves {base s : State} (ev : Evolves base s) (k : Nat) (t : Nat) :
    Evolves base (retire k t s) := by
  unfold retire
  repeat' first
    | with_reducible assumption | (intro)
    | with_reducible apply setPc_evolves | with_reducible apply State.modSeq_evolves
    | split | (dsimp only; split)
    | refine Evolves.fst (by with_reducible assumption) ?_ | refine Evolves.snd (by with_reducible assumption) ?_

theorem retireTo_evolves {base s : State} (ev : Evolves base s) (k : Nat) (pc : Nat) (t : Nat) :
    Evolves base (retireTo k pc t s) := by
  unfold retireTo
  repeat' first
    | with_reducible assumption | (intro)
    | with_reducible apply setPc_evolves | with_reducible apply State.modSeq_evolves
    | split | (dsimp only; split)

theorem branchTo_evolves {base s : State} (ev : Evolves base s) (k : Nat) (target : Nat) (t : Nat) :
    Evolves base (branchTo k target t s) := by
  unfold branchTo
  repeat' first
    | with_reducible assumption | (intro)
    | with_reducible apply State.modSeq_evolves | with_reducible apply retireTo_evolves
    | split | (dsimp only; split)

theorem noteSlack_evolves {base s : State} (ev : Evolves base s) (k : Nat) (tw : Nat) :
    Evolves base (noteSlack k tw s) := by
  unfold noteSlack
  repeat' first
    | with_reducible assumption | (intro)
    | with_reducible apply State.setI_evolves | with_reducible apply Evolves.ite
    | split | (dsimp only; split)

theorem putEntry_evolves {base s : State} (ev : Evolves base s) (k : Nat) (w : HeldWrite) (j : Nat) :
    Evolves base (putEntry k w j s) := by
  unfold putEntry
  repeat' first
    | with_reducible assumption | (intro)
    | with_reducible apply State.inc_evolves | with_reducible apply setGreg_evolves | with_reducible apply setTeq_evolves
    | with_reducible apply State.modSeq_evolves | with_reducible apply State.setQueue_evolves
    | with_reducible apply Evolves.ite
    | with_reducible apply Evolves.getD
    | split | (dsimp only; split)
    | refine Evolves.fst (by with_reducible assumption) ?_ | refine Evolves.snd (by with_reducible assumption) ?_

theorem popTeq_evolves {base s : State} (ev : Evolves base s) (k : Nat) (j : Nat) (t : Nat) :
    Evolves base (popTeq k j t s) := by
  unfold popTeq
  repeat' first
    | with_reducible assumption | (intro)
    | with_reducible apply setTeq_evolves | with_reducible apply State.modSeq_evolves | with_reducible apply Evolves.ite
    | split | (dsimp only; split)
    | refine Evolves.fst (by with_reducible assumption) ?_ | refine Evolves.snd (by with_reducible assumption) ?_

end Sys2Proof.Machine
end

