-- ==== Sys2Proof/Laws/EvFlavas.lean ====
section
/-! SUPPORT. What the operations of Machine/Flavas.lean keep (Evolves). -/

namespace Sys2Proof.Machine

theorem State.setLink_evolves {base s : State} (ev : Evolves base s) (n : Nat) (x : Link) :
    Evolves base (State.setLink s n x) := by
  unfold State.setLink
  repeat' first
    | with_reducible assumption | (intro)
    | split | (dsimp only; split)
    | with_reducible apply Evolves.upd | with_reducible apply HostIf.Grows.refl | with_reducible apply HostIf.Grows.upd
    | with_reducible apply Excise.Grows.refl | with_reducible apply Excise.Grows.upd
    | exact ⟨id, Nat.le_refl _⟩ | exact ⟨id, Nat.le_succ _⟩

theorem State.setFibre_evolves {base s : State} (ev : Evolves base s) (l : Nat) (x : Lane) :
    Evolves base (State.setFibre s l x) := by
  unfold State.setFibre
  repeat' first
    | with_reducible assumption | (intro)
    | split | (dsimp only; split)
    | with_reducible apply Evolves.upd | with_reducible apply HostIf.Grows.refl | with_reducible apply HostIf.Grows.upd
    | with_reducible apply Excise.Grows.refl | with_reducible apply Excise.Grows.upd
    | exact ⟨id, Nat.le_refl _⟩ | exact ⟨id, Nat.le_succ _⟩

theorem setLinkState_evolves {base s : State} (ev : Evolves base s) (n : Nat) (st : Nat) (t : Nat) :
    Evolves base (setLinkState n st t s) := by
  unfold setLinkState
  repeat' first
    | with_reducible assumption | (intro)
    | with_reducible apply State.setLink_evolves | with_reducible apply State.set_evolves
    | with_reducible apply State.event_evolves | with_reducible apply Evolves.ite
    | split | (dsimp only; split)

theorem injectPending_evolves {base x2 : State} (ev : Evolves base x2) (x0 : Nat) (x1 : List Nat) :
    Evolves base (injectPending x0 x1 x2).2 := by
  induction x0 generalizing x2 x1 with
  | zero =>
    unfold injectPending
    repeat' first
      | with_reducible assumption | (intro)
      | with_reducible apply State.fresh_evolves
      | split | (dsimp only; split)
      | refine Evolves.fst (by with_reducible assumption) ?_ | refine Evolves.snd (by with_reducible assumption) ?_
      | dsimp only
  | succ fuel ih =>
    unfold injectPending
    repeat' first
      | with_reducible apply ih
      | with_reducible assumption | (intro)
      | with_reducible apply State.fresh_evolves
      | split | (dsimp only; split)
      | refine Evolves.fst (by with_reducible assumption) ?_ | refine Evolves.snd (by with_reducible assumption) ?_
      | dsimp only

theorem laneSend_evolves {base s : State} (ev : Evolves base s) (n : Nat) (f : Nat) (l : Nat) :
    Evolves base (laneSend n f l s) := by
  unfold laneSend
  repeat' first
    | with_reducible assumption | (intro)
    | with_reducible apply State.setFibre_evolves | with_reducible apply State.emit_evolves
    | with_reducible apply injectPending_evolves
    | split | (dsimp only; split)

theorem sendFlit_evolves {base s : State} (ev : Evolves base s) (n : Nat) (msgs : List Nat) :
    Evolves base (sendFlit n msgs s) := by
  unfold sendFlit
  repeat' first
    | with_reducible assumption | (intro)
    | with_reducible apply State.setLink_evolves | with_reducible apply State.set_evolves
    | with_reducible apply State.inc_evolves | with_reducible apply State.emit_evolves
    | with_reducible apply laneSend_evolves | with_reducible apply Evolves.foldl | with_reducible apply Evolves.foldl_snd
    | with_reducible apply Evolves.foldl_fst
    | split | (dsimp only; split)

theorem takeMsgs_evolves {base : State} (n room : Nat) (vs : List Nat) (r : List Nat × State) (ev : Evolves base r.2) :
    Evolves base (takeMsgs n room vs r).2 := by
  fun_induction takeMsgs n room vs r with
  | case1 => exact ev
  | case2 => exact ev
  | case3 room v vs ms s s' h ih => exact ih (Evolves.snd h (State.popHead_evolves ev _))
  | case4 room v vs ms s it s' h s2 ih =>
    refine ih ?_
    have := Evolves.snd h (State.popHead_evolves ev _)
    exact Evolves.ite (State.setLink_evolves this _ _) this

theorem flvPump_evolves {base x2 : State} (ev : Evolves base x2) (n : Nat) (x1 : Nat) :
    Evolves base (flvPump n x1 x2) := by
  induction x1 generalizing x2 with
  | zero =>
    unfold flvPump
    repeat' first
      | with_reducible assumption | (intro)
      | with_reducible apply sendFlit_evolves | with_reducible apply takeMsgs_evolves | with_reducible apply Evolves.ite
      | split | (dsimp only; split)
      | refine Evolves.fst (by with_reducible assumption) ?_ | refine Evolves.snd (by with_reducible assumption) ?_
  | succ fuel ih =>
    unfold flvPump
    repeat' first
      | with_reducible apply ih
      | with_reducible assumption | (intro)
      | with_reducible apply sendFlit_evolves | with_reducible apply takeMsgs_evolves | with_reducible apply Evolves.ite
      | split | (dsimp only; split)
      | refine Evolves.fst (by with_reducible assumption) ?_ | refine Evolves.snd (by with_reducible assumption) ?_

theorem txDrop_evolves {base s : State} (ev : Evolves base s) (m : Nat) :
    Evolves base (txDrop m s) := by
  unfold txDrop
  repeat' first
    | with_reducible assumption | (intro)
    | with_reducible apply State.incSat_evolves | with_reducible apply State.flag_evolves
    | with_reducible apply Evolves.ite
    | split | (dsimp only; split)

theorem startExit_evolves {base s : State} (ev : Evolves base s) (n : Nat) :
    Evolves base (startExit n s) := by
  unfold startExit
  repeat' first
    | with_reducible assumption | (intro)
    | with_reducible apply State.setLink_evolves | with_reducible apply Evolves.ite
    | split | (dsimp only; split)

theorem linkSend_evolves {base s : State} (ev : Evolves base s) (n : Nat) (m : Nat) :
    Evolves base (linkSend n m s) := by
  unfold linkSend
  repeat' first
    | with_reducible assumption | (intro)
    | with_reducible apply flvPump_evolves | with_reducible apply txDrop_evolves | with_reducible apply startExit_evolves
    | with_reducible apply State.append_evolves | with_reducible apply State.noteEmpty_evolves
    | with_reducible apply Evolves.ite
    | split | (dsimp only; split)

theorem txIngress_evolves {base s : State} (ev : Evolves base s) (m : Nat) :
    Evolves base (txIngress m s) := by
  unfold txIngress
  repeat' first
    | with_reducible assumption | (intro)
    | with_reducible apply txDrop_evolves | with_reducible apply linkSend_evolves | with_reducible apply Evolves.ite
    | split | (dsimp only; split)

theorem sendResult_evolves {base s : State} (ev : Evolves base s) (dst : Nat) (rpair : Nat) (state : Nat) (gen : Nat)
    (inv : Bool) (t : Nat) :
    Evolves base (sendResult dst rpair state gen inv t s) := by
  unfold sendResult
  repeat' first
    | with_reducible assumption | (intro)
    | with_reducible apply txIngress_evolves
    | split | (dsimp only; split)

theorem rxDrop_evolves {base s : State} (ev : Evolves base s)  :
    Evolves base (rxDrop s) := by
  unfold rxDrop
  repeat' first
    | with_reducible assumption | (intro)
    | with_reducible apply State.incSat_evolves | with_reducible apply State.flag_evolves
    | split | (dsimp only; split)

theorem linkRestore_evolves {base s : State} (ev : Evolves base s) (n : Nat) (depth : Nat) :
    Evolves base (linkRestore n depth s) := by
  unfold linkRestore
  repeat' first
    | with_reducible assumption | (intro)
    | with_reducible apply State.setLink_evolves | with_reducible apply State.set_evolves
    | with_reducible apply State.inc_evolves | with_reducible apply State.flag_evolves | with_reducible apply Evolves.ite
    | split | (dsimp only; split)

theorem clearLatency_evolves {base s : State} (ev : Evolves base s) (n : Nat) :
    Evolves base (clearLatency n s) := by
  unfold clearLatency
  repeat' first
    | with_reducible assumption | (intro)
    | with_reducible apply State.setB_evolves
    | split | (dsimp only; split)

theorem setLocks_evolves {base s : State} (ev : Evolves base s) (n : Nat) (on : Bool) :
    Evolves base (setLocks n on s) := by
  unfold setLocks
  repeat' first
    | with_reducible assumption | (intro)
    | with_reducible apply State.setB_evolves | with_reducible apply Evolves.foldl
    | with_reducible apply Evolves.foldl_snd | with_reducible apply Evolves.foldl_fst
    | split | (dsimp only; split)

theorem holdFlits_evolves {base s : State} (ev : Evolves base s) (n : Nat) (t : Nat) :
    Evolves base (holdFlits n t s) := by
  unfold holdFlits
  repeat' first
    | with_reducible assumption | (intro)
    | with_reducible apply State.setLink_evolves | with_reducible apply Evolves.ite
    | split | (dsimp only; split)

theorem flitConsume_evolves {base s : State} (ev : Evolves base s) (n : Nat) :
    Evolves base (flitConsume n s) := by
  unfold flitConsume
  repeat' first
    | with_reducible assumption | (intro)
    | with_reducible apply State.setLink_evolves | with_reducible apply State.inc_evolves
    | with_reducible apply Evolves.ite
    | split | (dsimp only; split)

theorem flitFlush_evolves {base s : State} (ev : Evolves base s) (n : Nat) :
    Evolves base (flitFlush n s) := by
  unfold flitFlush
  repeat' first
    | with_reducible assumption | (intro)
    | with_reducible apply State.incSat_evolves | with_reducible apply flitConsume_evolves
    | split | (dsimp only; split)

theorem retrain_evolves {base s : State} (ev : Evolves base s) (n : Nat) (t : Nat) :
    Evolves base (retrain n t s) := by
  unfold retrain
  repeat' first
    | with_reducible assumption | (intro)
    | with_reducible apply State.incSat_evolves | with_reducible apply setLinkState_evolves
    | with_reducible apply setLocks_evolves | with_reducible apply holdFlits_evolves
    | split | (dsimp only; split)

theorem startTime_evolves {base s : State} (ev : Evolves base s) (n : Nat) (t : Nat) :
    Evolves base (startTime n t s) := by
  unfold startTime
  repeat' first
    | with_reducible assumption | (intro)
    | with_reducible apply State.setLink_evolves | with_reducible apply linkSend_evolves
    | split | (dsimp only; split)

theorem linkActive_evolves {base s : State} (ev : Evolves base s) (n : Nat) (t : Nat) :
    Evolves base (linkActive n t s) := by
  unfold linkActive
  repeat' first
    | with_reducible assumption | (intro)
    | with_reducible apply State.setFibre_evolves | with_reducible apply setLinkState_evolves
    | with_reducible apply flvPump_evolves | with_reducible apply clearLatency_evolves
    | with_reducible apply startTime_evolves | with_reducible apply Evolves.ite | with_reducible apply Evolves.foldl
    | with_reducible apply Evolves.foldl_snd | with_reducible apply Evolves.foldl_fst
    | split | (dsimp only; split)

theorem enterIdle_evolves {base s : State} (ev : Evolves base s) (n : Nat) (t : Nat) :
    Evolves base (enterIdle n t s) := by
  unfold enterIdle
  repeat' first
    | with_reducible assumption | (intro)
    | with_reducible apply State.setLink_evolves | with_reducible apply State.emit_evolves
    | with_reducible apply setLinkState_evolves | with_reducible apply Evolves.ite
    | split | (dsimp only; split)

theorem laneUnlock_evolves {base s : State} (ev : Evolves base s) (l : Nat) (t : Nat) :
    Evolves base (laneUnlock l t s) := by
  unfold laneUnlock
  repeat' first
    | with_reducible assumption | (intro)
    | with_reducible apply State.setFibre_evolves | with_reducible apply State.setB_evolves
    | with_reducible apply State.inc_evolves
    | split | (dsimp only; split)

end Sys2Proof.Machine
end

