-- ==== Sys2Proof/Laws/EvTapOps.lean ====
section
/-! SUPPORT. What the operations of Machine/TapOps.lean keep (Evolves). -/

namespace Sys2Proof.Machine

theorem State.setTap_evolves {base s : State} (ev : Evolves base s) (i : Nat) (x : Tap) :
    Evolves base (State.setTap s i x) := by
  unfold State.setTap
  repeat' first
    | with_reducible assumption | (intro)
    | split | (dsimp only; split)
    | with_reducible apply Evolves.upd | with_reducible apply HostIf.Grows.refl | with_reducible apply HostIf.Grows.upd
    | with_reducible apply Excise.Grows.refl | with_reducible apply Excise.Grows.upd
    | exact ⟨id, Nat.le_refl _⟩ | exact ⟨id, Nat.le_succ _⟩

theorem noteLoad_evolves {base s : State} (ev : Evolves base s)  :
    Evolves base (noteLoad s) := by
  unfold noteLoad
  repeat' first
    | with_reducible assumption | (intro)
    | split | (dsimp only; split)
    | refine Evolves.fst (by with_reducible assumption) ?_ | refine Evolves.snd (by with_reducible assumption) ?_
    | with_reducible apply Evolves.upd | with_reducible apply HostIf.Grows.refl | with_reducible apply HostIf.Grows.upd
    | with_reducible apply Excise.Grows.refl | with_reducible apply Excise.Grows.upd
    | exact ⟨id, Nat.le_refl _⟩ | exact ⟨id, Nat.le_succ _⟩

theorem setTapState_evolves {base s : State} (ev : Evolves base s) (i : Nat) (st : Nat) (at_ : Nat) :
    Evolves base (setTapState i st at_ s) := by
  unfold setTapState
  repeat' first
    | with_reducible assumption | (intro)
    | with_reducible apply State.setTap_evolves | with_reducible apply State.set_evolves
    | split | (dsimp only; split)

theorem tapReserve_evolves {base s : State} (ev : Evolves base s) (i : Nat) (t : Nat) :
    Evolves base (tapReserve i t s) := by
  unfold tapReserve
  repeat' first
    | with_reducible assumption | (intro)
    | with_reducible apply State.setTap_evolves | with_reducible apply setTapState_evolves
    | with_reducible apply Evolves.ite
    | split | (dsimp only; split)

theorem tapRelease_evolves {base s : State} (ev : Evolves base s) (i : Nat) (at_ : Nat) :
    Evolves base (tapRelease i at_ s) := by
  unfold tapRelease
  repeat' first
    | with_reducible assumption | (intro)
    | with_reducible apply State.setTap_evolves | with_reducible apply State.setB_evolves
    | with_reducible apply setTapState_evolves | with_reducible apply Evolves.ite
    | split | (dsimp only; split)

theorem tapDisarm_evolves {base s : State} (ev : Evolves base s) (i : Nat) :
    Evolves base (tapDisarm i s) := by
  unfold tapDisarm
  repeat' first
    | with_reducible assumption | (intro)
    | with_reducible apply State.setTap_evolves | with_reducible apply tapRelease_evolves
    | with_reducible apply Evolves.ite
    | split | (dsimp only; split)

theorem tapArmDue_evolves {base s : State} (ev : Evolves base s) (i : Nat) (at_ : Nat) :
    Evolves base (tapArmDue i at_ s) := by
  unfold tapArmDue
  repeat' first
    | with_reducible assumption | (intro)
    | with_reducible apply State.setTap_evolves | with_reducible apply State.set_evolves
    | with_reducible apply State.inc_evolves | with_reducible apply tapReserve_evolves | with_reducible apply Evolves.ite
    | split | (dsimp only; split)

theorem tapRearmed_evolves {base s : State} (ev : Evolves base s) (i : Nat) (t : Nat) :
    Evolves base (tapRearmed i t s) := by
  unfold tapRearmed
  repeat' first
    | with_reducible assumption | (intro)
    | with_reducible apply tapReserve_evolves | with_reducible apply Evolves.ite
    | split | (dsimp only; split)

theorem tapMiss_evolves {base s : State} (ev : Evolves base s) (i : Nat) (cause : Nat) (kind : Nat) (detail : Nat) (stamp
    : Nat) :
    Evolves base (tapMiss i cause kind detail stamp s) := by
  unfold tapMiss
  repeat' first
    | with_reducible assumption | (intro)
    | with_reducible apply State.setTap_evolves | with_reducible apply State.set_evolves
    | with_reducible apply State.inc_evolves | with_reducible apply State.flag_evolves
    | split | (dsimp only; split)

theorem tapCapture_evolves {base s : State} (ev : Evolves base s) (i : Nat) (m : TapMark) (e : TapEv) :
    Evolves base (tapCapture i m e s) := by
  unfold tapCapture
  repeat' first
    | with_reducible assumption | (intro)
    | with_reducible apply State.setTap_evolves | with_reducible apply State.inc_evolves
    | with_reducible apply setTapState_evolves
    | split | (dsimp only; split)

theorem tapJudge_evolves {base s : State} (ev : Evolves base s) (i : Nat) (e : TapEv) :
    Evolves base (tapJudge i e s) := by
  unfold tapJudge
  repeat' first
    | with_reducible assumption | (intro)
    | with_reducible apply State.setTap_evolves | with_reducible apply State.inc_evolves
    | with_reducible apply tapMiss_evolves | with_reducible apply tapCapture_evolves | with_reducible apply Evolves.ite
    | split | (dsimp only; split)

theorem tapRun_evolves {base s : State} (ev : Evolves base s) (i : Nat) (key : Nat) :
    Evolves base (tapRun i key s) := by
  unfold tapRun
  repeat' first
    | with_reducible assumption | (intro)
    | with_reducible apply State.setTap_evolves | with_reducible apply tapJudge_evolves
    | with_reducible apply Evolves.foldl | with_reducible apply Evolves.foldl_snd | with_reducible apply Evolves.foldl_fst
    | split | (dsimp only; split)

theorem tapTrigger_evolves {base s : State} (ev : Evolves base s) (i : Nat) (prio : Nat) (kind : Nat) (detail : Nat) (tag
    : Nat) (seq : Nat) (stamp : Nat) :
    Evolves base (tapTrigger i prio kind detail tag seq stamp s) := by
  unfold tapTrigger
  repeat' first
    | with_reducible assumption | (intro)
    | with_reducible apply State.setTap_evolves | with_reducible apply State.later_evolves
    | split | (dsimp only; split)

theorem tapWindow_evolves {base s : State} (ev : Evolves base s) (c : Nat) (w0 : Nat) :
    Evolves base (tapWindow c w0 s) := by
  unfold tapWindow
  repeat' first
    | with_reducible assumption | (intro)
    | with_reducible apply tapTrigger_evolves | with_reducible apply Evolves.ite
    | split | (dsimp only; split)

theorem tapSource_evolves {base s : State} (ev : Evolves base s) (code : Nat) (stamp : Nat) :
    Evolves base (tapSource code stamp s) := by
  unfold tapSource
  repeat' first
    | with_reducible assumption | (intro)
    | with_reducible apply tapTrigger_evolves | with_reducible apply Evolves.ite | with_reducible apply Evolves.foldl
    | with_reducible apply Evolves.foldl_snd | with_reducible apply Evolves.foldl_fst
    | split | (dsimp only; split)

theorem markAngle_evolves {base s : State} (ev : Evolves base s) (t : Nat) :
    Evolves base (markAngle t s) := by
  unfold markAngle
  repeat' first
    | with_reducible assumption | (intro)
    | with_reducible apply Evolves.ite
    | split | (dsimp only; split)
    | with_reducible apply Evolves.upd | with_reducible apply HostIf.Grows.refl | with_reducible apply HostIf.Grows.upd
    | with_reducible apply Excise.Grows.refl | with_reducible apply Excise.Grows.upd
    | exact ⟨id, Nat.le_refl _⟩ | exact ⟨id, Nat.le_succ _⟩

theorem tapDeliver_evolves {base s : State} (ev : Evolves base s) (i : Nat) (c : Capture) (cut : Option Nat) (raws : Nat
    → Option Nat) :
    Evolves base (tapDeliver i c cut raws s) := by
  unfold tapDeliver
  repeat' first
    | with_reducible assumption | (intro)
    | with_reducible apply State.setTap_evolves | with_reducible apply State.inc_evolves
    | with_reducible apply State.setBytes_evolves | with_reducible apply State.flag_evolves
    | with_reducible apply State.append_evolves | with_reducible apply Evolves.ite
    | split | (dsimp only; split)

theorem tapSegmentEnd_evolves {base s : State} (ev : Evolves base s) (i : Nat) (c : Capture) (raws : Nat → Option Nat) :
    Evolves base (tapSegmentEnd i c raws s) := by
  unfold tapSegmentEnd
  repeat' first
    | with_reducible assumption | (intro)
    | with_reducible apply State.setTap_evolves | with_reducible apply State.later_evolves
    | with_reducible apply setTapState_evolves | with_reducible apply tapRelease_evolves
    | with_reducible apply tapRearmed_evolves | with_reducible apply State.flag_evolves
    | with_reducible apply tapDeliver_evolves | with_reducible apply Evolves.ite
    | split | (dsimp only; split)

end Sys2Proof.Machine
end

