-- ==== Sys2Proof/Laws/EvTones.lean ====
section
/-! SUPPORT. What the operations of Machine/Tones.lean keep (Evolves). -/

namespace Sys2Proof.Machine

theorem markTone_evolves {base s : State} (ev : Evolves base s) (c : Nat) (old : State) :
    Evolves base (markTone c old s) := by
  unfold markTone
  repeat' first
    | with_reducible assumption | (intro)
    | with_reducible apply State.setTap_evolves | with_reducible apply Evolves.ite
    | split | (dsimp only; split)

theorem markFrame_evolves {base s : State} (ev : Evolves base s) (f : Nat) :
    Evolves base (markFrame f s) := by
  unfold markFrame
  repeat' first
    | with_reducible assumption | (intro)
    | with_reducible apply markTone_evolves | with_reducible apply Evolves.ite | with_reducible apply Evolves.foldl
    | with_reducible apply Evolves.foldl_snd | with_reducible apply Evolves.foldl_fst
    | split | (dsimp only; split)

end Sys2Proof.Machine
end

