-- ==== Sys2Proof/Laws/EvFrames.lean ====
section
/-! SUPPORT. What the operations of Machine/Frames.lean keep (Evolves). -/

namespace Sys2Proof.Machine

theorem setFrameF_evolves {base s : State} (ev : Evolves base s) (f : Nat) (v : Nat) :
    Evolves base (setFrameF f v s) := by
  unfold setFrameF
  repeat' first
    | with_reducible assumption | (intro)
    | with_reducible apply markFrame_evolves | with_reducible apply State.wr_evolves
    | split | (dsimp only; split)

theorem setFrameP_evolves {base s : State} (ev : Evolves base s) (f : Nat) (v : Nat) :
    Evolves base (setFrameP f v s) := by
  unfold setFrameP
  repeat' first
    | with_reducible assumption | (intro)
    | with_reducible apply markFrame_evolves | with_reducible apply State.wr_evolves
    | split | (dsimp only; split)

theorem setFrameXZ_evolves {base s : State} (ev : Evolves base s) (f : Nat) (x : Bool) (z : Bool) :
    Evolves base (setFrameXZ f x z s) := by
  unfold setFrameXZ
  repeat' first
    | with_reducible assumption | (intro)
    | with_reducible apply State.setByte_evolves
    | split | (dsimp only; split)

theorem frameOp_evolves {base s : State} (ev : Evolves base s) (f : Nat) (a : Nat) (b : Nat) :
    Evolves base (frameOp f a b s) := by
  unfold frameOp
  repeat' first
    | with_reducible assumption | (intro)
    | with_reducible apply setFrameF_evolves | with_reducible apply setFrameP_evolves
    | with_reducible apply setFrameXZ_evolves
    | split | (dsimp only; split)
    | refine Evolves.fst (by with_reducible assumption) ?_ | refine Evolves.snd (by with_reducible assumption) ?_

theorem frameDword_evolves {base s : State} (ev : Evolves base s) (f : Nat) (dw : Nat) (v : Nat) :
    Evolves base (frameDword f dw v s) := by
  unfold frameDword
  repeat' first
    | with_reducible assumption | (intro)
    | with_reducible apply setFrameF_evolves | with_reducible apply setFrameP_evolves
    | with_reducible apply setFrameXZ_evolves
    | split | (dsimp only; split)
    | refine Evolves.fst (by with_reducible assumption) ?_ | refine Evolves.snd (by with_reducible assumption) ?_

theorem wftLast_evolves {base s : State} (ev : Evolves base s) (lane : Nat) (cause : Nat) (seq : Nat) (w : Nat) (t : Nat) :
    Evolves base (wftLast lane cause seq w t s) := by
  unfold wftLast
  repeat' first
    | with_reducible assumption | (intro)
    | with_reducible apply State.set_evolves
    | split | (dsimp only; split)

theorem setLane_evolves {base s : State} (ev : Evolves base s) (n : Nat) (ps : List Pulse) :
    Evolves base (setLane n ps s) := by
  unfold setLane
  repeat' first
    | with_reducible assumption | (intro)
    | split | (dsimp only; split)
    | with_reducible apply Evolves.upd | with_reducible apply HostIf.Grows.refl | with_reducible apply HostIf.Grows.upd
    | with_reducible apply Excise.Grows.refl | with_reducible apply Excise.Grows.upd
    | exact ⟨id, Nat.le_refl _⟩ | exact ⟨id, Nat.le_succ _⟩

theorem firePulse_evolves {base s : State} (ev : Evolves base s) (n : Nat) (e : Entry) :
    Evolves base (firePulse n e s) := by
  unfold firePulse
  repeat' first
    | with_reducible assumption | (intro)
    | with_reducible apply State.incSat_evolves | with_reducible apply wftLast_evolves
    | with_reducible apply setLane_evolves | with_reducible apply State.flagAlways_evolves
    | with_reducible apply Evolves.ite
    | split | (dsimp only; split)

theorem setWftBank_evolves {base s : State} (ev : Evolves base s) (b : Option BankOp) :
    Evolves base (setWftBank b s) := by
  unfold setWftBank
  repeat' first
    | with_reducible assumption | (intro)
    | with_reducible apply State.setB_evolves
    | split | (dsimp only; split)
    | with_reducible apply Evolves.upd | with_reducible apply HostIf.Grows.refl | with_reducible apply HostIf.Grows.upd
    | with_reducible apply Excise.Grows.refl | with_reducible apply Excise.Grows.upd
    | exact ⟨id, Nat.le_refl _⟩ | exact ⟨id, Nat.le_succ _⟩

theorem shadowByte_evolves {base s : State} (ev : Evolves base s) (off : Nat) (v : Byte) :
    Evolves base (shadowByte off v s) := by
  unfold shadowByte
  repeat' first
    | with_reducible assumption | (intro)
    | with_reducible apply State.setByte_evolves | with_reducible apply setWftBank_evolves
    | with_reducible apply Evolves.ite
    | split | (dsimp only; split)
    | refine Evolves.fst (by with_reducible assumption) ?_ | refine Evolves.snd (by with_reducible assumption) ?_

theorem wftBusy_evolves {base s : State} (ev : Evolves base s)  :
    Evolves base (wftBusy s) := by
  unfold wftBusy
  repeat' first
    | with_reducible assumption | (intro)
    | with_reducible apply State.flagAlways_evolves
    | split | (dsimp only; split)

theorem wftSwap_evolves {base s : State} (ev : Evolves base s) (b : BankOp) :
    Evolves base (wftSwap b s) := by
  unfold wftSwap
  repeat' first
    | with_reducible assumption | (intro)
    | with_reducible apply State.set_evolves | with_reducible apply State.inc_evolves
    | with_reducible apply setWftBank_evolves | with_reducible apply State.flagAlways_evolves
    | split | (dsimp only; split)

theorem wftCopy_evolves {base s : State} (ev : Evolves base s) (b : BankOp) :
    Evolves base (wftCopy b s) := by
  unfold wftCopy
  repeat' first
    | with_reducible assumption | (intro)
    | with_reducible apply setWftBank_evolves | with_reducible apply shadowByte_evolves
    | with_reducible apply Evolves.foldl | with_reducible apply Evolves.foldl_snd | with_reducible apply Evolves.foldl_fst
    | split | (dsimp only; split)
    | with_reducible apply Evolves.memory | (apply Memory.wf_copyRange; assumption) | (apply Memory.wf_writes; assumption)
    | with_reducible apply Evolves.upd | with_reducible apply HostIf.Grows.refl | with_reducible apply HostIf.Grows.upd
    | with_reducible apply Excise.Grows.refl | with_reducible apply Excise.Grows.upd
    | exact ⟨id, Nat.le_refl _⟩ | exact ⟨id, Nat.le_succ _⟩

theorem setPending_evolves {base s : State} (ev : Evolves base s) (copy : Bool) (at_ : Nat) :
    Evolves base (setPending copy at_ s) := by
  unfold setPending
  repeat' first
    | with_reducible assumption | (intro)
    | with_reducible apply State.later_evolves | with_reducible apply setWftBank_evolves
    | split | (dsimp only; split)

theorem wftBankDue_evolves {base s : State} (ev : Evolves base s) (at_ : Nat) :
    Evolves base (wftBankDue at_ s) := by
  unfold wftBankDue
  repeat' first
    | with_reducible assumption | (intro)
    | with_reducible apply wftSwap_evolves | with_reducible apply wftCopy_evolves | with_reducible apply Evolves.ite
    | split | (dsimp only; split)
    | refine Evolves.fst (by with_reducible assumption) ?_ | refine Evolves.snd (by with_reducible assumption) ?_

end Sys2Proof.Machine
end

