-- ==== Sys2Proof/Laws/EvDecision.lean ====
section
/-! SUPPORT. What the operations of Machine/Decision.lean keep (Evolves). -/

namespace Sys2Proof.Machine

theorem setPair_evolves {base s : State} (ev : Evolves base s) (n : Nat) (x : Tagged) :
    Evolves base (setPair n x s) := by
  unfold setPair
  repeat' first
    | with_reducible assumption | (intro)
    | split | (dsimp only; split)
    | with_reducible apply Evolves.upd | with_reducible apply HostIf.Grows.refl | with_reducible apply HostIf.Grows.upd
    | with_reducible apply Excise.Grows.refl | with_reducible apply Excise.Grows.upd
    | exact ⟨id, Nat.le_refl _⟩ | exact ⟨id, Nat.le_succ _⟩

theorem State.setDec_evolves {base s : State} (ev : Evolves base s) (d : Nat) (x : Decision) :
    Evolves base (State.setDec s d x) := by
  unfold State.setDec
  repeat' first
    | with_reducible assumption | (intro)
    | split | (dsimp only; split)
    | with_reducible apply Evolves.upd | with_reducible apply HostIf.Grows.refl | with_reducible apply HostIf.Grows.upd
    | with_reducible apply Excise.Grows.refl | with_reducible apply Excise.Grows.upd
    | exact ⟨id, Nat.le_refl _⟩ | exact ⟨id, Nat.le_succ _⟩

theorem showDec_evolves {base s : State} (ev : Evolves base s) (d : Nat) :
    Evolves base (showDec d s) := by
  unfold showDec
  repeat' first
    | with_reducible assumption | (intro)
    | with_reducible apply State.set_evolves | with_reducible apply State.setB_evolves
    | with_reducible apply Evolves.foldl | with_reducible apply Evolves.foldl_snd | with_reducible apply Evolves.foldl_fst
    | split | (dsimp only; split)

theorem endRound_evolves {base s : State} (ev : Evolves base s) (d : Nat) (r : Round) :
    Evolves base (endRound d r s) := by
  unfold endRound
  repeat' first
    | with_reducible assumption | (intro)
    | with_reducible apply State.setDec_evolves | with_reducible apply showDec_evolves
    | with_reducible apply State.later_evolves | with_reducible apply Evolves.ite
    | split | (dsimp only; split)

theorem judgeDec_evolves {base s : State} (ev : Evolves base s) (d : Nat) (t : Nat) :
    Evolves base (judgeDec d t s) := by
  unfold judgeDec
  repeat' first
    | with_reducible assumption | (intro)
    | with_reducible apply State.setDec_evolves | with_reducible apply showDec_evolves
    | with_reducible apply State.later_evolves | with_reducible apply endRound_evolves | with_reducible apply Evolves.ite
    | split | (dsimp only; split)
    | refine Evolves.fst (by with_reducible assumption) ?_ | refine Evolves.snd (by with_reducible assumption) ?_

theorem judgePair_evolves {base s : State} (ev : Evolves base s) (n : Nat) (t : Nat) :
    Evolves base (judgePair n t s) := by
  unfold judgePair
  repeat' first
    | with_reducible assumption | (intro)
    | with_reducible apply State.later_evolves | with_reducible apply Evolves.ite | with_reducible apply Evolves.foldl
    | with_reducible apply Evolves.foldl_snd | with_reducible apply Evolves.foldl_fst
    | split | (dsimp only; split)

theorem judgeOnce_evolves {base s : State} (ev : Evolves base s) (d : Nat) (t : Nat) :
    Evolves base (judgeOnce d t s) := by
  unfold judgeOnce
  repeat' first
    | with_reducible assumption | (intro)
    | with_reducible apply State.setDec_evolves | with_reducible apply State.later_evolves
    | with_reducible apply judgeDec_evolves | with_reducible apply Evolves.ite
    | split | (dsimp only; split)

theorem writePair_evolves {base s : State} (ev : Evolves base s) (n : Nat) (state : Nat) (gen : Nat) (inv : Bool) (t :
    Nat) :
    Evolves base (writePair n state gen inv t s).2 := by
  unfold writePair
  repeat' first
    | with_reducible assumption | (intro)
    | with_reducible apply setPair_evolves | with_reducible apply State.incSat_evolves
    | with_reducible apply judgePair_evolves | with_reducible apply State.flag_evolves | with_reducible apply Evolves.ite
    | with_reducible apply Evolves.ite_snd
    | split | (dsimp only; split)
    | dsimp only

theorem decIndexAt_evolves {base s : State} (ev : Evolves base s) (d : Nat) (at_ : Nat) :
    Evolves base (decIndexAt d at_ s) := by
  unfold decIndexAt
  repeat' first
    | with_reducible assumption | (intro)
    | with_reducible apply State.setDec_evolves | with_reducible apply Evolves.ite
    | split | (dsimp only; split)

theorem decReadAt_evolves {base s : State} (ev : Evolves base s) (d : Nat) (at_ : Nat) :
    Evolves base (decReadAt d at_ s) := by
  unfold decReadAt
  repeat' first
    | with_reducible assumption | (intro)
    | with_reducible apply State.setDec_evolves | with_reducible apply Evolves.ite
    | split | (dsimp only; split)

theorem deliverCode_evolves {base s : State} (ev : Evolves base s) (d : Nat) (code : Nat) (gen : Nat) (inv : Bool) :
    Evolves base (deliverCode d code gen inv s) := by
  unfold deliverCode
  repeat' first
    | with_reducible assumption | (intro)
    | with_reducible apply State.modSeq_evolves | with_reducible apply Evolves.foldl
    | with_reducible apply Evolves.foldl_snd | with_reducible apply Evolves.foldl_fst
    | split | (dsimp only; split)

theorem showCode_evolves {base s : State} (ev : Evolves base s) (d : Nat) (code : Nat) (gen : Nat) (inv : Bool) :
    Evolves base (showCode d code gen inv s) := by
  unfold showCode
  repeat' first
    | with_reducible assumption | (intro)
    | with_reducible apply State.set_evolves | with_reducible apply State.setB_evolves
    | split | (dsimp only; split)

theorem pauliUpdate_evolves {base s : State} (ev : Evolves base s) (f : Nat) (x : Bool) (z : Bool) :
    Evolves base (pauliUpdate f x z s) := by
  unfold pauliUpdate
  repeat' first
    | with_reducible assumption | (intro)
    | with_reducible apply setFrameXZ_evolves | with_reducible apply Evolves.ite
    | split | (dsimp only; split)

theorem decForward_evolves {base s : State} (ev : Evolves base s) (d : Nat) (state : Nat) (gen : Nat) (inv : Bool) (t :
    Nat) :
    Evolves base (decForward d state gen inv t s) := by
  unfold decForward
  repeat' first
    | with_reducible assumption | (intro)
    | with_reducible apply sendResult_evolves | with_reducible apply Evolves.ite
    | split | (dsimp only; split)

theorem failAction_evolves {base s : State} (ev : Evolves base s) (d : Nat) (r : Round) (t : Nat) :
    Evolves base (failAction d r t s) := by
  unfold failAction
  repeat' first
    | with_reducible assumption | (intro)
    | with_reducible apply State.set_evolves | with_reducible apply State.incSat_evolves
    | with_reducible apply deliverCode_evolves | with_reducible apply showCode_evolves
    | with_reducible apply decForward_evolves | with_reducible apply State.flag_evolves
    | split | (dsimp only; split)

theorem evalAction_evolves {base s : State} (ev : Evolves base s) (d : Nat) (r : Round) (t : Nat) :
    Evolves base (evalAction d r t s) := by
  unfold evalAction
  repeat' first
    | with_reducible assumption | (intro)
    | with_reducible apply State.set_evolves | with_reducible apply State.inc_evolves
    | with_reducible apply deliverCode_evolves | with_reducible apply showCode_evolves
    | with_reducible apply pauliUpdate_evolves | with_reducible apply decForward_evolves
    | with_reducible apply State.event_evolves | with_reducible apply Evolves.ite | with_reducible apply Evolves.foldl
    | with_reducible apply Evolves.foldl_snd | with_reducible apply Evolves.foldl_fst
    | split | (dsimp only; split)

theorem roundAction_evolves {base s : State} (ev : Evolves base s) (d : Nat) (r : Round) (t : Nat) :
    Evolves base (roundAction d r t s) := by
  unfold roundAction
  repeat' first
    | with_reducible assumption | (intro)
    | with_reducible apply State.setDec_evolves | with_reducible apply failAction_evolves
    | with_reducible apply evalAction_evolves | with_reducible apply Evolves.ite
    | split | (dsimp only; split)

theorem decEnable_evolves {base s : State} (ev : Evolves base s) (d : Nat) (on : Bool) (t : Nat) :
    Evolves base (decEnable d on t s) := by
  unfold decEnable
  repeat' first
    | with_reducible assumption | (intro)
    | with_reducible apply State.set_evolves | with_reducible apply State.setB_evolves
    | with_reducible apply State.setDec_evolves | with_reducible apply State.later_evolves
    | with_reducible apply Evolves.ite
    | split | (dsimp only; split)

theorem forwardRecord_evolves {base s : State} (ev : Evolves base s) (c : Nat) (state : Nat) (gen : Nat) (inv : Bool) (t
    : Nat) :
    Evolves base (forwardRecord c state gen inv t s) := by
  unfold forwardRecord
  repeat' first
    | with_reducible assumption | (intro)
    | with_reducible apply sendResult_evolves | with_reducible apply Evolves.ite
    | split | (dsimp only; split)

end Sys2Proof.Machine
end

