-- ==== Sys2Proof/Laws/EvDemod.lean ====
section
/-! SUPPORT. What the operations of Machine/Demod.lean keep (Evolves). -/

namespace Sys2Proof.Machine

theorem tapFence_evolves {base s : State} (ev : Evolves base s) (i : Nat) (t : Nat) :
    Evolves base (tapFence i t s) := by
  unfold tapFence
  repeat' first
    | with_reducible assumption | (intro)
    | with_reducible apply State.setTap_evolves | with_reducible apply tapRelease_evolves
    | with_reducible apply tapRun_evolves | with_reducible apply tapDeliver_evolves
    | split | (dsimp only; split)
    | refine Evolves.fst (by with_reducible assumption) ?_ | refine Evolves.snd (by with_reducible assumption) ?_

end Sys2Proof.Machine
end

