-- ==== Sys2Proof/Laws/EvReadout.lean ====
section
/-! SUPPORT. What the operations of Machine/Readout.lean keep (Evolves). -/

namespace Sys2Proof.Machine

theorem State.setRfi_evolves {base s : State} (ev : Evolves base s) (i : Nat) (x : Rfi) :
    Evolves base (State.setRfi s i x) := by
  unfold State.setRfi
  repeat' first
    | with_reducible assumption | (intro)
    | split | (dsimp only; split)
    | with_reducible apply Evolves.upd | with_reducible apply HostIf.Grows.refl | with_reducible apply HostIf.Grows.upd
    | with_reducible apply Excise.Grows.refl | with_reducible apply Excise.Grows.upd
    | exact ⟨id, Nat.le_refl _⟩ | exact ⟨id, Nat.le_succ _⟩

theorem setRfiState_evolves {base s : State} (ev : Evolves base s) (i : Nat) (st : Nat) (t : Nat) :
    Evolves base (setRfiState i st t s) := by
  unfold setRfiState
  repeat' first
    | with_reducible assumption | (intro)
    | with_reducible apply State.setRfi_evolves | with_reducible apply State.set_evolves
    | split | (dsimp only; split)
    | refine Evolves.fst (by with_reducible assumption) ?_ | refine Evolves.snd (by with_reducible assumption) ?_

theorem setRfiPower_evolves {base s : State} (ev : Evolves base s) (i : Nat) (st : Nat) (t : Nat) :
    Evolves base (setRfiPower i st t s) := by
  unfold setRfiPower
  repeat' first
    | with_reducible assumption | (intro)
    | with_reducible apply State.setRfi_evolves | with_reducible apply setRfiState_evolves
    | with_reducible apply Evolves.ite
    | split | (dsimp only; split)

theorem rfiEnable_evolves {base s : State} (ev : Evolves base s) (i : Nat) (t : Nat) :
    Evolves base (rfiEnable i t s) := by
  unfold rfiEnable
  repeat' first
    | with_reducible assumption | (intro)
    | with_reducible apply State.setRfi_evolves | with_reducible apply State.setB_evolves
    | with_reducible apply setRfiPower_evolves | with_reducible apply State.later_evolves
    | with_reducible apply State.flagAlways_evolves | with_reducible apply Evolves.ite
    | split | (dsimp only; split)

theorem rfiEnabled_evolves {base s : State} (ev : Evolves base s) (i : Nat) (t : Nat) :
    Evolves base (rfiEnabled i t s) := by
  unfold rfiEnabled
  repeat' first
    | with_reducible assumption | (intro)
    | with_reducible apply State.setRfi_evolves | with_reducible apply setRfiPower_evolves
    | with_reducible apply Evolves.ite
    | split | (dsimp only; split)

theorem rfiDisabled_evolves {base s : State} (ev : Evolves base s) (i : Nat) (t : Nat) :
    Evolves base (rfiDisabled i t s) := by
  unfold rfiDisabled
  repeat' first
    | with_reducible assumption | (intro)
    | with_reducible apply setRfiPower_evolves | with_reducible apply Evolves.ite
    | split | (dsimp only; split)

theorem rfiFence_evolves {base s : State} (ev : Evolves base s) (i : Nat) (t : Nat) :
    Evolves base (rfiFence i t s) := by
  unfold rfiFence
  repeat' first
    | with_reducible assumption | (intro)
    | with_reducible apply State.setRfi_evolves | with_reducible apply setRfiState_evolves
    | with_reducible apply State.setB_evolves
    | split | (dsimp only; split)

theorem weightByte_evolves {base s : State} (ev : Evolves base s) (c : Nat) (a : Nat) (t : Nat) (b : Byte) :
    Evolves base (weightByte c a t b s) := by
  unfold weightByte
  repeat' first
    | with_reducible assumption | (intro)
    | with_reducible apply State.setLau_evolves | with_reducible apply State.setByte_evolves
    | with_reducible apply Evolves.ite
    | split | (dsimp only; split)

theorem windowOpens_evolves {base s : State} (ev : Evolves base s) (c : Nat) (t : Nat) :
    Evolves base (windowOpens c t s) := by
  unfold windowOpens
  repeat' first
    | with_reducible assumption | (intro)
    | with_reducible apply tapWindow_evolves | with_reducible apply State.flag_evolves | with_reducible apply Evolves.ite
    | split | (dsimp only; split)

theorem windowEnds_evolves {base s : State} (ev : Evolves base s) (c : Nat) (t : Nat) :
    Evolves base (windowEnds c t s) := by
  unfold windowEnds
  repeat' first
    | with_reducible assumption | (intro)
    | with_reducible apply State.setLau_evolves | with_reducible apply Evolves.ite
    | split | (dsimp only; split)

theorem fireMeasure_evolves {base s : State} (ev : Evolves base s) (e : Entry) :
    Evolves base (fireMeasure e s) := by
  unfold fireMeasure
  repeat' first
    | with_reducible assumption | (intro)
    | with_reducible apply State.setLau_evolves | with_reducible apply State.later_evolves
    | with_reducible apply produce_evolves | with_reducible apply windowOpens_evolves | with_reducible apply Evolves.ite
    | split | (dsimp only; split)

theorem produceWindow_evolves {base s : State} (ev : Evolves base s) (c : Nat) (w : Window) (r : Rec) :
    Evolves base (produceWindow c w r s) := by
  unfold produceWindow
  repeat' first
    | with_reducible assumption | (intro)
    | with_reducible apply State.setLau_evolves | with_reducible apply State.set_evolves
    | with_reducible apply State.setI_evolves | with_reducible apply produce_evolves | with_reducible apply Evolves.ite
    | split | (dsimp only; split)

theorem ringWrite_evolves {base s : State} (ev : Evolves base s) (r : Rec) :
    Evolves base (ringWrite r s) := by
  unfold ringWrite
  repeat' first
    | with_reducible assumption | (intro)
    | with_reducible apply State.setQueue_evolves | with_reducible apply State.countDrop_evolves
    | with_reducible apply State.flagAlways_evolves | with_reducible apply State.append_evolves
    | with_reducible apply State.noteEmpty_evolves | with_reducible apply Evolves.ite
    | split | (dsimp only; split)

theorem routeRecord_evolves {base s : State} (ev : Evolves base s) (r : Rec) (t : Nat) :
    Evolves base (routeRecord r t s) := by
  unfold routeRecord
  repeat' first
    | with_reducible assumption | (intro)
    | with_reducible apply writePair_evolves | with_reducible apply forwardRecord_evolves
    | with_reducible apply ringWrite_evolves | with_reducible apply Evolves.ite
    | split | (dsimp only; split)

theorem setKBank_evolves {base s : State} (ev : Evolves base s) (i : Nat) (b : Option BankOp) :
    Evolves base (setKBank i b s) := by
  unfold setKBank
  repeat' first
    | with_reducible assumption | (intro)
    | with_reducible apply State.setRfi_evolves | with_reducible apply State.setB_evolves
    | split | (dsimp only; split)

theorem kernelShadowByte_evolves {base s : State} (ev : Evolves base s) (c : Nat) (off : Nat) (v : Byte) :
    Evolves base (kernelShadowByte c off v s) := by
  unfold kernelShadowByte
  repeat' first
    | with_reducible assumption | (intro)
    | with_reducible apply State.setByte_evolves | with_reducible apply setKBank_evolves
    | with_reducible apply Evolves.ite
    | split | (dsimp only; split)
    | refine Evolves.fst (by with_reducible assumption) ?_ | refine Evolves.snd (by with_reducible assumption) ?_

theorem setKPending_evolves {base s : State} (ev : Evolves base s) (i : Nat) (copy : Bool) (at_ : Nat) :
    Evolves base (setKPending i copy at_ s) := by
  unfold setKPending
  repeat' first
    | with_reducible assumption | (intro)
    | with_reducible apply State.later_evolves | with_reducible apply setKBank_evolves
    | split | (dsimp only; split)

theorem kSwap_evolves {base s : State} (ev : Evolves base s) (i : Nat) (b : BankOp) :
    Evolves base (kSwap i b s) := by
  unfold kSwap
  repeat' first
    | with_reducible assumption | (intro)
    | with_reducible apply State.set_evolves | with_reducible apply State.inc_evolves
    | with_reducible apply setKBank_evolves | with_reducible apply State.flagAlways_evolves
    | split | (dsimp only; split)

theorem kCopy_evolves {base s : State} (ev : Evolves base s) (i : Nat) (b : BankOp) :
    Evolves base (kCopy i b s) := by
  unfold kCopy
  repeat' first
    | with_reducible assumption | (intro)
    | with_reducible apply setKBank_evolves | with_reducible apply kernelShadowByte_evolves
    | with_reducible apply Evolves.foldl | with_reducible apply Evolves.foldl_snd | with_reducible apply Evolves.foldl_fst
    | split | (dsimp only; split)
    | with_reducible apply Evolves.memory | (apply Memory.wf_copyRange; assumption) | (apply Memory.wf_writes; assumption)
    | with_reducible apply Evolves.upd | with_reducible apply HostIf.Grows.refl | with_reducible apply HostIf.Grows.upd
    | with_reducible apply Excise.Grows.refl | with_reducible apply Excise.Grows.upd
    | exact ⟨id, Nat.le_refl _⟩ | exact ⟨id, Nat.le_succ _⟩

theorem kBankDue_evolves {base s : State} (ev : Evolves base s) (i : Nat) (at_ : Nat) :
    Evolves base (kBankDue i at_ s) := by
  unfold kBankDue
  repeat' first
    | with_reducible assumption | (intro)
    | with_reducible apply kSwap_evolves | with_reducible apply kCopy_evolves | with_reducible apply Evolves.ite
    | split | (dsimp only; split)
    | refine Evolves.fst (by with_reducible assumption) ?_ | refine Evolves.snd (by with_reducible assumption) ?_

theorem lauFence_evolves {base s : State} (ev : Evolves base s) (c : Nat) (t : Nat) :
    Evolves base (lauFence c t s) := by
  unfold lauFence
  repeat' first
    | with_reducible assumption | (intro)
    | with_reducible apply State.setLau_evolves | with_reducible apply produce_evolves
    | with_reducible apply Evolves.foldl | with_reducible apply Evolves.foldl_snd | with_reducible apply Evolves.foldl_fst
    | split | (dsimp only; split)

end Sys2Proof.Machine
end

