-- ==== Sys2Proof/Laws/EvPorts.lean ====
section
/-! SUPPORT. What the operations of Machine/Ports.lean keep (Evolves). -/

namespace Sys2Proof.Machine

theorem State.setRfo_evolves {base s : State} (ev : Evolves base s) (p : Nat) (x : Rfo) :
    Evolves base (State.setRfo s p x) := by
  unfold State.setRfo
  repeat' first
    | with_reducible assumption | (intro)
    | split | (dsimp only; split)
    | with_reducible apply Evolves.upd | with_reducible apply HostIf.Grows.refl | with_reducible apply HostIf.Grows.upd
    | with_reducible apply Excise.Grows.refl | with_reducible apply Excise.Grows.upd
    | exact ⟨id, Nat.le_refl _⟩ | exact ⟨id, Nat.le_succ _⟩

theorem setRfoState_evolves {base s : State} (ev : Evolves base s) (p : Nat) (st : Nat) :
    Evolves base (setRfoState p st s) := by
  unfold setRfoState
  repeat' first
    | with_reducible assumption | (intro)
    | with_reducible apply State.set_evolves
    | split | (dsimp only; split)

theorem deriveReady_evolves {base s : State} (ev : Evolves base s)  :
    Evolves base (deriveReady s) := by
  unfold deriveReady
  repeat' first
    | with_reducible assumption | (intro)
    | with_reducible apply State.setB_evolves | with_reducible apply State.event_evolves
    | with_reducible apply Evolves.ite
    | split | (dsimp only; split)

theorem setRfoPower_evolves {base s : State} (ev : Evolves base s) (p : Nat) (st : Nat) :
    Evolves base (setRfoPower p st s) := by
  unfold setRfoPower
  repeat' first
    | with_reducible assumption | (intro)
    | with_reducible apply State.setRfo_evolves | with_reducible apply setRfoState_evolves
    | with_reducible apply Evolves.ite
    | split | (dsimp only; split)

theorem rfoEnable_evolves {base s : State} (ev : Evolves base s) (p : Nat) (t : Nat) :
    Evolves base (rfoEnable p t s) := by
  unfold rfoEnable
  repeat' first
    | with_reducible assumption | (intro)
    | with_reducible apply State.setRfo_evolves | with_reducible apply State.setB_evolves
    | with_reducible apply State.later_evolves | with_reducible apply setRfoPower_evolves
    | with_reducible apply State.flagAlways_evolves | with_reducible apply Evolves.ite
    | split | (dsimp only; split)

theorem rfoEnabled_evolves {base s : State} (ev : Evolves base s) (p : Nat) (t : Nat) :
    Evolves base (rfoEnabled p t s) := by
  unfold rfoEnabled
  repeat' first
    | with_reducible assumption | (intro)
    | with_reducible apply State.setRfo_evolves | with_reducible apply State.set_evolves
    | with_reducible apply setRfoPower_evolves | with_reducible apply State.event_evolves
    | with_reducible apply Evolves.ite
    | split | (dsimp only; split)

theorem rfoRest_evolves {base s : State} (ev : Evolves base s) (p : Nat) :
    Evolves base (rfoRest p s) := by
  unfold rfoRest
  repeat' first
    | with_reducible assumption | (intro)
    | with_reducible apply setRfoPower_evolves | with_reducible apply Evolves.ite
    | split | (dsimp only; split)

theorem rfoOff_evolves {base s : State} (ev : Evolves base s) (p : Nat) (t : Nat) :
    Evolves base (rfoOff p t s) := by
  unfold rfoOff
  repeat' first
    | with_reducible assumption | (intro)
    | with_reducible apply State.setRfo_evolves | with_reducible apply State.later_evolves
    | with_reducible apply rfoRest_evolves | with_reducible apply Evolves.ite
    | split | (dsimp only; split)

theorem rfoIdle_evolves {base s : State} (ev : Evolves base s) (p : Nat) (ramp : Nat) :
    Evolves base (rfoIdle p ramp s) := by
  unfold rfoIdle
  repeat' first
    | with_reducible assumption | (intro)
    | with_reducible apply rfoRest_evolves | with_reducible apply Evolves.ite
    | split | (dsimp only; split)

theorem rfoMute_evolves {base s : State} (ev : Evolves base s) (p : Nat) (on : Bool) (t : Nat) :
    Evolves base (rfoMute p on t s) := by
  unfold rfoMute
  repeat' first
    | with_reducible assumption | (intro)
    | with_reducible apply State.setRfo_evolves | with_reducible apply Evolves.ite
    | split | (dsimp only; split)

theorem closeGate_evolves {base s : State} (ev : Evolves base s) (p : Nat) (t : Nat) :
    Evolves base (closeGate p t s) := by
  unfold closeGate
  repeat' first
    | with_reducible assumption | (intro)
    | with_reducible apply State.setRfo_evolves
    | split | (dsimp only; split)

theorem parkRfo_evolves {base s : State} (ev : Evolves base s) (p : Nat) (cause : Nat) (t : Nat) :
    Evolves base (parkRfo p cause t s) := by
  unfold parkRfo
  repeat' first
    | with_reducible assumption | (intro)
    | with_reducible apply State.setRfo_evolves | with_reducible apply State.set_evolves
    | with_reducible apply State.setB_evolves | with_reducible apply State.later_evolves
    | with_reducible apply setRfoPower_evolves | with_reducible apply closeGate_evolves
    | with_reducible apply State.flagAlways_evolves | with_reducible apply Evolves.ite
    | split | (dsimp only; split)

theorem rfoDown_evolves {base s : State} (ev : Evolves base s) (p : Nat) (t : Nat) :
    Evolves base (rfoDown p t s) := by
  unfold rfoDown
  repeat' first
    | with_reducible assumption | (intro)
    | with_reducible apply State.setRfo_evolves | with_reducible apply setRfoPower_evolves
    | with_reducible apply Evolves.ite
    | split | (dsimp only; split)

theorem rfoParkClear_evolves {base s : State} (ev : Evolves base s) (p : Nat) :
    Evolves base (rfoParkClear p s) := by
  unfold rfoParkClear
  repeat' first
    | with_reducible assumption | (intro)
    | with_reducible apply State.setRfo_evolves | with_reducible apply State.setB_evolves
    | with_reducible apply Evolves.ite
    | split | (dsimp only; split)

theorem rfoRelease_evolves {base s : State} (ev : Evolves base s) (p : Nat) :
    Evolves base (rfoRelease p s) := by
  unfold rfoRelease
  repeat' first
    | with_reducible assumption | (intro)
    | with_reducible apply State.setRfo_evolves
    | split | (dsimp only; split)

theorem rfoFault_evolves {base s : State} (ev : Evolves base s) (p : Nat) (t : Nat) :
    Evolves base (rfoFault p t s) := by
  unfold rfoFault
  repeat' first
    | with_reducible assumption | (intro)
    | with_reducible apply State.setRfo_evolves | with_reducible apply parkRfo_evolves
    | with_reducible apply State.flagAlways_evolves
    | split | (dsimp only; split)

end Sys2Proof.Machine
end

