-- ==== Sys2Proof/Laws/EvZPorts.lean ====
section
/-! SUPPORT. What the operations of Machine/ZPorts.lean keep (Evolves). -/

namespace Sys2Proof.Machine

theorem State.setZp_evolves {base s : State} (ev : Evolves base s) (z : Nat) (x : Zp) :
    Evolves base (State.setZp s z x) := by
  unfold State.setZp
  repeat' first
    | with_reducible assumption | (intro)
    | split | (dsimp only; split)
    | with_reducible apply Evolves.upd | with_reducible apply HostIf.Grows.refl | with_reducible apply HostIf.Grows.upd
    | with_reducible apply Excise.Grows.refl | with_reducible apply Excise.Grows.upd
    | exact ⟨id, Nat.le_refl _⟩ | exact ⟨id, Nat.le_succ _⟩

theorem setZRange_evolves {base s : State} (ev : Evolves base s) (z : Nat) (r : Nat) :
    Evolves base (setZRange z r s) := by
  unfold setZRange
  repeat' first
    | with_reducible assumption | (intro)
    | with_reducible apply State.set_evolves
    | split | (dsimp only; split)

theorem seekWindow_evolves {base s : State} (ev : Evolves base s) (z : Nat) (t : Nat) :
    Evolves base (seekWindow z t s) := by
  unfold seekWindow
  repeat' first
    | with_reducible assumption | (intro)
    | with_reducible apply State.setZp_evolves | with_reducible apply State.later_evolves
    | split | (dsimp only; split)
    | refine Evolves.fst (by with_reducible assumption) ?_ | refine Evolves.snd (by with_reducible assumption) ?_

theorem rangeRequest_evolves {base s : State} (ev : Evolves base s) (z : Nat) (r : Nat) (t : Nat) :
    Evolves base (rangeRequest z r t s) := by
  unfold rangeRequest
  repeat' first
    | with_reducible assumption | (intro)
    | with_reducible apply State.setZp_evolves | with_reducible apply State.set_evolves
    | with_reducible apply seekWindow_evolves | with_reducible apply Evolves.ite
    | split | (dsimp only; split)
    | refine Evolves.fst (by with_reducible assumption) ?_ | refine Evolves.snd (by with_reducible assumption) ?_

theorem nameRange_evolves {base s : State} (ev : Evolves base s) (z : Nat) (r : Nat) (t : Nat) :
    Evolves base (nameRange z r t s) := by
  unfold nameRange
  repeat' first
    | with_reducible assumption | (intro)
    | with_reducible apply State.setZp_evolves | with_reducible apply rangeRequest_evolves
    | with_reducible apply Evolves.ite
    | split | (dsimp only; split)
    | refine Evolves.fst (by with_reducible assumption) ?_ | refine Evolves.snd (by with_reducible assumption) ?_

theorem endPark_evolves {base s : State} (ev : Evolves base s) (z : Nat) (t : Nat) :
    Evolves base (endPark z t s) := by
  unfold endPark
  repeat' first
    | with_reducible assumption | (intro)
    | with_reducible apply State.setZp_evolves | with_reducible apply Evolves.ite
    | split | (dsimp only; split)
    | refine Evolves.fst (by with_reducible assumption) ?_ | refine Evolves.snd (by with_reducible assumption) ?_

theorem bias_evolves {base s : State} (ev : Evolves base s) (z : Nat) (d : Nat) (i : Frac) (r : Nat) (t : Nat) :
    Evolves base (bias z d i r t s) := by
  unfold bias
  repeat' first
    | with_reducible assumption | (intro)
    | with_reducible apply State.setZp_evolves | with_reducible apply State.setB_evolves
    | with_reducible apply State.later_evolves | with_reducible apply seekWindow_evolves
    | with_reducible apply nameRange_evolves | with_reducible apply endPark_evolves | with_reducible apply Evolves.ite
    | split | (dsimp only; split)

theorem zRampEnd_evolves {base s : State} (ev : Evolves base s) (z : Nat) (ramp : Nat) (t : Nat) :
    Evolves base (zRampEnd z ramp t s) := by
  unfold zRampEnd
  repeat' first
    | with_reducible assumption | (intro)
    | with_reducible apply State.setB_evolves | with_reducible apply Evolves.ite
    | split | (dsimp only; split)
    | refine Evolves.fst (by with_reducible assumption) ?_ | refine Evolves.snd (by with_reducible assumption) ?_

theorem fireBias_evolves {base s : State} (ev : Evolves base s) (z : Nat) (e : Entry) :
    Evolves base (fireBias z e s) := by
  unfold fireBias
  repeat' first
    | with_reducible assumption | (intro)
    | with_reducible apply State.setZp_evolves | with_reducible apply State.set_evolves
    | with_reducible apply State.incSat_evolves | with_reducible apply bias_evolves
    | with_reducible apply State.flagAlways_evolves | with_reducible apply Evolves.ite
    | split | (dsimp only; split)

theorem nextSample_evolves {base s : State} (ev : Evolves base s) (z : Nat) (t : Nat) :
    Evolves base (nextSample z t s).2 := by
  unfold nextSample
  repeat' first
    | with_reducible assumption | (intro)
    | with_reducible apply State.setQueue_evolves | with_reducible apply State.popHead_evolves
    | with_reducible apply Evolves.ite | with_reducible apply Evolves.ite_snd
    | split | (dsimp only; split)
    | refine Evolves.fst (by with_reducible assumption) ?_ | refine Evolves.snd (by with_reducible assumption) ?_
    | dsimp only

theorem streamSample_evolves {base s : State} (ev : Evolves base s) (z : Nat) (c : Nat) (t : Nat) :
    Evolves base (streamSample z c t s) := by
  unfold streamSample
  repeat' first
    | with_reducible assumption | (intro)
    | with_reducible apply State.setZp_evolves | with_reducible apply State.incSat_evolves
    | with_reducible apply State.later_evolves | with_reducible apply bias_evolves
    | with_reducible apply nextSample_evolves | with_reducible apply State.flagAlways_evolves
    | with_reducible apply Evolves.ite
    | split | (dsimp only; split)
    | refine Evolves.fst (by with_reducible assumption) ?_ | refine Evolves.snd (by with_reducible assumption) ?_

theorem openWindow_evolves {base s : State} (ev : Evolves base s) (z : Nat) (t : Nat) :
    Evolves base (openWindow z t s) := by
  unfold openWindow
  repeat' first
    | with_reducible assumption | (intro)
    | with_reducible apply State.setZp_evolves | with_reducible apply State.setB_evolves
    | with_reducible apply State.later_evolves | with_reducible apply Evolves.ite
    | split | (dsimp only; split)

theorem closeWindow_evolves {base s : State} (ev : Evolves base s) (z : Nat) (w : ZWindow) :
    Evolves base (closeWindow z w s) := by
  unfold closeWindow
  repeat' first
    | with_reducible assumption | (intro)
    | with_reducible apply State.setZp_evolves | with_reducible apply State.set_evolves
    | with_reducible apply State.setB_evolves | with_reducible apply State.incSat_evolves
    | with_reducible apply setZRange_evolves | with_reducible apply seekWindow_evolves
    | with_reducible apply State.flagAlways_evolves | with_reducible apply Evolves.ite
    | split | (dsimp only; split)

theorem latchPark_evolves {base s : State} (ev : Evolves base s) (z : Nat) :
    Evolves base (latchPark z s) := by
  unfold latchPark
  repeat' first
    | with_reducible assumption | (intro)
    | with_reducible apply State.setZp_evolves
    | split | (dsimp only; split)

theorem startPark_evolves {base s : State} (ev : Evolves base s) (z : Nat) (t : Nat) :
    Evolves base (startPark z t s) := by
  unfold startPark
  repeat' first
    | with_reducible assumption | (intro)
    | with_reducible apply State.setZp_evolves | with_reducible apply State.set_evolves
    | with_reducible apply State.setB_evolves | with_reducible apply State.later_evolves
    | with_reducible apply Evolves.ite
    | split | (dsimp only; split)

theorem zParkOpen_evolves {base s : State} (ev : Evolves base s) (z : Nat) (from_ : Nat) :
    Evolves base (zParkOpen z from_ s) := by
  unfold zParkOpen
  repeat' first
    | with_reducible assumption | (intro)
    | with_reducible apply State.setB_evolves | with_reducible apply Evolves.ite
    | split | (dsimp only; split)
    | refine Evolves.fst (by with_reducible assumption) ?_ | refine Evolves.snd (by with_reducible assumption) ?_

theorem zParkEnd_evolves {base s : State} (ev : Evolves base s) (z : Nat) (from_ : Nat) (t : Nat) :
    Evolves base (zParkEnd z from_ t s) := by
  unfold zParkEnd
  repeat' first
    | with_reducible assumption | (intro)
    | with_reducible apply State.setZp_evolves | with_reducible apply State.setB_evolves
    | with_reducible apply setZRange_evolves | with_reducible apply rangeRequest_evolves
    | with_reducible apply startPark_evolves | with_reducible apply Evolves.ite
    | split | (dsimp only; split)
    | refine Evolves.fst (by with_reducible assumption) ?_ | refine Evolves.snd (by with_reducible assumption) ?_

theorem zParkDone_evolves {base s : State} (ev : Evolves base s) (z : Nat) (from_ : Nat) :
    Evolves base (zParkDone z from_ s) := by
  unfold zParkDone
  repeat' first
    | with_reducible assumption | (intro)
    | with_reducible apply State.setZp_evolves | with_reducible apply State.setB_evolves
    | with_reducible apply Evolves.ite
    | split | (dsimp only; split)
    | refine Evolves.fst (by with_reducible assumption) ?_ | refine Evolves.snd (by with_reducible assumption) ?_

theorem beginPark_evolves {base s : State} (ev : Evolves base s) (z : Nat) (t : Nat) :
    Evolves base (beginPark z t s) := by
  unfold beginPark
  repeat' first
    | with_reducible assumption | (intro)
    | with_reducible apply State.setZp_evolves | with_reducible apply State.setB_evolves
    | with_reducible apply latchPark_evolves | with_reducible apply startPark_evolves | with_reducible apply Evolves.ite
    | split | (dsimp only; split)
    | refine Evolves.fst (by with_reducible assumption) ?_ | refine Evolves.snd (by with_reducible assumption) ?_

theorem parkZ_evolves {base s : State} (ev : Evolves base s) (z : Nat) (cause : Nat) (t : Nat) :
    Evolves base (parkZ z cause t s) := by
  unfold parkZ
  repeat' first
    | with_reducible assumption | (intro)
    | with_reducible apply State.setZp_evolves | with_reducible apply State.set_evolves
    | with_reducible apply State.setB_evolves | with_reducible apply State.flagAlways_evolves
    | with_reducible apply beginPark_evolves | with_reducible apply Evolves.ite
    | split | (dsimp only; split)

theorem zWindowEnd_evolves {base s : State} (ev : Evolves base s) (z : Nat) (opened : Nat) (t : Nat) :
    Evolves base (zWindowEnd z opened t s) := by
  unfold zWindowEnd
  repeat' first
    | with_reducible assumption | (intro)
    | with_reducible apply closeWindow_evolves | with_reducible apply startPark_evolves | with_reducible apply Evolves.ite
    | split | (dsimp only; split)
    | refine Evolves.fst (by with_reducible assumption) ?_ | refine Evolves.snd (by with_reducible assumption) ?_

theorem zParkClear_evolves {base s : State} (ev : Evolves base s) (z : Nat) :
    Evolves base (zParkClear z s) := by
  unfold zParkClear
  repeat' first
    | with_reducible assumption | (intro)
    | with_reducible apply State.setZp_evolves | with_reducible apply State.setB_evolves
    | with_reducible apply Evolves.ite
    | split | (dsimp only; split)

theorem zRelease_evolves {base s : State} (ev : Evolves base s) (z : Nat) :
    Evolves base (zRelease z s) := by
  unfold zRelease
  repeat' first
    | with_reducible assumption | (intro)
    | with_reducible apply State.setZp_evolves
    | split | (dsimp only; split)

theorem zFault_evolves {base s : State} (ev : Evolves base s) (z : Nat) (t : Nat) :
    Evolves base (zFault z t s) := by
  unfold zFault
  repeat' first
    | with_reducible assumption | (intro)
    | with_reducible apply State.setZp_evolves | with_reducible apply State.flagAlways_evolves
    | with_reducible apply parkZ_evolves
    | split | (dsimp only; split)

theorem zEnable_evolves {base s : State} (ev : Evolves base s) (z : Nat) (t : Nat) :
    Evolves base (zEnable z t s) := by
  unfold zEnable
  repeat' first
    | with_reducible assumption | (intro)
    | with_reducible apply State.setZp_evolves | with_reducible apply State.setB_evolves
    | with_reducible apply State.later_evolves | with_reducible apply State.flagAlways_evolves
    | with_reducible apply Evolves.ite
    | split | (dsimp only; split)

theorem zEnabled_evolves {base s : State} (ev : Evolves base s) (z : Nat) (t : Nat) :
    Evolves base (zEnabled z t s) := by
  unfold zEnabled
  repeat' first
    | with_reducible assumption | (intro)
    | with_reducible apply State.setZp_evolves | with_reducible apply State.setB_evolves
    | with_reducible apply State.later_evolves | with_reducible apply Evolves.ite
    | split | (dsimp only; split)

theorem zDisabled_evolves {base s : State} (ev : Evolves base s) (z : Nat) :
    Evolves base (zDisabled z s) := by
  unfold zDisabled
  repeat' first
    | with_reducible assumption | (intro)
    | with_reducible apply State.setZp_evolves | with_reducible apply State.setB_evolves
    | split | (dsimp only; split)

theorem readback_evolves {base s : State} (ev : Evolves base s) (z : Nat) (t : Nat) (m : Int) :
    Evolves base (readback z t m s) := by
  unfold readback
  repeat' first
    | with_reducible assumption | (intro)
    | with_reducible apply State.setZp_evolves | with_reducible apply State.setI_evolves
    | with_reducible apply State.incSat_evolves | with_reducible apply State.flagAlways_evolves
    | with_reducible apply parkZ_evolves | with_reducible apply Evolves.ite
    | split | (dsimp only; split)
    | refine Evolves.fst (by with_reducible assumption) ?_ | refine Evolves.snd (by with_reducible assumption) ?_

end Sys2Proof.Machine
end

