-- ==== Sys2Proof/Laws/EvCal.lean ====
section
/-! SUPPORT. What the operations of Machine/Cal.lean keep (Evolves). -/

namespace Sys2Proof.Machine

theorem State.setMon_evolves {base s : State} (ev : Evolves base s) (x : Nat) (m : Mon) :
    Evolves base (State.setMon s x m) := by
  unfold State.setMon
  repeat' first
    | with_reducible assumption | (intro)
    | split | (dsimp only; split)
    | with_reducible apply Evolves.upd | with_reducible apply HostIf.Grows.refl | with_reducible apply HostIf.Grows.upd
    | with_reducible apply Excise.Grows.refl | with_reducible apply Excise.Grows.upd
    | exact ⟨id, Nat.le_refl _⟩ | exact ⟨id, Nat.le_succ _⟩

theorem calRequest_evolves {base s : State} (ev : Evolves base s) (a : Nat) (cause : Nat) (t : Nat) :
    Evolves base (calRequest a cause t s) := by
  unfold calRequest
  repeat' first
    | with_reducible assumption | (intro)
    | with_reducible apply State.set_evolves | with_reducible apply State.setB_evolves
    | with_reducible apply State.setCal_evolves | with_reducible apply State.modSeq_evolves
    | with_reducible apply Evolves.ite | with_reducible apply Evolves.foldl | with_reducible apply Evolves.foldl_snd
    | with_reducible apply Evolves.foldl_fst
    | split | (dsimp only; split)
    | refine Evolves.fst (by with_reducible assumption) ?_ | refine Evolves.snd (by with_reducible assumption) ?_

theorem calWithdraw_evolves {base s : State} (ev : Evolves base s) (a : Nat) :
    Evolves base (calWithdraw a s) := by
  unfold calWithdraw
  repeat' first
    | with_reducible assumption | (intro)
    | with_reducible apply State.modSeq_evolves | with_reducible apply Evolves.ite | with_reducible apply Evolves.foldl
    | with_reducible apply Evolves.foldl_snd | with_reducible apply Evolves.foldl_fst
    | split | (dsimp only; split)

theorem calFinish_evolves {base s : State} (ev : Evolves base s) (a : Nat) (t : Nat) :
    Evolves base (calFinish a t s) := by
  unfold calFinish
  repeat' first
    | with_reducible assumption | (intro)
    | with_reducible apply State.set_evolves | with_reducible apply State.setB_evolves
    | with_reducible apply calRequest_evolves | with_reducible apply State.inc_evolves
    | with_reducible apply calWithdraw_evolves | with_reducible apply State.setCal_evolves
    | with_reducible apply State.flagAlways_evolves | with_reducible apply Evolves.ite
    | split | (dsimp only; split)

theorem calDrop_evolves {base s : State} (ev : Evolves base s) (a : Nat) :
    Evolves base (calDrop a s) := by
  unfold calDrop
  repeat' first
    | with_reducible assumption | (intro)
    | with_reducible apply State.set_evolves | with_reducible apply State.setB_evolves
    | with_reducible apply calWithdraw_evolves | with_reducible apply State.setCal_evolves
    | split | (dsimp only; split)

theorem calFence_evolves {base s : State} (ev : Evolves base s) (a : Nat) :
    Evolves base (calFence a s) := by
  unfold calFence
  repeat' first
    | with_reducible assumption | (intro)
    | with_reducible apply State.setB_evolves | with_reducible apply calDrop_evolves
    | with_reducible apply State.setCal_evolves
    | split | (dsimp only; split)
    | refine Evolves.fst (by with_reducible assumption) ?_ | refine Evolves.snd (by with_reducible assumption) ?_

theorem calStart_evolves {base s : State} (ev : Evolves base s) (a : Nat) (n : Nat) (t : Nat) :
    Evolves base (calStart a n t s) := by
  unfold calStart
  repeat' first
    | with_reducible assumption | (intro)
    | with_reducible apply State.setRfo_evolves | with_reducible apply State.setRfi_evolves
    | with_reducible apply State.set_evolves | with_reducible apply setRfiState_evolves
    | with_reducible apply setRfoState_evolves | with_reducible apply State.setCal_evolves
    | with_reducible apply State.flag_evolves | with_reducible apply Evolves.ite
    | split | (dsimp only; split)
    | refine Evolves.fst (by with_reducible assumption) ?_ | refine Evolves.snd (by with_reducible assumption) ?_

theorem calBack_evolves {base s : State} (ev : Evolves base s) (a : Nat) (st : CalStep) (t : Nat) :
    Evolves base (calBack a st t s) := by
  unfold calBack
  repeat' first
    | with_reducible assumption | (intro)
    | with_reducible apply setRfiState_evolves | with_reducible apply setRfoState_evolves
    | with_reducible apply Evolves.ite
    | split | (dsimp only; split)
    | refine Evolves.fst (by with_reducible assumption) ?_ | refine Evolves.snd (by with_reducible assumption) ?_

theorem calFail_evolves {base s : State} (ev : Evolves base s) (a : Nat) (n : Nat) (timeout : Bool) :
    Evolves base (calFail a n timeout s) := by
  unfold calFail
  repeat' first
    | with_reducible assumption | (intro)
    | with_reducible apply State.set_evolves | with_reducible apply State.setB_evolves
    | with_reducible apply State.incSat_evolves | with_reducible apply State.flagAlways_evolves
    | split | (dsimp only; split)

theorem calApply_evolves {base s : State} (ev : Evolves base s) (a : Nat) (st : CalStep) (sel : Nat) (bad : Nat) (res :
    Nat) :
    Evolves base (calApply a st sel bad res s) := by
  unfold calApply
  repeat' first
    | with_reducible assumption | (intro)
    | with_reducible apply State.setRfi_evolves | with_reducible apply State.set_evolves
    | with_reducible apply State.setB_evolves | with_reducible apply State.inc_evolves
    | with_reducible apply State.setCal_evolves | with_reducible apply calFail_evolves | with_reducible apply Evolves.ite
    | with_reducible apply Evolves.foldl | with_reducible apply Evolves.foldl_snd | with_reducible apply Evolves.foldl_fst
    | split | (dsimp only; split)
    | refine Evolves.fst (by with_reducible assumption) ?_ | refine Evolves.snd (by with_reducible assumption) ?_

theorem calNext_evolves {base s : State} (ev : Evolves base s) (a : Nat) (st : CalStep) (t : Nat) :
    Evolves base (calNext a st t s) := by
  unfold calNext
  repeat' first
    | with_reducible assumption | (intro)
    | with_reducible apply calFinish_evolves | with_reducible apply calDrop_evolves
    | with_reducible apply State.setCal_evolves | with_reducible apply calBack_evolves | with_reducible apply Evolves.ite
    | split | (dsimp only; split)

theorem calLoad_evolves {base s : State} (ev : Evolves base s) (a : Nat) :
    Evolves base (calLoad a s) := by
  unfold calLoad
  repeat' first
    | with_reducible assumption | (intro)
    | with_reducible apply State.set_evolves | with_reducible apply State.setB_evolves
    | with_reducible apply State.setCal_evolves | with_reducible apply State.event_evolves
    | with_reducible apply Evolves.ite | with_reducible apply Evolves.foldl | with_reducible apply Evolves.foldl_snd
    | with_reducible apply Evolves.foldl_fst
    | split | (dsimp only; split)
    | refine Evolves.fst (by with_reducible assumption) ?_ | refine Evolves.snd (by with_reducible assumption) ?_

theorem calStore_evolves {base s : State} (ev : Evolves base s) (a : Nat) :
    Evolves base (calStore a s) := by
  unfold calStore
  repeat' first
    | with_reducible assumption | (intro)
    | with_reducible apply State.setCal_evolves | with_reducible apply Evolves.ite
    | split | (dsimp only; split)
    | refine Evolves.fst (by with_reducible assumption) ?_ | refine Evolves.snd (by with_reducible assumption) ?_

theorem monDue_evolves {base s : State} (ev : Evolves base s) (x : Nat) (j : Nat) (t : Nat) :
    Evolves base (monDue x j t s) := by
  unfold monDue
  repeat' first
    | with_reducible assumption | (intro)
    | with_reducible apply State.setMon_evolves
    | split | (dsimp only; split)

theorem monTrigger_evolves {base s : State} (ev : Evolves base s) (trig : Nat) (src : Nat) (t : Nat) :
    Evolves base (monTrigger trig src t s) := by
  unfold monTrigger
  repeat' first
    | with_reducible assumption | (intro)
    | with_reducible apply monDue_evolves | with_reducible apply Evolves.ite | with_reducible apply Evolves.foldl
    | with_reducible apply Evolves.foldl_snd | with_reducible apply Evolves.foldl_fst
    | split | (dsimp only; split)

theorem monTaken_evolves {base s : State} (ev : Evolves base s) (x : Nat) (j : Nat) (t : Nat) :
    Evolves base (monTaken x j t s) := by
  unfold monTaken
  repeat' first
    | with_reducible assumption | (intro)
    | with_reducible apply State.setMon_evolves | with_reducible apply Evolves.ite
    | split | (dsimp only; split)

theorem monRequest_evolves {base s : State} (ev : Evolves base s) (x : Nat) (j : Nat) (t : Nat) :
    Evolves base (monRequest x j t s) := by
  unfold monRequest
  repeat' first
    | with_reducible assumption | (intro)
    | with_reducible apply State.setMon_evolves | with_reducible apply State.incSat_evolves
    | with_reducible apply State.flag_evolves | with_reducible apply Evolves.ite
    | split | (dsimp only; split)

theorem monFire_evolves {base s : State} (ev : Evolves base s) (x : Nat) (j : Nat) (t : Nat) :
    Evolves base (monFire x j t s) := by
  unfold monFire
  repeat' first
    | with_reducible assumption | (intro)
    | with_reducible apply monTaken_evolves | with_reducible apply monRequest_evolves
    | split | (dsimp only; split)

theorem monStart_evolves {base s : State} (ev : Evolves base s) (x : Nat) :
    Evolves base (monStart x s) := by
  unfold monStart
  repeat' first
    | with_reducible assumption | (intro)
    | with_reducible apply State.setMon_evolves
    | split | (dsimp only; split)
    | refine Evolves.fst (by with_reducible assumption) ?_ | refine Evolves.snd (by with_reducible assumption) ?_

end Sys2Proof.Machine
end

