-- ==== Sys2Proof/Laws/EvFence.lean ====
section
/-! SUPPORT. What the operations of Machine/Fence.lean keep (Evolves). -/

namespace Sys2Proof.Machine

theorem parkTile_evolves {base s : State} (ev : Evolves base s) (a : Nat) (cause : Nat) (t : Nat) :
    Evolves base (parkTile a cause t s) := by
  unfold parkTile
  repeat' first
    | with_reducible assumption | (intro)
    | with_reducible apply parkRfo_evolves | with_reducible apply parkZ_evolves | with_reducible apply Evolves.foldl
    | with_reducible apply Evolves.foldl_snd | with_reducible apply Evolves.foldl_fst
    | split | (dsimp only; split)

theorem parkAll_evolves {base s : State} (ev : Evolves base s) (cause : Nat) (t : Nat) :
    Evolves base (parkAll cause t s) := by
  unfold parkAll
  repeat' first
    | with_reducible assumption | (intro)
    | with_reducible apply parkTile_evolves | with_reducible apply Evolves.foldl | with_reducible apply Evolves.foldl_snd
    | with_reducible apply Evolves.foldl_fst
    | split | (dsimp only; split)

theorem zSupplyOff_evolves {base s : State} (ev : Evolves base s) (z : Nat) (t : Nat) :
    Evolves base (zSupplyOff z t s) := by
  unfold zSupplyOff
  repeat' first
    | with_reducible assumption | (intro)
    | with_reducible apply State.setZp_evolves | with_reducible apply State.set_evolves
    | with_reducible apply State.setB_evolves | with_reducible apply setZRange_evolves
    | split | (dsimp only; split)

theorem tileOff_evolves {base s : State} (ev : Evolves base s) (a : Nat) (t : Nat) :
    Evolves base (tileOff a t s) := by
  unfold tileOff
  repeat' first
    | with_reducible assumption | (intro)
    | with_reducible apply State.setRfo_evolves | with_reducible apply setRfiState_evolves
    | with_reducible apply zSupplyOff_evolves | with_reducible apply setRfoState_evolves
    | with_reducible apply deriveReady_evolves | with_reducible apply closeGate_evolves
    | with_reducible apply Evolves.foldl | with_reducible apply Evolves.foldl_snd | with_reducible apply Evolves.foldl_fst
    | split | (dsimp only; split)
    | with_reducible apply Evolves.upd | with_reducible apply HostIf.Grows.refl | with_reducible apply HostIf.Grows.upd
    | with_reducible apply Excise.Grows.refl | with_reducible apply Excise.Grows.upd
    | exact ⟨id, Nat.le_refl _⟩ | exact ⟨id, Nat.le_succ _⟩

theorem fenceSeq_evolves {base s : State} (ev : Evolves base s) (a : Nat) (k : Nat) (t : Nat) :
    Evolves base (fenceSeq a k t s) := by
  unfold fenceSeq
  repeat' first
    | with_reducible assumption | (intro)
    | with_reducible apply discardEntries_evolves | with_reducible apply abortShots_evolves
    | with_reducible apply abortTrap_evolves | with_reducible apply Evolves.ite
    | split | (dsimp only; split)

theorem fenceTile_evolves {base s : State} (ev : Evolves base s) (a : Nat) (cause : Nat) (off : Bool) (t : Nat) :
    Evolves base (fenceTile a cause off t s) := by
  unfold fenceTile
  repeat' first
    | with_reducible assumption | (intro)
    | with_reducible apply parkTile_evolves | with_reducible apply State.set_evolves
    | with_reducible apply tileOff_evolves | with_reducible apply fenceSeq_evolves | with_reducible apply rfiFence_evolves
    | with_reducible apply calFence_evolves | with_reducible apply tapFence_evolves
    | with_reducible apply State.event_evolves | with_reducible apply lauFence_evolves | with_reducible apply Evolves.ite
    | with_reducible apply Evolves.foldl | with_reducible apply Evolves.foldl_snd | with_reducible apply Evolves.foldl_fst
    | split | (dsimp only; split)
    | with_reducible apply Evolves.upd | with_reducible apply HostIf.Grows.refl | with_reducible apply HostIf.Grows.upd
    | with_reducible apply Excise.Grows.refl | with_reducible apply Excise.Grows.upd
    | exact ⟨id, Nat.le_refl _⟩ | exact ⟨id, Nat.le_succ _⟩

end Sys2Proof.Machine
end

