-- ==== Sys2Proof/Laws/EvMicro.lean ====
section
/-! SUPPORT. What the operations of Machine/Micro.lean keep (Evolves). -/

namespace Sys2Proof.Machine

theorem modMicro_evolves {base s : State} (ev : Evolves base s) (k : Nat) (f : Micro → Micro) :
    Evolves base (modMicro k f s) := by
  unfold modMicro
  repeat' first
    | with_reducible assumption | (intro)
    | with_reducible apply State.modSeq_evolves
    | split | (dsimp only; split)

theorem microFault_evolves {base s : State} (ev : Evolves base s) (k : Nat) (code : Nat) (t : Nat) :
    Evolves base (microFault k code t s) := by
  unfold microFault
  repeat' first
    | with_reducible assumption | (intro)
    | with_reducible apply abortTrap_evolves | with_reducible apply Evolves.ite
    | split | (dsimp only; split)

theorem microRetire_evolves {base s : State} (ev : Evolves base s) (k : Nat) (t : Nat) :
    Evolves base (microRetire k t s) := by
  unfold microRetire
  repeat' first
    | with_reducible assumption | (intro)
    | with_reducible apply modMicro_evolves | with_reducible apply setSeqState_evolves
    | with_reducible apply State.modSeq_evolves | with_reducible apply abortEnd_evolves
    | with_reducible apply retire_evolves | with_reducible apply retireTo_evolves | with_reducible apply Evolves.ite
    | split | (dsimp only; split)
    | refine Evolves.fst (by with_reducible assumption) ?_ | refine Evolves.snd (by with_reducible assumption) ?_

theorem microGoto_evolves {base s : State} (ev : Evolves base s) (k : Nat) (a : Nat) (t : Nat) :
    Evolves base (microGoto k a t s) := by
  unfold microGoto
  repeat' first
    | with_reducible assumption | (intro)
    | with_reducible apply State.modSeq_evolves
    | split | (dsimp only; split)

theorem microAfter_evolves {base s : State} (ev : Evolves base s) (k : Nat) (w : Nat) (t : Nat) :
    Evolves base (microAfter k w t s) := by
  unfold microAfter
  repeat' first
    | with_reducible assumption | (intro)
    | with_reducible apply modMicro_evolves | with_reducible apply microFault_evolves
    | with_reducible apply microRetire_evolves | with_reducible apply microGoto_evolves | with_reducible apply Evolves.ite
    | split | (dsimp only; split)

theorem tauPut_evolves {base s : State} (ev : Evolves base s) (k : Nat) (dest : Nat) (tscl : Bool) (p0 : Nat) (p1 : Nat) :
    Evolves base (tauPut k dest tscl p0 p1 s) := by
  unfold tauPut
  repeat' first
    | with_reducible assumption | (intro)
    | with_reducible apply modMicro_evolves | with_reducible apply setGreg_evolves | with_reducible apply Evolves.ite
    | split | (dsimp only; split)
    | refine Evolves.fst (by with_reducible assumption) ?_ | refine Evolves.snd (by with_reducible assumption) ?_

theorem landTau_evolves {base s : State} (ev : Evolves base s) (k : Nat) (t : Nat) :
    Evolves base (landTau k t s) := by
  unfold landTau
  repeat' first
    | with_reducible assumption | (intro)
    | with_reducible apply modMicro_evolves | with_reducible apply tauPut_evolves
    | with_reducible apply State.modSeq_evolves | with_reducible apply Evolves.ite | with_reducible apply Evolves.foldl
    | with_reducible apply Evolves.foldl_snd | with_reducible apply Evolves.foldl_fst
    | split | (dsimp only; split)
    | refine Evolves.fst (by with_reducible assumption) ?_ | refine Evolves.snd (by with_reducible assumption) ?_

theorem freeWords_evolves {base s : State} (ev : Evolves base s) (n : Nat) : Evolves base (freeWords n s).2 :=
  ev.addFree n

theorem ruleShadow_evolves {base s : State} (ev : Evolves base s) (k : Nat) (trap : Nat) (upc : Nat) (t : Nat) (open_ :
    Bool) (known : List (Nat × Nat)) :
    Evolves base (ruleShadow k trap upc t open_ known s) := by
  unfold ruleShadow
  repeat' first
    | with_reducible assumption | (intro)
    | with_reducible apply modMicro_evolves | with_reducible apply freeWords_evolves
    | with_reducible apply State.modSeq_evolves | with_reducible apply Evolves.ite | with_reducible apply Evolves.foldl
    | with_reducible apply Evolves.foldl_snd | with_reducible apply Evolves.foldl_fst
    | split | (dsimp only; split)

theorem microBegin_evolves {base s : State} (ev : Evolves base s) (k : Nat) (op : Nat) (t : Nat) :
    Evolves base (microBegin k op t s) := by
  unfold microBegin
  repeat' first
    | with_reducible assumption | (intro)
    | with_reducible apply freeWords_evolves | with_reducible apply State.modSeq_evolves
    | with_reducible apply Evolves.ite
    | split | (dsimp only; split)

theorem trapBegin_evolves {base s : State} (ev : Evolves base s) (k : Nat) (n : Nat) (r : Resume) (t : Nat) :
    Evolves base (trapBegin k n r t s) := by
  unfold trapBegin
  repeat' first
    | with_reducible assumption | (intro)
    | with_reducible apply modMicro_evolves | with_reducible apply unstall_evolves
    | split | (dsimp only; split)

end Sys2Proof.Machine
end

