-- ==== Sys2Proof/Laws/EvTriggers.lean ====
section
/-! SUPPORT. What the operations of Machine/Triggers.lean keep (Evolves). -/

namespace Sys2Proof.Machine

theorem microDone_evolves {base s : State} (ev : Evolves base s) (k : Nat) (t : Nat) (f : Micro → Micro) :
    Evolves base (microDone k t f s) := by
  unfold microDone
  repeat' first
    | with_reducible assumption | (intro)
    | with_reducible apply microAfter_evolves | with_reducible apply unstall_evolves
    | with_reducible apply State.modSeq_evolves
    | split | (dsimp only; split)

theorem trapReturn_evolves {base s : State} (ev : Evolves base s) (k : Nat) (at_ : Nat) :
    Evolves base (trapReturn k at_ s) := by
  unfold trapReturn
  repeat' first
    | with_reducible assumption | (intro)
    | with_reducible apply setSeqState_evolves | with_reducible apply Evolves.ite
    | split | (dsimp only; split)

theorem wakeTrig_evolves {base s : State} (ev : Evolves base s) (code : Nat) (stamp : Nat) (t : Nat) (k : Nat) :
    Evolves base (wakeTrig code stamp t k s) := by
  unfold wakeTrig
  repeat' first
    | with_reducible assumption | (intro)
    | with_reducible apply microDone_evolves | with_reducible apply modMicro_evolves
    | with_reducible apply unstall_evolves | with_reducible apply raiseCursor_evolves
    | with_reducible apply State.modSeq_evolves | with_reducible apply retire_evolves | with_reducible apply Evolves.ite
    | split | (dsimp only; split)
    | refine Evolves.fst (by with_reducible assumption) ?_ | refine Evolves.snd (by with_reducible assumption) ?_

theorem mirrorPins_evolves {base s : State} (ev : Evolves base s) (code : Nat) (t : Nat) :
    Evolves base (mirrorPins code t s) := by
  unfold mirrorPins
  repeat' first
    | with_reducible assumption | (intro)
    | with_reducible apply State.emit_evolves | with_reducible apply Evolves.ite | with_reducible apply Evolves.foldl
    | with_reducible apply Evolves.foldl_snd | with_reducible apply Evolves.foldl_fst
    | split | (dsimp only; split)

theorem fireSource_evolves {base s : State} (ev : Evolves base s) (code : Nat) (stamp : Nat) (t : Nat) :
    Evolves base (fireSource code stamp t s) := by
  unfold fireSource
  repeat' first
    | with_reducible assumption | (intro)
    | with_reducible apply wakeTrig_evolves | with_reducible apply mirrorPins_evolves
    | with_reducible apply tapSource_evolves | with_reducible apply monTrigger_evolves
    | with_reducible apply Evolves.foldl | with_reducible apply Evolves.foldl_snd | with_reducible apply Evolves.foldl_fst
    | split | (dsimp only; split)

theorem modAngle_evolves {base s : State} (ev : Evolves base s) (f : Angle → Angle) :
    Evolves base (modAngle f s) := by
  unfold modAngle
  repeat' first
    | with_reducible assumption | (intro)
    | split | (dsimp only; split)
    | with_reducible apply Evolves.upd | with_reducible apply HostIf.Grows.refl | with_reducible apply HostIf.Grows.upd
    | with_reducible apply Excise.Grows.refl | with_reducible apply Excise.Grows.upd
    | exact ⟨id, Nat.le_refl _⟩ | exact ⟨id, Nat.le_succ _⟩

theorem caUnlock_evolves {base s : State} (ev : Evolves base s)  :
    Evolves base (caUnlock s) := by
  unfold caUnlock
  repeat' first
    | with_reducible assumption | (intro)
    | with_reducible apply State.setB_evolves | with_reducible apply markAngle_evolves
    | with_reducible apply State.event_evolves
    | split | (dsimp only; split)

theorem caMiss_evolves {base s : State} (ev : Evolves base s) (t : Nat) :
    Evolves base (caMiss t s) := by
  unfold caMiss
  repeat' first
    | with_reducible assumption | (intro)
    | with_reducible apply State.setB_evolves | with_reducible apply State.incSat_evolves
    | with_reducible apply fireSource_evolves | with_reducible apply modAngle_evolves
    | with_reducible apply caUnlock_evolves | with_reducible apply markAngle_evolves
    | with_reducible apply State.event_evolves | with_reducible apply Evolves.ite
    | split | (dsimp only; split)

theorem wakeAngle_evolves {base s : State} (ev : Evolves base s) (t : Nat) :
    Evolves base (wakeAngle t s) := by
  unfold wakeAngle
  repeat' first
    | with_reducible assumption | (intro)
    | with_reducible apply microDone_evolves | with_reducible apply modMicro_evolves
    | with_reducible apply State.set_evolves | with_reducible apply unstall_evolves | with_reducible apply retire_evolves
    | with_reducible apply Evolves.foldl | with_reducible apply Evolves.foldl_snd | with_reducible apply Evolves.foldl_fst
    | split | (dsimp only; split)
    | refine Evolves.fst (by with_reducible assumption) ?_ | refine Evolves.snd (by with_reducible assumption) ?_

end Sys2Proof.Machine
end

