-- ==== Sys2Proof/Laws/EvBus.lean ====
section
/-! SUPPORT. What the operations of Machine/Bus.lean keep (Evolves). -/

namespace Sys2Proof.Machine

theorem holdLine_evolves {base s : State} (ev : Evolves base s) (st : Nat) :
    Evolves base (holdLine st s) := by
  unfold holdLine
  repeat' first
    | with_reducible assumption | (intro)
    | split | (dsimp only; split)
    | with_reducible apply Evolves.upd | with_reducible apply HostIf.Grows.refl | with_reducible apply HostIf.Grows.upd
    | with_reducible apply Excise.Grows.refl | with_reducible apply Excise.Grows.upd
    | exact ⟨id, Nat.le_refl _⟩ | exact ⟨id, Nat.le_succ _⟩

theorem busSend_evolves {base s : State} (ev : Evolves base s) (type : Nat) (bcast : Nat) (addr : Nat) (payload : Nat) :
    Evolves base (busSend type bcast addr payload s) := by
  unfold busSend
  repeat' first
    | with_reducible assumption | (intro)
    | with_reducible apply holdLine_evolves | with_reducible apply State.emit_evolves | with_reducible apply Evolves.ite
    | split | (dsimp only; split)

theorem busLaunch_evolves {base s : State} (ev : Evolves base s) (type : Nat) (at_ : Nat) :
    Evolves base (busLaunch type at_ s) := by
  unfold busLaunch
  repeat' first
    | with_reducible assumption | (intro)
    | with_reducible apply holdLine_evolves | with_reducible apply State.emit_evolves
    | with_reducible apply fireSource_evolves | with_reducible apply Evolves.ite
    | split | (dsimp only; split)

theorem echoRequest_evolves {base s : State} (ev : Evolves base s) (rest : List Nat) (x : Nat) (ds : List Int) :
    Evolves base (echoRequest rest x ds s) := by
  unfold echoRequest
  repeat' first
    | with_reducible assumption | (intro)
    | with_reducible apply busSend_evolves
    | split | (dsimp only; split)
    | with_reducible apply Evolves.upd | with_reducible apply HostIf.Grows.refl | with_reducible apply HostIf.Grows.upd
    | with_reducible apply Excise.Grows.refl | with_reducible apply Excise.Grows.upd
    | exact ⟨id, Nat.le_refl _⟩ | exact ⟨id, Nat.le_succ _⟩

theorem echoNext_evolves {base s : State} (ev : Evolves base s) (rest : List Nat) :
    Evolves base (echoNext rest s) := by
  unfold echoNext
  repeat' first
    | with_reducible assumption | (intro)
    | with_reducible apply State.setB_evolves | with_reducible apply echoRequest_evolves
    | with_reducible apply State.event_evolves | with_reducible apply Evolves.ite
    | split | (dsimp only; split)
    | with_reducible apply Evolves.upd | with_reducible apply HostIf.Grows.refl | with_reducible apply HostIf.Grows.upd
    | with_reducible apply Excise.Grows.refl | with_reducible apply Excise.Grows.upd
    | exact ⟨id, Nat.le_refl _⟩ | exact ⟨id, Nat.le_succ _⟩

theorem echoExpire_evolves {base s : State} (ev : Evolves base s)  :
    Evolves base (echoExpire s) := by
  unfold echoExpire
  repeat' first
    | with_reducible assumption | (intro)
    | with_reducible apply State.setB_evolves | with_reducible apply echoNext_evolves
    | with_reducible apply State.flagAlways_evolves
    | split | (dsimp only; split)
    | refine Evolves.fst (by with_reducible assumption) ?_ | refine Evolves.snd (by with_reducible assumption) ?_

theorem secondCheck_evolves {base s : State} (ev : Evolves base s)  :
    Evolves base (secondCheck s) := by
  unfold secondCheck
  repeat' first
    | with_reducible assumption | (intro)
    | with_reducible apply busLaunch_evolves | with_reducible apply Evolves.ite
    | split | (dsimp only; split)
    | with_reducible apply Evolves.upd | with_reducible apply HostIf.Grows.refl | with_reducible apply HostIf.Grows.upd
    | with_reducible apply Excise.Grows.refl | with_reducible apply Excise.Grows.upd
    | exact ⟨id, Nat.le_refl _⟩ | exact ⟨id, Nat.le_succ _⟩

end Sys2Proof.Machine
end

