-- ==== Sys2Proof/Laws/EvCrcRegs.lean ====
section
/-! SUPPORT. What the operations of Machine/CrcRegs.lean keep (Evolves). -/

namespace Sys2Proof.Machine

theorem State.setCrc_evolves {base s : State} (ev : Evolves base s) (b : CfgBlock) (x : Crc) :
    Evolves base (State.setCrc s b x) := by
  unfold State.setCrc
  repeat' first
    | with_reducible assumption | (intro)
    | split | (dsimp only; split)
    | with_reducible apply Evolves.upd | with_reducible apply HostIf.Grows.refl | with_reducible apply HostIf.Grows.upd
    | with_reducible apply Excise.Grows.refl | with_reducible apply Excise.Grows.upd
    | exact ⟨id, Nat.le_refl _⟩ | exact ⟨id, Nat.le_succ _⟩

theorem suspendCrc_evolves {base s : State} (ev : Evolves base s) (b : CfgBlock) :
    Evolves base (suspendCrc b s) := by
  unfold suspendCrc
  repeat' first
    | with_reducible assumption | (intro)
    | with_reducible apply State.setCrc_evolves | with_reducible apply Evolves.ite
    | split | (dsimp only; split)

theorem cfgLater_evolves {base s : State} (ev : Evolves base s) (f : Fld) (v : Nat) (block : Option CfgBlock) :
    Evolves base (cfgLater f v block s) := by
  unfold cfgLater
  repeat' first
    | with_reducible assumption | (intro)
    | with_reducible apply State.set_evolves | with_reducible apply markTone_evolves
    | with_reducible apply suspendCrc_evolves | with_reducible apply Evolves.ite
    | split | (dsimp only; split)
    | refine Evolves.fst (by with_reducible assumption) ?_ | refine Evolves.snd (by with_reducible assumption) ?_

end Sys2Proof.Machine
end

