-- ==== Sys2Proof/Laws/EvEngines.lean ====
section
/-! SUPPORT. What the operations of Machine/Engines.lean keep (Evolves). -/

namespace Sys2Proof.Machine

theorem State.setAna_evolves {base s : State} (ev : Evolves base s) (a : Nat) (x : Engine) :
    Evolves base (State.setAna s a x) := by
  unfold State.setAna
  repeat' first
    | with_reducible assumption | (intro)
    | split | (dsimp only; split)
    | with_reducible apply Evolves.upd | with_reducible apply HostIf.Grows.refl | with_reducible apply HostIf.Grows.upd
    | with_reducible apply Excise.Grows.refl | with_reducible apply Excise.Grows.upd
    | exact ⟨id, Nat.le_refl _⟩ | exact ⟨id, Nat.le_succ _⟩

theorem State.modAna_evolves {base s : State} (ev : Evolves base s) (a : Nat) (f : Engine → Engine) :
    Evolves base (State.modAna s a f) := by
  unfold State.modAna
  repeat' first
    | with_reducible assumption | (intro)
    | with_reducible apply State.setAna_evolves
    | split | (dsimp only; split)

theorem setEngWord_evolves {base s : State} (ev : Evolves base s) (a : Nat) (w : Nat) (v : Nat) :
    Evolves base (setEngWord a w v s) := by
  unfold setEngWord
  repeat' first
    | with_reducible assumption | (intro)
    | with_reducible apply State.wr_evolves
    | split | (dsimp only; split)

theorem setEngBankOf_evolves {base s : State} (ev : Evolves base s) (a : Nat) (shadow : Bool) (b : EngBank) :
    Evolves base (setEngBankOf a shadow b s) := by
  unfold setEngBankOf
  repeat' first
    | with_reducible assumption | (intro)
    | with_reducible apply State.modAna_evolves | with_reducible apply Evolves.ite
    | split | (dsimp only; split)

theorem setEngBank_evolves {base s : State} (ev : Evolves base s) (a : Nat) (b : EngBank) :
    Evolves base (setEngBank a b s) := by
  unfold setEngBank
  repeat' first
    | with_reducible assumption | (intro)
    | with_reducible apply setEngBankOf_evolves
    | split | (dsimp only; split)

theorem engResult_evolves {base s : State} (ev : Evolves base s) (a : Nat) (l : Nat) (d : EngDest) (i : Int) :
    Evolves base (engResult a l d i s) := by
  unfold engResult
  repeat' first
    | with_reducible assumption | (intro)
    | with_reducible apply State.modAna_evolves
    | split | (dsimp only; split)

theorem engLand_evolves {base s : State} (ev : Evolves base s) (a : Nat) (n : Nat) :
    Evolves base (engLand a n s) := by
  unfold engLand
  repeat' first
    | with_reducible assumption | (intro)
    | with_reducible apply State.setAna_evolves | with_reducible apply setEngBankOf_evolves
    | with_reducible apply Evolves.foldl | with_reducible apply Evolves.foldl_snd | with_reducible apply Evolves.foldl_fst
    | split | (dsimp only; split)

theorem setEngAu_evolves {base s : State} (ev : Evolves base s) (a : Nat) (u : Nat) (x : AddrUnit) :
    Evolves base (setEngAu a u x s) := by
  unfold setEngAu
  repeat' first
    | with_reducible assumption | (intro)
    | with_reducible apply setEngBank_evolves
    | split | (dsimp only; split)

theorem postMod_evolves {base s : State} (ev : Evolves base s) (a : Nat) (u : Nat) (pm : Nat) :
    Evolves base (postMod a u pm s) := by
  unfold postMod
  repeat' first
    | with_reducible assumption | (intro)
    | with_reducible apply setEngAu_evolves
    | split | (dsimp only; split)
    | refine Evolves.fst (by with_reducible assumption) ?_ | refine Evolves.snd (by with_reducible assumption) ?_

theorem engFault_evolves {base s : State} (ev : Evolves base s) (a : Nat) (code : Nat) :
    Evolves base (engFault a code s) := by
  unfold engFault
  repeat' first
    | with_reducible assumption | (intro)
    | with_reducible apply State.set_evolves | with_reducible apply State.flag_evolves
    | split | (dsimp only; split)

theorem engStart_evolves {base s : State} (ev : Evolves base s) (a : Nat) (t : Nat) :
    Evolves base (engStart a t s) := by
  unfold engStart
  repeat' first
    | with_reducible assumption | (intro)
    | with_reducible apply State.setAna_evolves | with_reducible apply State.set_evolves
    | with_reducible apply State.setB_evolves | with_reducible apply Evolves.ite
    | split | (dsimp only; split)

theorem engGoto_evolves {base s : State} (ev : Evolves base s) (a : Nat) (pc : Nat) :
    Evolves base (engGoto a pc s) := by
  unfold engGoto
  repeat' first
    | with_reducible assumption | (intro)
    | with_reducible apply State.set_evolves | with_reducible apply engFault_evolves | with_reducible apply Evolves.ite
    | split | (dsimp only; split)

theorem engSequential_evolves {base s : State} (ev : Evolves base s) (a : Nat) :
    Evolves base (engSequential a s) := by
  unfold engSequential
  repeat' first
    | with_reducible assumption | (intro)
    | with_reducible apply setEngBank_evolves | with_reducible apply engGoto_evolves
    | split | (dsimp only; split)
    | refine Evolves.fst (by with_reducible assumption) ?_ | refine Evolves.snd (by with_reducible assumption) ?_

theorem engNext_evolves {base s : State} (ev : Evolves base s) (a : Nat) (skip : Option Nat) :
    Evolves base (engNext a skip s) := by
  unfold engNext
  repeat' first
    | with_reducible assumption | (intro)
    | with_reducible apply State.setAna_evolves | with_reducible apply State.setB_evolves
    | with_reducible apply engGoto_evolves | with_reducible apply engSequential_evolves | with_reducible apply Evolves.ite
    | split | (dsimp only; split)
    | refine Evolves.fst (by with_reducible assumption) ?_ | refine Evolves.snd (by with_reducible assumption) ?_

theorem engClock_evolves {base s : State} (ev : Evolves base s) (a : Nat) :
    Evolves base (engClock a s) := by
  unfold engClock
  repeat' first
    | with_reducible assumption | (intro)
    | with_reducible apply State.modAna_evolves | with_reducible apply State.inc_evolves
    | with_reducible apply engLand_evolves
    | split | (dsimp only; split)

theorem engSettle_evolves {base s : State} (ev : Evolves base s) (a : Nat) (t : Nat) :
    Evolves base (engSettle a t s) := by
  unfold engSettle
  repeat' first
    | with_reducible assumption | (intro)
    | with_reducible apply State.modAna_evolves | with_reducible apply State.set_evolves
    | split | (dsimp only; split)

theorem engRaise_evolves {base s : State} (ev : Evolves base s) (a : Nat) (src : Nat) (t : Nat) :
    Evolves base (engRaise a src t s) := by
  unfold engRaise
  repeat' first
    | with_reducible assumption | (intro)
    | with_reducible apply State.modAna_evolves | with_reducible apply State.set_evolves
    | with_reducible apply State.inc_evolves | with_reducible apply engLand_evolves | with_reducible apply engNext_evolves
    | with_reducible apply Evolves.ite
    | split | (dsimp only; split)

theorem engFinish_evolves {base s : State} (ev : Evolves base s) (a : Nat) (flow : EngFlow) :
    Evolves base (engFinish a flow s) := by
  unfold engFinish
  repeat' first
    | with_reducible assumption | (intro)
    | with_reducible apply State.modAna_evolves | with_reducible apply State.set_evolves
    | with_reducible apply engSequential_evolves | with_reducible apply engNext_evolves
    | with_reducible apply engClock_evolves
    | split | (dsimp only; split)
    | refine Evolves.fst (by with_reducible assumption) ?_ | refine Evolves.snd (by with_reducible assumption) ?_

/-- A flow of an engine instruction whose state evolves. -/
def EngOk (base : State) (r : Except Nat (State × EngFlow)) : Prop :=
  match r with
  | .ok p => Evolves base p.1
  | .error _ => True

theorem EngOk.ok {base s : State} {fl : EngFlow} (h : Evolves base s) : EngOk base (.ok (s, fl)) := h

theorem EngOk.error {base : State} {c : Nat} : EngOk base (.error c) := trivial

theorem EngOk.ite {base : State} {c : Prop} [Decidable c] {r q : Except Nat (State × EngFlow)} (h : EngOk base r)
    (k : EngOk base q) : EngOk base (if c then r else q) := by
  split
  · exact h
  · exact k

theorem engIssue_evolves {base s : State} (ev : Evolves base s) (op : Nat) (a : Nat)
    (f : Nat → State → Except Nat (State × EngFlow)) (hf : ∀ w t, Evolves base t → EngOk base (f w t)) :
    Evolves base (engIssue op a s f) := by
  unfold engIssue
  dsimp only
  refine Evolves.ite (Evolves.ite (engFault_evolves ev _ _) ?_) ev
  have k := hf (engFetch a s) s ev
  split
  · rename_i h
    rw [h] at k
    exact engFinish_evolves k _ _
  · exact engFault_evolves ev _ _

end Sys2Proof.Machine
end

