-- ==== Sys2Proof/Laws/EvEther.lean ====
section
/-! SUPPORT. What the operations of Machine/Ether.lean keep (Evolves). -/

namespace Sys2Proof.Machine

theorem stampError_evolves {base s : State} (ev : Evolves base s) (lim : Nat) :
    Evolves base (stampError lim s).2 := by
  unfold stampError
  repeat' first
    | with_reducible assumption | (intro)
    | with_reducible apply State.fresh_evolves
    | split | (dsimp only; split)
    | dsimp only

theorem txStamp_evolves {base s : State} (ev : Evolves base s) (e : Nat) :
    Evolves base (txStamp e s).2 := by
  unfold txStamp
  repeat' first
    | with_reducible assumption | (intro)
    | with_reducible apply stampError_evolves
    | split | (dsimp only; split)
    | dsimp only

theorem rxStamp_evolves {base s : State} (ev : Evolves base s) (e : Nat) :
    Evolves base (rxStamp e s).2 := by
  unfold rxStamp
  repeat' first
    | with_reducible assumption | (intro)
    | with_reducible apply stampError_evolves
    | split | (dsimp only; split)
    | dsimp only

theorem State.setEth_evolves {base s : State} (ev : Evolves base s) (e : Nat) (x : EthLine) :
    Evolves base (State.setEth s e x) := by
  unfold State.setEth
  repeat' first
    | with_reducible assumption | (intro)
    | split | (dsimp only; split)
    | with_reducible apply Evolves.upd | with_reducible apply HostIf.Grows.refl | with_reducible apply HostIf.Grows.upd
    | with_reducible apply Excise.Grows.refl | with_reducible apply Excise.Grows.upd
    | exact ⟨id, Nat.le_refl _⟩ | exact ⟨id, Nat.le_succ _⟩

theorem ethOut_evolves {base s : State} (ev : Evolves base s) (e : Nat) (stamp : Nat) (f : List Byte) :
    Evolves base (ethOut e stamp f s) := by
  unfold ethOut
  repeat' first
    | with_reducible assumption | (intro)
    | with_reducible apply State.inc_evolves | with_reducible apply State.emit_evolves
    | with_reducible apply State.setEth_evolves
    | split | (dsimp only; split)

theorem mgmtFrame_evolves {base s : State} (ev : Evolves base s) (e : Nat) (dest : Nat) (body : List Byte) :
    Evolves base (mgmtFrame e dest body s) := by
  unfold mgmtFrame
  repeat' first
    | with_reducible assumption | (intro)
    | with_reducible apply txStamp_evolves | with_reducible apply ethOut_evolves
    | split | (dsimp only; split)

theorem relayContent_evolves {base s : State} (ev : Evolves base s) (dev : Nat) (content : List Byte) :
    Evolves base (relayContent dev content s) := by
  unfold relayContent
  repeat' first
    | with_reducible assumption | (intro)
    | with_reducible apply txIngress_evolves | with_reducible apply Evolves.foldl | with_reducible apply Evolves.foldl_snd
    | with_reducible apply Evolves.foldl_fst
    | split | (dsimp only; split)

theorem ethComplete_evolves {base s : State} (ev : Evolves base s) (e : Nat) (q : Nat) (st : Nat) (stamp : Option Nat) (b
    : List Byte) :
    Evolves base (ethComplete e q st stamp b s) := by
  unfold ethComplete
  repeat' first
    | with_reducible assumption | (intro)
    | with_reducible apply State.appendRaw_evolves | with_reducible apply State.popHead_evolves
    | with_reducible apply Evolves.ite
    | split | (dsimp only; split)
    | refine Evolves.fst (by with_reducible assumption) ?_ | refine Evolves.snd (by with_reducible assumption) ?_

theorem ethSend_evolves {base s : State} (ev : Evolves base s) (e : Nat) (q : Nat) (st : Nat) (stamp : Nat) (b : List
    Byte) :
    Evolves base (ethSend e q st stamp b s) := by
  unfold ethSend
  repeat' first
    | with_reducible assumption | (intro)
    | with_reducible apply ethOut_evolves | with_reducible apply ethComplete_evolves | with_reducible apply Evolves.ite
    | split | (dsimp only; split)
    | refine Evolves.fst (by with_reducible assumption) ?_ | refine Evolves.snd (by with_reducible assumption) ?_

theorem ethLaunch_evolves {base s : State} (ev : Evolves base s) (e : Nat) (b : List Byte) :
    Evolves base (ethLaunch e b s) := by
  unfold ethLaunch
  repeat' first
    | with_reducible assumption | (intro)
    | with_reducible apply stampError_evolves | with_reducible apply ethSend_evolves
    | split | (dsimp only; split)

theorem ethLate_evolves {base s : State} (ev : Evolves base s) (e : Nat) (b : List Byte) :
    Evolves base (ethLate e b s) := by
  unfold ethLate
  repeat' first
    | with_reducible assumption | (intro)
    | with_reducible apply State.incSat_evolves | with_reducible apply txStamp_evolves
    | with_reducible apply ethComplete_evolves | with_reducible apply ethSend_evolves
    | with_reducible apply State.flagAlways_evolves | with_reducible apply Evolves.ite
    | split | (dsimp only; split)

theorem timedJudge_evolves {base s : State} (ev : Evolves base s) (e : Nat) :
    Evolves base (timedJudge e s) := by
  unfold timedJudge
  repeat' first
    | with_reducible assumption | (intro)
    | with_reducible apply State.setEth_evolves | with_reducible apply ethComplete_evolves
    | with_reducible apply ethLaunch_evolves | with_reducible apply ethLate_evolves | with_reducible apply Evolves.ite
    | split | (dsimp only; split)
    | refine Evolves.fst (by with_reducible assumption) ?_ | refine Evolves.snd (by with_reducible assumption) ?_

end Sys2Proof.Machine
end

