-- ==== Sys2Proof/Laws/EvIsland.lean ====
section
/-! SUPPORT. What the operations of Machine/Island.lean keep (Evolves). -/

namespace Sys2Proof.Machine

/-- A charge keeps an account balanced: a shot takes one credit, or counts as uncharged (R396). -/
theorem Account.balanced_charge {a : Account} (h : a.Balanced) (k : Nat) : (a.charge k).Balanced := by
  unfold Account.Balanced Account.charge at *
  dsimp only
  omega

/-- Totals from the control die keep an account balanced. -/
theorem Account.balanced_feed {a : Account} (h : a.Balanced) (p : Part) (aborted : Nat) (same : Bool) :
    (a.feed p aborted same).Balanced := Account.balanced_charge h _

/-- A voucher's credits keep an account balanced. -/
theorem Account.balanced_credit {a : Account} (h : a.Balanced) (c : Nat) (x : Option Nat) :
    ({ a with loaded := a.loaded + c, balance := a.balance + c, serial := x } : Account).Balanced := by
  unfold Account.Balanced at *
  dsimp only
  omega

/-- A balanced account of a sound island. -/
theorem State.account_balanced {s : State} (h : s.exc.Sound) (n : Nat) : (s.account n).Balanced := h.1.2 n

theorem State.setAccount_evolves {base s : State} (ev : Evolves base s) (n : Nat) (a : Account)
    (ha : s.exc.Sound → a.Balanced) : Evolves base (State.setAccount s n a) :=
  Evolves.upd ev _ _ _ _ _ _ _ _ _ _ _ _ _ _ _ _ _ _ _ _ _ _ _ _ _ _ _ _ _ _ _ _ (HostIf.Grows.refl _)
    ⟨fun b => ⟨⟨b.1.1, fun m => by
      by_cases e : m = n
      · subst e; simpa using ha b
      · simpa [Tab.get_put_ne _ _ _ e] using b.1.2 m⟩, b.2⟩, Nat.le_refl _⟩

theorem State.modIsland_evolves {base s : State} (ev : Evolves base s) (f : IslandData → IslandData)
    (hf : s.exc.cur.Sound → (f s.exc.cur).Sound) : Evolves base (State.modIsland s f) :=
  Evolves.upd ev _ _ _ _ _ _ _ _ _ _ _ _ _ _ _ _ _ _ _ _ _ _ _ _ _ _ _ _ _ _ _ _ (HostIf.Grows.refl _)
    ⟨fun b => ⟨hf b.1, b.2⟩, Nat.le_refl _⟩

theorem audit_evolves {base s : State} (ev : Evolves base s) (type_ : Nat) (account : Nat) (arg0 : Nat) (arg1 : Nat) :
    Evolves base (audit type_ account arg0 arg1 s) := by
  unfold audit
  repeat' first
    | with_reducible assumption | (intro)
    | with_reducible apply Evolves.ite
    | with_reducible apply Excise.Grows.cur | with_reducible apply Excise.Grows.saved
    | (have hb := ‹Excise.Sound _›; exact ⟨List.length_take_le _ _, hb.1.2⟩) | (have hb := ‹Excise.Sound _›; exact hb.1)
    | (have hb := ‹Excise.Sound _›; exact hb.2)
    | split | (dsimp only; split)
    | refine Evolves.fst (by with_reducible assumption) ?_ | refine Evolves.snd (by with_reducible assumption) ?_
    | with_reducible apply Evolves.upd | with_reducible apply HostIf.Grows.refl | with_reducible apply HostIf.Grows.upd
    | with_reducible apply Excise.Grows.refl | with_reducible apply Excise.Grows.upd
    | exact ⟨id, Nat.le_refl _⟩ | exact ⟨id, Nat.le_succ _⟩

theorem ledgerBreak_evolves {base s : State} (ev : Evolves base s) (account : Nat) (cause : Nat) (arg1 : Nat) :
    Evolves base (ledgerBreak account cause arg1 s) := by
  unfold ledgerBreak
  repeat' first
    | with_reducible assumption | (intro)
    | with_reducible apply audit_evolves | with_reducible apply State.event_evolves
    | split | (dsimp only; split)

theorem islandFeed_evolves {base s : State} (ev : Evolves base s) (final : Bool) :
    Evolves base (islandFeed final s) := by
  unfold islandFeed
  repeat' first
    | with_reducible assumption | (intro)
    | with_reducible apply State.setAccount_evolves | with_reducible apply State.modIsland_evolves
    | with_reducible apply State.event_evolves | with_reducible apply Evolves.ite | with_reducible apply Evolves.foldl
    | with_reducible apply Evolves.foldl_snd | with_reducible apply Evolves.foldl_fst
    | (exact Account.balanced_feed (State.account_balanced ‹_› _) _ _ _)
    | (exact Account.balanced_credit (State.account_balanced ‹_› _) _ _)
    | (exact ‹IslandData.Sound _›)
    | split | (dsimp only; split)

theorem limitFeed_evolves {base s : State} (ev : Evolves base s)  :
    Evolves base (limitFeed s) := by
  unfold limitFeed
  repeat' first
    | with_reducible assumption | (intro)
    | with_reducible apply State.setPart_evolves | with_reducible apply Evolves.ite | with_reducible apply Evolves.foldl
    | with_reducible apply Evolves.foldl_snd | with_reducible apply Evolves.foldl_fst
    | split | (dsimp only; split)

theorem islandCommit_evolves {base s : State} (ev : Evolves base s)  :
    Evolves base (islandCommit s) := by
  unfold islandCommit
  repeat' first
    | with_reducible assumption | (intro)
    | with_reducible apply Evolves.ite
    | with_reducible apply Excise.Grows.cur | with_reducible apply Excise.Grows.saved
    | (have hb := ‹Excise.Sound _›; exact ⟨List.length_take_le _ _, hb.1.2⟩) | (have hb := ‹Excise.Sound _›; exact hb.1)
    | (have hb := ‹Excise.Sound _›; exact hb.2)
    | split | (dsimp only; split)
    | with_reducible apply Evolves.upd | with_reducible apply HostIf.Grows.refl | with_reducible apply HostIf.Grows.upd
    | with_reducible apply Excise.Grows.refl | with_reducible apply Excise.Grows.upd
    | exact ⟨id, Nat.le_refl _⟩ | exact ⟨id, Nat.le_succ _⟩

theorem islandDown_evolves {base s : State} (ev : Evolves base s)  :
    Evolves base (islandDown s) := by
  unfold islandDown
  repeat' first
    | with_reducible assumption | (intro)
    | with_reducible apply State.setB_evolves | with_reducible apply State.event_evolves
    | with_reducible apply Evolves.ite
    | split | (dsimp only; split)

theorem islandStart_evolves {base s : State} (ev : Evolves base s)  :
    Evolves base (islandStart s) := by
  unfold islandStart
  repeat' first
    | with_reducible assumption | (intro)
    | with_reducible apply ledgerBreak_evolves | with_reducible apply Evolves.ite | with_reducible apply Evolves.foldl
    | with_reducible apply Evolves.foldl_snd | with_reducible apply Evolves.foldl_fst
    | with_reducible apply Excise.Grows.cur | with_reducible apply Excise.Grows.saved
    | (have hb := ‹Excise.Sound _›; exact ⟨List.length_take_le _ _, hb.1.2⟩) | (have hb := ‹Excise.Sound _›; exact hb.1)
    | (have hb := ‹Excise.Sound _›; exact hb.2)
    | split | (dsimp only; split)
    | with_reducible apply Evolves.upd | with_reducible apply HostIf.Grows.refl | with_reducible apply HostIf.Grows.upd
    | with_reducible apply Excise.Grows.refl | with_reducible apply Excise.Grows.upd
    | exact ⟨id, Nat.le_refl _⟩ | exact ⟨id, Nat.le_succ _⟩

theorem excShow_evolves {base s : State} (ev : Evolves base s) (d : IslandData) :
    Evolves base (excShow d s) := by
  unfold excShow
  repeat' first
    | with_reducible assumption | (intro)
    | with_reducible apply State.set_evolves | with_reducible apply State.setB_evolves
    | with_reducible apply Evolves.foldl | with_reducible apply Evolves.foldl_snd | with_reducible apply Evolves.foldl_fst
    | split | (dsimp only; split)

theorem excView_evolves {base s : State} (ev : Evolves base s)  :
    Evolves base (excView s) := by
  unfold excView
  repeat' first
    | with_reducible assumption | (intro)
    | with_reducible apply State.set_evolves | with_reducible apply State.setB_evolves
    | with_reducible apply excShow_evolves | with_reducible apply Evolves.ite
    | split | (dsimp only; split)

end Sys2Proof.Machine
end

