-- ==== Sys2Proof/Laws/EvSamples.lean ====
section
/-! SUPPORT. What the operations of Machine/Samples.lean keep (Evolves). -/

namespace Sys2Proof.Machine

theorem countClip_evolves {base s : State} (ev : Evolves base s) (n : Nat) (t : Nat) :
    Evolves base (countClip n t s) := by
  unfold countClip
  repeat' first
    | with_reducible assumption | (intro)
    | with_reducible apply State.incSat_evolves | with_reducible apply wftLast_evolves
    | with_reducible apply State.flag_evolves
    | split | (dsimp only; split)

theorem toneTick_evolves {base s : State} (ev : Evolves base s) (t : Nat) (n : Nat) :
    Evolves base (toneTick t n s) := by
  unfold toneTick
  repeat' first
    | with_reducible assumption | (intro)
    | with_reducible apply countClip_evolves | with_reducible apply Evolves.ite
    | split | (dsimp only; split)

theorem portTick_evolves {base s : State} (ev : Evolves base s) (t : Nat) (p : Nat) :
    Evolves base (portTick t p s) := by
  unfold portTick
  repeat' first
    | with_reducible assumption | (intro)
    | with_reducible apply State.setRfo_evolves | with_reducible apply State.incSat_evolves
    | with_reducible apply wftLast_evolves | with_reducible apply State.flag_evolves | with_reducible apply Evolves.ite
    | split | (dsimp only; split)

theorem zTick_evolves {base s : State} (ev : Evolves base s) (t : Nat) (z : Nat) :
    Evolves base (zTick t z s) := by
  unfold zTick
  repeat' first
    | with_reducible assumption | (intro)
    | with_reducible apply State.setZp_evolves | with_reducible apply State.setB_evolves
    | with_reducible apply State.incSat_evolves | with_reducible apply countClip_evolves
    | with_reducible apply State.flag_evolves | with_reducible apply Evolves.ite
    | split | (dsimp only; split)

theorem sampleTick_evolves {base s : State} (ev : Evolves base s) (t : Nat) :
    Evolves base (sampleTick t s) := by
  unfold sampleTick
  repeat' first
    | with_reducible assumption | (intro)
    | with_reducible apply toneTick_evolves | with_reducible apply portTick_evolves | with_reducible apply zTick_evolves
    | with_reducible apply Evolves.foldl | with_reducible apply Evolves.foldl_snd | with_reducible apply Evolves.foldl_fst
    | split | (dsimp only; split)

theorem runSamples_evolves {base x2 : State} (ev : Evolves base x2) (x0 : Nat) (x1 : Nat) :
    Evolves base (runSamples x0 x1 x2) := by
  induction x0 generalizing x2 x1 with
  | zero =>
    unfold runSamples
    repeat' first
      | with_reducible assumption | (intro)
      | with_reducible apply sampleTick_evolves | with_reducible apply Evolves.ite
      | split | (dsimp only; split)
      | refine Evolves.fst (by with_reducible assumption) ?_ | refine Evolves.snd (by with_reducible assumption) ?_
  | succ fuel ih =>
    unfold runSamples
    repeat' first
      | with_reducible apply ih
      | with_reducible assumption | (intro)
      | with_reducible apply sampleTick_evolves | with_reducible apply Evolves.ite
      | split | (dsimp only; split)
      | refine Evolves.fst (by with_reducible assumption) ?_ | refine Evolves.snd (by with_reducible assumption) ?_

theorem dropEnded_evolves {base s : State} (ev : Evolves base s) (t : Nat) :
    Evolves base (dropEnded t s) := by
  unfold dropEnded
  repeat' first
    | with_reducible assumption | (intro)
    | with_reducible apply setLane_evolves | with_reducible apply Evolves.foldl | with_reducible apply Evolves.foldl_snd
    | with_reducible apply Evolves.foldl_fst
    | split | (dsimp only; split)

end Sys2Proof.Machine
end

