-- ==== Sys2Proof/Laws/EvDeferred.lean ====
section
/-! SUPPORT. What the operations of Machine/Deferred.lean keep (Evolves). -/

namespace Sys2Proof.Machine

theorem setNt_evolves {base s : State} (ev : Evolves base s) (v : Int) :
    Evolves base (setNt v s) := by
  unfold setNt
  repeat' first
    | with_reducible assumption | (intro)
    | with_reducible apply State.set_evolves | with_reducible apply State.event_evolves | with_reducible apply Evolves.ite
    | split | (dsimp only; split)

theorem ntTime_evolves {base s : State} (ev : Evolves base s) (t0 : Nat) (t1 : Nat) :
    Evolves base (ntTime t0 t1 s) := by
  unfold ntTime
  repeat' first
    | with_reducible assumption | (intro)
    | with_reducible apply setNt_evolves | with_reducible apply Evolves.ite
    | split | (dsimp only; split)

theorem pairCapture_evolves {base s : State} (ev : Evolves base s) (src : Nat) :
    Evolves base (pairCapture src s) := by
  unfold pairCapture
  repeat' first
    | with_reducible assumption | (intro)
    | with_reducible apply State.set_evolves | with_reducible apply State.inc_evolves
    | with_reducible apply State.event_evolves
    | split | (dsimp only; split)

theorem timedAfresh_evolves {base s : State} (ev : Evolves base s)  :
    Evolves base (timedAfresh s) := by
  unfold timedAfresh
  repeat' first
    | with_reducible assumption | (intro)
    | with_reducible apply State.setEth_evolves | with_reducible apply Evolves.foldl
    | with_reducible apply Evolves.foldl_snd | with_reducible apply Evolves.foldl_fst
    | split | (dsimp only; split)

theorem ntStep_evolves {base s : State} (ev : Evolves base s)  :
    Evolves base (ntStep s) := by
  unfold ntStep
  repeat' first
    | with_reducible assumption | (intro)
    | with_reducible apply setNt_evolves | with_reducible apply State.setB_evolves
    | with_reducible apply State.incSat_evolves | with_reducible apply timedAfresh_evolves
    | with_reducible apply State.event_evolves | with_reducible apply Evolves.ite
    | split | (dsimp only; split)

theorem ntLoad_evolves {base s : State} (ev : Evolves base s)  :
    Evolves base (ntLoad s) := by
  unfold ntLoad
  repeat' first
    | with_reducible assumption | (intro)
    | with_reducible apply setNt_evolves | with_reducible apply State.setB_evolves
    | with_reducible apply State.incSat_evolves | with_reducible apply timedAfresh_evolves
    | with_reducible apply audit_evolves | with_reducible apply State.event_evolves
    | split | (dsimp only; split)

theorem moveTimeline_evolves {base s : State} (ev : Evolves base s) (d : Int) :
    Evolves base (moveTimeline d s) := by
  unfold moveTimeline
  repeat' first
    | with_reducible assumption | (intro)
    | with_reducible apply State.set_evolves
    | split | (dsimp only; split)
    | with_reducible apply Evolves.upd | with_reducible apply HostIf.Grows.refl | with_reducible apply HostIf.Grows.upd
    | with_reducible apply Excise.Grows.refl | with_reducible apply Excise.Grows.upd
    | exact ⟨id, Nat.le_refl _⟩ | exact ⟨id, Nat.le_succ _⟩

theorem stepRefused_evolves {base s : State} (ev : Evolves base s)  :
    Evolves base (stepRefused s) := by
  unfold stepRefused
  repeat' first
    | with_reducible assumption | (intro)
    | with_reducible apply State.setB_evolves | with_reducible apply State.event_evolves
    | split | (dsimp only; split)

theorem setTimeline_evolves {base s : State} (ev : Evolves base s) (v : Nat) :
    Evolves base (setTimeline v s) := by
  unfold setTimeline
  repeat' first
    | with_reducible assumption | (intro)
    | with_reducible apply State.setB_evolves | with_reducible apply State.incSat_evolves
    | with_reducible apply moveTimeline_evolves
    | split | (dsimp only; split)

theorem tlLoad_evolves {base s : State} (ev : Evolves base s)  :
    Evolves base (tlLoad s) := by
  unfold tlLoad
  repeat' first
    | with_reducible assumption | (intro)
    | with_reducible apply stepRefused_evolves | with_reducible apply setTimeline_evolves
    | with_reducible apply Evolves.ite
    | split | (dsimp only; split)

theorem memWrite_evolves {base s : State} (ev : Evolves base s) (a : Nat) (t : Nat) (b : Byte) :
    Evolves base (memWrite a t b s) := by
  unfold memWrite
  repeat' first
    | with_reducible assumption | (intro)
    | with_reducible apply weightByte_evolves | with_reducible apply State.setByte_evolves
    | with_reducible apply shadowByte_evolves | with_reducible apply kernelShadowByte_evolves
    | with_reducible apply Evolves.ite
    | split | (dsimp only; split)
    | refine Evolves.fst (by with_reducible assumption) ?_ | refine Evolves.snd (by with_reducible assumption) ?_

theorem act_evolves {base s : State} (ev : Evolves base s) (a : Action) (t : Nat) :
    Evolves base (act a t s) := by
  unfold act
  repeat' first
    | with_reducible assumption | (intro)
    | with_reducible apply trapReturn_evolves | with_reducible apply State.set_evolves
    | with_reducible apply State.setB_evolves | with_reducible apply State.setDec_evolves
    | with_reducible apply pairCapture_evolves | with_reducible apply frameDword_evolves
    | with_reducible apply State.later_evolves | with_reducible apply ntStep_evolves
    | with_reducible apply fireSource_evolves | with_reducible apply rfiEnabled_evolves
    | with_reducible apply rfiDisabled_evolves | with_reducible apply cfgLater_evolves
    | with_reducible apply ntLoad_evolves | with_reducible apply busLaunch_evolves | with_reducible apply landTau_evolves
    | with_reducible apply judgeOnce_evolves | with_reducible apply windowOpens_evolves
    | with_reducible apply decIndexAt_evolves | with_reducible apply windowEnds_evolves
    | with_reducible apply rfoEnabled_evolves | with_reducible apply decReadAt_evolves
    | with_reducible apply rfoOff_evolves | with_reducible apply tapArmDue_evolves | with_reducible apply engStart_evolves
    | with_reducible apply rfoIdle_evolves | with_reducible apply tapRearmed_evolves
    | with_reducible apply rfoMute_evolves | with_reducible apply rfoDown_evolves | with_reducible apply decEnable_evolves
    | with_reducible apply wftBankDue_evolves | with_reducible apply tapRun_evolves
    | with_reducible apply zRampEnd_evolves | with_reducible apply tlLoad_evolves | with_reducible apply memWrite_evolves
    | with_reducible apply streamSample_evolves | with_reducible apply openWindow_evolves
    | with_reducible apply abortEnd_evolves | with_reducible apply zParkOpen_evolves
    | with_reducible apply kBankDue_evolves | with_reducible apply zParkEnd_evolves
    | with_reducible apply zParkDone_evolves | with_reducible apply zWindowEnd_evolves
    | with_reducible apply zEnabled_evolves | with_reducible apply zDisabled_evolves
    | split | (dsimp only; split)
    | refine Evolves.fst (by with_reducible assumption) ?_ | refine Evolves.snd (by with_reducible assumption) ?_

theorem secondPair_evolves {base s : State} (ev : Evolves base s)  :
    Evolves base (secondPair s) := by
  unfold secondPair
  repeat' first
    | with_reducible assumption | (intro)
    | with_reducible apply pairCapture_evolves
    | split | (dsimp only; split)
    | with_reducible apply Evolves.upd | with_reducible apply HostIf.Grows.refl | with_reducible apply HostIf.Grows.upd
    | with_reducible apply Excise.Grows.refl | with_reducible apply Excise.Grows.upd
    | exact ⟨id, Nat.le_refl _⟩ | exact ⟨id, Nat.le_succ _⟩

theorem entryAct_evolves {base s : State} (ev : Evolves base s) (e : Entry) :
    Evolves base (entryAct e s) := by
  unfold entryAct
  repeat' first
    | with_reducible assumption | (intro)
    | with_reducible apply frameOp_evolves | with_reducible apply firePulse_evolves
    | with_reducible apply fireMeasure_evolves | with_reducible apply fireBias_evolves
    | with_reducible apply tapTrigger_evolves
    | split | (dsimp only; split)
    | refine Evolves.fst (by with_reducible assumption) ?_ | refine Evolves.snd (by with_reducible assumption) ?_

theorem fireEntry_evolves {base s : State} (ev : Evolves base s) (k : Nat) (j : Nat) :
    Evolves base (fireEntry k j s) := by
  unfold fireEntry
  repeat' first
    | with_reducible assumption | (intro)
    | with_reducible apply noteEntry_evolves | with_reducible apply entryAct_evolves | with_reducible apply popTeq_evolves
    | split | (dsimp only; split)
    | refine Evolves.fst (by with_reducible assumption) ?_ | refine Evolves.snd (by with_reducible assumption) ?_

theorem routeHead_evolves {base s : State} (ev : Evolves base s)  :
    Evolves base (routeHead s) := by
  unfold routeHead
  repeat' first
    | with_reducible assumption | (intro)
    | with_reducible apply routeRecord_evolves
    | split | (dsimp only; split)
    | refine Evolves.fst (by with_reducible assumption) ?_ | refine Evolves.snd (by with_reducible assumption) ?_
    | with_reducible apply Evolves.upd | with_reducible apply HostIf.Grows.refl | with_reducible apply HostIf.Grows.upd
    | with_reducible apply Excise.Grows.refl | with_reducible apply Excise.Grows.upd
    | exact ⟨id, Nat.le_refl _⟩ | exact ⟨id, Nat.le_succ _⟩

theorem actRound_evolves {base s : State} (ev : Evolves base s) (d : Nat) :
    Evolves base (actRound d s) := by
  unfold actRound
  repeat' first
    | with_reducible assumption | (intro)
    | with_reducible apply roundAction_evolves
    | split | (dsimp only; split)
    | refine Evolves.fst (by with_reducible assumption) ?_ | refine Evolves.snd (by with_reducible assumption) ?_

theorem doEv_evolves {base s : State} (ev : Evolves base s) (e : Ev) (t : Nat) :
    Evolves base (doEv e t s) := by
  unfold doEv
  repeat' first
    | with_reducible assumption | (intro)
    | with_reducible apply caMiss_evolves | with_reducible apply echoExpire_evolves
    | with_reducible apply secondCheck_evolves | with_reducible apply timedJudge_evolves
    | with_reducible apply act_evolves | with_reducible apply secondPair_evolves | with_reducible apply monFire_evolves
    | with_reducible apply monStart_evolves | with_reducible apply fireEntry_evolves
    | with_reducible apply routeHead_evolves | with_reducible apply actRound_evolves
    | split | (dsimp only; split)
    | refine Evolves.fst (by with_reducible assumption) ?_ | refine Evolves.snd (by with_reducible assumption) ?_
    | with_reducible apply Evolves.upd | with_reducible apply HostIf.Grows.refl | with_reducible apply HostIf.Grows.upd
    | with_reducible apply Excise.Grows.refl | with_reducible apply Excise.Grows.upd
    | exact ⟨id, Nat.le_refl _⟩ | exact ⟨id, Nat.le_succ _⟩

end Sys2Proof.Machine
end

