-- ==== Sys2Proof/Laws/EvTime.lean ====
section
/-! SUPPORT. What the operations of Machine/Time.lean keep (Evolves). -/

namespace Sys2Proof.Machine

theorem passTo_evolves {base s : State} (ev : Evolves base s) (t : Nat) :
    Evolves base (passTo t s) := by
  unfold passTo
  repeat' first
    | with_reducible assumption | (intro)
    | with_reducible apply State.set_evolves | with_reducible apply ntTime_evolves
    | with_reducible apply runSamples_evolves | with_reducible apply dropEnded_evolves | with_reducible apply Evolves.ite
    | split | (dsimp only; split)

theorem runEvs_evolves {base x2 : State} (ev : Evolves base x2) (x0 : Nat) (x1 : Nat) :
    Evolves base (runEvs x0 x1 x2) := by
  induction x0 generalizing x2 x1 with
  | zero =>
    unfold runEvs
    repeat' first
      | with_reducible assumption | (intro)
      | with_reducible apply passTo_evolves | with_reducible apply doEv_evolves | with_reducible apply Evolves.ite
      | split | (dsimp only; split)
      | refine Evolves.fst (by with_reducible assumption) ?_ | refine Evolves.snd (by with_reducible assumption) ?_
  | succ fuel ih =>
    unfold runEvs
    repeat' first
      | with_reducible apply ih
      | with_reducible assumption | (intro)
      | with_reducible apply passTo_evolves | with_reducible apply doEv_evolves | with_reducible apply Evolves.ite
      | split | (dsimp only; split)
      | refine Evolves.fst (by with_reducible assumption) ?_ | refine Evolves.snd (by with_reducible assumption) ?_

theorem runTo_evolves {base s : State} (ev : Evolves base s) (key : Nat) :
    Evolves base (runTo key s) := by
  unfold runTo
  repeat' first
    | with_reducible assumption | (intro)
    | with_reducible apply runEvs_evolves | with_reducible apply Evolves.ite
    | split | (dsimp only; split)

theorem advanceTo_evolves {base s : State} (ev : Evolves base s) (t : Nat) :
    Evolves base (advanceTo t s) := by
  unfold advanceTo
  repeat' first
    | with_reducible assumption | (intro)
    | with_reducible apply runTo_evolves
    | split | (dsimp only; split)

theorem atTick_evolves {base s : State} (ev : Evolves base s) (t : Nat) (f : State → State) (hf : ∀ t, Evolves base t →
    Evolves base (f t)) :
    Evolves base (atTick t f s) := by
  unfold atTick
  repeat' first
    | with_reducible assumption | (intro)
    | with_reducible apply hf | with_reducible apply runTo_evolves | with_reducible apply Evolves.ite
    | split | (dsimp only; split)

theorem withTick_evolves {base s : State} (ev : Evolves base s) (t : Nat) (f : State → State) (hf : ∀ t, Evolves base t →
    Evolves base (f t)) :
    Evolves base (withTick t f s) := by
  unfold withTick
  repeat' first
    | with_reducible assumption | (intro)
    | with_reducible apply hf | with_reducible apply advanceTo_evolves | with_reducible apply Evolves.ite
    | split | (dsimp only; split)

theorem tick_evolves {base s : State} (ev : Evolves base s)  :
    Evolves base (tick s) := by
  unfold tick
  repeat' first
    | with_reducible assumption | (intro)
    | with_reducible apply advanceTo_evolves
    | split | (dsimp only; split)

end Sys2Proof.Machine
end

