-- ==== Sys2Proof/Laws/EvTimeline.lean ====
section
/-! SUPPORT. What the operations of Machine/Timeline.lean keep (Evolves). -/

namespace Sys2Proof.Machine

theorem execTlLoad_evolves (r : Req) (s : State) :
    Answers s (execTlLoad r s) := by
  unfold execTlLoad
  repeat' first
    | with_reducible assumption | (intro)
    | with_reducible exact Evolves.refl _ | with_reducible apply Answers.next | with_reducible apply Answers.ite
    | with_reducible apply privileged_evolves | with_reducible apply State.later_evolves
    | split | (dsimp only; split)

theorem syncSend_evolves {base s : State} (ev : Evolves base s) (type : Nat) (at_ : Nat) :
    Evolves base (syncSend type at_ s) := by
  unfold syncSend
  repeat' first
    | with_reducible assumption | (intro)
    | with_reducible apply State.later_evolves
    | split | (dsimp only; split)

theorem masterSend_evolves {base s : State} (ev : Evolves base s) (type : Nat) :
    Evolves base (masterSend type s) := by
  unfold masterSend
  repeat' first
    | with_reducible assumption | (intro)
    | with_reducible apply syncSend_evolves | with_reducible apply State.flagAlways_evolves
    | with_reducible apply Evolves.ite
    | split | (dsimp only; split)

theorem execSendSync_evolves (r : Req) (s : State) :
    Answers s (execSendSync r s) := by
  unfold execSendSync
  repeat' first
    | with_reducible assumption | (intro)
    | with_reducible exact Evolves.refl _ | with_reducible apply Answers.next | with_reducible apply Answers.ite
    | with_reducible apply masterSend_evolves | with_reducible apply privileged_evolves
    | split | (dsimp only; split)

theorem execSendCheck_evolves (r : Req) (s : State) :
    Answers s (execSendCheck r s) := by
  unfold execSendCheck
  repeat' first
    | with_reducible assumption | (intro)
    | with_reducible exact Evolves.refl _ | with_reducible apply Answers.next | with_reducible apply Answers.ite
    | with_reducible apply masterSend_evolves | with_reducible apply privileged_evolves
    | split | (dsimp only; split)

theorem execAutoSyncCheck_evolves (s : State) :
    Answers s (execAutoSyncCheck s) := by
  unfold execAutoSyncCheck
  repeat' first
    | with_reducible assumption | (intro)
    | with_reducible exact Evolves.refl _ | with_reducible apply Answers.next | with_reducible apply Answers.ite
    | with_reducible apply runTo_evolves | with_reducible apply secondCheck_evolves | with_reducible apply Evolves.ite
    | split | (dsimp only; split)

theorem execTlCapture_evolves (s : State) :
    Answers s (execTlCapture s) := by
  unfold execTlCapture
  repeat' first
    | with_reducible assumption | (intro)
    | with_reducible exact Evolves.refl _ | with_reducible apply Answers.next | with_reducible apply Answers.ite
    | with_reducible apply State.later_evolves
    | split | (dsimp only; split)

theorem execPairCaptured_evolves (s : State) :
    Answers s (execPairCaptured s) := by
  unfold execPairCaptured
  repeat' first
    | with_reducible assumption | (intro)
    | with_reducible exact Evolves.refl _ | with_reducible apply Answers.next | with_reducible apply Answers.ite
    | with_reducible apply runTo_evolves | with_reducible apply secondPair_evolves | with_reducible apply Evolves.ite
    | split | (dsimp only; split)

theorem busReceive_evolves {base s : State} (ev : Evolves base s) (up : Bool) (type : Nat) (f : Nat) (stamp : Nat) (k :
    State → State) (hk : ∀ t, Evolves base t → Evolves base (k t)) :
    Evolves base (busReceive up type f stamp s k) := by
  unfold busReceive
  repeat' first
    | with_reducible assumption | (intro)
    | with_reducible apply hk | with_reducible apply advanceTo_evolves | with_reducible apply State.flagAlways_evolves
    | with_reducible apply Evolves.ite
    | split | (dsimp only; split)

theorem execEchoStart_evolves (r : Req) (s : State) :
    Answers s (execEchoStart r s) := by
  unfold execEchoStart
  repeat' first
    | with_reducible assumption | (intro)
    | with_reducible exact Evolves.refl _ | with_reducible apply Answers.next | with_reducible apply Answers.ite
    | with_reducible apply State.setB_evolves | with_reducible apply privileged_evolves
    | with_reducible apply echoNext_evolves | with_reducible apply Evolves.ite
    | split | (dsimp only; split)

theorem execEchoReqRx_evolves (f : BitVec 84) (stamp : BitVec 64) (s : State) :
    Answers s (execEchoReqRx f stamp s) := by
  unfold execEchoReqRx
  repeat' first
    | with_reducible assumption | (intro)
    | with_reducible exact Evolves.refl _ | with_reducible apply Answers.next | with_reducible apply Answers.ite
    | with_reducible apply State.emit_evolves | with_reducible apply busReceive_evolves
    | split | (dsimp only; split)

theorem echoDone_evolves {base s : State} (ev : Evolves base s) (n : Nat) (ds : List Int) :
    Evolves base (echoDone n ds s) := by
  unfold echoDone
  repeat' first
    | with_reducible assumption | (intro)
    | with_reducible apply State.set_evolves | with_reducible apply State.setB_evolves
    | with_reducible apply busSend_evolves | with_reducible apply State.flagAlways_evolves
    | with_reducible apply Evolves.ite | with_reducible apply Evolves.foldl | with_reducible apply Evolves.foldl_snd
    | with_reducible apply Evolves.foldl_fst
    | split | (dsimp only; split)

theorem echoResponse_evolves {base s : State} (ev : Evolves base s) (f : Nat) (stamp : Nat) :
    Evolves base (echoResponse f stamp s) := by
  unfold echoResponse
  repeat' first
    | with_reducible assumption | (intro)
    | with_reducible apply echoRequest_evolves | with_reducible apply echoNext_evolves
    | with_reducible apply echoDone_evolves | with_reducible apply Evolves.ite
    | split | (dsimp only; split)
    | refine Evolves.fst (by with_reducible assumption) ?_ | refine Evolves.snd (by with_reducible assumption) ?_

theorem execEchoRspRx_evolves (f : BitVec 84) (stamp : BitVec 64) (s : State) :
    Answers s (execEchoRspRx f stamp s) := by
  unfold execEchoRspRx
  repeat' first
    | with_reducible assumption | (intro)
    | with_reducible exact Evolves.refl _ | with_reducible apply Answers.next | with_reducible apply Answers.ite
    | with_reducible apply busReceive_evolves | with_reducible apply echoResponse_evolves
    | split | (dsimp only; split)

theorem execEchoTimeout_evolves (s : State) :
    Answers s (execEchoTimeout s) := by
  unfold execEchoTimeout
  repeat' first
    | with_reducible assumption | (intro)
    | with_reducible exact Evolves.refl _ | with_reducible apply Answers.next | with_reducible apply Answers.ite
    | with_reducible apply runTo_evolves | with_reducible apply echoExpire_evolves
    | split | (dsimp only; split)
    | refine Evolves.fst (by with_reducible assumption) ?_ | refine Evolves.snd (by with_reducible assumption) ?_

theorem execDelaySetRx_evolves (f : BitVec 84) (stamp : BitVec 64) (s : State) :
    Answers s (execDelaySetRx f stamp s) := by
  unfold execDelaySetRx
  repeat' first
    | with_reducible assumption | (intro)
    | with_reducible exact Evolves.refl _ | with_reducible apply Answers.next | with_reducible apply Answers.ite
    | with_reducible apply State.set_evolves | with_reducible apply State.setB_evolves
    | with_reducible apply busReceive_evolves | with_reducible apply State.flagAlways_evolves
    | with_reducible apply Evolves.ite
    | split | (dsimp only; split)

theorem syncStep_evolves {base s : State} (ev : Evolves base s) (c : Int) :
    Evolves base (syncStep c s) := by
  unfold syncStep
  repeat' first
    | with_reducible assumption | (intro)
    | with_reducible apply State.set_evolves | with_reducible apply State.setB_evolves
    | with_reducible apply State.incSat_evolves | with_reducible apply moveTimeline_evolves
    | with_reducible apply State.event_evolves
    | split | (dsimp only; split)
    | with_reducible apply Evolves.upd | with_reducible apply HostIf.Grows.refl | with_reducible apply HostIf.Grows.upd
    | with_reducible apply Excise.Grows.refl | with_reducible apply Excise.Grows.upd
    | exact ⟨id, Nat.le_refl _⟩ | exact ⟨id, Nat.le_succ _⟩

theorem execSyncRx_evolves (f : BitVec 84) (stamp : BitVec 64) (s : State) :
    Answers s (execSyncRx f stamp s) := by
  unfold execSyncRx
  repeat' first
    | with_reducible assumption | (intro)
    | with_reducible exact Evolves.refl _ | with_reducible apply Answers.next | with_reducible apply Answers.ite
    | with_reducible apply State.setI_evolves | with_reducible apply fireSource_evolves
    | with_reducible apply busReceive_evolves | with_reducible apply syncStep_evolves
    | with_reducible apply stepRefused_evolves | with_reducible apply State.flagAlways_evolves
    | with_reducible apply Evolves.ite
    | split | (dsimp only; split)

theorem execSyncCheckRx_evolves (f : BitVec 84) (stamp : BitVec 64) (s : State) :
    Answers s (execSyncCheckRx f stamp s) := by
  unfold execSyncCheckRx
  repeat' first
    | with_reducible assumption | (intro)
    | with_reducible exact Evolves.refl _ | with_reducible apply Answers.next | with_reducible apply Answers.ite
    | with_reducible apply State.setI_evolves | with_reducible apply fireSource_evolves
    | with_reducible apply busReceive_evolves | with_reducible apply State.flagAlways_evolves
    | with_reducible apply Evolves.ite
    | split | (dsimp only; split)

theorem showPin_evolves {base s : State} (ev : Evolves base s) (n : Nat) :
    Evolves base (showPin n s) := by
  unfold showPin
  repeat' first
    | with_reducible assumption | (intro)
    | with_reducible apply State.set_evolves
    | split | (dsimp only; split)

theorem pinStamp_evolves {base s : State} (ev : Evolves base s) (n : Nat) (stamp : Nat) (edge : Nat) :
    Evolves base (pinStamp n stamp edge s) := by
  unfold pinStamp
  repeat' first
    | with_reducible assumption | (intro)
    | with_reducible apply State.incSat_evolves | with_reducible apply State.setPin_evolves
    | with_reducible apply showPin_evolves | with_reducible apply State.event_evolves | with_reducible apply Evolves.ite
    | split | (dsimp only; split)

theorem execTrigEdge_evolves (n : Fin 22) (falling : Bool) (stamp : BitVec 64) (s : State) :
    Answers s (execTrigEdge n falling stamp s) := by
  unfold execTrigEdge
  repeat' first
    | with_reducible assumption | (intro)
    | with_reducible exact Evolves.refl _ | with_reducible apply Answers.next | with_reducible apply Answers.ite
    | with_reducible apply advanceTo_evolves | with_reducible apply fireSource_evolves
    | with_reducible apply pinStamp_evolves | with_reducible apply Evolves.ite
    | split | (dsimp only; split)

theorem execTlPinPop_evolves (pin : BitVec 5) (s : State) :
    Answers s (execTlPinPop pin s) := by
  unfold execTlPinPop
  repeat' first
    | with_reducible assumption | (intro)
    | with_reducible exact Evolves.refl _ | with_reducible apply Answers.next | with_reducible apply Answers.ite
    | with_reducible apply State.setPin_evolves | with_reducible apply showPin_evolves | with_reducible apply Evolves.ite
    | split | (dsimp only; split)

theorem pinArm_evolves {base s : State} (ev : Evolves base s) (n : Nat) (at_ : Nat) :
    Evolves base (pinArm n at_ s) := by
  unfold pinArm
  repeat' first
    | with_reducible assumption | (intro)
    | with_reducible apply State.set_evolves | with_reducible apply State.setPin_evolves
    | with_reducible apply State.flagAlways_evolves | with_reducible apply Evolves.ite
    | split | (dsimp only; split)

theorem execPinArm_evolves (n : Fin 22) (at_ : BitVec 64) (s : State) :
    Answers s (execPinArm n at_ s) := by
  unfold execPinArm
  repeat' first
    | with_reducible assumption | (intro)
    | with_reducible exact Evolves.refl _ | with_reducible apply Answers.next | with_reducible apply Answers.ite
    | with_reducible apply pinArm_evolves
    | split | (dsimp only; split)

theorem execPinPulse_evolves (n : Fin 22) (s : State) :
    Answers s (execPinPulse n s) := by
  unfold execPinPulse
  repeat' first
    | with_reducible assumption | (intro)
    | with_reducible exact Evolves.refl _ | with_reducible apply Answers.next | with_reducible apply Answers.ite
    | with_reducible apply State.emit_evolves | with_reducible apply advanceTo_evolves
    | with_reducible apply State.setPin_evolves | with_reducible apply Evolves.ite
    | split | (dsimp only; split)
    | refine Evolves.fst (by with_reducible assumption) ?_ | refine Evolves.snd (by with_reducible assumption) ?_

theorem caGood_evolves {base s : State} (ev : Evolves base s) (t : Nat) :
    Evolves base (caGood t s) := by
  unfold caGood
  repeat' first
    | with_reducible assumption | (intro)
    | with_reducible apply State.setB_evolves | with_reducible apply modAngle_evolves
    | with_reducible apply wakeAngle_evolves | with_reducible apply markAngle_evolves
    | with_reducible apply State.event_evolves | with_reducible apply Evolves.ite
    | split | (dsimp only; split)

theorem caRestart_evolves {base s : State} (ev : Evolves base s) (st : Nat) (t : Nat) :
    Evolves base (caRestart st t s) := by
  unfold caRestart
  repeat' first
    | with_reducible assumption | (intro)
    | with_reducible apply modAngle_evolves | with_reducible apply markAngle_evolves
    | split | (dsimp only; split)

theorem caUsed_evolves {base s : State} (ev : Evolves base s) (st : Nat) (m : Nat) (e : Int) (t : Nat) :
    Evolves base (caUsed st m e t s) := by
  unfold caUsed
  repeat' first
    | with_reducible assumption | (intro)
    | with_reducible apply State.set_evolves | with_reducible apply State.setB_evolves
    | with_reducible apply modAngle_evolves | with_reducible apply caUnlock_evolves | with_reducible apply caGood_evolves
    | with_reducible apply caRestart_evolves | with_reducible apply State.event_evolves | with_reducible apply Evolves.ite
    | split | (dsimp only; split)

theorem caIndex_evolves {base s : State} (ev : Evolves base s) (x : Nat) (t : Nat) :
    Evolves base (caIndex x t s) := by
  unfold caIndex
  repeat' first
    | with_reducible assumption | (intro)
    | with_reducible apply State.set_evolves | with_reducible apply State.inc_evolves
    | with_reducible apply fireSource_evolves | with_reducible apply modAngle_evolves
    | with_reducible apply caRestart_evolves | with_reducible apply caUsed_evolves
    | with_reducible apply State.flagAlways_evolves | with_reducible apply Evolves.ite
    | split | (dsimp only; split)

theorem execCaIndex_evolves (stamp : BitVec 64) (s : State) :
    Answers s (execCaIndex stamp s) := by
  unfold execCaIndex
  repeat' first
    | with_reducible assumption | (intro)
    | with_reducible exact Evolves.refl _ | with_reducible apply Answers.next | with_reducible apply Answers.ite
    | with_reducible apply advanceTo_evolves | with_reducible apply caIndex_evolves | with_reducible apply Evolves.ite
    | split | (dsimp only; split)

theorem execCaMissedIndex_evolves (s : State) :
    Answers s (execCaMissedIndex s) := by
  unfold execCaMissedIndex
  repeat' first
    | with_reducible assumption | (intro)
    | with_reducible exact Evolves.refl _ | with_reducible apply Answers.next | with_reducible apply Answers.ite
    | with_reducible apply runTo_evolves | with_reducible apply caMiss_evolves | with_reducible apply Evolves.ite
    | split | (dsimp only; split)
    | refine Evolves.fst (by with_reducible assumption) ?_ | refine Evolves.snd (by with_reducible assumption) ?_

theorem execCaQuadEdge_evolves (aLeads : Bool) (stamp : BitVec 64) (s : State) :
    Answers s (execCaQuadEdge aLeads stamp s) := by
  unfold execCaQuadEdge
  repeat' first
    | with_reducible assumption | (intro)
    | with_reducible exact Evolves.refl _ | with_reducible apply Answers.next | with_reducible apply Answers.ite
    | with_reducible apply advanceTo_evolves | with_reducible apply modAngle_evolves
    | with_reducible apply markAngle_evolves | with_reducible apply Evolves.ite
    | split | (dsimp only; split)

theorem execCaWindowEntry_evolves (k : Fin 8) (at_ : BitVec 64) (s : State) :
    Answers s (execCaWindowEntry k at_ s) := by
  unfold execCaWindowEntry
  repeat' first
    | with_reducible assumption | (intro)
    | with_reducible exact Evolves.refl _ | with_reducible apply Answers.next | with_reducible apply Answers.ite
    | with_reducible apply advanceTo_evolves | with_reducible apply fireSource_evolves | with_reducible apply Evolves.ite
    | split | (dsimp only; split)

end Sys2Proof.Machine
end

