-- ==== Sys2Proof/Laws/EvDecisionCmds.lean ====
section
/-! SUPPORT. What the operations of Machine/DecisionCmds.lean keep (Evolves). -/

namespace Sys2Proof.Machine

theorem judgeAt_evolves {base s : State} (ev : Evolves base s) (d : Nat) (t : Nat) :
    Evolves base (judgeAt d t s) := by
  unfold judgeAt
  repeat' first
    | with_reducible assumption | (intro)
    | with_reducible apply runTo_evolves | with_reducible apply judgeOnce_evolves
    | split | (dsimp only; split)

theorem execRoundDeferredEval_evolves (d : Fin 64) (s : State) :
    Answers s (execRoundDeferredEval d s) := by
  unfold execRoundDeferredEval
  repeat' first
    | with_reducible assumption | (intro)
    | with_reducible exact Evolves.refl _ | with_reducible apply Answers.next | with_reducible apply Answers.ite
    | with_reducible apply judgeAt_evolves
    | split | (dsimp only; split)
    | refine Evolves.fst (by with_reducible assumption) ?_ | refine Evolves.snd (by with_reducible assumption) ?_

theorem execRoundTimeout_evolves (d : Fin 64) (s : State) :
    Answers s (execRoundTimeout d s) := by
  unfold execRoundTimeout
  repeat' first
    | with_reducible assumption | (intro)
    | with_reducible exact Evolves.refl _ | with_reducible apply Answers.next | with_reducible apply Answers.ite
    | with_reducible apply judgeAt_evolves | with_reducible apply Evolves.ite
    | split | (dsimp only; split)
    | refine Evolves.fst (by with_reducible assumption) ?_ | refine Evolves.snd (by with_reducible assumption) ?_

theorem execRoundAction_evolves (d : Fin 64) (s : State) :
    Answers s (execRoundAction d s) := by
  unfold execRoundAction
  repeat' first
    | with_reducible assumption | (intro)
    | with_reducible exact Evolves.refl _ | with_reducible apply Answers.next | with_reducible apply Answers.ite
    | with_reducible apply runTo_evolves | with_reducible apply actRound_evolves
    | split | (dsimp only; split)
    | refine Evolves.fst (by with_reducible assumption) ?_ | refine Evolves.snd (by with_reducible assumption) ?_

theorem decEnWrite_evolves {base s : State} (ev : Evolves base s) (d : Nat) (on : Bool) :
    Evolves base (decEnWrite d on s) := by
  unfold decEnWrite
  repeat' first
    | with_reducible assumption | (intro)
    | with_reducible apply State.setB_evolves | with_reducible apply State.later_evolves
    | with_reducible apply State.flag_evolves | with_reducible apply Evolves.ite
    | split | (dsimp only; split)

theorem execDecWinEnable_evolves (r : Req) (d : Fin 64) (on : Bool) (s : State) :
    Answers s (execDecWinEnable r d on s) := by
  unfold execDecWinEnable
  repeat' first
    | with_reducible assumption | (intro)
    | with_reducible exact Evolves.refl _ | with_reducible apply Answers.next | with_reducible apply Answers.ite
    | with_reducible apply decEnWrite_evolves | with_reducible apply privileged_evolves
    | split | (dsimp only; split)

theorem decBaseWrite_evolves {base s : State} (ev : Evolves base s) (d : Nat) (v : Nat) :
    Evolves base (decBaseWrite d v s) := by
  unfold decBaseWrite
  repeat' first
    | with_reducible assumption | (intro)
    | with_reducible apply State.set_evolves | with_reducible apply State.later_evolves
    | with_reducible apply State.flag_evolves | with_reducible apply Evolves.ite
    | split | (dsimp only; split)

theorem execDecBaseWrite_evolves (r : Req) (d : Fin 64) (v : BitVec 19) (s : State) :
    Answers s (execDecBaseWrite r d v s) := by
  unfold execDecBaseWrite
  repeat' first
    | with_reducible assumption | (intro)
    | with_reducible exact Evolves.refl _ | with_reducible apply Answers.next | with_reducible apply Answers.ite
    | with_reducible apply decBaseWrite_evolves | with_reducible apply privileged_evolves
    | split | (dsimp only; split)

theorem delayedDword_evolves {base s : State} (ev : Evolves base s) (a : Nat) (v : Nat) :
    Evolves base (delayedDword a v s) := by
  unfold delayedDword
  repeat' first
    | with_reducible assumption | (intro)
    | with_reducible apply State.later_evolves | with_reducible apply Evolves.foldl
    | with_reducible apply Evolves.foldl_snd | with_reducible apply Evolves.foldl_fst
    | split | (dsimp only; split)

theorem execDecTableWrite_evolves (r : Req) (x : Fin 524288) (be : BitVec 4) (v : Dword) (s : State) :
    Answers s (execDecTableWrite r x be v s) := by
  unfold execDecTableWrite
  repeat' first
    | with_reducible assumption | (intro)
    | with_reducible exact Evolves.refl _ | with_reducible apply Answers.next | with_reducible apply Answers.ite
    | with_reducible apply accessFault_evolves | with_reducible apply delayedDword_evolves
    | with_reducible apply Evolves.ite
    | split | (dsimp only; split)

end Sys2Proof.Machine
end

