-- ==== Sys2Proof/Laws/EvEngineInstrs.lean ====
section
/-! SUPPORT. What the operations of Machine/EngineInstrs.lean keep (Evolves). -/

namespace Sys2Proof.Machine

theorem anaEnable_evolves {base s : State} (ev : Evolves base s) (a : Nat) :
    Evolves base (anaEnable a s) := by
  unfold anaEnable
  repeat' first
    | with_reducible assumption | (intro)
    | with_reducible apply State.modAna_evolves | with_reducible apply State.setB_evolves
    | with_reducible apply State.later_evolves | with_reducible apply State.flag_evolves
    | with_reducible apply Evolves.ite
    | with_reducible apply EngOk.ok | with_reducible exact EngOk.error | with_reducible apply EngOk.ite
    | split | (dsimp only; split)

theorem anaDisable_evolves {base s : State} (ev : Evolves base s) (a : Nat) :
    Evolves base (anaDisable a s) := by
  unfold anaDisable
  repeat' first
    | with_reducible assumption | (intro)
    | with_reducible apply State.modAna_evolves | with_reducible apply State.set_evolves
    | with_reducible apply State.setB_evolves | with_reducible apply engSettle_evolves
    | with_reducible apply EngOk.ok | with_reducible exact EngOk.error | with_reducible apply EngOk.ite
    | split | (dsimp only; split)

theorem execAnaEnable_evolves (r : Req) (a : Fin 8) (s : State) :
    Answers s (execAnaEnable r a s) := by
  unfold execAnaEnable
  repeat' first
    | with_reducible assumption | (intro)
    | with_reducible exact Evolves.refl _ | with_reducible apply Answers.next | with_reducible apply Answers.ite
    | with_reducible apply anaEnable_evolves | with_reducible apply privileged_evolves
    | with_reducible apply EngOk.ok | with_reducible exact EngOk.error | with_reducible apply EngOk.ite
    | split | (dsimp only; split)

theorem execAnaDisable_evolves (r : Req) (a : Fin 8) (s : State) :
    Answers s (execAnaDisable r a s) := by
  unfold execAnaDisable
  repeat' first
    | with_reducible assumption | (intro)
    | with_reducible exact Evolves.refl _ | with_reducible apply Answers.next | with_reducible apply Answers.ite
    | with_reducible apply anaDisable_evolves | with_reducible apply privileged_evolves
    | with_reducible apply EngOk.ok | with_reducible exact EngOk.error | with_reducible apply EngOk.ite
    | split | (dsimp only; split)

theorem execAnaDoorbell_evolves (a : Fin 8) (s : State) :
    Answers s (execAnaDoorbell a s) := by
  unfold execAnaDoorbell
  repeat' first
    | with_reducible assumption | (intro)
    | with_reducible exact Evolves.refl _ | with_reducible apply Answers.next | with_reducible apply Answers.ite
    | with_reducible apply engRaise_evolves
    | with_reducible apply EngOk.ok | with_reducible exact EngOk.error | with_reducible apply EngOk.ite
    | split | (dsimp only; split)

theorem execAnaInterrupt_evolves (a : Fin 8) (s : State) :
    Answers s (execAnaInterrupt a s) := by
  unfold execAnaInterrupt
  repeat' first
    | with_reducible assumption | (intro)
    | with_reducible exact Evolves.refl _ | with_reducible apply Answers.next | with_reducible apply Answers.ite
    | with_reducible apply State.modAna_evolves | with_reducible apply State.set_evolves
    | with_reducible apply State.setB_evolves | with_reducible apply engClock_evolves | with_reducible apply Evolves.ite
    | with_reducible apply EngOk.ok | with_reducible exact EngOk.error | with_reducible apply EngOk.ite
    | split | (dsimp only; split)

theorem putCircular_evolves {base x5 : State} (ev : Evolves base x5) (a : Nat) (base0 : Nat) (len : Nat) (x3 : Nat) (x4 :
    List Nat) :
    Evolves base (putCircular a base0 len x3 x4 x5) := by
  induction x4 generalizing x5 x3 with
  | nil =>
    unfold putCircular
    repeat' first
      | with_reducible assumption | (intro)
      | with_reducible apply setEngWord_evolves
      | with_reducible apply EngOk.ok | with_reducible exact EngOk.error | with_reducible apply EngOk.ite
      | split | (dsimp only; split)
      | refine Evolves.fst (by with_reducible assumption) ?_ | refine Evolves.snd (by with_reducible assumption) ?_
  | cons y l ih =>
    unfold putCircular
    repeat' first
      | with_reducible apply ih
      | with_reducible assumption | (intro)
      | with_reducible apply setEngWord_evolves
      | with_reducible apply EngOk.ok | with_reducible exact EngOk.error | with_reducible apply EngOk.ite
      | split | (dsimp only; split)
      | refine Evolves.fst (by with_reducible assumption) ?_ | refine Evolves.snd (by with_reducible assumption) ?_

theorem teeNext_evolves {base s : State} (ev : Evolves base s) (q : Nat) :
    Evolves base (teeNext q s) := by
  unfold teeNext
  repeat' first
    | with_reducible assumption | (intro)
    | with_reducible apply State.setQueue_evolves
    | with_reducible apply EngOk.ok | with_reducible exact EngOk.error | with_reducible apply EngOk.ite
    | split | (dsimp only; split)

theorem consumeNext_evolves {base s : State} (ev : Evolves base s) (q : Nat) (it : Item) (drop : Bool) :
    Evolves base (consumeNext q it drop s) := by
  unfold consumeNext
  repeat' first
    | with_reducible assumption | (intro)
    | with_reducible apply State.inc_evolves | with_reducible apply State.setQueue_evolves
    | with_reducible apply State.showQueue_evolves | with_reducible apply State.giveBack_evolves
    | with_reducible apply Evolves.ite
    | with_reducible apply EngOk.ok | with_reducible exact EngOk.error | with_reducible apply EngOk.ite
    | split | (dsimp only; split)

theorem inSkip_evolves {base s : State} (ev : Evolves base s) (a : Nat) :
    Evolves base (inSkip a s) := by
  unfold inSkip
  repeat' first
    | with_reducible assumption | (intro)
    | with_reducible apply State.incSat_evolves
    | with_reducible apply EngOk.ok | with_reducible exact EngOk.error | with_reducible apply EngOk.ite
    | split | (dsimp only; split)

theorem execAnaInCopy_evolves (a : Fin 8) (j : Fin 2) (s : State) :
    Answers s (execAnaInCopy a j s) := by
  unfold execAnaInCopy
  repeat' first
    | with_reducible assumption | (intro)
    | with_reducible exact Evolves.refl _ | with_reducible apply Answers.next | with_reducible apply Answers.ite
    | with_reducible apply State.set_evolves | with_reducible apply putCircular_evolves
    | with_reducible apply teeNext_evolves | with_reducible apply consumeNext_evolves
    | with_reducible apply inSkip_evolves | with_reducible apply engRaise_evolves
    | with_reducible apply State.flag_evolves | with_reducible apply Evolves.ite
    | with_reducible apply EngOk.ok | with_reducible exact EngOk.error | with_reducible apply EngOk.ite
    | split | (dsimp only; split)
    | refine Evolves.fst (by with_reducible assumption) ?_ | refine Evolves.snd (by with_reducible assumption) ?_

theorem execAnaTimer_evolves (a : Fin 8) (s : State) :
    Answers s (execAnaTimer a s) := by
  unfold execAnaTimer
  repeat' first
    | with_reducible assumption | (intro)
    | with_reducible exact Evolves.refl _ | with_reducible apply Answers.next | with_reducible apply Answers.ite
    | with_reducible apply State.modAna_evolves | with_reducible apply advanceTo_evolves
    | with_reducible apply engRaise_evolves | with_reducible apply Evolves.ite
    | with_reducible apply EngOk.ok | with_reducible exact EngOk.error | with_reducible apply EngOk.ite
    | split | (dsimp only; split)
    | refine Evolves.fst (by with_reducible assumption) ?_ | refine Evolves.snd (by with_reducible assumption) ?_

theorem execAnaSendDone_evolves (a : Fin 8) (s : State) :
    Answers s (execAnaSendDone a s) := by
  unfold execAnaSendDone
  repeat' first
    | with_reducible assumption | (intro)
    | with_reducible exact Evolves.refl _ | with_reducible apply Answers.next | with_reducible apply Answers.ite
    | with_reducible apply State.modAna_evolves | with_reducible apply engRaise_evolves
    | with_reducible apply State.append_evolves | with_reducible apply State.noteEmpty_evolves
    | with_reducible apply Evolves.ite
    | with_reducible apply EngOk.ok | with_reducible exact EngOk.error | with_reducible apply EngOk.ite
    | split | (dsimp only; split)
    | refine Evolves.fst (by with_reducible assumption) ?_ | refine Evolves.snd (by with_reducible assumption) ?_

theorem seqFlow_evolves {base s : State} (ev : Evolves base s)  :
    EngOk base (seqFlow s) := by
  unfold seqFlow
  repeat' first
    | with_reducible assumption | (intro)
    | with_reducible apply EngOk.ok | with_reducible exact EngOk.error | with_reducible apply EngOk.ite
    | split | (dsimp only; split)

theorem result1_evolves {base s : State} (ev : Evolves base s) (a : Nat) (d : Nat) (i : Int) :
    Evolves base (result1 a d i s) := by
  unfold result1
  repeat' first
    | with_reducible assumption | (intro)
    | with_reducible apply setEngBank_evolves | with_reducible apply engResult_evolves
    | with_reducible apply EngOk.ok | with_reducible exact EngOk.error | with_reducible apply EngOk.ite
    | split | (dsimp only; split)

theorem setO_evolves {base s : State} (ev : Evolves base s) (a : Nat) (o : Bool) :
    Evolves base (setO a o s) := by
  unfold setO
  repeat' first
    | with_reducible assumption | (intro)
    | with_reducible apply setEngBank_evolves
    | with_reducible apply EngOk.ok | with_reducible exact EngOk.error | with_reducible apply EngOk.ite
    | split | (dsimp only; split)

theorem stickSat_evolves {base s : State} (ev : Evolves base s) (a : Nat) (sat : Bool) :
    Evolves base (stickSat a sat s) := by
  unfold stickSat
  repeat' first
    | with_reducible assumption | (intro)
    | with_reducible apply setEngBank_evolves | with_reducible apply Evolves.ite
    | with_reducible apply EngOk.ok | with_reducible exact EngOk.error | with_reducible apply EngOk.ite
    | split | (dsimp only; split)

theorem sumResult_evolves {base s : State} (ev : Evolves base s) (a : Nat) (k : Nat) (i : Int) :
    Evolves base (sumResult a k i s) := by
  unfold sumResult
  repeat' first
    | with_reducible assumption | (intro)
    | with_reducible apply engResult_evolves | with_reducible apply stickSat_evolves
    | with_reducible apply EngOk.ok | with_reducible exact EngOk.error | with_reducible apply EngOk.ite
    | split | (dsimp only; split)

theorem accumulate_evolves {base s : State} (ev : Evolves base s) (a : Nat) (k : Nat) (i : Int) :
    Evolves base (accumulate a k i s) := by
  unfold accumulate
  repeat' first
    | with_reducible assumption | (intro)
    | with_reducible apply State.modAna_evolves | with_reducible apply sumResult_evolves
    | with_reducible apply EngOk.ok | with_reducible exact EngOk.error | with_reducible apply EngOk.ite
    | split | (dsimp only; split)

theorem execAnaNop_evolves (a : Fin 8) (s : State) :
    Answers s (execAnaNop a s) := by
  unfold execAnaNop
  repeat' first
    | with_reducible assumption | (intro)
    | with_reducible exact Evolves.refl _ | with_reducible apply Answers.next | with_reducible apply Answers.ite
    | with_reducible apply seqFlow_evolves | with_reducible apply engIssue_evolves
    | with_reducible apply EngOk.ok | with_reducible exact EngOk.error | with_reducible apply EngOk.ite
    | split | (dsimp only; split)

theorem execAnaLd_evolves (a : Fin 8) (s : State) :
    Answers s (execAnaLd a s) := by
  unfold execAnaLd
  repeat' first
    | with_reducible assumption | (intro)
    | with_reducible exact Evolves.refl _ | with_reducible apply Answers.next | with_reducible apply Answers.ite
    | with_reducible apply engResult_evolves | with_reducible apply postMod_evolves | with_reducible apply seqFlow_evolves
    | with_reducible apply engIssue_evolves
    | with_reducible apply EngOk.ok | with_reducible exact EngOk.error | with_reducible apply EngOk.ite
    | split | (dsimp only; split)

theorem execAnaSt_evolves (a : Fin 8) (s : State) :
    Answers s (execAnaSt a s) := by
  unfold execAnaSt
  repeat' first
    | with_reducible assumption | (intro)
    | with_reducible exact Evolves.refl _ | with_reducible apply Answers.next | with_reducible apply Answers.ite
    | with_reducible apply setEngWord_evolves | with_reducible apply postMod_evolves
    | with_reducible apply seqFlow_evolves | with_reducible apply engIssue_evolves
    | with_reducible apply EngOk.ok | with_reducible exact EngOk.error | with_reducible apply EngOk.ite
    | split | (dsimp only; split)

theorem execAnaLdd_evolves (a : Fin 8) (s : State) :
    Answers s (execAnaLdd a s) := by
  unfold execAnaLdd
  repeat' first
    | with_reducible assumption | (intro)
    | with_reducible exact Evolves.refl _ | with_reducible apply Answers.next | with_reducible apply Answers.ite
    | with_reducible apply engResult_evolves | with_reducible apply postMod_evolves | with_reducible apply seqFlow_evolves
    | with_reducible apply engIssue_evolves | with_reducible apply Evolves.ite
    | with_reducible apply EngOk.ok | with_reducible exact EngOk.error | with_reducible apply EngOk.ite
    | split | (dsimp only; split)

theorem execAnaSts_evolves (a : Fin 8) (s : State) :
    Answers s (execAnaSts a s) := by
  unfold execAnaSts
  repeat' first
    | with_reducible assumption | (intro)
    | with_reducible exact Evolves.refl _ | with_reducible apply Answers.next | with_reducible apply Answers.ite
    | with_reducible apply setEngWord_evolves | with_reducible apply postMod_evolves
    | with_reducible apply seqFlow_evolves | with_reducible apply setO_evolves | with_reducible apply engIssue_evolves
    | with_reducible apply EngOk.ok | with_reducible exact EngOk.error | with_reducible apply EngOk.ite
    | split | (dsimp only; split)

theorem execAnaMul_evolves (a : Fin 8) (s : State) :
    Answers s (execAnaMul a s) := by
  unfold execAnaMul
  repeat' first
    | with_reducible assumption | (intro)
    | with_reducible exact Evolves.refl _ | with_reducible apply Answers.next | with_reducible apply Answers.ite
    | with_reducible apply seqFlow_evolves | with_reducible apply sumResult_evolves
    | with_reducible apply engIssue_evolves
    | with_reducible apply EngOk.ok | with_reducible exact EngOk.error | with_reducible apply EngOk.ite
    | split | (dsimp only; split)

theorem execAnaMac_evolves (a : Fin 8) (s : State) :
    Answers s (execAnaMac a s) := by
  unfold execAnaMac
  repeat' first
    | with_reducible assumption | (intro)
    | with_reducible exact Evolves.refl _ | with_reducible apply Answers.next | with_reducible apply Answers.ite
    | with_reducible apply seqFlow_evolves | with_reducible apply accumulate_evolves
    | with_reducible apply engIssue_evolves
    | with_reducible apply EngOk.ok | with_reducible exact EngOk.error | with_reducible apply EngOk.ite
    | split | (dsimp only; split)

theorem execAnaMsb_evolves (a : Fin 8) (s : State) :
    Answers s (execAnaMsb a s) := by
  unfold execAnaMsb
  repeat' first
    | with_reducible assumption | (intro)
    | with_reducible exact Evolves.refl _ | with_reducible apply Answers.next | with_reducible apply Answers.ite
    | with_reducible apply seqFlow_evolves | with_reducible apply accumulate_evolves
    | with_reducible apply engIssue_evolves
    | with_reducible apply EngOk.ok | with_reducible exact EngOk.error | with_reducible apply EngOk.ite
    | split | (dsimp only; split)

theorem execAnaAdds_evolves (a : Fin 8) (s : State) :
    Answers s (execAnaAdds a s) := by
  unfold execAnaAdds
  repeat' first
    | with_reducible assumption | (intro)
    | with_reducible exact Evolves.refl _ | with_reducible apply Answers.next | with_reducible apply Answers.ite
    | with_reducible apply seqFlow_evolves | with_reducible apply accumulate_evolves
    | with_reducible apply engIssue_evolves
    | with_reducible apply EngOk.ok | with_reducible exact EngOk.error | with_reducible apply EngOk.ite
    | split | (dsimp only; split)

theorem execAnaClrs_evolves (a : Fin 8) (s : State) :
    Answers s (execAnaClrs a s) := by
  unfold execAnaClrs
  repeat' first
    | with_reducible assumption | (intro)
    | with_reducible exact Evolves.refl _ | with_reducible apply Answers.next | with_reducible apply Answers.ite
    | with_reducible apply setEngBank_evolves | with_reducible apply engResult_evolves
    | with_reducible apply seqFlow_evolves | with_reducible apply engIssue_evolves
    | with_reducible apply EngOk.ok | with_reducible exact EngOk.error | with_reducible apply EngOk.ite
    | split | (dsimp only; split)

theorem execAnaShs_evolves (a : Fin 8) (s : State) :
    Answers s (execAnaShs a s) := by
  unfold execAnaShs
  repeat' first
    | with_reducible assumption | (intro)
    | with_reducible exact Evolves.refl _ | with_reducible apply Answers.next | with_reducible apply Answers.ite
    | with_reducible apply seqFlow_evolves | with_reducible apply sumResult_evolves
    | with_reducible apply engIssue_evolves | with_reducible apply Evolves.ite
    | with_reducible apply EngOk.ok | with_reducible exact EngOk.error | with_reducible apply EngOk.ite
    | split | (dsimp only; split)

theorem execAnaNorm_evolves (a : Fin 8) (s : State) :
    Answers s (execAnaNorm a s) := by
  unfold execAnaNorm
  repeat' first
    | with_reducible assumption | (intro)
    | with_reducible exact Evolves.refl _ | with_reducible apply Answers.next | with_reducible apply Answers.ite
    | with_reducible apply engResult_evolves | with_reducible apply seqFlow_evolves
    | with_reducible apply engIssue_evolves | with_reducible apply Evolves.ite
    | with_reducible apply EngOk.ok | with_reducible exact EngOk.error | with_reducible apply EngOk.ite
    | split | (dsimp only; split)

theorem execAnaLead_evolves (a : Fin 8) (s : State) :
    Answers s (execAnaLead a s) := by
  unfold execAnaLead
  repeat' first
    | with_reducible assumption | (intro)
    | with_reducible exact Evolves.refl _ | with_reducible apply Answers.next | with_reducible apply Answers.ite
    | with_reducible apply setEngBank_evolves | with_reducible apply engResult_evolves
    | with_reducible apply seqFlow_evolves | with_reducible apply engIssue_evolves
    | with_reducible apply EngOk.ok | with_reducible exact EngOk.error | with_reducible apply EngOk.ite
    | split | (dsimp only; split)

theorem satResult_evolves {base s : State} (ev : Evolves base s) (a : Nat) (d : Nat) (x : Int) :
    Evolves base (satResult a d x s) := by
  unfold satResult
  repeat' first
    | with_reducible assumption | (intro)
    | with_reducible apply result1_evolves | with_reducible apply setO_evolves
    | with_reducible apply EngOk.ok | with_reducible exact EngOk.error | with_reducible apply EngOk.ite
    | split | (dsimp only; split)

theorem execAnaAdd_evolves (a : Fin 8) (s : State) :
    Answers s (execAnaAdd a s) := by
  unfold execAnaAdd
  repeat' first
    | with_reducible assumption | (intro)
    | with_reducible exact Evolves.refl _ | with_reducible apply Answers.next | with_reducible apply Answers.ite
    | with_reducible apply seqFlow_evolves | with_reducible apply engIssue_evolves
    | with_reducible apply satResult_evolves
    | with_reducible apply EngOk.ok | with_reducible exact EngOk.error | with_reducible apply EngOk.ite
    | split | (dsimp only; split)

theorem execAnaSub_evolves (a : Fin 8) (s : State) :
    Answers s (execAnaSub a s) := by
  unfold execAnaSub
  repeat' first
    | with_reducible assumption | (intro)
    | with_reducible exact Evolves.refl _ | with_reducible apply Answers.next | with_reducible apply Answers.ite
    | with_reducible apply seqFlow_evolves | with_reducible apply engIssue_evolves
    | with_reducible apply satResult_evolves
    | with_reducible apply EngOk.ok | with_reducible exact EngOk.error | with_reducible apply EngOk.ite
    | split | (dsimp only; split)

theorem bitwise_evolves {base s : State} (ev : Evolves base s) (a : Nat) (w : Nat) (f : Nat → Nat → Nat) :
    Evolves base (bitwise a w f s) := by
  unfold bitwise
  repeat' first
    | with_reducible assumption | (intro)
    | with_reducible apply result1_evolves
    | with_reducible apply EngOk.ok | with_reducible exact EngOk.error | with_reducible apply EngOk.ite
    | split | (dsimp only; split)

theorem execAnaAnd_evolves (a : Fin 8) (s : State) :
    Answers s (execAnaAnd a s) := by
  unfold execAnaAnd
  repeat' first
    | with_reducible assumption | (intro)
    | with_reducible exact Evolves.refl _ | with_reducible apply Answers.next | with_reducible apply Answers.ite
    | with_reducible apply seqFlow_evolves | with_reducible apply engIssue_evolves | with_reducible apply bitwise_evolves
    | with_reducible apply EngOk.ok | with_reducible exact EngOk.error | with_reducible apply EngOk.ite
    | split | (dsimp only; split)

theorem execAnaOr_evolves (a : Fin 8) (s : State) :
    Answers s (execAnaOr a s) := by
  unfold execAnaOr
  repeat' first
    | with_reducible assumption | (intro)
    | with_reducible exact Evolves.refl _ | with_reducible apply Answers.next | with_reducible apply Answers.ite
    | with_reducible apply seqFlow_evolves | with_reducible apply engIssue_evolves | with_reducible apply bitwise_evolves
    | with_reducible apply EngOk.ok | with_reducible exact EngOk.error | with_reducible apply EngOk.ite
    | split | (dsimp only; split)

theorem execAnaXor_evolves (a : Fin 8) (s : State) :
    Answers s (execAnaXor a s) := by
  unfold execAnaXor
  repeat' first
    | with_reducible assumption | (intro)
    | with_reducible exact Evolves.refl _ | with_reducible apply Answers.next | with_reducible apply Answers.ite
    | with_reducible apply seqFlow_evolves | with_reducible apply engIssue_evolves | with_reducible apply bitwise_evolves
    | with_reducible apply EngOk.ok | with_reducible exact EngOk.error | with_reducible apply EngOk.ite
    | split | (dsimp only; split)

theorem execAnaShf_evolves (a : Fin 8) (s : State) :
    Answers s (execAnaShf a s) := by
  unfold execAnaShf
  repeat' first
    | with_reducible assumption | (intro)
    | with_reducible exact Evolves.refl _ | with_reducible apply Answers.next | with_reducible apply Answers.ite
    | with_reducible apply seqFlow_evolves | with_reducible apply result1_evolves | with_reducible apply engIssue_evolves
    | with_reducible apply satResult_evolves | with_reducible apply Evolves.ite
    | with_reducible apply EngOk.ok | with_reducible exact EngOk.error | with_reducible apply EngOk.ite
    | split | (dsimp only; split)

theorem execAnaLdi_evolves (a : Fin 8) (s : State) :
    Answers s (execAnaLdi a s) := by
  unfold execAnaLdi
  repeat' first
    | with_reducible assumption | (intro)
    | with_reducible exact Evolves.refl _ | with_reducible apply Answers.next | with_reducible apply Answers.ite
    | with_reducible apply seqFlow_evolves | with_reducible apply result1_evolves | with_reducible apply engIssue_evolves
    | with_reducible apply EngOk.ok | with_reducible exact EngOk.error | with_reducible apply EngOk.ite
    | split | (dsimp only; split)

theorem execAnaLdih_evolves (a : Fin 8) (s : State) :
    Answers s (execAnaLdih a s) := by
  unfold execAnaLdih
  repeat' first
    | with_reducible assumption | (intro)
    | with_reducible exact Evolves.refl _ | with_reducible apply Answers.next | with_reducible apply Answers.ite
    | with_reducible apply seqFlow_evolves | with_reducible apply result1_evolves | with_reducible apply engIssue_evolves
    | with_reducible apply EngOk.ok | with_reducible exact EngOk.error | with_reducible apply EngOk.ite
    | split | (dsimp only; split)

theorem execAnaSetau_evolves (a : Fin 8) (s : State) :
    Answers s (execAnaSetau a s) := by
  unfold execAnaSetau
  repeat' first
    | with_reducible assumption | (intro)
    | with_reducible exact Evolves.refl _ | with_reducible apply Answers.next | with_reducible apply Answers.ite
    | with_reducible apply setEngAu_evolves | with_reducible apply seqFlow_evolves | with_reducible apply engIssue_evolves
    | with_reducible apply Evolves.ite
    | with_reducible apply EngOk.ok | with_reducible exact EngOk.error | with_reducible apply EngOk.ite
    | split | (dsimp only; split)
    | refine Evolves.fst (by with_reducible assumption) ?_ | refine Evolves.snd (by with_reducible assumption) ?_

theorem execAnaAbs_evolves (a : Fin 8) (s : State) :
    Answers s (execAnaAbs a s) := by
  unfold execAnaAbs
  repeat' first
    | with_reducible assumption | (intro)
    | with_reducible exact Evolves.refl _ | with_reducible apply Answers.next | with_reducible apply Answers.ite
    | with_reducible apply seqFlow_evolves | with_reducible apply engIssue_evolves
    | with_reducible apply satResult_evolves
    | with_reducible apply EngOk.ok | with_reducible exact EngOk.error | with_reducible apply EngOk.ite
    | split | (dsimp only; split)

theorem execAnaCmp_evolves (a : Fin 8) (s : State) :
    Answers s (execAnaCmp a s) := by
  unfold execAnaCmp
  repeat' first
    | with_reducible assumption | (intro)
    | with_reducible exact Evolves.refl _ | with_reducible apply Answers.next | with_reducible apply Answers.ite
    | with_reducible apply setEngBank_evolves | with_reducible apply seqFlow_evolves
    | with_reducible apply engIssue_evolves
    | with_reducible apply EngOk.ok | with_reducible exact EngOk.error | with_reducible apply EngOk.ite
    | split | (dsimp only; split)

theorem execAnaBr_evolves (a : Fin 8) (s : State) :
    Answers s (execAnaBr a s) := by
  unfold execAnaBr
  repeat' first
    | with_reducible assumption | (intro)
    | with_reducible exact Evolves.refl _ | with_reducible apply Answers.next | with_reducible apply Answers.ite
    | with_reducible apply engIssue_evolves | with_reducible apply Evolves.ite
    | with_reducible apply EngOk.ok | with_reducible exact EngOk.error | with_reducible apply EngOk.ite
    | split | (dsimp only; split)
    | refine Evolves.fst (by with_reducible assumption) ?_ | refine Evolves.snd (by with_reducible assumption) ?_

theorem execAnaCall_evolves (a : Fin 8) (s : State) :
    Answers s (execAnaCall a s) := by
  unfold execAnaCall
  repeat' first
    | with_reducible assumption | (intro)
    | with_reducible exact Evolves.refl _ | with_reducible apply Answers.next | with_reducible apply Answers.ite
    | with_reducible apply State.modAna_evolves | with_reducible apply engIssue_evolves | with_reducible apply Evolves.ite
    | with_reducible apply EngOk.ok | with_reducible exact EngOk.error | with_reducible apply EngOk.ite
    | split | (dsimp only; split)
    | refine Evolves.fst (by with_reducible assumption) ?_ | refine Evolves.snd (by with_reducible assumption) ?_

theorem execAnaRet_evolves (a : Fin 8) (s : State) :
    Answers s (execAnaRet a s) := by
  unfold execAnaRet
  repeat' first
    | with_reducible assumption | (intro)
    | with_reducible exact Evolves.refl _ | with_reducible apply Answers.next | with_reducible apply Answers.ite
    | with_reducible apply State.modAna_evolves | with_reducible apply engIssue_evolves
    | with_reducible apply EngOk.ok | with_reducible exact EngOk.error | with_reducible apply EngOk.ite
    | split | (dsimp only; split)
    | refine Evolves.fst (by with_reducible assumption) ?_ | refine Evolves.snd (by with_reducible assumption) ?_

theorem execAnaLooph_evolves (a : Fin 8) (s : State) :
    Answers s (execAnaLooph a s) := by
  unfold execAnaLooph
  repeat' first
    | with_reducible assumption | (intro)
    | with_reducible exact Evolves.refl _ | with_reducible apply Answers.next | with_reducible apply Answers.ite
    | with_reducible apply setEngBank_evolves | with_reducible apply engIssue_evolves | with_reducible apply Evolves.ite
    | with_reducible apply EngOk.ok | with_reducible exact EngOk.error | with_reducible apply EngOk.ite
    | split | (dsimp only; split)

theorem execAnaRti_evolves (a : Fin 8) (s : State) :
    Answers s (execAnaRti a s) := by
  unfold execAnaRti
  repeat' first
    | with_reducible assumption | (intro)
    | with_reducible exact Evolves.refl _ | with_reducible apply Answers.next | with_reducible apply Answers.ite
    | with_reducible apply engIssue_evolves | with_reducible apply Evolves.ite
    | with_reducible apply EngOk.ok | with_reducible exact EngOk.error | with_reducible apply EngOk.ite
    | split | (dsimp only; split)

theorem execAnaWait_evolves (a : Fin 8) (s : State) :
    Answers s (execAnaWait a s) := by
  unfold execAnaWait
  repeat' first
    | with_reducible assumption | (intro)
    | with_reducible exact Evolves.refl _ | with_reducible apply Answers.next | with_reducible apply Answers.ite
    | with_reducible apply engIssue_evolves | with_reducible apply Evolves.ite
    | with_reducible apply EngOk.ok | with_reducible exact EngOk.error | with_reducible apply EngOk.ite
    | split | (dsimp only; split)

theorem execAnaHflag_evolves (a : Fin 8) (s : State) :
    Answers s (execAnaHflag a s) := by
  unfold execAnaHflag
  repeat' first
    | with_reducible assumption | (intro)
    | with_reducible exact Evolves.refl _ | with_reducible apply Answers.next | with_reducible apply Answers.ite
    | with_reducible apply State.set_evolves | with_reducible apply seqFlow_evolves
    | with_reducible apply engIssue_evolves | with_reducible apply State.flagAlways_evolves
    | with_reducible apply EngOk.ok | with_reducible exact EngOk.error | with_reducible apply EngOk.ite
    | split | (dsimp only; split)

theorem execAnaSend_evolves (a : Fin 8) (s : State) :
    Answers s (execAnaSend a s) := by
  unfold execAnaSend
  repeat' first
    | with_reducible assumption | (intro)
    | with_reducible exact Evolves.refl _ | with_reducible apply Answers.next | with_reducible apply Answers.ite
    | with_reducible apply State.modAna_evolves | with_reducible apply State.incSat_evolves
    | with_reducible apply seqFlow_evolves | with_reducible apply engIssue_evolves
    | with_reducible apply State.noteEmpty_evolves | with_reducible apply Evolves.ite
    | with_reducible apply EngOk.ok | with_reducible exact EngOk.error | with_reducible apply EngOk.ite
    | split | (dsimp only; split)

theorem execAnaIord_evolves (a : Fin 8) (s : State) :
    Answers s (execAnaIord a s) := by
  unfold execAnaIord
  repeat' first
    | with_reducible assumption | (intro)
    | with_reducible exact Evolves.refl _ | with_reducible apply Answers.next | with_reducible apply Answers.ite
    | with_reducible apply State.modAna_evolves | with_reducible apply engResult_evolves
    | with_reducible apply seqFlow_evolves | with_reducible apply engIssue_evolves | with_reducible apply Evolves.ite
    | with_reducible apply EngOk.ok | with_reducible exact EngOk.error | with_reducible apply EngOk.ite
    | split | (dsimp only; split)

theorem execAnaIowr_evolves (a : Fin 8) (s : State) :
    Answers s (execAnaIowr a s) := by
  unfold execAnaIowr
  repeat' first
    | with_reducible assumption | (intro)
    | with_reducible exact Evolves.refl _ | with_reducible apply Answers.next | with_reducible apply Answers.ite
    | with_reducible apply State.modAna_evolves | with_reducible apply State.set_evolves
    | with_reducible apply seqFlow_evolves | with_reducible apply engRaise_evolves | with_reducible apply engIssue_evolves
    | with_reducible apply Evolves.ite
    | with_reducible apply EngOk.ok | with_reducible exact EngOk.error | with_reducible apply EngOk.ite
    | split | (dsimp only; split)
    | refine Evolves.fst (by with_reducible assumption) ?_ | refine Evolves.snd (by with_reducible assumption) ?_

theorem execAnaHalt_evolves (a : Fin 8) (s : State) :
    Answers s (execAnaHalt a s) := by
  unfold execAnaHalt
  repeat' first
    | with_reducible assumption | (intro)
    | with_reducible exact Evolves.refl _ | with_reducible apply Answers.next | with_reducible apply Answers.ite
    | with_reducible apply engIssue_evolves
    | with_reducible apply EngOk.ok | with_reducible exact EngOk.error | with_reducible apply EngOk.ite
    | split | (dsimp only; split)

theorem execAnaIllegal_evolves (a : Fin 8) (s : State) :
    Answers s (execAnaIllegal a s) := by
  unfold execAnaIllegal
  repeat' first
    | with_reducible assumption | (intro)
    | with_reducible exact Evolves.refl _ | with_reducible apply Answers.next | with_reducible apply Answers.ite
    | with_reducible apply engFault_evolves | with_reducible apply Evolves.ite
    | with_reducible apply EngOk.ok | with_reducible exact EngOk.error | with_reducible apply EngOk.ite
    | split | (dsimp only; split)

end Sys2Proof.Machine
end

