-- ==== Sys2Proof/Laws/EvFlavasCmds.lean ====
section
/-! SUPPORT. What the operations of Machine/FlavasCmds.lean keep (Evolves). -/

namespace Sys2Proof.Machine

theorem linkEnable_evolves {base s : State} (ev : Evolves base s) (n : Nat) :
    Evolves base (linkEnable n s) := by
  unfold linkEnable
  repeat' first
    | with_reducible assumption | (intro)
    | with_reducible apply State.setB_evolves | with_reducible apply setLinkState_evolves
    | with_reducible apply State.flag_evolves | with_reducible apply Evolves.ite
    | split | (dsimp only; split)

theorem linkDisable_evolves {base s : State} (ev : Evolves base s) (n : Nat) :
    Evolves base (linkDisable n s) := by
  unfold linkDisable
  repeat' first
    | with_reducible assumption | (intro)
    | with_reducible apply State.setLink_evolves | with_reducible apply State.setB_evolves
    | with_reducible apply setLinkState_evolves | with_reducible apply setLocks_evolves
    | with_reducible apply holdFlits_evolves
    | split | (dsimp only; split)

theorem execFlvEnable_evolves (r : Req) (n : Fin 32) (s : State) :
    Answers s (execFlvEnable r n s) := by
  unfold execFlvEnable
  repeat' first
    | with_reducible assumption | (intro)
    | with_reducible exact Evolves.refl _ | with_reducible apply Answers.next | with_reducible apply Answers.ite
    | with_reducible apply linkEnable_evolves | with_reducible apply privileged_evolves
    | split | (dsimp only; split)

theorem execFlvDisable_evolves (r : Req) (n : Fin 32) (s : State) :
    Answers s (execFlvDisable r n s) := by
  unfold execFlvDisable
  repeat' first
    | with_reducible assumption | (intro)
    | with_reducible exact Evolves.refl _ | with_reducible apply Answers.next | with_reducible apply Answers.ite
    | with_reducible apply linkDisable_evolves | with_reducible apply privileged_evolves
    | split | (dsimp only; split)

theorem execFlvDetect_evolves (n : Fin 32) (found : BitVec 4) (s : State) :
    Answers s (execFlvDetect n found s) := by
  unfold execFlvDetect
  repeat' first
    | with_reducible assumption | (intro)
    | with_reducible exact Evolves.refl _ | with_reducible apply Answers.next | with_reducible apply Answers.ite
    | with_reducible apply State.setB_evolves | with_reducible apply setLinkState_evolves
    | with_reducible apply Evolves.ite | with_reducible apply Evolves.foldl | with_reducible apply Evolves.foldl_snd
    | with_reducible apply Evolves.foldl_fst
    | split | (dsimp only; split)

theorem execFlvTrained_evolves (n : Fin 32) (s : State) :
    Answers s (execFlvTrained n s) := by
  unfold execFlvTrained
  repeat' first
    | with_reducible assumption | (intro)
    | with_reducible exact Evolves.refl _ | with_reducible apply Answers.next | with_reducible apply Answers.ite
    | with_reducible apply setLinkState_evolves | with_reducible apply Evolves.ite
    | split | (dsimp only; split)

theorem execFlvTrainTimeout_evolves (n : Fin 32) (s : State) :
    Answers s (execFlvTrainTimeout n s) := by
  unfold execFlvTrainTimeout
  repeat' first
    | with_reducible assumption | (intro)
    | with_reducible exact Evolves.refl _ | with_reducible apply Answers.next | with_reducible apply Answers.ite
    | with_reducible apply State.incSat_evolves | with_reducible apply setLinkState_evolves
    | with_reducible apply advanceTo_evolves | with_reducible apply State.flag_evolves | with_reducible apply Evolves.ite
    | split | (dsimp only; split)

theorem sendCaps_evolves {base s : State} (ev : Evolves base s) (n : Nat) :
    Evolves base (sendCaps n s) := by
  unfold sendCaps
  repeat' first
    | with_reducible assumption | (intro)
    | with_reducible apply State.emit_evolves
    | split | (dsimp only; split)

theorem execFlvLocked_evolves (n : Fin 32) (s : State) :
    Answers s (execFlvLocked n s) := by
  unfold execFlvLocked
  repeat' first
    | with_reducible assumption | (intro)
    | with_reducible exact Evolves.refl _ | with_reducible apply Answers.next | with_reducible apply Answers.ite
    | with_reducible apply setLinkState_evolves | with_reducible apply sendCaps_evolves
    | with_reducible apply setLocks_evolves | with_reducible apply Evolves.ite
    | split | (dsimp only; split)

theorem execFlvLockTimeout_evolves (n : Fin 32) (s : State) :
    Answers s (execFlvLockTimeout n s) := by
  unfold execFlvLockTimeout
  repeat' first
    | with_reducible assumption | (intro)
    | with_reducible exact Evolves.refl _ | with_reducible apply Answers.next | with_reducible apply Answers.ite
    | with_reducible apply setLinkState_evolves | with_reducible apply advanceTo_evolves
    | with_reducible apply Evolves.ite
    | split | (dsimp only; split)

theorem execFlvCaps_evolves (n : Fin 32) (peer : Fin 64) (width : BitVec 2) (depth : BitVec 8) (s : State) :
    Answers s (execFlvCaps n peer width depth s) := by
  unfold execFlvCaps
  repeat' first
    | with_reducible assumption | (intro)
    | with_reducible exact Evolves.refl _ | with_reducible apply Answers.next | with_reducible apply Answers.ite
    | with_reducible apply State.set_evolves | with_reducible apply setLinkState_evolves
    | with_reducible apply linkRestore_evolves | with_reducible apply setLocks_evolves
    | with_reducible apply linkActive_evolves | with_reducible apply State.flag_evolves | with_reducible apply Evolves.ite
    | split | (dsimp only; split)

theorem execFlvCapsTimeout_evolves (n : Fin 32) (s : State) :
    Answers s (execFlvCapsTimeout n s) := by
  unfold execFlvCapsTimeout
  repeat' first
    | with_reducible assumption | (intro)
    | with_reducible exact Evolves.refl _ | with_reducible apply Answers.next | with_reducible apply Answers.ite
    | with_reducible apply setLinkState_evolves | with_reducible apply advanceTo_evolves
    | with_reducible apply setLocks_evolves | with_reducible apply Evolves.ite
    | split | (dsimp only; split)

theorem execCreditFlit_evolves (n : Fin 32) (s : State) :
    Answers s (execCreditFlit n s) := by
  unfold execCreditFlit
  repeat' first
    | with_reducible assumption | (intro)
    | with_reducible exact Evolves.refl _ | with_reducible apply Answers.next | with_reducible apply Answers.ite
    | with_reducible apply advanceTo_evolves | with_reducible apply sendFlit_evolves | with_reducible apply Evolves.ite
    | split | (dsimp only; split)

theorem execTimeExchange_evolves (n : Fin 32) (s : State) :
    Answers s (execTimeExchange n s) := by
  unfold execTimeExchange
  repeat' first
    | with_reducible assumption | (intro)
    | with_reducible exact Evolves.refl _ | with_reducible apply Answers.next | with_reducible apply Answers.ite
    | with_reducible apply advanceTo_evolves | with_reducible apply startTime_evolves | with_reducible apply Evolves.ite
    | split | (dsimp only; split)

theorem execFlvLockLost_evolves (n : Fin 32) (k : Fin 4) (s : State) :
    Answers s (execFlvLockLost n k s) := by
  unfold execFlvLockLost
  repeat' first
    | with_reducible assumption | (intro)
    | with_reducible exact Evolves.refl _ | with_reducible apply Answers.next | with_reducible apply Answers.ite
    | with_reducible apply State.setFibre_evolves | with_reducible apply State.incSat_evolves
    | with_reducible apply retrain_evolves | with_reducible apply State.flag_evolves | with_reducible apply Evolves.ite
    | split | (dsimp only; split)

theorem retrainWrite_evolves {base s : State} (ev : Evolves base s) (n : Nat) :
    Evolves base (retrainWrite n s) := by
  unfold retrainWrite
  repeat' first
    | with_reducible assumption | (intro)
    | with_reducible apply retrain_evolves | with_reducible apply Evolves.ite
    | split | (dsimp only; split)

theorem execFlvRetrain_evolves (r : Req) (n : Fin 32) (s : State) :
    Answers s (execFlvRetrain r n s) := by
  unfold execFlvRetrain
  repeat' first
    | with_reducible assumption | (intro)
    | with_reducible exact Evolves.refl _ | with_reducible apply Answers.next | with_reducible apply Answers.ite
    | with_reducible apply privileged_evolves | with_reducible apply retrainWrite_evolves
    | split | (dsimp only; split)

theorem idleWrite_evolves {base s : State} (ev : Evolves base s) (n : Nat) :
    Evolves base (idleWrite n s) := by
  unfold idleWrite
  repeat' first
    | with_reducible assumption | (intro)
    | with_reducible apply enterIdle_evolves | with_reducible apply Evolves.ite
    | split | (dsimp only; split)

theorem execIdleReq_evolves (r : Req) (n : Fin 32) (s : State) :
    Answers s (execIdleReq r n s) := by
  unfold execIdleReq
  repeat' first
    | with_reducible assumption | (intro)
    | with_reducible exact Evolves.refl _ | with_reducible apply Answers.next | with_reducible apply Answers.ite
    | with_reducible apply privileged_evolves | with_reducible apply idleWrite_evolves
    | split | (dsimp only; split)

theorem execEidleEntry_evolves (n : Fin 32) (received : Bool) (s : State) :
    Answers s (execEidleEntry n received s) := by
  unfold execEidleEntry
  repeat' first
    | with_reducible assumption | (intro)
    | with_reducible exact Evolves.refl _ | with_reducible apply Answers.next | with_reducible apply Answers.ite
    | with_reducible apply advanceTo_evolves | with_reducible apply enterIdle_evolves | with_reducible apply Evolves.ite
    | split | (dsimp only; split)

theorem execEidleExit_evolves (n : Fin 32) (s : State) :
    Answers s (execEidleExit n s) := by
  unfold execEidleExit
  repeat' first
    | with_reducible assumption | (intro)
    | with_reducible exact Evolves.refl _ | with_reducible apply Answers.next | with_reducible apply Answers.ite
    | with_reducible apply State.incSat_evolves | with_reducible apply advanceTo_evolves
    | with_reducible apply linkActive_evolves | with_reducible apply Evolves.ite
    | split | (dsimp only; split)
    | refine Evolves.fst (by with_reducible assumption) ?_ | refine Evolves.snd (by with_reducible assumption) ?_

theorem injectWrite_evolves {base s : State} (ev : Evolves base s) (l : Nat) :
    Evolves base (injectWrite l s) := by
  unfold injectWrite
  repeat' first
    | with_reducible assumption | (intro)
    | with_reducible apply State.setFibre_evolves
    | split | (dsimp only; split)

theorem execPrbsInject_evolves (r : Req) (l : Fin 32) (s : State) :
    Answers s (execPrbsInject r l s) := by
  unfold execPrbsInject
  repeat' first
    | with_reducible assumption | (intro)
    | with_reducible exact Evolves.refl _ | with_reducible apply Answers.next | with_reducible apply Answers.ite
    | with_reducible apply privileged_evolves | with_reducible apply injectWrite_evolves
    | split | (dsimp only; split)

theorem execPrbsLock_evolves (l : Fin 32) (s : State) :
    Answers s (execPrbsLock l s) := by
  unfold execPrbsLock
  repeat' first
    | with_reducible assumption | (intro)
    | with_reducible exact Evolves.refl _ | with_reducible apply Answers.next | with_reducible apply Answers.ite
    | with_reducible apply State.setFibre_evolves | with_reducible apply State.setB_evolves
    | with_reducible apply Evolves.ite
    | split | (dsimp only; split)

theorem execPrbsLoss_evolves (l : Fin 32) (errors : BitVec 32) (s : State) :
    Answers s (execPrbsLoss l errors s) := by
  unfold execPrbsLoss
  repeat' first
    | with_reducible assumption | (intro)
    | with_reducible exact Evolves.refl _ | with_reducible apply Answers.next | with_reducible apply Answers.ite
    | with_reducible apply State.incSat_evolves | with_reducible apply laneUnlock_evolves
    | with_reducible apply State.flag_evolves | with_reducible apply Evolves.ite
    | split | (dsimp only; split)

end Sys2Proof.Machine
end

