-- ==== Sys2Proof/Laws/EvLookup.lean ====
section
/-! SUPPORT. What the operations of Machine/Lookup.lean keep (Evolves). -/

namespace Sys2Proof.Machine

theorem shownState_evolves {base s : State} (ev : Evolves base s) (r : Reg) (i : Nat) :
    Evolves base (shownState r i s) := by
  unfold shownState
  repeat' first
    | with_reducible assumption | (intro)
    | with_reducible apply State.set_evolves | with_reducible apply State.setB_evolves
    | with_reducible apply State.setI_evolves | with_reducible apply Evolves.ite | with_reducible apply Evolves.foldl
    | with_reducible apply Evolves.foldl_snd | with_reducible apply Evolves.foldl_fst
    | split | (dsimp only; split)
    | refine Evolves.fst (by with_reducible assumption) ?_ | refine Evolves.snd (by with_reducible assumption) ?_

theorem setSnap_evolves {base s : State} (ev : Evolves base s) (x : Snap) :
    Evolves base (setSnap x s) :=
  Evolves.upd ev _ _ _ _ _ _ _ _ _ _ _ _ _ _ _ _ _ _ _ _ _ _ _ _ _ _ _ _ _ _ _ _
    ⟨fun b => ⟨b.1, List.length_take_le _ _⟩, Nat.le_refl _⟩ (Excise.Grows.refl _)

theorem setQmSel_evolves {base s : State} (ev : Evolves base s) (who : Nat) (q : Nat) :
    Evolves base (setQmSel who q s) := by
  unfold setQmSel
  repeat' first
    | with_reducible assumption | (intro)
    | split | (dsimp only; split)
    | with_reducible apply Evolves.upd | with_reducible apply HostIf.Grows.refl | with_reducible apply HostIf.Grows.upd
    | with_reducible apply Excise.Grows.refl | with_reducible apply Excise.Grows.upd
    | exact ⟨id, Nat.le_refl _⟩ | exact ⟨id, Nat.le_succ _⟩

theorem applyWrites_evolves {base s : State} (ev : Evolves base s)  :
    Evolves base (applyWrites s) := by
  unfold applyWrites
  repeat' first
    | with_reducible assumption | (intro)
    | with_reducible apply advanceTo_evolves
    | split | (dsimp only; split)

theorem readDword_evolves {base s : State} (ev : Evolves base s) (r : Req) (be : Nat) (addr : Nat) :
    Evolves base (readDword r be addr s).2 := by
  unfold readDword
  repeat' first
    | with_reducible assumption | (intro)
    | with_reducible apply accessFault_evolves | with_reducible apply setSnap_evolves
    | with_reducible apply setQmSel_evolves | with_reducible apply Evolves.ite | with_reducible apply Evolves.ite_snd
    | with_reducible apply Evolves.getD
    | split | (dsimp only; split)
    | refine Evolves.fst (by with_reducible assumption) ?_ | refine Evolves.snd (by with_reducible assumption) ?_
    | with_reducible apply Evolves.upd | with_reducible apply HostIf.Grows.refl | with_reducible apply HostIf.Grows.upd
    | with_reducible apply Excise.Grows.refl | with_reducible apply Excise.Grows.upd
    | exact ⟨id, Nat.le_refl _⟩ | exact ⟨id, Nat.le_succ _⟩
    | dsimp only

end Sys2Proof.Machine
end

