-- ==== Sys2Proof/Laws/EvCellar.lean ====
section
/-! SUPPORT. What the operations of Machine/Cellar.lean keep (Evolves). -/

namespace Sys2Proof.Machine

theorem cellarCorrected_evolves {base s : State} (ev : Evolves base s)  :
    Evolves base (cellarCorrected s) := by
  unfold cellarCorrected
  repeat' first
    | with_reducible assumption | (intro)
    | with_reducible apply State.incSat_evolves | with_reducible apply State.flagAlways_evolves
    | split | (dsimp only; split)

theorem cellarCount_evolves {base s : State} (ev : Evolves base s) (addr : Nat) :
    Evolves base (cellarCount addr s) := by
  unfold cellarCount
  repeat' first
    | with_reducible assumption | (intro)
    | with_reducible apply State.set_evolves | with_reducible apply State.incSat_evolves
    | with_reducible apply State.flagAlways_evolves
    | split | (dsimp only; split)

theorem loseKey_evolves {base s : State} (ev : Evolves base s) (n : Nat) :
    Evolves base (loseKey n s) := by
  unfold loseKey
  repeat' first
    | with_reducible assumption | (intro)
    | with_reducible apply State.setB_evolves | with_reducible apply Evolves.ite
    | split | (dsimp only; split)
    | with_reducible apply Evolves.upd | with_reducible apply HostIf.Grows.refl | with_reducible apply HostIf.Grows.upd
    | with_reducible apply Excise.Grows.refl | with_reducible apply Excise.Grows.upd
    | exact ⟨id, Nat.le_refl _⟩ | exact ⟨id, Nat.le_succ _⟩

theorem loseIsland_evolves {base s : State} (ev : Evolves base s) (n : Nat) (addr : Nat) :
    Evolves base (loseIsland n addr s) := by
  unfold loseIsland
  repeat' first
    | with_reducible assumption | (intro)
    | with_reducible apply ledgerBreak_evolves | with_reducible apply Evolves.ite
    | split | (dsimp only; split)
    | with_reducible apply Evolves.upd | with_reducible apply HostIf.Grows.refl | with_reducible apply HostIf.Grows.upd
    | with_reducible apply Excise.Grows.refl | with_reducible apply Excise.Grows.upd
    | exact ⟨id, Nat.le_refl _⟩ | exact ⟨id, Nat.le_succ _⟩

theorem cellarUncorrectable_evolves {base s : State} (ev : Evolves base s) (addr : Nat) :
    Evolves base (cellarUncorrectable addr s) := by
  unfold cellarUncorrectable
  repeat' first
    | with_reducible assumption | (intro)
    | with_reducible apply cellarCount_evolves | with_reducible apply loseKey_evolves
    | with_reducible apply loseIsland_evolves | with_reducible apply Evolves.ite
    | split | (dsimp only; split)
    | refine Evolves.fst (by with_reducible assumption) ?_ | refine Evolves.snd (by with_reducible assumption) ?_
    | with_reducible apply Evolves.upd | with_reducible apply HostIf.Grows.refl | with_reducible apply HostIf.Grows.upd
    | with_reducible apply Excise.Grows.refl | with_reducible apply Excise.Grows.upd
    | exact ⟨id, Nat.le_refl _⟩ | exact ⟨id, Nat.le_succ _⟩

theorem cellarError_evolves {base s : State} (ev : Evolves base s) (e : CellarError) :
    Evolves base (cellarError e s) := by
  unfold cellarError
  repeat' first
    | with_reducible assumption | (intro)
    | with_reducible apply cellarCorrected_evolves | with_reducible apply cellarUncorrectable_evolves
    | with_reducible apply Evolves.ite
    | split | (dsimp only; split)

end Sys2Proof.Machine
end

