-- ==== Sys2Proof/Laws/EvIntegrity.lean ====
section
/-! SUPPORT. What the operations of Machine/Integrity.lean keep (Evolves). -/

namespace Sys2Proof.Machine

theorem setRef_evolves {base s : State} (ev : Evolves base s) (b : CfgBlock) (v : Nat) :
    Evolves base (setRef b v s) := by
  unfold setRef
  repeat' first
    | with_reducible assumption | (intro)
    | with_reducible apply State.set_evolves | with_reducible apply State.setCrc_evolves
    | split | (dsimp only; split)

theorem crcCommit_evolves {base s : State} (ev : Evolves base s) (b : CfgBlock) :
    Evolves base (crcCommit b s) := by
  unfold crcCommit
  repeat' first
    | with_reducible assumption | (intro)
    | with_reducible apply State.setCrc_evolves | with_reducible apply Evolves.ite
    | split | (dsimp only; split)

theorem crcMismatch_evolves {base s : State} (ev : Evolves base s) (b : CfgBlock) :
    Evolves base (crcMismatch b s) := by
  unfold crcMismatch
  repeat' first
    | with_reducible assumption | (intro)
    | with_reducible apply parkRfo_evolves | with_reducible apply State.flagAlways_evolves
    | with_reducible apply parkZ_evolves | with_reducible apply Evolves.ite
    | split | (dsimp only; split)
    | refine Evolves.fst (by with_reducible assumption) ?_ | refine Evolves.snd (by with_reducible assumption) ?_

theorem crcPass_evolves {base s : State} (ev : Evolves base s) (b : CfgBlock) :
    Evolves base (crcPass b s) := by
  unfold crcPass
  repeat' first
    | with_reducible assumption | (intro)
    | with_reducible apply State.set_evolves | with_reducible apply State.setCrc_evolves
    | with_reducible apply setRef_evolves | with_reducible apply crcMismatch_evolves | with_reducible apply Evolves.ite
    | split | (dsimp only; split)

theorem noteChange_evolves {base s : State} (ev : Evolves base s) (r : Reg) (i : Nat) :
    Evolves base (noteChange r i s) := by
  unfold noteChange
  repeat' first
    | with_reducible assumption | (intro)
    | with_reducible apply suspendCrc_evolves
    | split | (dsimp only; split)
    | refine Evolves.fst (by with_reducible assumption) ?_ | refine Evolves.snd (by with_reducible assumption) ?_

end Sys2Proof.Machine
end

