-- ==== Sys2Proof/Laws/EvMailbox.lean ====
section
/-! SUPPORT. What the operations of Machine/Mailbox.lean keep (Evolves). -/

namespace Sys2Proof.Machine

theorem closeSession_evolves {base s : State} (ev : Evolves base s) (m : Nat) :
    Evolves base (closeSession m s) := by
  unfold closeSession
  repeat' first
    | with_reducible assumption | (intro)
    | with_reducible apply State.setB_evolves | with_reducible apply State.setMbx_evolves
    | split | (dsimp only; split)

theorem countFail_evolves {base s : State} (ev : Evolves base s) (m : Nat) :
    Evolves base (countFail m s) := by
  unfold countFail
  repeat' first
    | with_reducible assumption | (intro)
    | with_reducible apply State.setB_evolves | with_reducible apply State.setMbx_evolves
    | with_reducible apply State.event_evolves | with_reducible apply Evolves.ite
    | split | (dsimp only; split)

theorem mgmtReply_evolves {base s : State} (ev : Evolves base s) (m : Nat) (origin : Origin) (head : List Byte) (header :
    List Byte) (payload : List Byte) :
    Evolves base (mgmtReply m origin head header payload s) := by
  unfold mgmtReply
  repeat' first
    | with_reducible assumption | (intro)
    | with_reducible apply mgmtFrame_evolves | with_reducible apply relayContent_evolves
    | split | (dsimp only; split)
    | refine Evolves.fst (by with_reducible assumption) ?_ | refine Evolves.snd (by with_reducible assumption) ?_

theorem finish_evolves {base s : State} (ev : Evolves base s) (m : Nat) (r : Reply) :
    Evolves base (finish m r s) := by
  unfold finish
  repeat' first
    | with_reducible assumption | (intro)
    | with_reducible apply State.set_evolves | with_reducible apply State.setBytes_evolves
    | with_reducible apply mgmtReply_evolves | with_reducible apply State.event_evolves
    | split | (dsimp only; split)
    | with_reducible apply Evolves.upd | with_reducible apply HostIf.Grows.refl | with_reducible apply HostIf.Grows.upd
    | with_reducible apply Excise.Grows.refl | with_reducible apply Excise.Grows.upd
    | exact ⟨id, Nat.le_refl _⟩ | exact ⟨id, Nat.le_succ _⟩

theorem rejectBad_evolves {base s : State} (ev : Evolves base s) (m : Nat) :
    Evolves base (rejectBad m s) := by
  unfold rejectBad
  repeat' first
    | with_reducible assumption | (intro)
    | with_reducible apply finish_evolves | with_reducible apply Evolves.ite
    | split | (dsimp only; split)

theorem rejectAll_evolves {base s : State} (ev : Evolves base s)  :
    Evolves base (rejectAll s) := by
  unfold rejectAll
  repeat' first
    | with_reducible assumption | (intro)
    | with_reducible apply rejectBad_evolves | with_reducible apply Evolves.foldl | with_reducible apply Evolves.foldl_snd
    | with_reducible apply Evolves.foldl_fst
    | split | (dsimp only; split)

theorem post_evolves {base s : State} (ev : Evolves base s) (m : Nat) (origin : Origin) :
    Evolves base (post m origin s) := by
  unfold post
  repeat' first
    | with_reducible assumption | (intro)
    | with_reducible apply State.set_evolves | with_reducible apply State.setMbx_evolves
    | with_reducible apply rejectBad_evolves
    | split | (dsimp only; split)
    | with_reducible apply Evolves.upd | with_reducible apply HostIf.Grows.refl | with_reducible apply HostIf.Grows.upd
    | with_reducible apply Excise.Grows.refl | with_reducible apply Excise.Grows.upd
    | exact ⟨id, Nat.le_refl _⟩ | exact ⟨id, Nat.le_succ _⟩

theorem ring_evolves {base s : State} (ev : Evolves base s) (fn : Nat) (m : Nat) :
    Evolves base (ring fn m s) := by
  unfold ring
  repeat' first
    | with_reducible assumption | (intro)
    | with_reducible apply post_evolves | with_reducible apply State.flag_evolves | with_reducible apply Evolves.ite
    | split | (dsimp only; split)

theorem dmaWrite_evolves {base x3 : State} (ev : Evolves base x3) (fn : Nat) (x1 : List DmaDesc) (x2 : List Byte) :
    Evolves base (dmaWrite fn x1 x2 x3) := by
  induction x1 generalizing x3 x2 with
  | nil =>
    unfold dmaWrite
    repeat' first
      | with_reducible assumption | (intro)
      | with_reducible apply State.emit_evolves | with_reducible apply Evolves.ite
      | split | (dsimp only; split)
      | refine Evolves.fst (by with_reducible assumption) ?_ | refine Evolves.snd (by with_reducible assumption) ?_
  | cons y l ih =>
    unfold dmaWrite
    repeat' first
      | with_reducible apply ih
      | with_reducible assumption | (intro)
      | with_reducible apply State.emit_evolves | with_reducible apply Evolves.ite
      | split | (dsimp only; split)
      | refine Evolves.fst (by with_reducible assumption) ?_ | refine Evolves.snd (by with_reducible assumption) ?_

theorem accept_evolves {base s : State} (ev : Evolves base s) (m : Nat) (c : Spec) :
    Evolves base (accept m c s).2 := by
  unfold accept
  repeat' first
    | with_reducible assumption | (intro)
    | with_reducible apply closeSession_evolves | with_reducible apply State.setMbx_evolves
    | with_reducible apply Evolves.ite | with_reducible apply Evolves.ite_snd
    | split | (dsimp only; split)
    | refine Evolves.fst (by with_reducible assumption) ?_ | refine Evolves.snd (by with_reducible assumption) ?_
    | dsimp only

theorem answer_evolves {base s : State} (ev : Evolves base s) (m : Nat) (ds : List DmaDesc) (dma : Dma) (r : Reply) :
    Evolves base (answer m ds dma r s) := by
  unfold answer
  repeat' first
    | with_reducible assumption | (intro)
    | with_reducible apply finish_evolves | with_reducible apply dmaWrite_evolves | with_reducible apply Evolves.ite
    | split | (dsimp only; split)
    | refine Evolves.fst (by with_reducible assumption) ?_ | refine Evolves.snd (by with_reducible assumption) ?_

theorem waitBusy_evolves {base s : State} (ev : Evolves base s) (m : Nat) (role : Nat) :
    Evolves base (waitBusy m role s) := by
  unfold waitBusy
  repeat' first
    | with_reducible assumption | (intro)
    | with_reducible apply State.set_evolves | with_reducible apply State.setMbx_evolves
    | with_reducible apply Evolves.ite
    | split | (dsimp only; split)
    | with_reducible apply Evolves.upd | with_reducible apply HostIf.Grows.refl | with_reducible apply HostIf.Grows.upd
    | with_reducible apply Excise.Grows.refl | with_reducible apply Excise.Grows.upd
    | exact ⟨id, Nat.le_refl _⟩ | exact ⟨id, Nat.le_succ _⟩

theorem goOn_evolves {base s : State} (ev : Evolves base s) (c : Spec) (m : Nat) (role : Nat) (dma : Dma) (size : Cmd →
    State → Nat) (k : Cmd → List DmaDesc → State → State) (hk : ∀ y0 y1 t, Evolves base t → Evolves base (k y0 y1 t)) :
    Evolves base (goOn c m role dma size k s) := by
  unfold goOn
  repeat' first
    | with_reducible assumption | (intro)
    | with_reducible apply hk | with_reducible apply finish_evolves | with_reducible apply waitBusy_evolves
    | with_reducible apply Evolves.ite
    | split | (dsimp only; split)
    | refine Evolves.fst (by with_reducible assumption) ?_ | refine Evolves.snd (by with_reducible assumption) ?_
    | with_reducible apply Evolves.upd | with_reducible apply HostIf.Grows.refl | with_reducible apply HostIf.Grows.upd
    | with_reducible apply Excise.Grows.refl | with_reducible apply Excise.Grows.upd
    | exact ⟨id, Nat.le_refl _⟩ | exact ⟨id, Nat.le_succ _⟩

theorem takeCommand_evolves {base s : State} (ev : Evolves base s) (c : Spec) (m : Nat) (dma : Dma) (size : Cmd → State →
    Nat) (k : Cmd → List DmaDesc → State → State) (hk : ∀ y0 y1 t, Evolves base t → Evolves base (k y0 y1 t)) :
    Evolves base (takeCommand c m dma size k s) := by
  unfold takeCommand
  repeat' first
    | with_reducible assumption | (intro)
    | with_reducible apply hk | with_reducible apply cellarError_evolves | with_reducible apply finish_evolves
    | with_reducible apply accept_evolves | with_reducible apply goOn_evolves | with_reducible apply Evolves.ite
    | with_reducible apply Evolves.foldl | with_reducible apply Evolves.foldl_snd | with_reducible apply Evolves.foldl_fst
    | split | (dsimp only; split)
    | refine Evolves.fst (by with_reducible assumption) ?_ | refine Evolves.snd (by with_reducible assumption) ?_

theorem runCommand_evolves {base s : State} (ev : Evolves base s) (c : Spec) (m : Nat) (dma : Dma) (act : Cmd → State →
    Reply × State) (size : Cmd → State → Nat) (hact : ∀ y0 t, Evolves base t → Evolves base (act y0 t).2) :
    Evolves base (runCommand c m dma act s size) := by
  unfold runCommand
  repeat' first
    | with_reducible assumption | (intro)
    | with_reducible apply hact | with_reducible apply answer_evolves | with_reducible apply takeCommand_evolves
    | split | (dsimp only; split)

theorem refuse_evolves {base s : State} (ev : Evolves base s) (st : Nat) :
    Evolves base (refuse st s).2 := by
  unfold refuse
  repeat' first
    | with_reducible assumption | (intro)
    | split | (dsimp only; split)
    | dsimp only

theorem tempInhibit_evolves {base s : State} (ev : Evolves base s)  :
    Evolves base (tempInhibit s).2 := by
  unfold tempInhibit
  repeat' first
    | with_reducible assumption | (intro)
    | with_reducible apply State.setB_evolves | with_reducible apply State.event_evolves
    | split | (dsimp only; split)
    | dsimp only

theorem celWrote_evolves {base s : State} (ev : Evolves base s) (n : Nat) :
    Evolves base (celWrote n s) := by
  unfold celWrote
  repeat' first
    | with_reducible assumption | (intro)
    | with_reducible apply State.inc_evolves
    | split | (dsimp only; split)

theorem cellarTimeout_evolves {base s : State} (ev : Evolves base s)  :
    Evolves base (cellarTimeout s).2 := by
  unfold cellarTimeout
  repeat' first
    | with_reducible assumption | (intro)
    | with_reducible apply State.setB_evolves | with_reducible apply advanceTo_evolves
    | with_reducible apply State.event_evolves
    | split | (dsimp only; split)
    | with_reducible apply Evolves.upd | with_reducible apply HostIf.Grows.refl | with_reducible apply HostIf.Grows.upd
    | with_reducible apply Excise.Grows.refl | with_reducible apply Excise.Grows.upd
    | exact ⟨id, Nat.le_refl _⟩ | exact ⟨id, Nat.le_succ _⟩
    | dsimp only

theorem celCommand_evolves {base s : State} (ev : Evolves base s) (n : Nat) (act : State → Reply × State) (hact : ∀ t,
    Evolves base t → Evolves base (act t).2) :
    Evolves base (celCommand n s act).2 := by
  unfold celCommand
  repeat' first
    | with_reducible assumption | (intro)
    | with_reducible apply hact | with_reducible apply tempInhibit_evolves | with_reducible apply celWrote_evolves
    | with_reducible apply cellarTimeout_evolves | with_reducible apply Evolves.ite | with_reducible apply Evolves.ite_snd
    | split | (dsimp only; split)
    | dsimp only

end Sys2Proof.Machine
end

