-- ==== Sys2Proof/Laws/EvNetTime.lean ====
section
/-! SUPPORT. What the operations of Machine/NetTime.lean keep (Evolves). -/

namespace Sys2Proof.Machine

theorem incRefuse_evolves {base s : State} (ev : Evolves base s)  :
    Evolves base (incRefuse s) := by
  unfold incRefuse
  repeat' first
    | with_reducible assumption | (intro)
    | with_reducible apply State.flagAlways_evolves
    | split | (dsimp only; split)

theorem ntIncWrite_evolves {base s : State} (ev : Evolves base s) (v : Nat) :
    Evolves base (ntIncWrite v s) := by
  unfold ntIncWrite
  repeat' first
    | with_reducible assumption | (intro)
    | with_reducible apply incRefuse_evolves | with_reducible apply State.later_evolves | with_reducible apply Evolves.ite
    | split | (dsimp only; split)

theorem ntCommand_evolves {base s : State} (ev : Evolves base s) (a : Action) :
    Evolves base (ntCommand a s) := by
  unfold ntCommand
  repeat' first
    | with_reducible assumption | (intro)
    | with_reducible apply State.setB_evolves | with_reducible apply State.later_evolves
    | with_reducible apply State.flagAlways_evolves | with_reducible apply Evolves.ite
    | split | (dsimp only; split)

theorem ntIncHi_evolves {base s : State} (ev : Evolves base s) (low : Nat) (hi : Nat) :
    Evolves base (ntIncHi low hi s) := by
  unfold ntIncHi
  repeat' first
    | with_reducible assumption | (intro)
    | with_reducible apply ntIncWrite_evolves
    | split | (dsimp only; split)

theorem execNtStep_evolves (r : Req) (s : State) :
    Answers s (execNtStep r s) := by
  unfold execNtStep
  repeat' first
    | with_reducible assumption | (intro)
    | with_reducible exact Evolves.refl _ | with_reducible apply Answers.next | with_reducible apply Answers.ite
    | with_reducible apply ntCommand_evolves | with_reducible apply privileged_evolves
    | split | (dsimp only; split)

theorem execNtLoad_evolves (r : Req) (s : State) :
    Answers s (execNtLoad r s) := by
  unfold execNtLoad
  repeat' first
    | with_reducible assumption | (intro)
    | with_reducible exact Evolves.refl _ | with_reducible apply Answers.next | with_reducible apply Answers.ite
    | with_reducible apply ntCommand_evolves | with_reducible apply privileged_evolves
    | split | (dsimp only; split)

theorem execNtWrap_evolves (s : State) :
    Answers s (execNtWrap s) := by
  unfold execNtWrap
  repeat' first
    | with_reducible assumption | (intro)
    | with_reducible exact Evolves.refl _ | with_reducible apply Answers.next | with_reducible apply Answers.ite
    | with_reducible apply advanceTo_evolves | with_reducible apply Evolves.ite
    | split | (dsimp only; split)

end Sys2Proof.Machine
end

