-- ==== Sys2Proof/Laws/EvPortCmds.lean ====
section
/-! SUPPORT. What the operations of Machine/PortCmds.lean keep (Evolves). -/

namespace Sys2Proof.Machine

theorem rfoDisable_evolves {base s : State} (ev : Evolves base s) (p : Nat) :
    Evolves base (rfoDisable p s) := by
  unfold rfoDisable
  repeat' first
    | with_reducible assumption | (intro)
    | with_reducible apply State.setB_evolves | with_reducible apply State.later_evolves
    | split | (dsimp only; split)

theorem rfoMuteWrite_evolves {base s : State} (ev : Evolves base s) (p : Nat) (on : Bool) :
    Evolves base (rfoMuteWrite p on s) := by
  unfold rfoMuteWrite
  repeat' first
    | with_reducible assumption | (intro)
    | with_reducible apply State.setB_evolves | with_reducible apply State.later_evolves
    | split | (dsimp only; split)

theorem execRfoEnable_evolves (r : Req) (p : Fin 288) (s : State) :
    Answers s (execRfoEnable r p s) := by
  unfold execRfoEnable
  repeat' first
    | with_reducible assumption | (intro)
    | with_reducible exact Evolves.refl _ | with_reducible apply Answers.next | with_reducible apply Answers.ite
    | with_reducible apply privileged_evolves | with_reducible apply rfoEnable_evolves
    | split | (dsimp only; split)

theorem execRfoEnabled_evolves (p : Fin 288) (s : State) :
    Answers s (execRfoEnabled p s) := by
  unfold execRfoEnabled
  repeat' first
    | with_reducible assumption | (intro)
    | with_reducible exact Evolves.refl _ | with_reducible apply Answers.next | with_reducible apply Answers.ite
    | with_reducible apply atTick_evolves | with_reducible apply rfoEnabled_evolves
    | split | (dsimp only; split)
    | refine Evolves.fst (by with_reducible assumption) ?_ | refine Evolves.snd (by with_reducible assumption) ?_

theorem execRfoDisable_evolves (r : Req) (p : Fin 288) (s : State) :
    Answers s (execRfoDisable r p s) := by
  unfold execRfoDisable
  repeat' first
    | with_reducible assumption | (intro)
    | with_reducible exact Evolves.refl _ | with_reducible apply Answers.next | with_reducible apply Answers.ite
    | with_reducible apply rfoDisable_evolves | with_reducible apply privileged_evolves
    | split | (dsimp only; split)

theorem execRfoMute_evolves (p : Fin 288) (on : Bool) (s : State) :
    Answers s (execRfoMute p on s) := by
  unfold execRfoMute
  repeat' first
    | with_reducible assumption | (intro)
    | with_reducible exact Evolves.refl _ | with_reducible apply Answers.next | with_reducible apply Answers.ite
    | with_reducible apply rfoMuteWrite_evolves
    | split | (dsimp only; split)

theorem execRfoDriverFault_evolves (p : Fin 288) (s : State) :
    Answers s (execRfoDriverFault p s) := by
  unfold execRfoDriverFault
  repeat' first
    | with_reducible assumption | (intro)
    | with_reducible exact Evolves.refl _ | with_reducible apply Answers.next | with_reducible apply Answers.ite
    | with_reducible apply rfoFault_evolves
    | split | (dsimp only; split)

theorem execDriverFaultRetest_evolves (zf : Bool) (p : Fin 768) (found : Bool) (s : State) :
    Answers s (execDriverFaultRetest zf p found s) := by
  unfold execDriverFaultRetest
  repeat' first
    | with_reducible assumption | (intro)
    | with_reducible exact Evolves.refl _ | with_reducible apply Answers.next | with_reducible apply Answers.ite
    | with_reducible apply State.setRfo_evolves | with_reducible apply State.setZp_evolves
    | with_reducible apply Evolves.ite
    | split | (dsimp only; split)

theorem execRfoParkClear_evolves (p : Fin 288) (s : State) :
    Answers s (execRfoParkClear p s) := by
  unfold execRfoParkClear
  repeat' first
    | with_reducible assumption | (intro)
    | with_reducible exact Evolves.refl _ | with_reducible apply Answers.next | with_reducible apply Answers.ite
    | with_reducible apply rfoParkClear_evolves
    | split | (dsimp only; split)

theorem execShaperReset_evolves (p : Fin 288) (s : State) :
    Answers s (execShaperReset p s) := by
  unfold execShaperReset
  repeat' first
    | with_reducible assumption | (intro)
    | with_reducible exact Evolves.refl _ | with_reducible apply Answers.next | with_reducible apply Answers.ite
    | with_reducible apply State.incSat_evolves | with_reducible apply State.emit_evolves
    | split | (dsimp only; split)

theorem zDisable_evolves {base s : State} (ev : Evolves base s) (z : Nat) :
    Evolves base (zDisable z s) := by
  unfold zDisable
  repeat' first
    | with_reducible assumption | (intro)
    | with_reducible apply State.setB_evolves | with_reducible apply State.later_evolves
    | split | (dsimp only; split)

theorem execZpEnable_evolves (r : Req) (z : Fin 768) (s : State) :
    Answers s (execZpEnable r z s) := by
  unfold execZpEnable
  repeat' first
    | with_reducible assumption | (intro)
    | with_reducible exact Evolves.refl _ | with_reducible apply Answers.next | with_reducible apply Answers.ite
    | with_reducible apply privileged_evolves | with_reducible apply zEnable_evolves
    | split | (dsimp only; split)

theorem execZpDisable_evolves (r : Req) (z : Fin 768) (s : State) :
    Answers s (execZpDisable r z s) := by
  unfold execZpDisable
  repeat' first
    | with_reducible assumption | (intro)
    | with_reducible exact Evolves.refl _ | with_reducible apply Answers.next | with_reducible apply Answers.ite
    | with_reducible apply privileged_evolves | with_reducible apply zDisable_evolves
    | split | (dsimp only; split)

theorem execZbStreamSample_evolves (z : Fin 768) (s : State) :
    Answers s (execZbStreamSample z s) := by
  unfold execZbStreamSample
  repeat' first
    | with_reducible assumption | (intro)
    | with_reducible exact Evolves.refl _ | with_reducible apply Answers.next | with_reducible apply Answers.ite
    | with_reducible apply withTick_evolves | with_reducible apply streamSample_evolves
    | split | (dsimp only; split)
    | refine Evolves.fst (by with_reducible assumption) ?_ | refine Evolves.snd (by with_reducible assumption) ?_

theorem execTransferWindowOpen_evolves (z : Fin 768) (s : State) :
    Answers s (execTransferWindowOpen z s) := by
  unfold execTransferWindowOpen
  repeat' first
    | with_reducible assumption | (intro)
    | with_reducible exact Evolves.refl _ | with_reducible apply Answers.next | with_reducible apply Answers.ite
    | with_reducible apply atTick_evolves | with_reducible apply openWindow_evolves
    | split | (dsimp only; split)
    | refine Evolves.fst (by with_reducible assumption) ?_ | refine Evolves.snd (by with_reducible assumption) ?_

theorem execTransferWindowEnd_evolves (z : Fin 768) (s : State) :
    Answers s (execTransferWindowEnd z s) := by
  unfold execTransferWindowEnd
  repeat' first
    | with_reducible assumption | (intro)
    | with_reducible exact Evolves.refl _ | with_reducible apply Answers.next | with_reducible apply Answers.ite
    | with_reducible apply atTick_evolves | with_reducible apply zWindowEnd_evolves
    | split | (dsimp only; split)
    | refine Evolves.fst (by with_reducible assumption) ?_ | refine Evolves.snd (by with_reducible assumption) ?_

theorem execZbReadback_evolves (z : Fin 768) (m : BitVec 12) (s : State) :
    Answers s (execZbReadback z m s) := by
  unfold execZbReadback
  repeat' first
    | with_reducible assumption | (intro)
    | with_reducible exact Evolves.refl _ | with_reducible apply Answers.next | with_reducible apply Answers.ite
    | with_reducible apply State.setMon_evolves | with_reducible apply advanceTo_evolves
    | with_reducible apply readback_evolves | with_reducible apply Evolves.ite
    | with_reducible apply Evolves.getD
    | split | (dsimp only; split)

theorem execZbCompliance_evolves (z : Fin 768) (s : State) :
    Answers s (execZbCompliance z s) := by
  unfold execZbCompliance
  repeat' first
    | with_reducible assumption | (intro)
    | with_reducible exact Evolves.refl _ | with_reducible apply Answers.next | with_reducible apply Answers.ite
    | with_reducible apply State.flagAlways_evolves
    | split | (dsimp only; split)

theorem execZfDriverFault_evolves (z : Fin 768) (s : State) :
    Answers s (execZfDriverFault z s) := by
  unfold execZfDriverFault
  repeat' first
    | with_reducible assumption | (intro)
    | with_reducible exact Evolves.refl _ | with_reducible apply Answers.next | with_reducible apply Answers.ite
    | with_reducible apply zFault_evolves
    | split | (dsimp only; split)

theorem execParkDone_evolves (z : Fin 768) (s : State) :
    Answers s (execParkDone z s) := by
  unfold execParkDone
  repeat' first
    | with_reducible assumption | (intro)
    | with_reducible exact Evolves.refl _ | with_reducible apply Answers.next | with_reducible apply Answers.ite
    | with_reducible apply withTick_evolves | with_reducible apply zParkDone_evolves
    | split | (dsimp only; split)
    | refine Evolves.fst (by with_reducible assumption) ?_ | refine Evolves.snd (by with_reducible assumption) ?_

theorem execBiasRampEnd_evolves (z : Fin 768) (s : State) :
    Answers s (execBiasRampEnd z s) := by
  unfold execBiasRampEnd
  repeat' first
    | with_reducible assumption | (intro)
    | with_reducible exact Evolves.refl _ | with_reducible apply Answers.next | with_reducible apply Answers.ite
    | with_reducible apply atTick_evolves | with_reducible apply zRampEnd_evolves
    | split | (dsimp only; split)
    | refine Evolves.fst (by with_reducible assumption) ?_ | refine Evolves.snd (by with_reducible assumption) ?_

theorem execZParkClear_evolves (z : Fin 768) (s : State) :
    Answers s (execZParkClear z s) := by
  unfold execZParkClear
  repeat' first
    | with_reducible assumption | (intro)
    | with_reducible exact Evolves.refl _ | with_reducible apply Answers.next | with_reducible apply Answers.ite
    | with_reducible apply zParkClear_evolves
    | split | (dsimp only; split)

theorem execReadbackFaultClear_evolves (z : Fin 768) (s : State) :
    Answers s (execReadbackFaultClear z s) := by
  unfold execReadbackFaultClear
  repeat' first
    | with_reducible assumption | (intro)
    | with_reducible exact Evolves.refl _ | with_reducible apply Answers.next | with_reducible apply Answers.ite
    | with_reducible apply State.setB_evolves
    | split | (dsimp only; split)

end Sys2Proof.Machine
end

