-- ==== Sys2Proof/Laws/EvReadoutCmds.lean ====
section
/-! SUPPORT. What the operations of Machine/ReadoutCmds.lean keep (Evolves). -/

namespace Sys2Proof.Machine

theorem rfiDisable_evolves {base s : State} (ev : Evolves base s) (i : Nat) :
    Evolves base (rfiDisable i s) := by
  unfold rfiDisable
  repeat' first
    | with_reducible assumption | (intro)
    | with_reducible apply State.setB_evolves | with_reducible apply State.later_evolves
    | split | (dsimp only; split)

theorem execRfiEnable_evolves (r : Req) (i : Fin 32) (s : State) :
    Answers s (execRfiEnable r i s) := by
  unfold execRfiEnable
  repeat' first
    | with_reducible assumption | (intro)
    | with_reducible exact Evolves.refl _ | with_reducible apply Answers.next | with_reducible apply Answers.ite
    | with_reducible apply rfiEnable_evolves | with_reducible apply privileged_evolves
    | split | (dsimp only; split)

theorem execRfiDisable_evolves (r : Req) (i : Fin 32) (s : State) :
    Answers s (execRfiDisable r i s) := by
  unfold execRfiDisable
  repeat' first
    | with_reducible assumption | (intro)
    | with_reducible exact Evolves.refl _ | with_reducible apply Answers.next | with_reducible apply Answers.ite
    | with_reducible apply rfiDisable_evolves | with_reducible apply privileged_evolves
    | split | (dsimp only; split)

theorem kBusy_evolves {base s : State} (ev : Evolves base s) (i : Nat) :
    Evolves base (kBusy i s) := by
  unfold kBusy
  repeat' first
    | with_reducible assumption | (intro)
    | with_reducible apply State.flagAlways_evolves
    | split | (dsimp only; split)

theorem execKswap_evolves (i : Fin 32) (s : State) :
    Answers s (execKswap i s) := by
  unfold execKswap
  repeat' first
    | with_reducible assumption | (intro)
    | with_reducible exact Evolves.refl _ | with_reducible apply Answers.next | with_reducible apply Answers.ite
    | with_reducible apply kBusy_evolves | with_reducible apply State.flagAlways_evolves
    | with_reducible apply setKPending_evolves | with_reducible apply Evolves.ite
    | split | (dsimp only; split)

theorem execKswapNow_evolves (i : Fin 32) (s : State) :
    Answers s (execKswapNow i s) := by
  unfold execKswapNow
  repeat' first
    | with_reducible assumption | (intro)
    | with_reducible exact Evolves.refl _ | with_reducible apply Answers.next | with_reducible apply Answers.ite
    | with_reducible apply kBusy_evolves | with_reducible apply setKPending_evolves | with_reducible apply Evolves.ite
    | split | (dsimp only; split)

theorem execKswapApply_evolves (i : Fin 32) (s : State) :
    Answers s (execKswapApply i s) := by
  unfold execKswapApply
  repeat' first
    | with_reducible assumption | (intro)
    | with_reducible exact Evolves.refl _ | with_reducible apply Answers.next | with_reducible apply Answers.ite
    | with_reducible apply atTick_evolves | with_reducible apply kBankDue_evolves | with_reducible apply Evolves.ite
    | split | (dsimp only; split)
    | refine Evolves.fst (by with_reducible assumption) ?_ | refine Evolves.snd (by with_reducible assumption) ?_

theorem execKcopy_evolves (i : Fin 32) (s : State) :
    Answers s (execKcopy i s) := by
  unfold execKcopy
  repeat' first
    | with_reducible assumption | (intro)
    | with_reducible exact Evolves.refl _ | with_reducible apply Answers.next | with_reducible apply Answers.ite
    | with_reducible apply kBusy_evolves | with_reducible apply setKPending_evolves | with_reducible apply Evolves.ite
    | split | (dsimp only; split)

theorem execKcopyDone_evolves (i : Fin 32) (s : State) :
    Answers s (execKcopyDone i s) := by
  unfold execKcopyDone
  repeat' first
    | with_reducible assumption | (intro)
    | with_reducible exact Evolves.refl _ | with_reducible apply Answers.next | with_reducible apply Answers.ite
    | with_reducible apply kCopy_evolves | with_reducible apply Evolves.ite
    | split | (dsimp only; split)
    | refine Evolves.fst (by with_reducible assumption) ?_ | refine Evolves.snd (by with_reducible assumption) ?_

theorem lauEnWrite_evolves {base s : State} (ev : Evolves base s) (c : Nat) (on : Bool) :
    Evolves base (lauEnWrite c on s) := by
  unfold lauEnWrite
  repeat' first
    | with_reducible assumption | (intro)
    | with_reducible apply State.setB_evolves | with_reducible apply lauFlag_evolves
    | with_reducible apply State.later_evolves | with_reducible apply Evolves.ite
    | split | (dsimp only; split)

theorem execLauEnable_evolves (r : Req) (c : Fin 1024) (on : Bool) (s : State) :
    Answers s (execLauEnable r c on s) := by
  unfold execLauEnable
  repeat' first
    | with_reducible assumption | (intro)
    | with_reducible exact Evolves.refl _ | with_reducible apply Answers.next | with_reducible apply Answers.ite
    | with_reducible apply privileged_evolves | with_reducible apply lauEnWrite_evolves
    | split | (dsimp only; split)

theorem overrange_evolves {base s : State} (ev : Evolves base s) (i : Nat) (n : Nat) :
    Evolves base (overrange i n s) := by
  unfold overrange
  repeat' first
    | with_reducible assumption | (intro)
    | with_reducible apply State.incSat_evolves | with_reducible apply State.flag_evolves
    | with_reducible apply Evolves.ite
    | split | (dsimp only; split)

theorem execWindowRecord_evolves (c : Fin 1024) (xs : WindowData) (overs : Bool) (n : BitVec 32) (s : State) :
    Answers s (execWindowRecord c xs overs n s) := by
  unfold execWindowRecord
  repeat' first
    | with_reducible assumption | (intro)
    | with_reducible exact Evolves.refl _ | with_reducible apply Answers.next | with_reducible apply Answers.ite
    | with_reducible apply advanceTo_evolves | with_reducible apply overrange_evolves
    | with_reducible apply produceWindow_evolves
    | split | (dsimp only; split)
    | refine Evolves.fst (by with_reducible assumption) ?_ | refine Evolves.snd (by with_reducible assumption) ?_

theorem execResultWrite_evolves (s : State) :
    Answers s (execResultWrite s) := by
  unfold execResultWrite
  repeat' first
    | with_reducible assumption | (intro)
    | with_reducible exact Evolves.refl _ | with_reducible apply Answers.next | with_reducible apply Answers.ite
    | with_reducible apply runTo_evolves | with_reducible apply routeHead_evolves
    | split | (dsimp only; split)
    | refine Evolves.fst (by with_reducible assumption) ?_ | refine Evolves.snd (by with_reducible assumption) ?_

end Sys2Proof.Machine
end

