-- ==== Sys2Proof/Laws/EvSeqControl.lean ====
section
/-! SUPPORT. What the operations of Machine/SeqControl.lean keep (Evolves). -/

namespace Sys2Proof.Machine

theorem seqFlag_evolves {base s : State} (ev : Evolves base s) (k : Nat) (f : Fld) :
    Evolves base (seqFlag k f s) := by
  unfold seqFlag
  repeat' first
    | with_reducible assumption | (intro)
    | with_reducible apply State.flag_evolves
    | split | (dsimp only; split)

theorem startSeq_evolves {base s : State} (ev : Evolves base s) (k : Nat) (t : Nat) :
    Evolves base (startSeq k t s) := by
  unfold startSeq
  repeat' first
    | with_reducible assumption | (intro)
    | with_reducible apply State.set_evolves | with_reducible apply setSeqState_evolves
    | with_reducible apply setPc_evolves | with_reducible apply State.modSeq_evolves | with_reducible apply Evolves.ite
    | split | (dsimp only; split)

theorem refuseStart_evolves {base s : State} (ev : Evolves base s) (k : Nat) :
    Evolves base (refuseStart k s) := by
  unfold refuseStart
  repeat' first
    | with_reducible assumption | (intro)
    | with_reducible apply seqFlag_evolves
    | split | (dsimp only; split)

theorem lateStart_evolves {base s : State} (ev : Evolves base s) (k : Nat) :
    Evolves base (lateStart k s) := by
  unfold lateStart
  repeat' first
    | with_reducible assumption | (intro)
    | with_reducible apply seqFlag_evolves | with_reducible apply refuseStart_evolves
    | split | (dsimp only; split)

theorem execStart_evolves (r : Req) (k : Fin 512) (s : State) :
    Answers s (execStart r k s) := by
  unfold execStart
  repeat' first
    | with_reducible assumption | (intro)
    | with_reducible exact Evolves.refl _ | with_reducible apply Answers.next | with_reducible apply Answers.ite
    | with_reducible apply startSeq_evolves | with_reducible apply refuseStart_evolves
    | with_reducible apply lateStart_evolves | with_reducible apply privileged_evolves | with_reducible apply Evolves.ite
    | split | (dsimp only; split)

theorem execGroupStart_evolves (r : Req) (t : Fin 64) (mask : BitVec 8) (s : State) :
    Answers s (execGroupStart r t mask s) := by
  unfold execGroupStart
  repeat' first
    | with_reducible assumption | (intro)
    | with_reducible exact Evolves.refl _ | with_reducible apply Answers.next | with_reducible apply Answers.ite
    | with_reducible apply startSeq_evolves | with_reducible apply refuseStart_evolves
    | with_reducible apply lateStart_evolves | with_reducible apply privileged_evolves
    | with_reducible apply State.flag_evolves | with_reducible apply Evolves.ite | with_reducible apply Evolves.foldl
    | with_reducible apply Evolves.foldl_snd | with_reducible apply Evolves.foldl_fst
    | split | (dsimp only; split)

theorem execStopAtShot_evolves (r : Req) (k : Fin 512) (s : State) :
    Answers s (execStopAtShot r k s) := by
  unfold execStopAtShot
  repeat' first
    | with_reducible assumption | (intro)
    | with_reducible exact Evolves.refl _ | with_reducible apply Answers.next | with_reducible apply Answers.ite
    | with_reducible apply privileged_evolves | with_reducible apply State.modSeq_evolves
    | with_reducible apply Evolves.ite
    | split | (dsimp only; split)

theorem execClear_evolves (r : Req) (k : Fin 512) (s : State) :
    Answers s (execClear r k s) := by
  unfold execClear
  repeat' first
    | with_reducible assumption | (intro)
    | with_reducible exact Evolves.refl _ | with_reducible apply Answers.next | with_reducible apply Answers.ite
    | with_reducible apply State.set_evolves | with_reducible apply setSeqState_evolves
    | with_reducible apply privileged_evolves | with_reducible apply Evolves.ite
    | split | (dsimp only; split)

theorem execSlackReset_evolves (k : Fin 512) (s : State) :
    Answers s (execSlackReset k s) := by
  unfold execSlackReset
  repeat' first
    | with_reducible assumption | (intro)
    | with_reducible exact Evolves.refl _ | with_reducible apply Answers.next | with_reducible apply Answers.ite
    | with_reducible apply State.set_evolves
    | split | (dsimp only; split)

theorem seqEnWrite_evolves {base s : State} (ev : Evolves base s) (k : Nat) (on : Bool) :
    Evolves base (seqEnWrite k on s) := by
  unfold seqEnWrite
  repeat' first
    | with_reducible assumption | (intro)
    | with_reducible apply seqFlag_evolves | with_reducible apply State.setB_evolves | with_reducible apply Evolves.ite
    | split | (dsimp only; split)

theorem execSeqEnWrite_evolves (r : Req) (k : Fin 512) (on : Bool) (s : State) :
    Answers s (execSeqEnWrite r k on s) := by
  unfold execSeqEnWrite
  repeat' first
    | with_reducible assumption | (intro)
    | with_reducible exact Evolves.refl _ | with_reducible apply Answers.next | with_reducible apply Answers.ite
    | with_reducible apply privileged_evolves | with_reducible apply seqEnWrite_evolves
    | split | (dsimp only; split)

theorem tunEnWrite_evolves {base s : State} (ev : Evolves base s) (t : Nat) (on : Bool) :
    Evolves base (tunEnWrite t on s) := by
  unfold tunEnWrite
  repeat' first
    | with_reducible assumption | (intro)
    | with_reducible apply State.setB_evolves | with_reducible apply State.flag_evolves | with_reducible apply Evolves.ite
    | split | (dsimp only; split)

theorem execTunEnWrite_evolves (r : Req) (t : Fin 64) (on : Bool) (s : State) :
    Answers s (execTunEnWrite r t on s) := by
  unfold execTunEnWrite
  repeat' first
    | with_reducible assumption | (intro)
    | with_reducible exact Evolves.refl _ | with_reducible apply Answers.next | with_reducible apply Answers.ite
    | with_reducible apply privileged_evolves | with_reducible apply tunEnWrite_evolves
    | split | (dsimp only; split)

theorem faultAt_evolves {base s : State} (ev : Evolves base s) (k : Nat) (code : Nat) (upc : Nat) (commits : Nat) (t :
    Nat) :
    Evolves base (faultAt k code upc commits t s) := by
  unfold faultAt
  repeat' first
    | with_reducible assumption | (intro)
    | with_reducible apply advanceTo_evolves | with_reducible apply abortTrap_evolves
    | with_reducible apply Evolves.getD
    | split | (dsimp only; split)

theorem timeoutFault_evolves {base s : State} (ev : Evolves base s) (k : Nat) (code : Nat) (n : Nat) :
    Evolves base (timeoutFault k code n s) := by
  unfold timeoutFault
  repeat' first
    | with_reducible assumption | (intro)
    | with_reducible apply advanceTo_evolves | with_reducible apply faultAt_evolves | with_reducible apply Evolves.ite
    | split | (dsimp only; split)

theorem release_evolves {base s : State} (ev : Evolves base s) (k : Nat) (c : Nat) (t : Nat) :
    Evolves base (release k c t s) := by
  unfold release
  repeat' first
    | with_reducible assumption | (intro)
    | with_reducible apply microDone_evolves | with_reducible apply State.set_evolves
    | with_reducible apply unstall_evolves | with_reducible apply retire_evolves
    | split | (dsimp only; split)
    | refine Evolves.fst (by with_reducible assumption) ?_ | refine Evolves.snd (by with_reducible assumption) ?_

theorem settled_evolves {base s : State} (ev : Evolves base s) (b : Nat) :
    Evolves base (settled b s) := by
  unfold settled
  repeat' first
    | with_reducible assumption | (intro)
    | with_reducible apply settle_evolves | with_reducible apply Evolves.foldl | with_reducible apply Evolves.foldl_snd
    | with_reducible apply Evolves.foldl_fst
    | split | (dsimp only; split)

theorem execBarrierRelease_evolves (b : Fin 256) (s : State) :
    Answers s (execBarrierRelease b s) := by
  unfold execBarrierRelease
  repeat' first
    | with_reducible assumption | (intro)
    | with_reducible exact Evolves.refl _ | with_reducible apply Answers.next | with_reducible apply Answers.ite
    | with_reducible apply State.inc_evolves | with_reducible apply advanceTo_evolves
    | with_reducible apply release_evolves | with_reducible apply settled_evolves
    | with_reducible apply State.setBar_evolves | with_reducible apply showBarrier_evolves
    | with_reducible apply Evolves.foldl | with_reducible apply Evolves.foldl_snd | with_reducible apply Evolves.foldl_fst
    | split | (dsimp only; split)
    | refine Evolves.fst (by with_reducible assumption) ?_ | refine Evolves.snd (by with_reducible assumption) ?_

theorem execBarrierTimeout_evolves (b : Fin 256) (s : State) :
    Answers s (execBarrierTimeout b s) := by
  unfold execBarrierTimeout
  repeat' first
    | with_reducible assumption | (intro)
    | with_reducible exact Evolves.refl _ | with_reducible apply Answers.next | with_reducible apply Answers.ite
    | with_reducible apply advanceTo_evolves | with_reducible apply State.setBar_evolves
    | with_reducible apply showBarrier_evolves | with_reducible apply settle_evolves
    | with_reducible apply abortTrap_evolves | with_reducible apply State.event_evolves | with_reducible apply Evolves.ite
    | with_reducible apply Evolves.foldl | with_reducible apply Evolves.foldl_snd | with_reducible apply Evolves.foldl_fst
    | split | (dsimp only; split)

theorem barCfgWrite_evolves {base s : State} (ev : Evolves base s) (b : Nat) (v : Nat) :
    Evolves base (barCfgWrite b v s) := by
  unfold barCfgWrite
  repeat' first
    | with_reducible assumption | (intro)
    | with_reducible apply State.set_evolves | with_reducible apply State.flagAlways_evolves
    | with_reducible apply Evolves.ite
    | split | (dsimp only; split)

theorem execQmBarCfgWrite_evolves (r : Req) (b : Fin 256) (v : BitVec 32) (s : State) :
    Answers s (execQmBarCfgWrite r b v s) := by
  unfold execQmBarCfgWrite
  repeat' first
    | with_reducible assumption | (intro)
    | with_reducible exact Evolves.refl _ | with_reducible apply Answers.next | with_reducible apply Answers.ite
    | with_reducible apply privileged_evolves | with_reducible apply barCfgWrite_evolves
    | split | (dsimp only; split)

end Sys2Proof.Machine
end

