-- ==== Sys2Proof/Laws/EvOperands.lean ====
section
/-! SUPPORT. What the operations of Machine/Operands.lean keep (Evolves). -/

namespace Sys2Proof.Machine

/-- A way a writing cycle ends whose state evolves. -/
def WriteOk (base : State) (e : WriteEnd) : Prop :=
  match e with
  | .written s => Evolves base s
  | .full _ s => Evolves base s
  | .fault _ s => Evolves base s

theorem WriteOk.ite {base : State} {c : Prop} [Decidable c] {d e : WriteEnd} (h : WriteOk base d) (k : WriteOk base e) :
    WriteOk base (if c then d else e) := by
  split
  · exact h
  · exact k

theorem WriteOk.written {base s : State} (h : Evolves base s) : WriteOk base (.written s) := h
theorem WriteOk.full {base s : State} {x0 : Nat} (h : Evolves base s) : WriteOk base (.full x0 s) := h
theorem WriteOk.fault {base s : State} {x0 : Nat} (h : Evolves base s) : WriteOk base (.fault x0 s) := h

theorem WriteOk.ofWritten {base s : State} {d : WriteEnd} (e : d = .written s) (h : WriteOk base d) :
    Evolves base s := by
  subst e
  exact h

theorem WriteOk.ofFull {base s : State} {d : WriteEnd} {x0 : Nat} (e : d = .full x0 s) (h : WriteOk base d) :
    Evolves base s := by
  subst e
  exact h

theorem WriteOk.ofFault {base s : State} {d : WriteEnd} {x0 : Nat} (e : d = .fault x0 s) (h : WriteOk base d) :
    Evolves base s := by
  subst e
  exact h

theorem tauRequest_evolves {base s : State} (ev : Evolves base s) (k : Nat) (t : Nat) :
    Evolves base (tauRequest k t s).2 := by
  unfold tauRequest
  repeat' first
    | with_reducible assumption | (intro)
    | with_reducible apply State.incSat_evolves | with_reducible apply State.setTun_evolves
    | split | (dsimp only; split)
    | dsimp only

theorem seqFault_evolves {base s : State} (ev : Evolves base s) (k : Nat) (code : Nat) (op : Nat) (cyc : Nat) (t : Nat) :
    Evolves base (seqFault k code op cyc t s) := by
  unfold seqFault
  repeat' first
    | with_reducible assumption | (intro)
    | with_reducible apply faultAt_evolves
    | split | (dsimp only; split)

theorem tryWrite_evolves {base s : State} (ev : Evolves base s) (k : Nat) (w : HeldWrite) (t : Nat) :
    WriteOk base (tryWrite k w t s) := by
  unfold tryWrite
  repeat' first
    | with_reducible assumption | (intro)
    | with_reducible apply advanceTo_evolves | with_reducible apply advCursor_evolves
    | with_reducible apply noteSlack_evolves | with_reducible apply putEntry_evolves | with_reducible apply Evolves.ite
    | with_reducible apply WriteOk.written
    | with_reducible apply WriteOk.full
    | with_reducible apply WriteOk.fault
    | with_reducible apply WriteOk.ite
    | split | (dsimp only; split)
    | refine Evolves.fst (by with_reducible assumption) ?_ | refine Evolves.snd (by with_reducible assumption) ?_

theorem teqFullTrap_evolves {base s : State} (ev : Evolves base s) (k : Nat) (op : Nat) (w : HeldWrite) (j : Nat) (t :
    Nat) :
    Evolves base (teqFullTrap k op w j t s) := by
  unfold teqFullTrap
  repeat' first
    | with_reducible assumption | (intro)
    | with_reducible apply modMicro_evolves | with_reducible apply State.incSat_evolves
    | with_reducible apply stallSeq_evolves | with_reducible apply ruleShadow_evolves
    | with_reducible apply trapBegin_evolves | with_reducible apply Evolves.ite
    | split | (dsimp only; split)

theorem writeEntry_evolves {base s : State} (ev : Evolves base s) (k : Nat) (op : Nat) (cyc : Nat) (w : HeldWrite) (t :
    Nat) :
    Evolves base (writeEntry k op cyc w t s) := by
  unfold writeEntry
  repeat' first
    | with_reducible assumption | (intro)
    | with_reducible apply seqFault_evolves | with_reducible apply tryWrite_evolves
    | with_reducible apply teqFullTrap_evolves | with_reducible apply retire_evolves
    | refine WriteOk.ofWritten (by with_reducible assumption) ?_
    | refine WriteOk.ofFull (by with_reducible assumption) ?_
    | refine WriteOk.ofFault (by with_reducible assumption) ?_
    | split | (dsimp only; split)
    | refine Evolves.fst (by with_reducible assumption) ?_ | refine Evolves.snd (by with_reducible assumption) ?_

theorem entryInstr_evolves {base s : State} (ev : Evolves base s) (op : Nat) (k : Nat) (t : Nat) (ok : Bool) (w :
    HeldWrite) :
    Evolves base (entryInstr op k t ok w s) := by
  unfold entryInstr
  repeat' first
    | with_reducible assumption | (intro)
    | with_reducible apply seqFault_evolves | with_reducible apply writeEntry_evolves | with_reducible apply Evolves.ite
    | split | (dsimp only; split)

end Sys2Proof.Machine
end

