-- ==== Sys2Proof/Laws/EvFlags.lean ====
section
/-! SUPPORT. What the operations of Machine/Flags.lean keep (Evolves). -/

namespace Sys2Proof.Machine

theorem setFlags_evolves {base s : State} (ev : Evolves base s) (k : Nat) (o : AluOut) :
    Evolves base (setFlags k o s) := by
  unfold setFlags
  repeat' first
    | with_reducible assumption | (intro)
    | with_reducible apply State.modSeq_evolves
    | with_reducible apply Evolves.getD
    | split | (dsimp only; split)

theorem alu_evolves {base s : State} (ev : Evolves base s) (op : Nat) (k : Nat) (w : Nat) :
    Evolves base (alu op k w s) := by
  unfold alu
  repeat' first
    | with_reducible assumption | (intro)
    | with_reducible apply setFlags_evolves | with_reducible apply setGreg_evolves | with_reducible apply Evolves.ite
    | split | (dsimp only; split)

end Sys2Proof.Machine
end

