-- ==== Sys2Proof/Laws/EvDataOps.lean ====
section
/-! SUPPORT. What the operations of Machine/DataOps.lean keep (Evolves). -/

namespace Sys2Proof.Machine

theorem latchHi_evolves {base s : State} (ev : Evolves base s) (k : Nat) (a : Nat) (t : Nat) :
    Evolves base (latchHi k a t s) := by
  unfold latchHi
  repeat' first
    | with_reducible assumption | (intro)
    | with_reducible apply State.modSeq_evolves | with_reducible apply Evolves.ite
    | split | (dsimp only; split)

end Sys2Proof.Machine
end

