-- ==== Sys2Proof/Laws/EvFlowOps.lean ====
section
/-! SUPPORT. What the operations of Machine/FlowOps.lean keep (Evolves). -/

namespace Sys2Proof.Machine

theorem usTimeout_evolves {base s : State} (ev : Evolves base s) (k : Nat) (code : Nat) (us : Nat) :
    Evolves base (usTimeout k code us s) := by
  unfold usTimeout
  repeat' first
    | with_reducible assumption | (intro)
    | with_reducible apply timeoutFault_evolves | with_reducible apply Evolves.ite
    | split | (dsimp only; split)

theorem pushItem_evolves {base s : State} (ev : Evolves base s) (k : Nat) (it : StackItem) :
    Evolves base (pushItem k it s) := by
  unfold pushItem
  repeat' first
    | with_reducible assumption | (intro)
    | with_reducible apply State.modSeq_evolves
    | split | (dsimp only; split)

theorem catchUp_evolves {base s : State} (ev : Evolves base s) (k : Nat) (lead : Nat) (t : Nat) (on : Bool) :
    Evolves base (catchUp k lead t on s) := by
  unfold catchUp
  repeat' first
    | with_reducible assumption | (intro)
    | with_reducible apply raiseCursor_evolves | with_reducible apply Evolves.ite
    | split | (dsimp only; split)

theorem brrFinish_evolves {base s : State} (ev : Evolves base s) (k : Nat) (w : Nat) (o : BrrOutcome) (t : Nat) :
    Evolves base (brrFinish k w o t s) := by
  unfold brrFinish
  repeat' first
    | with_reducible assumption | (intro)
    | with_reducible apply modMicro_evolves | with_reducible apply State.incSat_evolves
    | with_reducible apply advanceTo_evolves | with_reducible apply seqFault_evolves
    | with_reducible apply catchUp_evolves | with_reducible apply State.modSeq_evolves
    | with_reducible apply retire_evolves | with_reducible apply branchTo_evolves | with_reducible apply Evolves.ite
    | split | (dsimp only; split)
    | refine Evolves.fst (by with_reducible assumption) ?_ | refine Evolves.snd (by with_reducible assumption) ?_

end Sys2Proof.Machine
end

