-- ==== Sys2Proof/Laws/EvShotOps.lean ====
section
/-! SUPPORT. What the operations of Machine/ShotOps.lean keep (Evolves). -/

namespace Sys2Proof.Machine

theorem openShot_evolves {base s : State} (ev : Evolves base s) (k : Nat) (t : Nat) :
    Evolves base (openShot k t s) := by
  unfold openShot
  repeat' first
    | with_reducible assumption | (intro)
    | with_reducible apply meterBegin_evolves | with_reducible apply State.inc_evolves
    | with_reducible apply meterRelease_evolves | with_reducible apply advCursor_evolves
    | with_reducible apply State.modSeq_evolves | with_reducible apply Evolves.ite
    | split | (dsimp only; split)

theorem shotPass_evolves {base s : State} (ev : Evolves base s) (k : Nat) (t : Nat) :
    Evolves base (shotPass k t s) := by
  unfold shotPass
  repeat' first
    | with_reducible assumption | (intro)
    | with_reducible apply microDone_evolves | with_reducible apply openShot_evolves
    | with_reducible apply advanceTo_evolves | with_reducible apply retire_evolves | with_reducible apply Evolves.ite
    | split | (dsimp only; split)

theorem creditCheck_evolves {base s : State} (ev : Evolves base s) (k : Nat) (t : Nat) :
    Evolves base (creditCheck k t s) := by
  unfold creditCheck
  repeat' first
    | with_reducible assumption | (intro)
    | with_reducible apply microFault_evolves | with_reducible apply shotPass_evolves
    | with_reducible apply stallSeq_evolves | with_reducible apply meterReserve_evolves
    | with_reducible apply ruleShadow_evolves | with_reducible apply State.modSeq_evolves
    | with_reducible apply trapBegin_evolves | with_reducible apply Evolves.ite
    | split | (dsimp only; split)

theorem ringCheck_evolves {base s : State} (ev : Evolves base s) (k : Nat) (t : Nat) :
    Evolves base (ringCheck k t s) := by
  unfold ringCheck
  repeat' first
    | with_reducible assumption | (intro)
    | with_reducible apply stallSeq_evolves | with_reducible apply creditCheck_evolves | with_reducible apply Evolves.ite
    | split | (dsimp only; split)

theorem kilnCheck_evolves {base s : State} (ev : Evolves base s) (k : Nat) (t : Nat) :
    Evolves base (kilnCheck k t s) := by
  unfold kilnCheck
  repeat' first
    | with_reducible assumption | (intro)
    | with_reducible apply stallSeq_evolves | with_reducible apply ringCheck_evolves | with_reducible apply Evolves.ite
    | split | (dsimp only; split)

theorem shotChecks_evolves {base s : State} (ev : Evolves base s) (k : Nat) (t : Nat) :
    Evolves base (shotChecks k t s) := by
  unfold shotChecks
  repeat' first
    | with_reducible assumption | (intro)
    | with_reducible apply setSeqState_evolves | with_reducible apply kilnCheck_evolves
    | with_reducible apply State.modSeq_evolves | with_reducible apply Evolves.ite
    | split | (dsimp only; split)

theorem closeShot_evolves {base s : State} (ev : Evolves base s) (k : Nat) :
    Evolves base (closeShot k s) := by
  unfold closeShot
  repeat' first
    | with_reducible assumption | (intro)
    | with_reducible apply State.modSeq_evolves
    | split | (dsimp only; split)

theorem signal_evolves {base s : State} (ev : Evolves base s) (q : Nat) (v : Nat) (t : Nat) :
    Evolves base (signal q v t s).2 := by
  unfold signal
  repeat' first
    | with_reducible assumption | (intro)
    | with_reducible apply txIngress_evolves | with_reducible apply State.append_evolves
    | with_reducible apply State.noteEmpty_evolves | with_reducible apply Evolves.ite
    | with_reducible apply Evolves.ite_snd
    | split | (dsimp only; split)
    | refine Evolves.fst (by with_reducible assumption) ?_ | refine Evolves.snd (by with_reducible assumption) ?_
    | dsimp only

theorem signalAt_evolves {base s : State} (ev : Evolves base s) (k : Nat) (q : Nat) (v : Nat) (t : Nat) (drop : Bool) :
    Evolves base (signalAt k q v t drop s).2 := by
  unfold signalAt
  repeat' first
    | with_reducible assumption | (intro)
    | with_reducible apply signal_evolves | with_reducible apply State.modSeq_evolves
    | with_reducible apply State.countDrop_evolves | with_reducible apply Evolves.ite
    | with_reducible apply Evolves.ite_snd
    | split | (dsimp only; split)
    | refine Evolves.fst (by with_reducible assumption) ?_ | refine Evolves.snd (by with_reducible assumption) ?_
    | dsimp only

theorem takeMsg_evolves {base s : State} (ev : Evolves base s) (k : Nat) (w : Nat) (t : Nat) (it : Item) :
    Evolves base (takeMsg k w t it s) := by
  unfold takeMsg
  repeat' first
    | with_reducible assumption | (intro)
    | with_reducible apply modMicro_evolves | with_reducible apply advanceTo_evolves
    | with_reducible apply setGreg_evolves | with_reducible apply catchUp_evolves
    | with_reducible apply State.popHead_evolves | with_reducible apply retire_evolves
    | split | (dsimp only; split)

end Sys2Proof.Machine
end

