-- ==== Sys2Proof/Laws/EvMicroOps.lean ====
section
/-! SUPPORT. What the operations of Machine/MicroOps.lean keep (Evolves). -/

namespace Sys2Proof.Machine

/-- A way a micro-operation ends whose state evolves. -/
def EndOk (base : State) (e : MicroEnd) : Prop :=
  match e with
  | .done s => Evolves base s
  | .jump _ s => Evolves base s
  | .retire s => Evolves base s
  | .stall _ s => Evolves base s
  | .teqFull _ _ s => Evolves base s
  | .shot s => Evolves base s
  | .back s => Evolves base s
  | .fault _ s => Evolves base s

theorem EndOk.ite {base : State} {c : Prop} [Decidable c] {d e : MicroEnd} (h : EndOk base d) (k : EndOk base e) :
    EndOk base (if c then d else e) := by
  split
  · exact h
  · exact k

theorem EndOk.done {base s : State} (h : Evolves base s) : EndOk base (.done s) := h
theorem EndOk.jump {base s : State} {x0 : Nat} (h : Evolves base s) : EndOk base (.jump x0 s) := h
theorem EndOk.retire {base s : State} (h : Evolves base s) : EndOk base (.retire s) := h
theorem EndOk.stall {base s : State} {x0 : Stall} (h : Evolves base s) : EndOk base (.stall x0 s) := h
theorem EndOk.teqFull {base s : State} {x0 : HeldWrite} {x1 : Nat} (h : Evolves base s) : EndOk base (.teqFull x0 x1 s) := h
theorem EndOk.shot {base s : State} (h : Evolves base s) : EndOk base (.shot s) := h
theorem EndOk.back {base s : State} (h : Evolves base s) : EndOk base (.back s) := h
theorem EndOk.fault {base s : State} {x0 : Nat} (h : Evolves base s) : EndOk base (.fault x0 s) := h

theorem EndOk.ofDone {base s : State} {d : MicroEnd} (e : d = .done s) (h : EndOk base d) :
    Evolves base s := by
  subst e
  exact h

theorem EndOk.ofJump {base s : State} {d : MicroEnd} {x0 : Nat} (e : d = .jump x0 s) (h : EndOk base d) :
    Evolves base s := by
  subst e
  exact h

theorem EndOk.ofRetire {base s : State} {d : MicroEnd} (e : d = .retire s) (h : EndOk base d) :
    Evolves base s := by
  subst e
  exact h

theorem EndOk.ofStall {base s : State} {d : MicroEnd} {x0 : Stall} (e : d = .stall x0 s) (h : EndOk base d) :
    Evolves base s := by
  subst e
  exact h

theorem EndOk.ofTeqFull {base s : State} {d : MicroEnd} {x0 : HeldWrite} {x1 : Nat} (e : d = .teqFull x0 x1 s) (h : EndOk base d) :
    Evolves base s := by
  subst e
  exact h

theorem EndOk.ofShot {base s : State} {d : MicroEnd} (e : d = .shot s) (h : EndOk base d) :
    Evolves base s := by
  subst e
  exact h

theorem EndOk.ofBack {base s : State} {d : MicroEnd} (e : d = .back s) (h : EndOk base d) :
    Evolves base s := by
  subst e
  exact h

theorem EndOk.ofFault {base s : State} {d : MicroEnd} {x0 : Nat} (e : d = .fault x0 s) (h : EndOk base d) :
    Evolves base s := by
  subst e
  exact h

theorem selWrite_evolves {base s t : State} {k : Nat} {x : Nat} {v : Nat} (e : selWrite k x v s = some t)
    (ev : Evolves base s) : Evolves base t := by
  unfold selWrite at e
  try dsimp only at e
  repeat' split at e
  all_goals try cases e
  all_goals
    repeat' first
      | with_reducible assumption | (intro)
      | with_reducible apply modMicro_evolves | with_reducible apply setGreg_evolves | with_reducible apply Evolves.ite
      | split | (dsimp only; split)
      | refine Evolves.fst (by with_reducible assumption) ?_ | refine Evolves.snd (by with_reducible assumption) ?_

theorem uWrite_evolves {base s : State} (ev : Evolves base s) (k : Nat) (w : Nat) (v : Nat) (f : Micro → Micro) :
    EndOk base (uWrite k w v f s) := by
  unfold uWrite
  repeat' first
    | with_reducible assumption | (intro)
    | with_reducible apply modMicro_evolves | with_reducible apply Evolves.ite
    | with_reducible apply EndOk.done
    | with_reducible apply EndOk.jump
    | with_reducible apply EndOk.retire
    | with_reducible apply EndOk.stall
    | with_reducible apply EndOk.teqFull
    | with_reducible apply EndOk.shot
    | with_reducible apply EndOk.back
    | with_reducible apply EndOk.fault
    | with_reducible apply EndOk.ite
    | refine selWrite_evolves (by with_reducible assumption) ?_
    | split | (dsimp only; split)
    | refine Evolves.fst (by with_reducible assumption) ?_ | refine Evolves.snd (by with_reducible assumption) ?_

theorem uShift_evolves {base s : State} (ev : Evolves base s) (k : Nat) (w : Nat) (o : AluOut) :
    EndOk base (uShift k w o s) := by
  unfold uShift
  repeat' first
    | with_reducible assumption | (intro)
    | with_reducible apply uWrite_evolves | with_reducible apply freeWords_evolves
    | with_reducible apply EndOk.done
    | with_reducible apply EndOk.jump
    | with_reducible apply EndOk.retire
    | with_reducible apply EndOk.stall
    | with_reducible apply EndOk.teqFull
    | with_reducible apply EndOk.shot
    | with_reducible apply EndOk.back
    | with_reducible apply EndOk.fault
    | with_reducible apply EndOk.ite
    | split | (dsimp only; split)

theorem uEtgt_evolves {base s : State} (ev : Evolves base s) (k : Nat) (w : Nat) (kind : Nat) :
    EndOk base (uEtgt k w kind s) := by
  unfold uEtgt
  repeat' first
    | with_reducible assumption | (intro)
    | with_reducible apply modMicro_evolves | with_reducible apply Evolves.ite
    | with_reducible apply EndOk.done
    | with_reducible apply EndOk.jump
    | with_reducible apply EndOk.retire
    | with_reducible apply EndOk.stall
    | with_reducible apply EndOk.teqFull
    | with_reducible apply EndOk.shot
    | with_reducible apply EndOk.back
    | with_reducible apply EndOk.fault
    | with_reducible apply EndOk.ite
    | split | (dsimp only; split)
    | refine Evolves.fst (by with_reducible assumption) ?_ | refine Evolves.snd (by with_reducible assumption) ?_

theorem uTeqw_evolves {base s : State} (ev : Evolves base s) (k : Nat) (w : Nat) (a : Nat) (adv : Nat) (t : Nat) (copy :
    Bool) :
    EndOk base (uTeqw k w a adv t copy s) := by
  unfold uTeqw
  repeat' first
    | with_reducible assumption | (intro)
    | with_reducible apply modMicro_evolves | with_reducible apply tryWrite_evolves | with_reducible apply Evolves.ite
    | refine WriteOk.ofWritten (by with_reducible assumption) ?_
    | refine WriteOk.ofFull (by with_reducible assumption) ?_
    | refine WriteOk.ofFault (by with_reducible assumption) ?_
    | with_reducible apply EndOk.done
    | with_reducible apply EndOk.jump
    | with_reducible apply EndOk.retire
    | with_reducible apply EndOk.stall
    | with_reducible apply EndOk.teqFull
    | with_reducible apply EndOk.shot
    | with_reducible apply EndOk.back
    | with_reducible apply EndOk.fault
    | with_reducible apply EndOk.ite
    | split | (dsimp only; split)
    | refine Evolves.fst (by with_reducible assumption) ?_ | refine Evolves.snd (by with_reducible assumption) ?_

theorem uWres_evolves {base s : State} (ev : Evolves base s) (k : Nat) (w : Nat) (t : Nat) :
    EndOk base (uWres k w t s) := by
  unfold uWres
  repeat' first
    | with_reducible assumption | (intro)
    | with_reducible apply modMicro_evolves | with_reducible apply Evolves.ite
    | with_reducible apply EndOk.done
    | with_reducible apply EndOk.jump
    | with_reducible apply EndOk.retire
    | with_reducible apply EndOk.stall
    | with_reducible apply EndOk.teqFull
    | with_reducible apply EndOk.shot
    | with_reducible apply EndOk.back
    | with_reducible apply EndOk.fault
    | with_reducible apply EndOk.ite
    | split | (dsimp only; split)
    | refine Evolves.fst (by with_reducible assumption) ?_ | refine Evolves.snd (by with_reducible assumption) ?_

theorem uJump_evolves {base s : State} (ev : Evolves base s) (owner : Bool) (a : Nat) :
    EndOk base (uJump owner a s) := by
  unfold uJump
  repeat' first
    | with_reducible assumption | (intro)
    | with_reducible apply Evolves.ite
    | with_reducible apply EndOk.done
    | with_reducible apply EndOk.jump
    | with_reducible apply EndOk.retire
    | with_reducible apply EndOk.stall
    | with_reducible apply EndOk.teqFull
    | with_reducible apply EndOk.shot
    | with_reducible apply EndOk.back
    | with_reducible apply EndOk.fault
    | with_reducible apply EndOk.ite
    | split | (dsimp only; split)

theorem uTau_evolves {base s : State} (ev : Evolves base s) (k : Nat) (t : Nat) (dest : Nat) (tscl : Bool) (p0 : Nat) (p1
    : Nat) :
    Evolves base (uTau k t dest tscl p0 p1 s) := by
  unfold uTau
  repeat' first
    | with_reducible assumption | (intro)
    | with_reducible apply modMicro_evolves | with_reducible apply State.later_evolves
    | with_reducible apply tauRequest_evolves | with_reducible apply State.modSeq_evolves
    | split | (dsimp only; split)

theorem uExec_evolves {base s : State} (ev : Evolves base s) (k : Nat) (mw : Nat) (w : Nat) (t0 : Nat) (t : Nat) (a :
    Nat) (b : Nat) :
    EndOk base (uExec k mw w t0 t a b s) := by
  unfold uExec
  extract_lets m imm d owner uop keep
  generalize uop = y
  split
  all_goals
    repeat' first
      | with_reducible assumption | (intro)
      | with_reducible apply openShot_evolves | with_reducible apply modMicro_evolves
      | with_reducible apply pushItem_evolves | with_reducible apply latchHi_evolves | with_reducible apply alu_evolves
      | with_reducible apply setGreg_evolves | with_reducible apply advCursor_evolves
      | with_reducible apply raiseCursor_evolves | with_reducible apply uWrite_evolves
      | with_reducible apply closeShot_evolves | with_reducible apply State.setCal_evolves
      | with_reducible apply uShift_evolves | with_reducible apply State.wr_evolves
      | with_reducible apply signalAt_evolves | with_reducible apply State.modSeq_evolves
      | with_reducible apply uEtgt_evolves | with_reducible apply uTeqw_evolves | with_reducible apply uWres_evolves
      | with_reducible apply uJump_evolves | with_reducible apply uTau_evolves | with_reducible apply arrive_evolves
      | with_reducible apply State.popHead_evolves | with_reducible apply Evolves.ite
      | with_reducible apply EndOk.done
      | with_reducible apply EndOk.jump
      | with_reducible apply EndOk.retire
      | with_reducible apply EndOk.stall
      | with_reducible apply EndOk.teqFull
      | with_reducible apply EndOk.shot
      | with_reducible apply EndOk.back
      | with_reducible apply EndOk.fault
      | with_reducible apply EndOk.ite
      | with_reducible apply Evolves.getD
      | refine selWrite_evolves (by with_reducible assumption) ?_
      | split | (dsimp only; split)
      | refine Evolves.fst (by with_reducible assumption) ?_ | refine Evolves.snd (by with_reducible assumption) ?_

theorem uTrap_evolves {base s : State} (ev : Evolves base s) (k : Nat) (n : Nat) (c : Stall) (full : Option Nat) (t : Nat) :
    Evolves base (uTrap k n c full t s) := by
  unfold uTrap
  repeat' first
    | with_reducible assumption | (intro)
    | with_reducible apply microFault_evolves | with_reducible apply stallSeq_evolves
    | with_reducible apply State.modSeq_evolves | with_reducible apply trapBegin_evolves
    | with_reducible apply Evolves.ite
    | split | (dsimp only; split)

theorem uReturn_evolves {base s : State} (ev : Evolves base s) (k : Nat) (t : Nat) :
    Evolves base (uReturn k t s) := by
  unfold uReturn
  repeat' first
    | with_reducible assumption | (intro)
    | with_reducible apply State.set_evolves | with_reducible apply setSeqState_evolves
    | with_reducible apply stallSeq_evolves | with_reducible apply shotChecks_evolves
    | with_reducible apply brrFinish_evolves | with_reducible apply State.modSeq_evolves
    | with_reducible apply writeEntry_evolves
    | split | (dsimp only; split)
    | refine Evolves.fst (by with_reducible assumption) ?_ | refine Evolves.snd (by with_reducible assumption) ?_

theorem microStep_evolves {base s : State} (ev : Evolves base s) (k : Nat) :
    Evolves base (microStep k s).2 := by
  unfold microStep
  repeat' first
    | with_reducible assumption | (intro)
    | with_reducible apply modMicro_evolves | with_reducible apply microFault_evolves
    | with_reducible apply microRetire_evolves | with_reducible apply microGoto_evolves
    | with_reducible apply State.incSat_evolves | with_reducible apply stallSeq_evolves
    | with_reducible apply microAfter_evolves | with_reducible apply advanceTo_evolves
    | with_reducible apply shotChecks_evolves | with_reducible apply State.modSeq_evolves
    | with_reducible apply uExec_evolves | with_reducible apply uTrap_evolves | with_reducible apply uReturn_evolves
    | with_reducible apply Evolves.ite | with_reducible apply Evolves.ite_snd
    | refine EndOk.ofDone (by with_reducible assumption) ?_
    | refine EndOk.ofJump (by with_reducible assumption) ?_
    | refine EndOk.ofRetire (by with_reducible assumption) ?_
    | refine EndOk.ofStall (by with_reducible assumption) ?_
    | refine EndOk.ofTeqFull (by with_reducible assumption) ?_
    | refine EndOk.ofShot (by with_reducible assumption) ?_
    | refine EndOk.ofBack (by with_reducible assumption) ?_
    | refine EndOk.ofFault (by with_reducible assumption) ?_
    | split | (dsimp only; split)
    | refine Evolves.fst (by with_reducible assumption) ?_ | refine Evolves.snd (by with_reducible assumption) ?_
    | dsimp only

theorem microRun_evolves {base x2 : State} (ev : Evolves base x2) (x0 : Nat) (x1 : Nat) :
    Evolves base (microRun x0 x1 x2) := by
  induction x0 generalizing x2 x1 with
  | zero =>
    unfold microRun
    repeat' first
      | with_reducible assumption | (intro)
      | with_reducible apply microStep_evolves | with_reducible apply Evolves.ite
      | split | (dsimp only; split)
      | refine Evolves.fst (by with_reducible assumption) ?_ | refine Evolves.snd (by with_reducible assumption) ?_
  | succ fuel ih =>
    unfold microRun
    repeat' first
      | with_reducible apply ih
      | with_reducible assumption | (intro)
      | with_reducible apply microStep_evolves | with_reducible apply Evolves.ite
      | split | (dsimp only; split)
      | refine Evolves.fst (by with_reducible assumption) ?_ | refine Evolves.snd (by with_reducible assumption) ?_

theorem microGo_evolves {base s : State} (ev : Evolves base s) (k : Nat) :
    Evolves base (microGo k s) := by
  unfold microGo
  repeat' first
    | with_reducible assumption | (intro)
    | with_reducible apply advanceTo_evolves | with_reducible apply microRun_evolves
    | split | (dsimp only; split)
    | refine Evolves.fst (by with_reducible assumption) ?_ | refine Evolves.snd (by with_reducible assumption) ?_

theorem waitCleared_evolves {base s : State} (ev : Evolves base s) (k : Nat) (t : Nat) :
    Evolves base (waitCleared k t s) := by
  unfold waitCleared
  repeat' first
    | with_reducible assumption | (intro)
    | with_reducible apply microDone_evolves | with_reducible apply unstall_evolves | with_reducible apply uReturn_evolves
    | with_reducible apply microGo_evolves | with_reducible apply Evolves.ite
    | split | (dsimp only; split)

end Sys2Proof.Machine
end

