-- ==== Sys2Proof/Laws/EvInstr.lean ====
section
/-! SUPPORT. What the operations of Machine/Instr.lean keep (Evolves). -/

namespace Sys2Proof.Machine

theorem pcRange_evolves {base s : State} (ev : Evolves base s) (k : Nat) (t : Nat) :
    Evolves base (pcRange k t s) := by
  unfold pcRange
  repeat' first
    | with_reducible assumption | (intro)
    | with_reducible apply faultAt_evolves
    | split | (dsimp only; split)

theorem opens_evolves {base s : State} (ev : Evolves base s) (op : Nat) (k : Nat) :
    Evolves base (opens op k s) := by
  unfold opens
  repeat' first
    | with_reducible assumption | (intro)
    | with_reducible apply modMicro_evolves
    | split | (dsimp only; split)

theorem instr_evolves {base s : State} (ev : Evolves base s) (op : Nat) (k : Nat) (body : Nat → Nat → State → State)
    (hbody : ∀ y0 y1 t, Evolves base t → Evolves base (body y0 y1 t)) :
    Evolves base (instr op k s body) := by
  unfold instr
  repeat' first
    | with_reducible assumption | (intro)
    | with_reducible apply hbody | with_reducible apply pcRange_evolves | with_reducible apply opens_evolves
    | with_reducible apply advanceTo_evolves | with_reducible apply microBegin_evolves
    | with_reducible apply retire_evolves | with_reducible apply microGo_evolves | with_reducible apply Evolves.ite
    | split | (dsimp only; split)

end Sys2Proof.Machine
end

