-- ==== Sys2Proof/Laws/EvDataInstrs.lean ====
section
/-! SUPPORT. What the operations of Machine/DataInstrs.lean keep (Evolves). -/

namespace Sys2Proof.Machine

theorem aluBody_evolves {base s : State} (ev : Evolves base s) (op : Nat) (k : Nat) (w : Nat) (t : Nat) :
    Evolves base (aluBody op k w t s) := by
  unfold aluBody
  repeat' first
    | with_reducible assumption | (intro)
    | with_reducible apply advanceTo_evolves | with_reducible apply alu_evolves | with_reducible apply retire_evolves
    | split | (dsimp only; split)

theorem aluInstr_evolves {base s : State} (ev : Evolves base s) (op : Nat) (k : Nat) :
    Evolves base (aluInstr op k s) := by
  unfold aluInstr
  repeat' first
    | with_reducible assumption | (intro)
    | with_reducible apply aluBody_evolves | with_reducible apply instr_evolves
    | split | (dsimp only; split)

theorem execAdd_evolves (k : Fin 512) (s : State) :
    Answers s (execAdd k s) := by
  unfold execAdd
  repeat' first
    | with_reducible assumption | (intro)
    | with_reducible exact Evolves.refl _ | with_reducible apply Answers.next | with_reducible apply Answers.ite
    | with_reducible apply aluInstr_evolves
    | split | (dsimp only; split)

theorem execSub_evolves (k : Fin 512) (s : State) :
    Answers s (execSub k s) := by
  unfold execSub
  repeat' first
    | with_reducible assumption | (intro)
    | with_reducible exact Evolves.refl _ | with_reducible apply Answers.next | with_reducible apply Answers.ite
    | with_reducible apply aluInstr_evolves
    | split | (dsimp only; split)

theorem execAnd_evolves (k : Fin 512) (s : State) :
    Answers s (execAnd k s) := by
  unfold execAnd
  repeat' first
    | with_reducible assumption | (intro)
    | with_reducible exact Evolves.refl _ | with_reducible apply Answers.next | with_reducible apply Answers.ite
    | with_reducible apply aluInstr_evolves
    | split | (dsimp only; split)

theorem execOr_evolves (k : Fin 512) (s : State) :
    Answers s (execOr k s) := by
  unfold execOr
  repeat' first
    | with_reducible assumption | (intro)
    | with_reducible exact Evolves.refl _ | with_reducible apply Answers.next | with_reducible apply Answers.ite
    | with_reducible apply aluInstr_evolves
    | split | (dsimp only; split)

theorem execXor_evolves (k : Fin 512) (s : State) :
    Answers s (execXor k s) := by
  unfold execXor
  repeat' first
    | with_reducible assumption | (intro)
    | with_reducible exact Evolves.refl _ | with_reducible apply Answers.next | with_reducible apply Answers.ite
    | with_reducible apply aluInstr_evolves
    | split | (dsimp only; split)

theorem execShl_evolves (k : Fin 512) (s : State) :
    Answers s (execShl k s) := by
  unfold execShl
  repeat' first
    | with_reducible assumption | (intro)
    | with_reducible exact Evolves.refl _ | with_reducible apply Answers.next | with_reducible apply Answers.ite
    | with_reducible apply aluInstr_evolves
    | split | (dsimp only; split)

theorem execShr_evolves (k : Fin 512) (s : State) :
    Answers s (execShr k s) := by
  unfold execShr
  repeat' first
    | with_reducible assumption | (intro)
    | with_reducible exact Evolves.refl _ | with_reducible apply Answers.next | with_reducible apply Answers.ite
    | with_reducible apply aluInstr_evolves
    | split | (dsimp only; split)

theorem execAsr_evolves (k : Fin 512) (s : State) :
    Answers s (execAsr k s) := by
  unfold execAsr
  repeat' first
    | with_reducible assumption | (intro)
    | with_reducible exact Evolves.refl _ | with_reducible apply Answers.next | with_reducible apply Answers.ite
    | with_reducible apply aluInstr_evolves
    | split | (dsimp only; split)

theorem execMov_evolves (k : Fin 512) (s : State) :
    Answers s (execMov k s) := by
  unfold execMov
  repeat' first
    | with_reducible assumption | (intro)
    | with_reducible exact Evolves.refl _ | with_reducible apply Answers.next | with_reducible apply Answers.ite
    | with_reducible apply aluInstr_evolves
    | split | (dsimp only; split)

theorem execCmp_evolves (k : Fin 512) (s : State) :
    Answers s (execCmp k s) := by
  unfold execCmp
  repeat' first
    | with_reducible assumption | (intro)
    | with_reducible exact Evolves.refl _ | with_reducible apply Answers.next | with_reducible apply Answers.ite
    | with_reducible apply aluInstr_evolves
    | split | (dsimp only; split)

theorem mul_evolves {base s : State} (ev : Evolves base s) (k : Nat) (w : Nat) (t : Nat) :
    Evolves base (mul k w t s) := by
  unfold mul
  repeat' first
    | with_reducible assumption | (intro)
    | with_reducible apply advanceTo_evolves | with_reducible apply tauRequest_evolves | with_reducible apply alu_evolves
    | with_reducible apply retire_evolves
    | split | (dsimp only; split)

theorem execMul_evolves (k : Fin 512) (s : State) :
    Answers s (execMul k s) := by
  unfold execMul
  repeat' first
    | with_reducible assumption | (intro)
    | with_reducible exact Evolves.refl _ | with_reducible apply Answers.next | with_reducible apply Answers.ite
    | with_reducible apply instr_evolves | with_reducible apply mul_evolves
    | split | (dsimp only; split)

theorem load_evolves {base s : State} (ev : Evolves base s) (k : Nat) (w : Nat) (t : Nat) :
    Evolves base (load k w t s) := by
  unfold load
  repeat' first
    | with_reducible assumption | (intro)
    | with_reducible apply latchHi_evolves | with_reducible apply advanceTo_evolves | with_reducible apply setGreg_evolves
    | with_reducible apply seqFault_evolves | with_reducible apply retire_evolves | with_reducible apply Evolves.ite
    | split | (dsimp only; split)
    | refine Evolves.fst (by with_reducible assumption) ?_ | refine Evolves.snd (by with_reducible assumption) ?_

theorem execLd_evolves (k : Fin 512) (s : State) :
    Answers s (execLd k s) := by
  unfold execLd
  repeat' first
    | with_reducible assumption | (intro)
    | with_reducible exact Evolves.refl _ | with_reducible apply Answers.next | with_reducible apply Answers.ite
    | with_reducible apply instr_evolves | with_reducible apply load_evolves
    | split | (dsimp only; split)

theorem store_evolves {base s : State} (ev : Evolves base s) (k : Nat) (w : Nat) (t : Nat) :
    Evolves base (store k w t s) := by
  unfold store
  repeat' first
    | with_reducible assumption | (intro)
    | with_reducible apply advanceTo_evolves | with_reducible apply seqFault_evolves
    | with_reducible apply State.wr_evolves | with_reducible apply retire_evolves | with_reducible apply Evolves.ite
    | split | (dsimp only; split)

theorem execSt_evolves (k : Fin 512) (s : State) :
    Answers s (execSt k s) := by
  unfold execSt
  repeat' first
    | with_reducible assumption | (intro)
    | with_reducible exact Evolves.refl _ | with_reducible apply Answers.next | with_reducible apply Answers.ite
    | with_reducible apply instr_evolves | with_reducible apply store_evolves
    | split | (dsimp only; split)

end Sys2Proof.Machine
end

