-- ==== Sys2Proof/Laws/EvEntryInstrs.lean ====
section
/-! SUPPORT. What the operations of Machine/EntryInstrs.lean keep (Evolves). -/

namespace Sys2Proof.Machine

theorem playStaged_evolves {base s : State} (ev : Evolves base s) (k : Nat) (w : HeldWrite) :
    Evolves base (playStaged k w s) := by
  unfold playStaged
  repeat' first
    | with_reducible assumption | (intro)
    | with_reducible apply modMicro_evolves
    | split | (dsimp only; split)

theorem play_evolves {base s : State} (ev : Evolves base s) (k : Nat) (w : Nat) (t : Nat) :
    Evolves base (play k w t s) := by
  unfold play
  repeat' first
    | with_reducible assumption | (intro)
    | with_reducible apply playStaged_evolves | with_reducible apply advanceTo_evolves
    | with_reducible apply tauRequest_evolves | with_reducible apply seqFault_evolves
    | with_reducible apply writeEntry_evolves | with_reducible apply Evolves.ite
    | split | (dsimp only; split)

theorem execPlay_evolves (k : Fin 512) (s : State) :
    Answers s (execPlay k s) := by
  unfold execPlay
  repeat' first
    | with_reducible assumption | (intro)
    | with_reducible exact Evolves.refl _ | with_reducible apply Answers.next | with_reducible apply Answers.ite
    | with_reducible apply play_evolves | with_reducible apply instr_evolves
    | split | (dsimp only; split)

theorem playz_evolves {base s : State} (ev : Evolves base s) (k : Nat) (w : Nat) (t : Nat) :
    Evolves base (playz k w t s) := by
  unfold playz
  repeat' first
    | with_reducible assumption | (intro)
    | with_reducible apply entryInstr_evolves | with_reducible apply Evolves.ite
    | split | (dsimp only; split)

theorem execPlayz_evolves (k : Fin 512) (s : State) :
    Answers s (execPlayz k s) := by
  unfold execPlayz
  repeat' first
    | with_reducible assumption | (intro)
    | with_reducible exact Evolves.refl _ | with_reducible apply Answers.next | with_reducible apply Answers.ite
    | with_reducible apply instr_evolves | with_reducible apply playz_evolves
    | split | (dsimp only; split)

theorem setbias_evolves {base s : State} (ev : Evolves base s) (k : Nat) (w : Nat) (t : Nat) :
    Evolves base (setbias k w t s) := by
  unfold setbias
  repeat' first
    | with_reducible assumption | (intro)
    | with_reducible apply entryInstr_evolves
    | split | (dsimp only; split)

theorem execSetbias_evolves (k : Fin 512) (s : State) :
    Answers s (execSetbias k s) := by
  unfold execSetbias
  repeat' first
    | with_reducible assumption | (intro)
    | with_reducible exact Evolves.refl _ | with_reducible apply Answers.next | with_reducible apply Answers.ite
    | with_reducible apply instr_evolves | with_reducible apply setbias_evolves
    | split | (dsimp only; split)

theorem rampbias_evolves {base s : State} (ev : Evolves base s) (k : Nat) (w : Nat) (t : Nat) :
    Evolves base (rampbias k w t s) := by
  unfold rampbias
  repeat' first
    | with_reducible assumption | (intro)
    | with_reducible apply entryInstr_evolves | with_reducible apply Evolves.ite
    | split | (dsimp only; split)

theorem execRampbias_evolves (k : Fin 512) (s : State) :
    Answers s (execRampbias k s) := by
  unfold execRampbias
  repeat' first
    | with_reducible assumption | (intro)
    | with_reducible exact Evolves.refl _ | with_reducible apply Answers.next | with_reducible apply Answers.ite
    | with_reducible apply instr_evolves | with_reducible apply rampbias_evolves
    | split | (dsimp only; split)

theorem frameInstr_evolves {base s : State} (ev : Evolves base s) (op : Nat) (k : Nat) (w : Nat) (t : Nat) (ok : Bool) (a
    : Nat) (b : Nat) :
    Evolves base (frameInstr op k w t ok a b s) := by
  unfold frameInstr
  repeat' first
    | with_reducible assumption | (intro)
    | with_reducible apply entryInstr_evolves
    | split | (dsimp only; split)

theorem fset_evolves {base s : State} (ev : Evolves base s) (k : Nat) (w : Nat) (t : Nat) :
    Evolves base (fset k w t s) := by
  unfold fset
  repeat' first
    | with_reducible assumption | (intro)
    | with_reducible apply frameInstr_evolves
    | split | (dsimp only; split)

theorem execFset_evolves (k : Fin 512) (s : State) :
    Answers s (execFset k s) := by
  unfold execFset
  repeat' first
    | with_reducible assumption | (intro)
    | with_reducible exact Evolves.refl _ | with_reducible apply Answers.next | with_reducible apply Answers.ite
    | with_reducible apply instr_evolves | with_reducible apply fset_evolves
    | split | (dsimp only; split)

theorem fshift_evolves {base s : State} (ev : Evolves base s) (k : Nat) (w : Nat) (t : Nat) :
    Evolves base (fshift k w t s) := by
  unfold fshift
  repeat' first
    | with_reducible assumption | (intro)
    | with_reducible apply frameInstr_evolves
    | split | (dsimp only; split)

theorem execFshift_evolves (k : Fin 512) (s : State) :
    Answers s (execFshift k s) := by
  unfold execFshift
  repeat' first
    | with_reducible assumption | (intro)
    | with_reducible exact Evolves.refl _ | with_reducible apply Answers.next | with_reducible apply Answers.ite
    | with_reducible apply instr_evolves | with_reducible apply fshift_evolves
    | split | (dsimp only; split)

theorem freset_evolves {base s : State} (ev : Evolves base s) (k : Nat) (w : Nat) (t : Nat) :
    Evolves base (freset k w t s) := by
  unfold freset
  repeat' first
    | with_reducible assumption | (intro)
    | with_reducible apply frameInstr_evolves
    | split | (dsimp only; split)

theorem execFreset_evolves (k : Fin 512) (s : State) :
    Answers s (execFreset k s) := by
  unfold execFreset
  repeat' first
    | with_reducible assumption | (intro)
    | with_reducible exact Evolves.refl _ | with_reducible apply Answers.next | with_reducible apply Answers.ite
    | with_reducible apply instr_evolves | with_reducible apply freset_evolves
    | split | (dsimp only; split)

theorem pframe_evolves {base s : State} (ev : Evolves base s) (k : Nat) (w : Nat) (t : Nat) :
    Evolves base (pframe k w t s) := by
  unfold pframe
  repeat' first
    | with_reducible assumption | (intro)
    | with_reducible apply frameInstr_evolves
    | split | (dsimp only; split)

theorem execPframe_evolves (k : Fin 512) (s : State) :
    Answers s (execPframe k s) := by
  unfold execPframe
  repeat' first
    | with_reducible assumption | (intro)
    | with_reducible exact Evolves.refl _ | with_reducible apply Answers.next | with_reducible apply Answers.ite
    | with_reducible apply instr_evolves | with_reducible apply pframe_evolves
    | split | (dsimp only; split)

theorem measure_evolves {base s : State} (ev : Evolves base s) (k : Nat) (w : Nat) (t : Nat) :
    Evolves base (measure k w t s) := by
  unfold measure
  repeat' first
    | with_reducible assumption | (intro)
    | with_reducible apply entryInstr_evolves | with_reducible apply Evolves.ite
    | split | (dsimp only; split)

theorem execMeasure_evolves (k : Fin 512) (s : State) :
    Answers s (execMeasure k s) := by
  unfold execMeasure
  repeat' first
    | with_reducible assumption | (intro)
    | with_reducible exact Evolves.refl _ | with_reducible apply Answers.next | with_reducible apply Answers.ite
    | with_reducible apply instr_evolves | with_reducible apply measure_evolves
    | split | (dsimp only; split)

theorem acq_evolves {base s : State} (ev : Evolves base s) (k : Nat) (w : Nat) (t : Nat) :
    Evolves base (acq k w t s) := by
  unfold acq
  repeat' first
    | with_reducible assumption | (intro)
    | with_reducible apply entryInstr_evolves
    | split | (dsimp only; split)

theorem execAcq_evolves (k : Fin 512) (s : State) :
    Answers s (execAcq k s) := by
  unfold execAcq
  repeat' first
    | with_reducible assumption | (intro)
    | with_reducible exact Evolves.refl _ | with_reducible apply Answers.next | with_reducible apply Answers.ite
    | with_reducible apply instr_evolves | with_reducible apply acq_evolves
    | split | (dsimp only; split)

end Sys2Proof.Machine
end

