-- ==== Sys2Proof/Laws/EvFlowInstrs.lean ====
section
/-! SUPPORT. What the operations of Machine/FlowInstrs.lean keep (Evolves). -/

namespace Sys2Proof.Machine

theorem nopInstr_evolves {base s : State} (ev : Evolves base s) (k : Nat) (t : Nat) :
    Evolves base (nopInstr k t s) := by
  unfold nopInstr
  repeat' first
    | with_reducible assumption | (intro)
    | with_reducible apply advanceTo_evolves | with_reducible apply retire_evolves
    | split | (dsimp only; split)

theorem execNop_evolves (k : Fin 512) (s : State) :
    Answers s (execNop k s) := by
  unfold execNop
  repeat' first
    | with_reducible assumption | (intro)
    | with_reducible exact Evolves.refl _ | with_reducible apply Answers.next | with_reducible apply Answers.ite
    | with_reducible apply nopInstr_evolves | with_reducible apply instr_evolves
    | split | (dsimp only; split)

theorem haltInstr_evolves {base s : State} (ev : Evolves base s) (k : Nat) (t : Nat) :
    Evolves base (haltInstr k t s) := by
  unfold haltInstr
  repeat' first
    | with_reducible assumption | (intro)
    | with_reducible apply setSeqState_evolves | with_reducible apply advanceTo_evolves
    | with_reducible apply seqFault_evolves | with_reducible apply retire_evolves | with_reducible apply Evolves.ite
    | split | (dsimp only; split)

theorem execHalt_evolves (k : Fin 512) (s : State) :
    Answers s (execHalt k s) := by
  unfold execHalt
  repeat' first
    | with_reducible assumption | (intro)
    | with_reducible exact Evolves.refl _ | with_reducible apply Answers.next | with_reducible apply Answers.ite
    | with_reducible apply haltInstr_evolves | with_reducible apply instr_evolves
    | split | (dsimp only; split)

theorem yieldCal_evolves {base s : State} (ev : Evolves base s) (k : Nat) (w : Nat) (t : Nat) :
    Evolves base (yieldCal k w t s) := by
  unfold yieldCal
  repeat' first
    | with_reducible assumption | (intro)
    | with_reducible apply advanceTo_evolves | with_reducible apply advCursor_evolves
    | with_reducible apply seqFault_evolves | with_reducible apply State.setCal_evolves
    | with_reducible apply retire_evolves | with_reducible apply Evolves.ite
    | split | (dsimp only; split)

theorem execYieldCal_evolves (k : Fin 512) (s : State) :
    Answers s (execYieldCal k s) := by
  unfold execYieldCal
  repeat' first
    | with_reducible assumption | (intro)
    | with_reducible exact Evolves.refl _ | with_reducible apply Answers.next | with_reducible apply Answers.ite
    | with_reducible apply instr_evolves | with_reducible apply yieldCal_evolves
    | split | (dsimp only; split)

theorem wait_evolves {base s : State} (ev : Evolves base s) (k : Nat) (w : Nat) (t : Nat) :
    Evolves base (wait k w t s) := by
  unfold wait
  repeat' first
    | with_reducible assumption | (intro)
    | with_reducible apply advanceTo_evolves | with_reducible apply advCursor_evolves
    | with_reducible apply retire_evolves | with_reducible apply Evolves.ite
    | split | (dsimp only; split)

theorem execWait_evolves (k : Fin 512) (s : State) :
    Answers s (execWait k s) := by
  unfold execWait
  repeat' first
    | with_reducible assumption | (intro)
    | with_reducible exact Evolves.refl _ | with_reducible apply Answers.next | with_reducible apply Answers.ite
    | with_reducible apply instr_evolves | with_reducible apply wait_evolves
    | split | (dsimp only; split)

theorem waituntil_evolves {base s : State} (ev : Evolves base s) (k : Nat) (w : Nat) (t : Nat) :
    Evolves base (waituntil k w t s) := by
  unfold waituntil
  repeat' first
    | with_reducible assumption | (intro)
    | with_reducible apply advanceTo_evolves | with_reducible apply raiseCursor_evolves
    | with_reducible apply seqFault_evolves | with_reducible apply State.modSeq_evolves
    | with_reducible apply retire_evolves
    | split | (dsimp only; split)
    | refine Evolves.fst (by with_reducible assumption) ?_ | refine Evolves.snd (by with_reducible assumption) ?_

theorem execWaituntil_evolves (k : Fin 512) (s : State) :
    Answers s (execWaituntil k s) := by
  unfold execWaituntil
  repeat' first
    | with_reducible assumption | (intro)
    | with_reducible exact Evolves.refl _ | with_reducible apply Answers.next | with_reducible apply Answers.ite
    | with_reducible apply instr_evolves | with_reducible apply waituntil_evolves
    | split | (dsimp only; split)

theorem alignAngle_evolves {base s : State} (ev : Evolves base s) (k : Nat) (w : Nat) (t : Nat) :
    Evolves base (alignAngle k w t s) := by
  unfold alignAngle
  repeat' first
    | with_reducible assumption | (intro)
    | with_reducible apply modMicro_evolves | with_reducible apply State.set_evolves
    | with_reducible apply stallSeq_evolves | with_reducible apply advanceTo_evolves
    | with_reducible apply seqFault_evolves | with_reducible apply retire_evolves | with_reducible apply Evolves.ite
    | split | (dsimp only; split)

theorem execAlignAngle_evolves (k : Fin 512) (s : State) :
    Answers s (execAlignAngle k s) := by
  unfold execAlignAngle
  repeat' first
    | with_reducible assumption | (intro)
    | with_reducible exact Evolves.refl _ | with_reducible apply Answers.next | with_reducible apply Answers.ite
    | with_reducible apply instr_evolves | with_reducible apply alignAngle_evolves
    | split | (dsimp only; split)

theorem execAngleUnlocked_evolves (k : Fin 512) (s : State) :
    Answers s (execAngleUnlocked k s) := by
  unfold execAngleUnlocked
  repeat' first
    | with_reducible assumption | (intro)
    | with_reducible exact Evolves.refl _ | with_reducible apply Answers.next | with_reducible apply Answers.ite
    | with_reducible apply timeoutFault_evolves
    | split | (dsimp only; split)
    | refine Evolves.fst (by with_reducible assumption) ?_ | refine Evolves.snd (by with_reducible assumption) ?_

theorem waittrig_evolves {base s : State} (ev : Evolves base s) (k : Nat) (w : Nat) (t : Nat) :
    Evolves base (waittrig k w t s) := by
  unfold waittrig
  repeat' first
    | with_reducible assumption | (intro)
    | with_reducible apply stallSeq_evolves | with_reducible apply advanceTo_evolves
    | with_reducible apply seqFault_evolves | with_reducible apply Evolves.ite
    | split | (dsimp only; split)

theorem execWaittrig_evolves (k : Fin 512) (s : State) :
    Answers s (execWaittrig k s) := by
  unfold execWaittrig
  repeat' first
    | with_reducible assumption | (intro)
    | with_reducible exact Evolves.refl _ | with_reducible apply Answers.next | with_reducible apply Answers.ite
    | with_reducible apply instr_evolves | with_reducible apply waittrig_evolves
    | split | (dsimp only; split)

theorem execTrigTimeout_evolves (k : Fin 512) (s : State) :
    Answers s (execTrigTimeout k s) := by
  unfold execTrigTimeout
  repeat' first
    | with_reducible assumption | (intro)
    | with_reducible exact Evolves.refl _ | with_reducible apply Answers.next | with_reducible apply Answers.ite
    | with_reducible apply usTimeout_evolves
    | split | (dsimp only; split)
    | refine Evolves.fst (by with_reducible assumption) ?_ | refine Evolves.snd (by with_reducible assumption) ?_

theorem syncInstr_evolves {base s : State} (ev : Evolves base s) (k : Nat) (w : Nat) (t : Nat) :
    Evolves base (syncInstr k w t s) := by
  unfold syncInstr
  repeat' first
    | with_reducible assumption | (intro)
    | with_reducible apply stallSeq_evolves | with_reducible apply advanceTo_evolves
    | with_reducible apply seqFault_evolves | with_reducible apply arrive_evolves | with_reducible apply Evolves.ite
    | split | (dsimp only; split)

theorem execSync_evolves (k : Fin 512) (s : State) :
    Answers s (execSync k s) := by
  unfold execSync
  repeat' first
    | with_reducible assumption | (intro)
    | with_reducible exact Evolves.refl _ | with_reducible apply Answers.next | with_reducible apply Answers.ite
    | with_reducible apply instr_evolves | with_reducible apply syncInstr_evolves
    | split | (dsimp only; split)

theorem brInstr_evolves {base s : State} (ev : Evolves base s) (k : Nat) (w : Nat) (t : Nat) :
    Evolves base (brInstr k w t s) := by
  unfold brInstr
  repeat' first
    | with_reducible assumption | (intro)
    | with_reducible apply advanceTo_evolves | with_reducible apply branchTo_evolves
    | split | (dsimp only; split)

theorem execBr_evolves (k : Fin 512) (s : State) :
    Answers s (execBr k s) := by
  unfold execBr
  repeat' first
    | with_reducible assumption | (intro)
    | with_reducible exact Evolves.refl _ | with_reducible apply Answers.next | with_reducible apply Answers.ite
    | with_reducible apply instr_evolves | with_reducible apply brInstr_evolves
    | split | (dsimp only; split)

theorem loopInstr_evolves {base s : State} (ev : Evolves base s) (k : Nat) (w : Nat) (t : Nat) :
    Evolves base (loopInstr k w t s) := by
  unfold loopInstr
  repeat' first
    | with_reducible assumption | (intro)
    | with_reducible apply pushItem_evolves | with_reducible apply advanceTo_evolves
    | with_reducible apply seqFault_evolves | with_reducible apply retire_evolves | with_reducible apply retireTo_evolves
    | with_reducible apply Evolves.ite
    | split | (dsimp only; split)

theorem execLoop_evolves (k : Fin 512) (s : State) :
    Answers s (execLoop k s) := by
  unfold execLoop
  repeat' first
    | with_reducible assumption | (intro)
    | with_reducible exact Evolves.refl _ | with_reducible apply Answers.next | with_reducible apply Answers.ite
    | with_reducible apply instr_evolves | with_reducible apply loopInstr_evolves
    | split | (dsimp only; split)

theorem callInstr_evolves {base s : State} (ev : Evolves base s) (k : Nat) (w : Nat) (t : Nat) :
    Evolves base (callInstr k w t s) := by
  unfold callInstr
  repeat' first
    | with_reducible assumption | (intro)
    | with_reducible apply pushItem_evolves | with_reducible apply advanceTo_evolves
    | with_reducible apply seqFault_evolves | with_reducible apply retireTo_evolves | with_reducible apply Evolves.ite
    | split | (dsimp only; split)

theorem execCall_evolves (k : Fin 512) (s : State) :
    Answers s (execCall k s) := by
  unfold execCall
  repeat' first
    | with_reducible assumption | (intro)
    | with_reducible exact Evolves.refl _ | with_reducible apply Answers.next | with_reducible apply Answers.ite
    | with_reducible apply instr_evolves | with_reducible apply callInstr_evolves
    | split | (dsimp only; split)

theorem retInstr_evolves {base s : State} (ev : Evolves base s) (k : Nat) (t : Nat) :
    Evolves base (retInstr k t s) := by
  unfold retInstr
  repeat' first
    | with_reducible assumption | (intro)
    | with_reducible apply advanceTo_evolves | with_reducible apply seqFault_evolves
    | with_reducible apply State.modSeq_evolves | with_reducible apply retireTo_evolves
    | split | (dsimp only; split)
    | refine Evolves.fst (by with_reducible assumption) ?_ | refine Evolves.snd (by with_reducible assumption) ?_

theorem execRet_evolves (k : Fin 512) (s : State) :
    Answers s (execRet k s) := by
  unfold execRet
  repeat' first
    | with_reducible assumption | (intro)
    | with_reducible exact Evolves.refl _ | with_reducible apply Answers.next | with_reducible apply Answers.ite
    | with_reducible apply instr_evolves | with_reducible apply retInstr_evolves
    | split | (dsimp only; split)

theorem brr_evolves {base s : State} (ev : Evolves base s) (k : Nat) (w : Nat) (t : Nat) :
    Evolves base (brr k w t s) := by
  unfold brr
  repeat' first
    | with_reducible assumption | (intro)
    | with_reducible apply modMicro_evolves | with_reducible apply stallSeq_evolves
    | with_reducible apply advanceTo_evolves | with_reducible apply seqFault_evolves
    | with_reducible apply brrFinish_evolves | with_reducible apply Evolves.ite
    | split | (dsimp only; split)
    | refine Evolves.fst (by with_reducible assumption) ?_ | refine Evolves.snd (by with_reducible assumption) ?_

theorem execBrr_evolves (k : Fin 512) (s : State) :
    Answers s (execBrr k s) := by
  unfold execBrr
  repeat' first
    | with_reducible assumption | (intro)
    | with_reducible exact Evolves.refl _ | with_reducible apply Answers.next | with_reducible apply Answers.ite
    | with_reducible apply instr_evolves | with_reducible apply brr_evolves
    | split | (dsimp only; split)

end Sys2Proof.Machine
end

