-- ==== Sys2Proof/Laws/EvShotInstrs.lean ====
section
/-! SUPPORT. What the operations of Machine/ShotInstrs.lean keep (Evolves). -/

namespace Sys2Proof.Machine

theorem shotBegin_evolves {base s : State} (ev : Evolves base s) (k : Nat) (t : Nat) :
    Evolves base (shotBegin k t s) := by
  unfold shotBegin
  repeat' first
    | with_reducible assumption | (intro)
    | with_reducible apply advanceTo_evolves | with_reducible apply seqFault_evolves
    | with_reducible apply shotChecks_evolves | with_reducible apply Evolves.ite
    | split | (dsimp only; split)

theorem execShotBegin_evolves (k : Fin 512) (s : State) :
    Answers s (execShotBegin k s) := by
  unfold execShotBegin
  repeat' first
    | with_reducible assumption | (intro)
    | with_reducible exact Evolves.refl _ | with_reducible apply Answers.next | with_reducible apply Answers.ite
    | with_reducible apply shotBegin_evolves | with_reducible apply instr_evolves
    | split | (dsimp only; split)

theorem execKilnSkipEnd_evolves (k : Fin 512) (s : State) :
    Answers s (execKilnSkipEnd k s) := by
  unfold execKilnSkipEnd
  repeat' first
    | with_reducible assumption | (intro)
    | with_reducible exact Evolves.refl _ | with_reducible apply Answers.next | with_reducible apply Answers.ite
    | with_reducible apply State.inc_evolves | with_reducible apply unstall_evolves
    | with_reducible apply advanceTo_evolves | with_reducible apply ringCheck_evolves
    | with_reducible apply State.modSeq_evolves
    | split | (dsimp only; split)
    | refine Evolves.fst (by with_reducible assumption) ?_ | refine Evolves.snd (by with_reducible assumption) ?_

theorem execRingStallEnd_evolves (k : Fin 512) (s : State) :
    Answers s (execRingStallEnd k s) := by
  unfold execRingStallEnd
  repeat' first
    | with_reducible assumption | (intro)
    | with_reducible exact Evolves.refl _ | with_reducible apply Answers.next | with_reducible apply Answers.ite
    | with_reducible apply unstall_evolves | with_reducible apply advanceTo_evolves
    | with_reducible apply creditCheck_evolves | with_reducible apply Evolves.ite
    | split | (dsimp only; split)
    | refine Evolves.fst (by with_reducible assumption) ?_ | refine Evolves.snd (by with_reducible assumption) ?_

theorem execCreditStallEnd_evolves (k : Fin 512) (s : State) :
    Answers s (execCreditStallEnd k s) := by
  unfold execCreditStallEnd
  repeat' first
    | with_reducible assumption | (intro)
    | with_reducible exact Evolves.refl _ | with_reducible apply Answers.next | with_reducible apply Answers.ite
    | with_reducible apply unstall_evolves | with_reducible apply shotChecks_evolves
    | with_reducible apply waitCleared_evolves | with_reducible apply Evolves.ite
    | split | (dsimp only; split)
    | refine Evolves.fst (by with_reducible assumption) ?_ | refine Evolves.snd (by with_reducible assumption) ?_

theorem shotEnd_evolves {base s : State} (ev : Evolves base s) (k : Nat) (t : Nat) :
    Evolves base (shotEnd k t s) := by
  unfold shotEnd
  repeat' first
    | with_reducible assumption | (intro)
    | with_reducible apply advanceTo_evolves | with_reducible apply seqFault_evolves
    | with_reducible apply closeShot_evolves | with_reducible apply retire_evolves | with_reducible apply Evolves.ite
    | split | (dsimp only; split)

theorem execShotEnd_evolves (k : Fin 512) (s : State) :
    Answers s (execShotEnd k s) := by
  unfold execShotEnd
  repeat' first
    | with_reducible assumption | (intro)
    | with_reducible exact Evolves.refl _ | with_reducible apply Answers.next | with_reducible apply Answers.ite
    | with_reducible apply instr_evolves | with_reducible apply shotEnd_evolves
    | split | (dsimp only; split)

theorem execShotClosed_evolves (k : Fin 512) (s : State) :
    Answers s (execShotClosed k s) := by
  unfold execShotClosed
  repeat' first
    | with_reducible assumption | (intro)
    | with_reducible exact Evolves.refl _ | with_reducible apply Answers.next | with_reducible apply Answers.ite
    | with_reducible apply meterComplete_evolves | with_reducible apply State.modSeq_evolves
    | with_reducible apply monTrigger_evolves
    | split | (dsimp only; split)
    | refine Evolves.fst (by with_reducible assumption) ?_ | refine Evolves.snd (by with_reducible assumption) ?_

theorem signalInstr_evolves {base s : State} (ev : Evolves base s) (k : Nat) (w : Nat) (t : Nat) :
    Evolves base (signalInstr k w t s) := by
  unfold signalInstr
  repeat' first
    | with_reducible assumption | (intro)
    | with_reducible apply advanceTo_evolves | with_reducible apply seqFault_evolves
    | with_reducible apply signalAt_evolves | with_reducible apply retire_evolves | with_reducible apply Evolves.ite
    | split | (dsimp only; split)
    | refine Evolves.fst (by with_reducible assumption) ?_ | refine Evolves.snd (by with_reducible assumption) ?_

theorem execSignal_evolves (k : Fin 512) (s : State) :
    Answers s (execSignal k s) := by
  unfold execSignal
  repeat' first
    | with_reducible assumption | (intro)
    | with_reducible exact Evolves.refl _ | with_reducible apply Answers.next | with_reducible apply Answers.ite
    | with_reducible apply instr_evolves | with_reducible apply signalInstr_evolves
    | split | (dsimp only; split)

theorem waitmsg_evolves {base s : State} (ev : Evolves base s) (k : Nat) (w : Nat) (t : Nat) :
    Evolves base (waitmsg k w t s) := by
  unfold waitmsg
  repeat' first
    | with_reducible assumption | (intro)
    | with_reducible apply stallSeq_evolves | with_reducible apply advanceTo_evolves
    | with_reducible apply seqFault_evolves | with_reducible apply takeMsg_evolves
    | split | (dsimp only; split)
    | refine Evolves.fst (by with_reducible assumption) ?_ | refine Evolves.snd (by with_reducible assumption) ?_

theorem execWaitmsg_evolves (k : Fin 512) (s : State) :
    Answers s (execWaitmsg k s) := by
  unfold execWaitmsg
  repeat' first
    | with_reducible assumption | (intro)
    | with_reducible exact Evolves.refl _ | with_reducible apply Answers.next | with_reducible apply Answers.ite
    | with_reducible apply instr_evolves | with_reducible apply waitmsg_evolves
    | split | (dsimp only; split)

theorem msgArrived_evolves {base s : State} (ev : Evolves base s) (k : Nat) (q : Nat) (t : Nat) :
    Evolves base (msgArrived k q t s) := by
  unfold msgArrived
  repeat' first
    | with_reducible assumption | (intro)
    | with_reducible apply microDone_evolves | with_reducible apply unstall_evolves | with_reducible apply takeMsg_evolves
    | with_reducible apply microGo_evolves
    | split | (dsimp only; split)
    | refine Evolves.fst (by with_reducible assumption) ?_ | refine Evolves.snd (by with_reducible assumption) ?_

theorem execMsgVisible_evolves (q : BitVec 16) (s : State) :
    Answers s (execMsgVisible q s) := by
  unfold execMsgVisible
  repeat' first
    | with_reducible assumption | (intro)
    | with_reducible exact Evolves.refl _ | with_reducible apply Answers.next | with_reducible apply Answers.ite
    | with_reducible apply advanceTo_evolves | with_reducible apply msgArrived_evolves
    | split | (dsimp only; split)
    | refine Evolves.fst (by with_reducible assumption) ?_ | refine Evolves.snd (by with_reducible assumption) ?_

theorem msgTimeout_evolves {base s : State} (ev : Evolves base s) (k : Nat) :
    Evolves base (msgTimeout k s) := by
  unfold msgTimeout
  repeat' first
    | with_reducible assumption | (intro)
    | with_reducible apply advanceTo_evolves | with_reducible apply msgArrived_evolves
    | with_reducible apply timeoutFault_evolves | with_reducible apply Evolves.ite
    | split | (dsimp only; split)
    | refine Evolves.fst (by with_reducible assumption) ?_ | refine Evolves.snd (by with_reducible assumption) ?_

theorem execMsgTimeout_evolves (k : Fin 512) (s : State) :
    Answers s (execMsgTimeout k s) := by
  unfold execMsgTimeout
  repeat' first
    | with_reducible assumption | (intro)
    | with_reducible exact Evolves.refl _ | with_reducible apply Answers.next | with_reducible apply Answers.ite
    | with_reducible apply msgTimeout_evolves
    | split | (dsimp only; split)
    | refine Evolves.fst (by with_reducible assumption) ?_ | refine Evolves.snd (by with_reducible assumption) ?_

end Sys2Proof.Machine
end

