-- ==== Sys2Proof/Laws/EvMicroInstrs.lean ====
section
/-! SUPPORT. What the operations of Machine/MicroInstrs.lean keep (Evolves). -/

namespace Sys2Proof.Machine

theorem execOwnerExtension_evolves (k : Fin 512) (s : State) :
    Answers s (execOwnerExtension k s) := by
  unfold execOwnerExtension
  repeat' first
    | with_reducible assumption | (intro)
    | with_reducible exact Evolves.refl _ | with_reducible apply Answers.next | with_reducible apply Answers.ite
    | with_reducible apply pcRange_evolves | with_reducible apply advanceTo_evolves
    | with_reducible apply microBegin_evolves | with_reducible apply microGo_evolves | with_reducible apply Evolves.ite
    | split | (dsimp only; split)

theorem execIllegal_evolves (k : Fin 512) (s : State) :
    Answers s (execIllegal k s) := by
  unfold execIllegal
  repeat' first
    | with_reducible assumption | (intro)
    | with_reducible exact Evolves.refl _ | with_reducible apply Answers.next | with_reducible apply Answers.ite
    | with_reducible apply pcRange_evolves | with_reducible apply advanceTo_evolves
    | with_reducible apply seqFault_evolves | with_reducible apply Evolves.ite
    | split | (dsimp only; split)

theorem resultGo_evolves {base s : State} (ev : Evolves base s) (k : Nat) (t : Nat) :
    Evolves base (resultGo k t s) := by
  unfold resultGo
  repeat' first
    | with_reducible assumption | (intro)
    | with_reducible apply uReturn_evolves | with_reducible apply microGo_evolves | with_reducible apply Evolves.ite
    | split | (dsimp only; split)

theorem resultTrap_evolves {base s : State} (ev : Evolves base s) (k : Nat) (t : Nat) :
    Evolves base (resultTrap k t s) := by
  unfold resultTrap
  repeat' first
    | with_reducible assumption | (intro)
    | with_reducible apply microDone_evolves | with_reducible apply microFault_evolves
    | with_reducible apply resultGo_evolves | with_reducible apply unstall_evolves
    | with_reducible apply brrFinish_evolves | with_reducible apply ruleShadow_evolves
    | with_reducible apply State.modSeq_evolves | with_reducible apply trapBegin_evolves
    | with_reducible apply microGo_evolves | with_reducible apply Evolves.ite
    | split | (dsimp only; split)
    | refine Evolves.fst (by with_reducible assumption) ?_ | refine Evolves.snd (by with_reducible assumption) ?_

theorem resultReady_evolves {base s : State} (ev : Evolves base s) (k : Nat) (t : Nat) :
    Evolves base (resultReady k t s) := by
  unfold resultReady
  repeat' first
    | with_reducible assumption | (intro)
    | with_reducible apply resultTrap_evolves | with_reducible apply Evolves.ite
    | split | (dsimp only; split)
    | refine Evolves.fst (by with_reducible assumption) ?_ | refine Evolves.snd (by with_reducible assumption) ?_

theorem execResultReady_evolves (k : Fin 512) (s : State) :
    Answers s (execResultReady k s) := by
  unfold execResultReady
  repeat' first
    | with_reducible assumption | (intro)
    | with_reducible exact Evolves.refl _ | with_reducible apply Answers.next | with_reducible apply Answers.ite
    | with_reducible apply advanceTo_evolves | with_reducible apply resultReady_evolves
    | split | (dsimp only; split)

theorem resultLate_evolves {base s : State} (ev : Evolves base s) (k : Nat) (t : Nat) :
    Evolves base (resultLate k t s) := by
  unfold resultLate
  repeat' first
    | with_reducible assumption | (intro)
    | with_reducible apply microDone_evolves | with_reducible apply unstall_evolves
    | with_reducible apply brrFinish_evolves | with_reducible apply microGo_evolves
    | split | (dsimp only; split)
    | refine Evolves.fst (by with_reducible assumption) ?_ | refine Evolves.snd (by with_reducible assumption) ?_

theorem execResultTimeout_evolves (k : Fin 512) (s : State) :
    Answers s (execResultTimeout k s) := by
  unfold execResultTimeout
  repeat' first
    | with_reducible assumption | (intro)
    | with_reducible exact Evolves.refl _ | with_reducible apply Answers.next | with_reducible apply Answers.ite
    | with_reducible apply advanceTo_evolves | with_reducible apply resultReady_evolves
    | with_reducible apply resultLate_evolves | with_reducible apply Evolves.ite
    | split | (dsimp only; split)
    | refine Evolves.fst (by with_reducible assumption) ?_ | refine Evolves.snd (by with_reducible assumption) ?_

theorem execTeqFullStallEnd_evolves (k : Fin 512) (s : State) :
    Answers s (execTeqFullStallEnd k s) := by
  unfold execTeqFullStallEnd
  repeat' first
    | with_reducible assumption | (intro)
    | with_reducible exact Evolves.refl _ | with_reducible apply Answers.next | with_reducible apply Answers.ite
    | with_reducible apply unstall_evolves | with_reducible apply writeEntry_evolves
    | with_reducible apply microGo_evolves | with_reducible apply waitCleared_evolves | with_reducible apply Evolves.ite
    | split | (dsimp only; split)
    | refine Evolves.fst (by with_reducible assumption) ?_ | refine Evolves.snd (by with_reducible assumption) ?_

theorem calTrap_evolves {base s : State} (ev : Evolves base s) (k : Nat) (t : Nat) :
    Evolves base (calTrap k t s) := by
  unfold calTrap
  repeat' first
    | with_reducible assumption | (intro)
    | with_reducible apply setSeqState_evolves | with_reducible apply advanceTo_evolves
    | with_reducible apply State.later_evolves | with_reducible apply ruleShadow_evolves
    | with_reducible apply State.modSeq_evolves | with_reducible apply trapBegin_evolves
    | with_reducible apply microGo_evolves | with_reducible apply Evolves.ite
    | split | (dsimp only; split)

theorem execCalRequest_evolves (k : Fin 512) (s : State) :
    Answers s (execCalRequest k s) := by
  unfold execCalRequest
  repeat' first
    | with_reducible assumption | (intro)
    | with_reducible exact Evolves.refl _ | with_reducible apply Answers.next | with_reducible apply Answers.ite
    | with_reducible apply advanceTo_evolves | with_reducible apply calTrap_evolves | with_reducible apply Evolves.ite
    | split | (dsimp only; split)

end Sys2Proof.Machine
end

