-- ==== Sys2Proof/Laws/EvStopCmds.lean ====
section
/-! SUPPORT. What the operations of Machine/StopCmds.lean keep (Evolves). -/

namespace Sys2Proof.Machine

theorem bodyOf_evolves {base s : State} (ev : Evolves base s) (op : Nat) (k : Nat) (w : Nat) (t : Nat) :
    Evolves base (bodyOf op k w t s) := by
  unfold bodyOf
  repeat' first
    | with_reducible assumption | (intro)
    | with_reducible apply aluBody_evolves | with_reducible apply nopInstr_evolves
    | with_reducible apply shotBegin_evolves | with_reducible apply haltInstr_evolves | with_reducible apply play_evolves
    | with_reducible apply yieldCal_evolves | with_reducible apply mul_evolves | with_reducible apply wait_evolves
    | with_reducible apply playz_evolves | with_reducible apply load_evolves | with_reducible apply waituntil_evolves
    | with_reducible apply setbias_evolves | with_reducible apply shotEnd_evolves
    | with_reducible apply alignAngle_evolves | with_reducible apply store_evolves | with_reducible apply rampbias_evolves
    | with_reducible apply signalInstr_evolves | with_reducible apply waittrig_evolves | with_reducible apply fset_evolves
    | with_reducible apply waitmsg_evolves | with_reducible apply fshift_evolves | with_reducible apply syncInstr_evolves
    | with_reducible apply freset_evolves | with_reducible apply pframe_evolves | with_reducible apply measure_evolves
    | with_reducible apply brInstr_evolves | with_reducible apply loopInstr_evolves | with_reducible apply acq_evolves
    | with_reducible apply callInstr_evolves | with_reducible apply retInstr_evolves | with_reducible apply brr_evolves
    | with_reducible apply Evolves.ite
    | split | (dsimp only; split)
    | refine Evolves.fst (by with_reducible assumption) ?_ | refine Evolves.snd (by with_reducible assumption) ?_

theorem microUntil_evolves {base x3 : State} (ev : Evolves base x3) (x0 : Nat) (x1 : Nat) (x2 : Nat) :
    Evolves base (microUntil x0 x1 x2 x3) := by
  induction x0 generalizing x3 x1 x2 with
  | zero =>
    unfold microUntil
    repeat' first
      | with_reducible assumption | (intro)
      | with_reducible apply microStep_evolves | with_reducible apply Evolves.ite
      | split | (dsimp only; split)
      | refine Evolves.fst (by with_reducible assumption) ?_ | refine Evolves.snd (by with_reducible assumption) ?_
  | succ fuel ih =>
    unfold microUntil
    repeat' first
      | with_reducible apply ih
      | with_reducible assumption | (intro)
      | with_reducible apply microStep_evolves | with_reducible apply Evolves.ite
      | split | (dsimp only; split)
      | refine Evolves.fst (by with_reducible assumption) ?_ | refine Evolves.snd (by with_reducible assumption) ?_

theorem runUntil_evolves {base s : State} (ev : Evolves base s) (k : Nat) (te : Nat) :
    Evolves base (runUntil k te s) := by
  unfold runUntil
  repeat' first
    | with_reducible assumption | (intro)
    | with_reducible apply bodyOf_evolves | with_reducible apply instr_evolves | with_reducible apply microUntil_evolves
    | with_reducible apply microBegin_evolves | with_reducible apply Evolves.ite
    | split | (dsimp only; split)

theorem stopRunning_evolves {base s : State} (ev : Evolves base s) (k : Nat) (kind : AbortKind) (now : Nat) :
    Evolves base (stopRunning k kind now s) := by
  unfold stopRunning
  repeat' first
    | with_reducible assumption | (intro)
    | with_reducible apply advanceTo_evolves | with_reducible apply runUntil_evolves
    | with_reducible apply abortAt_evolves | with_reducible apply stopTrap_evolves | with_reducible apply Evolves.ite
    | split | (dsimp only; split)

theorem stopSeq_evolves {base s : State} (ev : Evolves base s) (k : Nat) :
    Evolves base (stopSeq k s) := by
  unfold stopSeq
  repeat' first
    | with_reducible assumption | (intro)
    | with_reducible apply State.set_evolves | with_reducible apply setSeqState_evolves
    | with_reducible apply advanceTo_evolves | with_reducible apply stopRunning_evolves
    | with_reducible apply abortShots_evolves | with_reducible apply Evolves.ite
    | split | (dsimp only; split)
    | refine Evolves.fst (by with_reducible assumption) ?_ | refine Evolves.snd (by with_reducible assumption) ?_

theorem serviceLossSeq_evolves {base s : State} (ev : Evolves base s) (k : Nat) (t : Nat) :
    Evolves base (serviceLossSeq k t s) := by
  unfold serviceLossSeq
  repeat' first
    | with_reducible assumption | (intro)
    | with_reducible apply State.set_evolves | with_reducible apply setSeqState_evolves
    | with_reducible apply stopRunning_evolves | with_reducible apply abortShots_evolves
    | with_reducible apply Evolves.ite
    | split | (dsimp only; split)

theorem serviceLoss_evolves {base s : State} (ev : Evolves base s) (t : Nat) :
    Evolves base (serviceLoss t s) := by
  unfold serviceLoss
  repeat' first
    | with_reducible assumption | (intro)
    | with_reducible apply parkTile_evolves | with_reducible apply deriveReady_evolves
    | with_reducible apply serviceLossSeq_evolves | with_reducible apply Evolves.foldl
    | with_reducible apply Evolves.foldl_snd | with_reducible apply Evolves.foldl_fst
    | split | (dsimp only; split)

theorem execStop_evolves (r : Req) (k : Fin 512) (s : State) :
    Answers s (execStop r k s) := by
  unfold execStop
  repeat' first
    | with_reducible assumption | (intro)
    | with_reducible exact Evolves.refl _ | with_reducible apply Answers.next | with_reducible apply Answers.ite
    | with_reducible apply privileged_evolves | with_reducible apply stopSeq_evolves
    | split | (dsimp only; split)

end Sys2Proof.Machine
end

