-- ==== Sys2Proof/Laws/EvTableCmds.lean ====
section
/-! SUPPORT. What the operations of Machine/TableCmds.lean keep (Evolves). -/

namespace Sys2Proof.Machine

theorem frameWrite_evolves {base s : State} (ev : Evolves base s) (f : Nat) (dw : Nat) (v : Nat) :
    Evolves base (frameWrite f dw v s) := by
  unfold frameWrite
  repeat' first
    | with_reducible assumption | (intro)
    | with_reducible apply State.later_evolves
    | split | (dsimp only; split)
    | refine Evolves.fst (by with_reducible assumption) ?_ | refine Evolves.snd (by with_reducible assumption) ?_
    | with_reducible apply Evolves.upd | with_reducible apply HostIf.Grows.refl | with_reducible apply HostIf.Grows.upd
    | with_reducible apply Excise.Grows.refl | with_reducible apply Excise.Grows.upd
    | exact ⟨id, Nat.le_refl _⟩ | exact ⟨id, Nat.le_succ _⟩

theorem fullDword_evolves {base s : State} (ev : Evolves base s) (r : Req) (be : Nat) (a : Nat) (v : Nat) (k : State →
    State) (hk : ∀ t, Evolves base t → Evolves base (k t)) :
    Evolves base (fullDword r be a v s k) := by
  unfold fullDword
  repeat' first
    | with_reducible assumption | (intro)
    | with_reducible apply hk | with_reducible apply accessFault_evolves | with_reducible apply Evolves.ite
    | split | (dsimp only; split)

theorem execFrameTableWrite_evolves (r : Req) (f : Fin 40960) (dw : Fin 4) (be : BitVec 4) (v : Dword) (s : State) :
    Answers s (execFrameTableWrite r f dw be v s) := by
  unfold execFrameTableWrite
  repeat' first
    | with_reducible assumption | (intro)
    | with_reducible exact Evolves.refl _ | with_reducible apply Answers.next | with_reducible apply Answers.ite
    | with_reducible apply frameWrite_evolves | with_reducible apply fullDword_evolves
    | split | (dsimp only; split)

theorem execWftSwap_evolves (s : State) :
    Answers s (execWftSwap s) := by
  unfold execWftSwap
  repeat' first
    | with_reducible assumption | (intro)
    | with_reducible exact Evolves.refl _ | with_reducible apply Answers.next | with_reducible apply Answers.ite
    | with_reducible apply wftBusy_evolves | with_reducible apply setPending_evolves
    | with_reducible apply State.flagAlways_evolves | with_reducible apply Evolves.ite
    | split | (dsimp only; split)

theorem execWftSwapNow_evolves (s : State) :
    Answers s (execWftSwapNow s) := by
  unfold execWftSwapNow
  repeat' first
    | with_reducible assumption | (intro)
    | with_reducible exact Evolves.refl _ | with_reducible apply Answers.next | with_reducible apply Answers.ite
    | with_reducible apply wftBusy_evolves | with_reducible apply setPending_evolves | with_reducible apply Evolves.ite
    | split | (dsimp only; split)

theorem execWftSwapApply_evolves (s : State) :
    Answers s (execWftSwapApply s) := by
  unfold execWftSwapApply
  repeat' first
    | with_reducible assumption | (intro)
    | with_reducible exact Evolves.refl _ | with_reducible apply Answers.next | with_reducible apply Answers.ite
    | with_reducible apply atTick_evolves | with_reducible apply wftBankDue_evolves | with_reducible apply Evolves.ite
    | split | (dsimp only; split)
    | refine Evolves.fst (by with_reducible assumption) ?_ | refine Evolves.snd (by with_reducible assumption) ?_

theorem execWftCopy_evolves (s : State) :
    Answers s (execWftCopy s) := by
  unfold execWftCopy
  repeat' first
    | with_reducible assumption | (intro)
    | with_reducible exact Evolves.refl _ | with_reducible apply Answers.next | with_reducible apply Answers.ite
    | with_reducible apply wftBusy_evolves | with_reducible apply setPending_evolves | with_reducible apply Evolves.ite
    | split | (dsimp only; split)

theorem execWftCopyDone_evolves (s : State) :
    Answers s (execWftCopyDone s) := by
  unfold execWftCopyDone
  repeat' first
    | with_reducible assumption | (intro)
    | with_reducible exact Evolves.refl _ | with_reducible apply Answers.next | with_reducible apply Answers.ite
    | with_reducible apply wftCopy_evolves | with_reducible apply Evolves.ite
    | split | (dsimp only; split)
    | refine Evolves.fst (by with_reducible assumption) ?_ | refine Evolves.snd (by with_reducible assumption) ?_

end Sys2Proof.Machine
end

