-- ==== Sys2Proof/Laws/EvTapCmds.lean ====
section
/-! SUPPORT. What the operations of Machine/TapCmds.lean keep (Evolves). -/

namespace Sys2Proof.Machine

theorem tapEnable_evolves {base s : State} (ev : Evolves base s) (i : Nat) :
    Evolves base (tapEnable i s) := by
  unfold tapEnable
  repeat' first
    | with_reducible assumption | (intro)
    | with_reducible apply State.setTap_evolves | with_reducible apply State.setB_evolves
    | with_reducible apply State.flag_evolves | with_reducible apply Evolves.ite
    | split | (dsimp only; split)

theorem tapDisable_evolves {base s : State} (ev : Evolves base s) (i : Nat) :
    Evolves base (tapDisable i s) := by
  unfold tapDisable
  repeat' first
    | with_reducible assumption | (intro)
    | with_reducible apply State.setTap_evolves | with_reducible apply tapDisarm_evolves
    | with_reducible apply Evolves.ite
    | split | (dsimp only; split)

theorem tapArm_evolves {base s : State} (ev : Evolves base s) (i : Nat) :
    Evolves base (tapArm i s) := by
  unfold tapArm
  repeat' first
    | with_reducible assumption | (intro)
    | with_reducible apply State.setTap_evolves | with_reducible apply State.later_evolves
    | with_reducible apply State.flag_evolves | with_reducible apply Evolves.ite
    | split | (dsimp only; split)

theorem execTapEnable_evolves (r : Req) (i : Fin 32) (s : State) :
    Answers s (execTapEnable r i s) := by
  unfold execTapEnable
  repeat' first
    | with_reducible assumption | (intro)
    | with_reducible exact Evolves.refl _ | with_reducible apply Answers.next | with_reducible apply Answers.ite
    | with_reducible apply tapEnable_evolves | with_reducible apply privileged_evolves
    | split | (dsimp only; split)

theorem execTapDisable_evolves (r : Req) (i : Fin 32) (s : State) :
    Answers s (execTapDisable r i s) := by
  unfold execTapDisable
  repeat' first
    | with_reducible assumption | (intro)
    | with_reducible exact Evolves.refl _ | with_reducible apply Answers.next | with_reducible apply Answers.ite
    | with_reducible apply tapDisable_evolves | with_reducible apply privileged_evolves
    | split | (dsimp only; split)

theorem execTapArm_evolves (i : Fin 32) (s : State) :
    Answers s (execTapArm i s) := by
  unfold execTapArm
  repeat' first
    | with_reducible assumption | (intro)
    | with_reducible exact Evolves.refl _ | with_reducible apply Answers.next | with_reducible apply Answers.ite
    | with_reducible apply tapArm_evolves
    | split | (dsimp only; split)

theorem execTapDisarm_evolves (i : Fin 32) (s : State) :
    Answers s (execTapDisarm i s) := by
  unfold execTapDisarm
  repeat' first
    | with_reducible assumption | (intro)
    | with_reducible exact Evolves.refl _ | with_reducible apply Answers.next | with_reducible apply Answers.ite
    | with_reducible apply tapDisarm_evolves
    | split | (dsimp only; split)

theorem tapSettle_evolves {base s : State} (ev : Evolves base s) (i : Nat) :
    Evolves base (tapSettle i s) := by
  unfold tapSettle
  repeat' first
    | with_reducible assumption | (intro)
    | with_reducible apply runTo_evolves
    | split | (dsimp only; split)
    | refine Evolves.fst (by with_reducible assumption) ?_ | refine Evolves.snd (by with_reducible assumption) ?_

theorem execTapSegmentEnd_evolves (i : Fin 32) (xs : TapData) (s : State) :
    Answers s (execTapSegmentEnd i xs s) := by
  unfold execTapSegmentEnd
  repeat' first
    | with_reducible assumption | (intro)
    | with_reducible exact Evolves.refl _ | with_reducible apply Answers.next | with_reducible apply Answers.ite
    | with_reducible apply tapSettle_evolves | with_reducible apply advanceTo_evolves
    | with_reducible apply tapSegmentEnd_evolves
    | split | (dsimp only; split)
    | refine Evolves.fst (by with_reducible assumption) ?_ | refine Evolves.snd (by with_reducible assumption) ?_

theorem execTapRearmEnd_evolves (i : Fin 32) (s : State) :
    Answers s (execTapRearmEnd i s) := by
  unfold execTapRearmEnd
  repeat' first
    | with_reducible assumption | (intro)
    | with_reducible exact Evolves.refl _ | with_reducible apply Answers.next | with_reducible apply Answers.ite
    | with_reducible apply advanceTo_evolves | with_reducible apply Evolves.ite
    | split | (dsimp only; split)

theorem execTapSlotFree_evolves (i : Fin 32) (s : State) :
    Answers s (execTapSlotFree i s) := by
  unfold execTapSlotFree
  repeat' first
    | with_reducible assumption | (intro)
    | with_reducible exact Evolves.refl _ | with_reducible apply Answers.next | with_reducible apply Answers.ite
    | with_reducible apply tapReserve_evolves | with_reducible apply Evolves.ite
    | split | (dsimp only; split)

end Sys2Proof.Machine
end

