-- ==== Sys2Proof/Laws/EvHostOps.lean ====
section
/-! SUPPORT. What the operations of Machine/HostOps.lean keep (Evolves). -/

namespace Sys2Proof.Machine

theorem Ans.orSame_evolves {base s : State} (ev : Evolves base s) (a : Ans) (h : Answers s a) :
    Evolves base (Ans.orSame a s) := by
  obtain ⟨t, rfl, k⟩ := h
  exact ev.trans k

theorem partWrite_evolves {base s : State} (ev : Evolves base s) (m : PartMap) (j : Nat) (v : Nat) :
    Evolves base (partWrite m j v s) := by
  unfold partWrite
  repeat' first
    | with_reducible assumption | (intro)
    | with_reducible apply State.set_evolves | with_reducible apply audit_evolves
    | with_reducible apply State.flagAlways_evolves | with_reducible apply Evolves.ite
    | with_reducible apply Evolves.foldl | with_reducible apply Evolves.foldl_snd | with_reducible apply Evolves.foldl_fst
    | split | (dsimp only; split)

theorem queueReset_evolves {base s : State} (ev : Evolves base s) (q : Nat) :
    Evolves base (queueReset q s) := by
  unfold queueReset
  repeat' first
    | with_reducible assumption | (intro)
    | with_reducible apply State.setB_evolves | with_reducible apply State.inc_evolves
    | with_reducible apply State.setQueue_evolves | with_reducible apply State.showQueue_evolves
    | with_reducible apply State.giveBack_evolves | with_reducible apply Evolves.ite | with_reducible apply Evolves.foldl
    | with_reducible apply Evolves.foldl_snd | with_reducible apply Evolves.foldl_fst
    | split | (dsimp only; split)
    | with_reducible apply Evolves.upd | with_reducible apply HostIf.Grows.refl | with_reducible apply HostIf.Grows.upd
    | with_reducible apply Excise.Grows.refl | with_reducible apply Excise.Grows.upd
    | exact ⟨id, Nat.le_refl _⟩ | exact ⟨id, Nat.le_succ _⟩

theorem secRidWrite_evolves {base s : State} (ev : Evolves base s) (r : Req) (v : Nat) :
    Evolves base (secRidWrite r v s) := by
  unfold secRidWrite
  repeat' first
    | with_reducible assumption | (intro)
    | with_reducible apply State.set_evolves | with_reducible apply accessFault_evolves
    | with_reducible apply State.setB_evolves | with_reducible apply Evolves.ite
    | split | (dsimp only; split)
    | with_reducible apply Evolves.upd | with_reducible apply HostIf.Grows.refl | with_reducible apply HostIf.Grows.upd
    | with_reducible apply Excise.Grows.refl | with_reducible apply Excise.Grows.upd
    | exact ⟨id, Nat.le_refl _⟩ | exact ⟨id, Nat.le_succ _⟩

theorem cfgHook_evolves {base s : State} (ev : Evolves base s) (p : Place) (old : State) :
    Evolves base (cfgHook p old s) := by
  unfold cfgHook
  repeat' first
    | with_reducible assumption | (intro)
    | with_reducible apply markTone_evolves | with_reducible apply State.setB_evolves
    | with_reducible apply laneUnlock_evolves | with_reducible apply Evolves.ite
    | split | (dsimp only; split)
    | refine Evolves.fst (by with_reducible assumption) ?_ | refine Evolves.snd (by with_reducible assumption) ?_

theorem cfgWrite_evolves {base s : State} (ev : Evolves base s) (r : Req) (p : Place) (addr : Nat) (v : Nat) (fs : List
    (Fld × Nat)) :
    Evolves base (cfgWrite r p addr v fs s) := by
  unfold cfgWrite
  repeat' first
    | with_reducible assumption | (intro)
    | with_reducible apply State.set_evolves | with_reducible apply accessFault_evolves
    | with_reducible apply State.later_evolves | with_reducible apply noteChange_evolves
    | with_reducible apply cfgHook_evolves | with_reducible apply State.flagAlways_evolves
    | with_reducible apply Evolves.ite | with_reducible apply Evolves.foldl | with_reducible apply Evolves.foldl_snd
    | with_reducible apply Evolves.foldl_fst
    | split | (dsimp only; split)
    | refine Evolves.fst (by with_reducible assumption) ?_ | refine Evolves.snd (by with_reducible assumption) ?_

theorem enWrite_evolves {base s : State} (ev : Evolves base s) (r : Reg) (i : Nat) (f : Fld) (on : Bool) :
    Evolves base (enWrite r i f on s) := by
  unfold enWrite
  repeat' first
    | with_reducible assumption | (intro)
    | with_reducible apply rfiDisable_evolves | with_reducible apply tapEnable_evolves
    | with_reducible apply rfoDisable_evolves | with_reducible apply anaEnable_evolves
    | with_reducible apply tapDisable_evolves | with_reducible apply anaDisable_evolves
    | with_reducible apply linkEnable_evolves | with_reducible apply State.setB_evolves
    | with_reducible apply linkDisable_evolves | with_reducible apply decEnWrite_evolves
    | with_reducible apply rfiEnable_evolves | with_reducible apply zDisable_evolves
    | with_reducible apply lauEnWrite_evolves | with_reducible apply modAngle_evolves
    | with_reducible apply caUnlock_evolves | with_reducible apply seqEnWrite_evolves
    | with_reducible apply tunEnWrite_evolves | with_reducible apply rfoEnable_evolves
    | with_reducible apply markAngle_evolves | with_reducible apply zEnable_evolves | with_reducible apply Evolves.ite
    | split | (dsimp only; split)
    | refine Evolves.fst (by with_reducible assumption) ?_ | refine Evolves.snd (by with_reducible assumption) ?_
    | with_reducible apply Evolves.upd | with_reducible apply HostIf.Grows.refl | with_reducible apply HostIf.Grows.upd
    | with_reducible apply Excise.Grows.refl | with_reducible apply Excise.Grows.upd
    | exact ⟨id, Nat.le_refl _⟩ | exact ⟨id, Nat.le_succ _⟩

theorem woWrite_evolves {base s : State} (ev : Evolves base s) (q : Req) (r : Reg) (i : Nat) (b : Nat) (v : Nat) :
    Evolves base (woWrite q r i b v s) := by
  unfold woWrite
  repeat' first
    | with_reducible assumption | (intro)
    | with_reducible apply execTlLoad_evolves | with_reducible apply ntCommand_evolves
    | with_reducible apply Ans.orSame_evolves | with_reducible apply tapArm_evolves
    | with_reducible apply execKswap_evolves | with_reducible apply execSendSync_evolves
    | with_reducible apply execKswapNow_evolves | with_reducible apply execWftSwap_evolves
    | with_reducible apply execSendCheck_evolves | with_reducible apply execWftSwapNow_evolves
    | with_reducible apply execTlCapture_evolves | with_reducible apply execStart_evolves
    | with_reducible apply execKcopy_evolves | with_reducible apply execWftCopy_evolves
    | with_reducible apply execGroupStart_evolves | with_reducible apply execStopAtShot_evolves
    | with_reducible apply queueReset_evolves | with_reducible apply execClear_evolves
    | with_reducible apply execSlackReset_evolves | with_reducible apply execEchoStart_evolves
    | with_reducible apply crcCommit_evolves | with_reducible apply execStop_evolves
    | with_reducible apply retrainWrite_evolves | with_reducible apply tapDisarm_evolves
    | with_reducible apply idleWrite_evolves | with_reducible apply injectWrite_evolves
    | with_reducible apply ring_evolves | with_reducible apply engRaise_evolves
    | split | (dsimp only; split)
    | refine Evolves.fst (by with_reducible assumption) ?_ | refine Evolves.snd (by with_reducible assumption) ?_

theorem w1cWrite_evolves {base s : State} (ev : Evolves base s) (r : Reg) (i : Nat) (b : Nat) (f : Fld) (d : Nat) :
    Evolves base (w1cWrite r i b f d s) := by
  unfold w1cWrite
  repeat' first
    | with_reducible assumption | (intro)
    | with_reducible apply State.set_evolves | with_reducible apply rfoParkClear_evolves
    | with_reducible apply zParkClear_evolves
    | split | (dsimp only; split)
    | refine Evolves.fst (by with_reducible assumption) ?_ | refine Evolves.snd (by with_reducible assumption) ?_

theorem rwWrite_evolves {base s : State} (ev : Evolves base s) (r : Reg) (i : Nat) (f : Fld) (b : Nat) (v : Nat) :
    Evolves base (rwWrite r i f b v s) := by
  unfold rwWrite
  repeat' first
    | with_reducible assumption | (intro)
    | with_reducible apply ntIncWrite_evolves | with_reducible apply rfoMuteWrite_evolves
    | with_reducible apply State.set_evolves | with_reducible apply State.setB_evolves
    | with_reducible apply decBaseWrite_evolves | with_reducible apply State.later_evolves
    | with_reducible apply setRef_evolves | with_reducible apply enWrite_evolves | with_reducible apply pinArm_evolves
    | with_reducible apply Evolves.ite
    | split | (dsimp only; split)
    | refine Evolves.fst (by with_reducible assumption) ?_ | refine Evolves.snd (by with_reducible assumption) ?_

theorem pairLow_evolves {base s : State} (ev : Evolves base s) (who : Nat) (addr : Nat) (f : Fld) :
    Evolves base (pairLow who addr f s).2 := by
  unfold pairLow
  repeat' first
    | with_reducible assumption | (intro)
    | with_reducible apply setSnap_evolves | with_reducible apply Evolves.ite | with_reducible apply Evolves.ite_snd
    | split | (dsimp only; split)
    | refine Evolves.fst (by with_reducible assumption) ?_ | refine Evolves.snd (by with_reducible assumption) ?_
    | dsimp only

theorem writeField_evolves {base s : State} (ev : Evolves base s) (q : Req) (p : Place) (v : Nat) (x : RegField × Nat) :
    Evolves base (writeField q p v s x) := by
  unfold writeField
  repeat' first
    | with_reducible assumption | (intro)
    | with_reducible apply State.set_evolves | with_reducible apply secRidWrite_evolves
    | with_reducible apply woWrite_evolves | with_reducible apply w1cWrite_evolves | with_reducible apply rwWrite_evolves
    | with_reducible apply Evolves.ite | with_reducible apply Evolves.foldl | with_reducible apply Evolves.foldl_snd
    | with_reducible apply Evolves.foldl_fst
    | split | (dsimp only; split)
    | refine Evolves.fst (by with_reducible assumption) ?_ | refine Evolves.snd (by with_reducible assumption) ?_

theorem writePlace_evolves {base s : State} (ev : Evolves base s) (q : Req) (p : Place) (addr : Nat) (v : Nat) :
    Evolves base (writePlace q p addr v s) := by
  unfold writePlace
  repeat' first
    | with_reducible assumption | (intro)
    | with_reducible apply Ans.orSame_evolves | with_reducible apply accessFault_evolves
    | with_reducible apply State.setB_evolves | with_reducible apply partWrite_evolves
    | with_reducible apply cfgWrite_evolves | with_reducible apply barCfgWrite_evolves
    | with_reducible apply setSnap_evolves | with_reducible apply setQmSel_evolves
    | with_reducible apply execTlPinPop_evolves | with_reducible apply rwWrite_evolves
    | with_reducible apply pairLow_evolves | with_reducible apply writeField_evolves | with_reducible apply Evolves.ite
    | with_reducible apply Evolves.foldl | with_reducible apply Evolves.foldl_snd | with_reducible apply Evolves.foldl_fst
    | split | (dsimp only; split)
    | refine Evolves.fst (by with_reducible assumption) ?_ | refine Evolves.snd (by with_reducible assumption) ?_

theorem writeWindow_evolves {base s : State} (ev : Evolves base s) (q : Req) (a : Nat) (v : Nat) :
    Evolves base (writeWindow q a v s) := by
  unfold writeWindow
  repeat' first
    | with_reducible assumption | (intro)
    | with_reducible apply frameWrite_evolves | with_reducible apply accessFault_evolves
    | with_reducible apply delayedDword_evolves | with_reducible apply State.wr_evolves
    | with_reducible apply memWrite_evolves | with_reducible apply State.flagAlways_evolves
    | with_reducible apply Evolves.ite | with_reducible apply Evolves.foldl | with_reducible apply Evolves.foldl_snd
    | with_reducible apply Evolves.foldl_fst
    | split | (dsimp only; split)

theorem writeDword_evolves {base s : State} (ev : Evolves base s) (q : Req) (be : Nat) (addr : Nat) (v : Nat) :
    Evolves base (writeDword q be addr v s) := by
  unfold writeDword
  repeat' first
    | with_reducible assumption | (intro)
    | with_reducible apply accessFault_evolves | with_reducible apply writePlace_evolves
    | with_reducible apply writeWindow_evolves | with_reducible apply Evolves.ite
    | split | (dsimp only; split)
    | refine Evolves.fst (by with_reducible assumption) ?_ | refine Evolves.snd (by with_reducible assumption) ?_

theorem writeRequest_evolves {base x3 : State} (ev : Evolves base x3) (q : Req) (addr : Nat) (x2 : List (BitVec 4 ×
    Dword)) :
    Evolves base (writeRequest q addr x2 x3) := by
  induction x2 generalizing x3 addr with
  | nil =>
    unfold writeRequest
    repeat' first
      | with_reducible assumption | (intro)
      | with_reducible apply accessFault_evolves | with_reducible apply writeDword_evolves
      | with_reducible apply Evolves.ite
      | split | (dsimp only; split)
      | refine Evolves.fst (by with_reducible assumption) ?_ | refine Evolves.snd (by with_reducible assumption) ?_
  | cons y l ih =>
    unfold writeRequest
    repeat' first
      | with_reducible apply ih
      | with_reducible assumption | (intro)
      | with_reducible apply accessFault_evolves | with_reducible apply writeDword_evolves
      | with_reducible apply Evolves.ite
      | split | (dsimp only; split)
      | refine Evolves.fst (by with_reducible assumption) ?_ | refine Evolves.snd (by with_reducible assumption) ?_

theorem readRequest_evolves {base x3 : State} (ev : Evolves base x3) (q : Req) (addr : Nat) (x2 : List (BitVec 4)) :
    Evolves base (readRequest q addr x2 x3).2 := by
  induction x2 generalizing x3 addr with
  | nil =>
    unfold readRequest
    repeat' first
      | with_reducible assumption | (intro)
      | with_reducible apply readDword_evolves
      | split | (dsimp only; split)
      | refine Evolves.fst (by with_reducible assumption) ?_ | refine Evolves.snd (by with_reducible assumption) ?_
      | dsimp only
  | cons y l ih =>
    unfold readRequest
    repeat' first
      | with_reducible apply ih
      | with_reducible assumption | (intro)
      | with_reducible apply readDword_evolves
      | split | (dsimp only; split)
      | refine Evolves.fst (by with_reducible assumption) ?_ | refine Evolves.snd (by with_reducible assumption) ?_
      | dsimp only

end Sys2Proof.Machine
end

