-- ==== Sys2Proof/Laws/EvContainers.lean ====
section
/-! SUPPORT. What the operations of Machine/Containers.lean keep (Evolves). -/

namespace Sys2Proof.Machine

theorem setRcpVersion_evolves {base s : State} (ev : Evolves base s) (t : Nat) (v : Nat) :
    Evolves base (setRcpVersion t v s) := by
  unfold setRcpVersion
  repeat' first
    | with_reducible assumption | (intro)
    | with_reducible apply State.set_evolves
    | split | (dsimp only; split)

theorem clearToIll_evolves {base s : State} (ev : Evolves base s) (t : Nat) (a : Nat) (n : Nat) :
    Evolves base (clearToIll t a n s) := by
  unfold clearToIll
  repeat' first
    | with_reducible assumption | (intro)
    | with_reducible apply Evolves.foldl | with_reducible apply Evolves.foldl_snd | with_reducible apply Evolves.foldl_fst
    | split | (dsimp only; split)
    | with_reducible apply Evolves.memory | (apply Memory.wf_copyRange; assumption) | (apply Memory.wf_writes; assumption)
    | with_reducible apply Evolves.upd | with_reducible apply HostIf.Grows.refl | with_reducible apply HostIf.Grows.upd
    | with_reducible apply Excise.Grows.refl | with_reducible apply Excise.Grows.upd
    | exact ⟨id, Nat.le_refl _⟩ | exact ⟨id, Nat.le_succ _⟩

theorem writeRecords_evolves {base s : State} (ev : Evolves base s) (t : Nat) (rs : List Record) :
    Evolves base (writeRecords t rs s) := by
  unfold writeRecords
  repeat' first
    | with_reducible assumption | (intro)
    | with_reducible apply State.setBytes_evolves | with_reducible apply Evolves.foldl
    | with_reducible apply Evolves.foldl_snd | with_reducible apply Evolves.foldl_fst
    | split | (dsimp only; split)

theorem noteImage_evolves {base s : State} (ev : Evolves base s) (t : Nat) (factory : Bool) (written : List (Nat × Nat)) :
    Evolves base (noteImage t factory written s) := by
  unfold noteImage
  repeat' first
    | with_reducible assumption | (intro)
    | with_reducible apply State.setTun_evolves
    | split | (dsimp only; split)

theorem recipeApply_evolves {base s : State} (ev : Evolves base s) (t : Nat) (c : List Byte) :
    Evolves base (recipeApply t c s) := by
  unfold recipeApply
  repeat' first
    | with_reducible assumption | (intro)
    | with_reducible apply State.set_evolves | with_reducible apply State.setB_evolves
    | with_reducible apply setRcpVersion_evolves | with_reducible apply clearToIll_evolves
    | with_reducible apply writeRecords_evolves | with_reducible apply noteImage_evolves
    | with_reducible apply Evolves.getD
    | split | (dsimp only; split)
    | refine Evolves.fst (by with_reducible assumption) ?_ | refine Evolves.snd (by with_reducible assumption) ?_

theorem recipeLoad_evolves {base s : State} (ev : Evolves base s) (t : Nat) (c : List Byte) :
    Evolves base (recipeLoad t c s).2 := by
  unfold recipeLoad
  repeat' first
    | with_reducible assumption | (intro)
    | with_reducible apply recipeApply_evolves | with_reducible apply Evolves.ite | with_reducible apply Evolves.ite_snd
    | split | (dsimp only; split)
    | dsimp only

theorem recipeFactory_evolves {base s : State} (ev : Evolves base s) (t : Nat) :
    Evolves base (recipeFactory t s) := by
  unfold recipeFactory
  repeat' first
    | with_reducible assumption | (intro)
    | with_reducible apply State.set_evolves | with_reducible apply State.setB_evolves
    | with_reducible apply setRcpVersion_evolves | with_reducible apply clearToIll_evolves
    | with_reducible apply noteImage_evolves
    | split | (dsimp only; split)

theorem recipeStart_evolves {base s : State} (ev : Evolves base s) (t : Nat) :
    Evolves base (recipeStart t s) := by
  unfold recipeStart
  repeat' first
    | with_reducible assumption | (intro)
    | with_reducible apply recipeLoad_evolves | with_reducible apply recipeFactory_evolves
    | with_reducible apply State.event_evolves | with_reducible apply Evolves.ite | with_reducible apply Evolves.foldl
    | with_reducible apply Evolves.foldl_snd | with_reducible apply Evolves.foldl_fst
    | split | (dsimp only; split)

end Sys2Proof.Machine
end

