-- ==== Sys2Proof/Laws/EvStartOps.lean ====
section
/-! SUPPORT. What the operations of Machine/StartOps.lean keep (Evolves). -/

namespace Sys2Proof.Machine

theorem showRfoPark_evolves {base s : State} (ev : Evolves base s) (p : Nat) (e : Nat) :
    Evolves base (showRfoPark p e s) := by
  unfold showRfoPark
  repeat' first
    | with_reducible assumption | (intro)
    | with_reducible apply State.set_evolves
    | split | (dsimp only; split)

theorem showZPark_evolves {base s : State} (ev : Evolves base s) (z : Nat) (e : Nat) :
    Evolves base (showZPark z e s) := by
  unfold showZPark
  repeat' first
    | with_reducible assumption | (intro)
    | with_reducible apply State.set_evolves
    | split | (dsimp only; split)

theorem applyRfoPark_evolves {base s : State} (ev : Evolves base s) (start : Bool) (p : Nat) :
    Evolves base (applyRfoPark start p s) := by
  unfold applyRfoPark
  repeat' first
    | with_reducible assumption | (intro)
    | with_reducible apply State.setB_evolves | with_reducible apply setRfoState_evolves
    | with_reducible apply showRfoPark_evolves | with_reducible apply closeGate_evolves | with_reducible apply Evolves.ite
    | split | (dsimp only; split)

theorem applyZPark_evolves {base s : State} (ev : Evolves base s) (t : Nat) (z : Nat) :
    Evolves base (applyZPark t z s) := by
  unfold applyZPark
  repeat' first
    | with_reducible assumption | (intro)
    | with_reducible apply State.setZp_evolves | with_reducible apply State.setB_evolves
    | with_reducible apply showZPark_evolves | with_reducible apply latchPark_evolves
    | with_reducible apply startPark_evolves
    | split | (dsimp only; split)

theorem applyPark_evolves {base s : State} (ev : Evolves base s) (start : Bool) (a : Nat) (t : Nat) :
    Evolves base (applyPark start a t s) := by
  unfold applyPark
  repeat' first
    | with_reducible assumption | (intro)
    | with_reducible apply applyRfoPark_evolves | with_reducible apply applyZPark_evolves
    | with_reducible apply State.event_evolves | with_reducible apply Evolves.foldl
    | with_reducible apply Evolves.foldl_snd | with_reducible apply Evolves.foldl_fst
    | split | (dsimp only; split)
    | with_reducible apply Evolves.upd | with_reducible apply HostIf.Grows.refl | with_reducible apply HostIf.Grows.upd
    | with_reducible apply Excise.Grows.refl | with_reducible apply Excise.Grows.upd
    | exact ⟨id, Nat.le_refl _⟩ | exact ⟨id, Nat.le_succ _⟩

theorem holdTile_evolves {base s : State} (ev : Evolves base s) (a : Nat) :
    Evolves base (holdTile a s) := by
  unfold holdTile
  repeat' first
    | with_reducible assumption | (intro)
    | with_reducible apply setRfoState_evolves | with_reducible apply Evolves.foldl
    | with_reducible apply Evolves.foldl_snd | with_reducible apply Evolves.foldl_fst
    | split | (dsimp only; split)
    | with_reducible apply Evolves.upd | with_reducible apply HostIf.Grows.refl | with_reducible apply HostIf.Grows.upd
    | with_reducible apply Excise.Grows.refl | with_reducible apply Excise.Grows.upd
    | exact ⟨id, Nat.le_refl _⟩ | exact ⟨id, Nat.le_succ _⟩

theorem closeMailboxes_evolves {base s : State} (ev : Evolves base s)  :
    Evolves base (closeMailboxes s) := by
  unfold closeMailboxes
  repeat' first
    | with_reducible assumption | (intro)
    | with_reducible apply State.set_evolves | with_reducible apply closeSession_evolves
    | with_reducible apply State.setMbx_evolves | with_reducible apply Evolves.foldl
    | with_reducible apply Evolves.foldl_snd | with_reducible apply Evolves.foldl_fst
    | split | (dsimp only; split)
    | with_reducible apply Evolves.upd | with_reducible apply HostIf.Grows.refl | with_reducible apply HostIf.Grows.upd
    | with_reducible apply Excise.Grows.refl | with_reducible apply Excise.Grows.upd
    | exact ⟨id, Nat.le_refl _⟩ | exact ⟨id, Nat.le_succ _⟩

theorem bootSlots_evolves {base s : State} (ev : Evolves base s)  :
    Evolves base (bootSlots s) := by
  unfold bootSlots
  repeat' first
    | with_reducible assumption | (intro)
    | with_reducible apply State.set_evolves | with_reducible apply State.flagAlways_evolves
    | with_reducible apply Evolves.ite
    | split | (dsimp only; split)
    | refine Evolves.fst (by with_reducible assumption) ?_ | refine Evolves.snd (by with_reducible assumption) ?_
    | with_reducible apply Evolves.upd | with_reducible apply HostIf.Grows.refl | with_reducible apply HostIf.Grows.upd
    | with_reducible apply Excise.Grows.refl | with_reducible apply Excise.Grows.upd
    | exact ⟨id, Nat.le_refl _⟩ | exact ⟨id, Nat.le_succ _⟩

theorem checkExcise_evolves {base s : State} (ev : Evolves base s)  :
    Evolves base (checkExcise s) := by
  unfold checkExcise
  repeat' first
    | with_reducible assumption | (intro)
    | with_reducible apply State.setB_evolves | with_reducible apply State.flagAlways_evolves
    | with_reducible apply Evolves.ite
    | split | (dsimp only; split)

theorem readCellar_evolves {base s : State} (ev : Evolves base s)  :
    Evolves base (readCellar s) := by
  unfold readCellar
  repeat' first
    | with_reducible assumption | (intro)
    | with_reducible apply State.set_evolves | with_reducible apply State.setB_evolves
    | with_reducible apply calLoad_evolves | with_reducible apply State.flagAlways_evolves
    | with_reducible apply Evolves.foldl | with_reducible apply Evolves.foldl_snd | with_reducible apply Evolves.foldl_fst
    | split | (dsimp only; split)
    | refine Evolves.fst (by with_reducible assumption) ?_ | refine Evolves.snd (by with_reducible assumption) ?_
    | with_reducible apply Evolves.upd | with_reducible apply HostIf.Grows.refl | with_reducible apply HostIf.Grows.upd
    | with_reducible apply Excise.Grows.refl | with_reducible apply Excise.Grows.upd
    | exact ⟨id, Nat.le_refl _⟩ | exact ⟨id, Nat.le_succ _⟩

end Sys2Proof.Machine
end

