-- ==== Sys2Proof/Laws/EvCommands.lean ====
section
/-! SUPPORT. What the operations of Machine/Commands.lean keep (Evolves). -/

namespace Sys2Proof.Machine

theorem freeBytes_evolves {base s : State} (ev : Evolves base s) (n : Nat) :
    Evolves base (freeBytes n s).2 := by
  unfold freeBytes
  repeat' first
    | with_reducible assumption | (intro)
    | with_reducible apply State.fresh_evolves
    | split | (dsimp only; split)
    | dsimp only

end Sys2Proof.Machine
end

