-- ==== Sys2Proof/Laws/EvCalCmds.lean ====
section
/-! SUPPORT. What the operations of Machine/CalCmds.lean keep (Evolves). -/

namespace Sys2Proof.Machine

theorem execCalRun_evolves (m : Fin 16) (dma : Dma) (s : State) :
    Answers s (execCalRun m dma s) := by
  unfold execCalRun
  repeat' first
    | with_reducible assumption | (intro)
    | with_reducible exact Evolves.refl _ | with_reducible apply Answers.next | with_reducible apply Answers.ite
    | with_reducible apply calRequest_evolves | with_reducible apply runCommand_evolves
    | with_reducible apply refuse_evolves | with_reducible apply Evolves.ite | with_reducible apply Evolves.foldl
    | with_reducible apply Evolves.foldl_snd | with_reducible apply Evolves.foldl_fst
    | split | (dsimp only; split)

theorem calCancel_evolves {base s : State} (ev : Evolves base s) (a : Nat) :
    Evolves base (calCancel a s) := by
  unfold calCancel
  repeat' first
    | with_reducible assumption | (intro)
    | with_reducible apply calDrop_evolves | with_reducible apply State.setCal_evolves | with_reducible apply Evolves.ite
    | split | (dsimp only; split)
    | refine Evolves.fst (by with_reducible assumption) ?_ | refine Evolves.snd (by with_reducible assumption) ?_

theorem execCalCancel_evolves (m : Fin 16) (dma : Dma) (s : State) :
    Answers s (execCalCancel m dma s) := by
  unfold execCalCancel
  repeat' first
    | with_reducible assumption | (intro)
    | with_reducible exact Evolves.refl _ | with_reducible apply Answers.next | with_reducible apply Answers.ite
    | with_reducible apply calCancel_evolves | with_reducible apply runCommand_evolves
    | with_reducible apply refuse_evolves | with_reducible apply Evolves.ite | with_reducible apply Evolves.foldl
    | with_reducible apply Evolves.foldl_snd | with_reducible apply Evolves.foldl_fst
    | split | (dsimp only; split)

theorem execCalStore_evolves (m : Fin 16) (dma : Dma) (s : State) :
    Answers s (execCalStore m dma s) := by
  unfold execCalStore
  repeat' first
    | with_reducible assumption | (intro)
    | with_reducible exact Evolves.refl _ | with_reducible apply Answers.next | with_reducible apply Answers.ite
    | with_reducible apply calStore_evolves | with_reducible apply runCommand_evolves
    | with_reducible apply refuse_evolves | with_reducible apply celCommand_evolves | with_reducible apply Evolves.ite
    | with_reducible apply Evolves.foldl | with_reducible apply Evolves.foldl_snd | with_reducible apply Evolves.foldl_fst
    | split | (dsimp only; split)

theorem execCalTempCheck_evolves (a : Fin 8) (s : State) :
    Answers s (execCalTempCheck a s) := by
  unfold execCalTempCheck
  repeat' first
    | with_reducible assumption | (intro)
    | with_reducible exact Evolves.refl _ | with_reducible apply Answers.next | with_reducible apply Answers.ite
    | with_reducible apply calRequest_evolves | with_reducible apply Evolves.ite
    | split | (dsimp only; split)

theorem execCalPeriodTrigger_evolves (a : Fin 8) (s : State) :
    Answers s (execCalPeriodTrigger a s) := by
  unfold execCalPeriodTrigger
  repeat' first
    | with_reducible assumption | (intro)
    | with_reducible exact Evolves.refl _ | with_reducible apply Answers.next | with_reducible apply Answers.ite
    | with_reducible apply calRequest_evolves | with_reducible apply advanceTo_evolves
    | with_reducible apply State.setCal_evolves | with_reducible apply Evolves.ite
    | split | (dsimp only; split)

theorem execCalStepStart_evolves (a : Fin 8) (s : State) :
    Answers s (execCalStepStart a s) := by
  unfold execCalStepStart
  repeat' first
    | with_reducible assumption | (intro)
    | with_reducible exact Evolves.refl _ | with_reducible apply Answers.next | with_reducible apply Answers.ite
    | with_reducible apply State.incSat_evolves | with_reducible apply advanceTo_evolves
    | with_reducible apply calFinish_evolves | with_reducible apply calStart_evolves
    | with_reducible apply State.setCal_evolves | with_reducible apply Evolves.ite
    | split | (dsimp only; split)
    | refine Evolves.fst (by with_reducible assumption) ?_ | refine Evolves.snd (by with_reducible assumption) ?_

theorem stepOver_evolves {base s : State} (ev : Evolves base s) (a : Nat) (ticks : Nat) (k : CalStep → State → State) (hk
    : ∀ y0 t, Evolves base t → Evolves base (k y0 t)) :
    Evolves base (stepOver a ticks k s) := by
  unfold stepOver
  repeat' first
    | with_reducible assumption | (intro)
    | with_reducible apply hk | with_reducible apply advanceTo_evolves | with_reducible apply calNext_evolves
    | split | (dsimp only; split)
    | refine Evolves.fst (by with_reducible assumption) ?_ | refine Evolves.snd (by with_reducible assumption) ?_

theorem execCalStepEnd_evolves (a : Fin 8) (sel : BitVec 72) (bad : BitVec 72) (res : BitVec 16) (s : State) :
    Answers s (execCalStepEnd a sel bad res s) := by
  unfold execCalStepEnd
  repeat' first
    | with_reducible assumption | (intro)
    | with_reducible exact Evolves.refl _ | with_reducible apply Answers.next | with_reducible apply Answers.ite
    | with_reducible apply stepOver_evolves | with_reducible apply calApply_evolves
    | split | (dsimp only; split)
    | refine Evolves.fst (by with_reducible assumption) ?_ | refine Evolves.snd (by with_reducible assumption) ?_

theorem execCalStepTimeout_evolves (a : Fin 8) (s : State) :
    Answers s (execCalStepTimeout a s) := by
  unfold execCalStepTimeout
  repeat' first
    | with_reducible assumption | (intro)
    | with_reducible exact Evolves.refl _ | with_reducible apply Answers.next | with_reducible apply Answers.ite
    | with_reducible apply stepOver_evolves | with_reducible apply calFail_evolves
    | split | (dsimp only; split)

theorem execCalStale_evolves (a : Fin 8) (s : State) :
    Answers s (execCalStale a s) := by
  unfold execCalStale
  repeat' first
    | with_reducible assumption | (intro)
    | with_reducible exact Evolves.refl _ | with_reducible apply Answers.next | with_reducible apply Answers.ite
    | with_reducible apply advanceTo_evolves | with_reducible apply State.flag_evolves | with_reducible apply Evolves.ite
    | split | (dsimp only; split)

end Sys2Proof.Machine
end

