-- ==== Sys2Proof/Laws/EvLoadCmds.lean ====
section
/-! SUPPORT. What the operations of Machine/LoadCmds.lean keep (Evolves). -/

namespace Sys2Proof.Machine

theorem loadReply_evolves {base s : State} (ev : Evolves base s) (c : Cmd) :
    Evolves base (loadReply c s).2 := by
  unfold loadReply
  repeat' first
    | with_reducible assumption | (intro)
    | with_reducible apply Evolves.ite | with_reducible apply Evolves.ite_snd
    | split | (dsimp only; split)
    | dsimp only

theorem superWrite_evolves {base x3 : State} (ev : Evolves base x3) (addr : Nat) (x1 : Nat) (x2 : List Byte) :
    Evolves base (superWrite addr x1 x2 x3) := by
  induction x1 generalizing x3 addr x2 with
  | zero =>
    unfold superWrite
    repeat' first
      | with_reducible assumption | (intro)
      | with_reducible apply writeDword_evolves
      | split | (dsimp only; split)
      | refine Evolves.fst (by with_reducible assumption) ?_ | refine Evolves.snd (by with_reducible assumption) ?_
  | succ fuel ih =>
    unfold superWrite
    repeat' first
      | with_reducible apply ih
      | with_reducible assumption | (intro)
      | with_reducible apply writeDword_evolves
      | split | (dsimp only; split)
      | refine Evolves.fst (by with_reducible assumption) ?_ | refine Evolves.snd (by with_reducible assumption) ?_

theorem superBytes_evolves {base s : State} (ev : Evolves base s) (addr : Nat) (bs : List Byte) :
    Evolves base (superBytes addr bs s) := by
  unfold superBytes
  repeat' first
    | with_reducible assumption | (intro)
    | with_reducible apply superWrite_evolves | with_reducible apply writeDword_evolves | with_reducible apply Evolves.ite
    | split | (dsimp only; split)

theorem execLoadProgram_evolves (m : Fin 16) (dma : Dma) (s : State) :
    Answers s (execLoadProgram m dma s) := by
  unfold execLoadProgram
  repeat' first
    | with_reducible assumption | (intro)
    | with_reducible exact Evolves.refl _ | with_reducible apply Answers.next | with_reducible apply Answers.ite
    | with_reducible apply loadReply_evolves | with_reducible apply State.setBytes_evolves
    | with_reducible apply runCommand_evolves | with_reducible apply refuse_evolves | with_reducible apply Evolves.ite
    | split | (dsimp only; split)

theorem execLoadSamples_evolves (m : Fin 16) (dma : Dma) (s : State) :
    Answers s (execLoadSamples m dma s) := by
  unfold execLoadSamples
  repeat' first
    | with_reducible assumption | (intro)
    | with_reducible exact Evolves.refl _ | with_reducible apply Answers.next | with_reducible apply Answers.ite
    | with_reducible apply loadReply_evolves | with_reducible apply State.setBytes_evolves
    | with_reducible apply runCommand_evolves | with_reducible apply refuse_evolves | with_reducible apply Evolves.ite
    | split | (dsimp only; split)

theorem execLoadDescriptors_evolves (m : Fin 16) (dma : Dma) (s : State) :
    Answers s (execLoadDescriptors m dma s) := by
  unfold execLoadDescriptors
  repeat' first
    | with_reducible assumption | (intro)
    | with_reducible exact Evolves.refl _ | with_reducible apply Answers.next | with_reducible apply Answers.ite
    | with_reducible apply loadReply_evolves | with_reducible apply superWrite_evolves
    | with_reducible apply runCommand_evolves | with_reducible apply refuse_evolves | with_reducible apply Evolves.ite
    | split | (dsimp only; split)

theorem execLoadKernel_evolves (m : Fin 16) (dma : Dma) (s : State) :
    Answers s (execLoadKernel m dma s) := by
  unfold execLoadKernel
  repeat' first
    | with_reducible assumption | (intro)
    | with_reducible exact Evolves.refl _ | with_reducible apply Answers.next | with_reducible apply Answers.ite
    | with_reducible apply loadReply_evolves | with_reducible apply superBytes_evolves
    | with_reducible apply runCommand_evolves | with_reducible apply refuse_evolves | with_reducible apply Evolves.ite
    | split | (dsimp only; split)

theorem execLoadDecision_evolves (m : Fin 16) (dma : Dma) (s : State) :
    Answers s (execLoadDecision m dma s) := by
  unfold execLoadDecision
  repeat' first
    | with_reducible assumption | (intro)
    | with_reducible exact Evolves.refl _ | with_reducible apply Answers.next | with_reducible apply Answers.ite
    | with_reducible apply loadReply_evolves | with_reducible apply superWrite_evolves
    | with_reducible apply runCommand_evolves | with_reducible apply refuse_evolves | with_reducible apply Evolves.ite
    | split | (dsimp only; split)

theorem execLoadAnalysis_evolves (m : Fin 16) (dma : Dma) (s : State) :
    Answers s (execLoadAnalysis m dma s) := by
  unfold execLoadAnalysis
  repeat' first
    | with_reducible assumption | (intro)
    | with_reducible exact Evolves.refl _ | with_reducible apply Answers.next | with_reducible apply Answers.ite
    | with_reducible apply loadReply_evolves | with_reducible apply superWrite_evolves
    | with_reducible apply runCommand_evolves | with_reducible apply refuse_evolves | with_reducible apply Evolves.ite
    | split | (dsimp only; split)

theorem recipeEach_evolves {base x3 : State} (ev : Evolves base x3) (mask : Nat) (c : List Byte) (x2 : Nat) :
    Evolves base (recipeEach mask c x2 x3).2 := by
  induction x2 generalizing x3 with
  | zero =>
    unfold recipeEach
    repeat' first
      | with_reducible assumption | (intro)
      | with_reducible apply recipeLoad_evolves | with_reducible apply Evolves.ite | with_reducible apply Evolves.ite_snd
      | split | (dsimp only; split)
      | refine Evolves.fst (by with_reducible assumption) ?_ | refine Evolves.snd (by with_reducible assumption) ?_
      | dsimp only
  | succ fuel ih =>
    unfold recipeEach
    repeat' first
      | with_reducible apply ih
      | with_reducible assumption | (intro)
      | with_reducible apply recipeLoad_evolves | with_reducible apply Evolves.ite | with_reducible apply Evolves.ite_snd
      | split | (dsimp only; split)
      | refine Evolves.fst (by with_reducible assumption) ?_ | refine Evolves.snd (by with_reducible assumption) ?_
      | dsimp only

theorem execLoadRecipe_evolves (m : Fin 16) (dma : Dma) (s : State) :
    Answers s (execLoadRecipe m dma s) := by
  unfold execLoadRecipe
  repeat' first
    | with_reducible assumption | (intro)
    | with_reducible exact Evolves.refl _ | with_reducible apply Answers.next | with_reducible apply Answers.ite
    | with_reducible apply recipeEach_evolves | with_reducible apply runCommand_evolves
    | with_reducible apply refuse_evolves | with_reducible apply Evolves.ite
    | split | (dsimp only; split)

theorem execStoreRecipe_evolves (m : Fin 16) (dma : Dma) (s : State) :
    Answers s (execStoreRecipe m dma s) := by
  unfold execStoreRecipe
  repeat' first
    | with_reducible assumption | (intro)
    | with_reducible exact Evolves.refl _ | with_reducible apply Answers.next | with_reducible apply Answers.ite
    | with_reducible apply runCommand_evolves | with_reducible apply refuse_evolves
    | with_reducible apply celCommand_evolves | with_reducible apply Evolves.ite
    | split | (dsimp only; split)
    | with_reducible apply Evolves.upd | with_reducible apply HostIf.Grows.refl | with_reducible apply HostIf.Grows.upd
    | with_reducible apply Excise.Grows.refl | with_reducible apply Excise.Grows.upd
    | exact ⟨id, Nat.le_refl _⟩ | exact ⟨id, Nat.le_succ _⟩

end Sys2Proof.Machine
end

