-- ==== Sys2Proof/Laws/EvExciseCmds.lean ====
section
/-! SUPPORT. What the operations of Machine/ExciseCmds.lean keep (Evolves). -/

namespace Sys2Proof.Machine

theorem execExcReport_evolves (m : Fin 16) (dma : Dma) (s : State) :
    Answers s (execExcReport m dma s) := by
  unfold execExcReport
  repeat' first
    | with_reducible assumption | (intro)
    | with_reducible exact Evolves.refl _ | with_reducible apply Answers.next | with_reducible apply Answers.ite
    | with_reducible apply freeBytes_evolves | with_reducible apply runCommand_evolves
    | with_reducible apply refuse_evolves | with_reducible apply Evolves.ite
    | split | (dsimp only; split)
    | refine Evolves.fst (by with_reducible assumption) ?_ | refine Evolves.snd (by with_reducible assumption) ?_

theorem execExcLogRead_evolves (m : Fin 16) (dma : Dma) (s : State) :
    Answers s (execExcLogRead m dma s) := by
  unfold execExcLogRead
  repeat' first
    | with_reducible assumption | (intro)
    | with_reducible exact Evolves.refl _ | with_reducible apply Answers.next | with_reducible apply Answers.ite
    | with_reducible apply runCommand_evolves | with_reducible apply refuse_evolves | with_reducible apply Evolves.ite
    | split | (dsimp only; split)

theorem execExcGetCert_evolves (m : Fin 16) (dma : Dma) (s : State) :
    Answers s (execExcGetCert m dma s) := by
  unfold execExcGetCert
  repeat' first
    | with_reducible assumption | (intro)
    | with_reducible exact Evolves.refl _ | with_reducible apply Answers.next | with_reducible apply Answers.ite
    | with_reducible apply runCommand_evolves | with_reducible apply refuse_evolves | with_reducible apply Evolves.ite
    | split | (dsimp only; split)

theorem voucherLoad_evolves {base s : State} (ev : Evolves base s) (v : List Byte) :
    Evolves base (voucherLoad v s) := by
  unfold voucherLoad
  repeat' first
    | with_reducible assumption | (intro)
    | with_reducible apply State.setAccount_evolves | with_reducible apply audit_evolves
    | with_reducible apply islandCommit_evolves | with_reducible apply State.event_evolves
    | (exact Account.balanced_feed (State.account_balanced ‹_› _) _ _ _)
    | (exact Account.balanced_credit (State.account_balanced ‹_› _) _ _)
    | split | (dsimp only; split)

theorem execExcLoadVoucher_evolves (m : Fin 16) (dma : Dma) (s : State) :
    Answers s (execExcLoadVoucher m dma s) := by
  unfold execExcLoadVoucher
  repeat' first
    | with_reducible assumption | (intro)
    | with_reducible exact Evolves.refl _ | with_reducible apply Answers.next | with_reducible apply Answers.ite
    | with_reducible apply audit_evolves | with_reducible apply voucherLoad_evolves
    | with_reducible apply State.event_evolves | with_reducible apply runCommand_evolves
    | with_reducible apply refuse_evolves | with_reducible apply celCommand_evolves | with_reducible apply Evolves.ite
    | split | (dsimp only; split)

theorem execExcEnforce_evolves (m : Fin 16) (dma : Dma) (s : State) :
    Answers s (execExcEnforce m dma s) := by
  unfold execExcEnforce
  repeat' first
    | with_reducible assumption | (intro)
    | with_reducible exact Evolves.refl _ | with_reducible apply Answers.next | with_reducible apply Answers.ite
    | with_reducible apply State.modIsland_evolves | with_reducible apply audit_evolves
    | with_reducible apply runCommand_evolves | with_reducible apply refuse_evolves | with_reducible apply Evolves.ite
    | (exact ‹IslandData.Sound _›)
    | split | (dsimp only; split)

theorem execExcSetVoucherKey_evolves (m : Fin 16) (dma : Dma) (s : State) :
    Answers s (execExcSetVoucherKey m dma s) := by
  unfold execExcSetVoucherKey
  repeat' first
    | with_reducible assumption | (intro)
    | with_reducible exact Evolves.refl _ | with_reducible apply Answers.next | with_reducible apply Answers.ite
    | with_reducible apply State.modIsland_evolves | with_reducible apply audit_evolves
    | with_reducible apply islandCommit_evolves | with_reducible apply runCommand_evolves
    | with_reducible apply refuse_evolves | with_reducible apply celCommand_evolves | with_reducible apply Evolves.ite
    | (exact ‹IslandData.Sound _›)
    | split | (dsimp only; split)

theorem exciseLoad_evolves {base s : State} (ev : Evolves base s) (c : List Byte) :
    Evolves base (exciseLoad c s) := by
  unfold exciseLoad
  repeat' first
    | with_reducible assumption | (intro)
    | with_reducible apply State.modIsland_evolves | with_reducible apply audit_evolves
    | with_reducible apply islandCommit_evolves | with_reducible apply State.event_evolves
    | (exact ‹IslandData.Sound _›)
    | split | (dsimp only; split)

theorem execExcUpdate_evolves (m : Fin 16) (dma : Dma) (s : State) :
    Answers s (execExcUpdate m dma s) := by
  unfold execExcUpdate
  repeat' first
    | with_reducible assumption | (intro)
    | with_reducible exact Evolves.refl _ | with_reducible apply Answers.next | with_reducible apply Answers.ite
    | with_reducible apply exciseLoad_evolves | with_reducible apply runCommand_evolves
    | with_reducible apply refuse_evolves | with_reducible apply celCommand_evolves | with_reducible apply Evolves.ite
    | split | (dsimp only; split)

theorem execExcSeal_evolves (m : Fin 16) (dma : Dma) (s : State) :
    Answers s (execExcSeal m dma s) := by
  unfold execExcSeal
  repeat' first
    | with_reducible assumption | (intro)
    | with_reducible exact Evolves.refl _ | with_reducible apply Answers.next | with_reducible apply Answers.ite
    | with_reducible apply State.modIsland_evolves | with_reducible apply audit_evolves
    | with_reducible apply islandCommit_evolves | with_reducible apply State.event_evolves
    | with_reducible apply runCommand_evolves | with_reducible apply refuse_evolves
    | with_reducible apply celCommand_evolves | with_reducible apply Evolves.ite
    | (exact ‹IslandData.Sound _›)
    | split | (dsimp only; split)

theorem execExciseFeed_evolves (s : State) :
    Answers s (execExciseFeed s) := by
  unfold execExciseFeed
  repeat' first
    | with_reducible assumption | (intro)
    | with_reducible exact Evolves.refl _ | with_reducible apply Answers.next | with_reducible apply Answers.ite
    | with_reducible apply advanceTo_evolves | with_reducible apply islandFeed_evolves
    | with_reducible apply Excise.Grows.cur | with_reducible apply Excise.Grows.saved
    | (have hb := ‹Excise.Sound _›; exact ⟨List.length_take_le _ _, hb.1.2⟩) | (have hb := ‹Excise.Sound _›; exact hb.1)
    | (have hb := ‹Excise.Sound _›; exact hb.2)
    | split | (dsimp only; split)
    | with_reducible apply Evolves.upd | with_reducible apply HostIf.Grows.refl | with_reducible apply HostIf.Grows.upd
    | with_reducible apply Excise.Grows.refl | with_reducible apply Excise.Grows.upd
    | exact ⟨id, Nat.le_refl _⟩ | exact ⟨id, Nat.le_succ _⟩

theorem execLimitFeed_evolves (s : State) :
    Answers s (execLimitFeed s) := by
  unfold execLimitFeed
  repeat' first
    | with_reducible assumption | (intro)
    | with_reducible exact Evolves.refl _ | with_reducible apply Answers.next | with_reducible apply Answers.ite
    | with_reducible apply advanceTo_evolves | with_reducible apply limitFeed_evolves
    | with_reducible apply Excise.Grows.cur | with_reducible apply Excise.Grows.saved
    | (have hb := ‹Excise.Sound _›; exact ⟨List.length_take_le _ _, hb.1.2⟩) | (have hb := ‹Excise.Sound _›; exact hb.1)
    | (have hb := ‹Excise.Sound _›; exact hb.2)
    | split | (dsimp only; split)
    | with_reducible apply Evolves.upd | with_reducible apply HostIf.Grows.refl | with_reducible apply HostIf.Grows.upd
    | with_reducible apply Excise.Grows.refl | with_reducible apply Excise.Grows.upd
    | exact ⟨id, Nat.le_refl _⟩ | exact ⟨id, Nat.le_succ _⟩

theorem execLimitStale_evolves (s : State) :
    Answers s (execLimitStale s) := by
  unfold execLimitStale
  repeat' first
    | with_reducible assumption | (intro)
    | with_reducible exact Evolves.refl _ | with_reducible apply Answers.next | with_reducible apply Answers.ite
    | with_reducible apply advanceTo_evolves
    | split | (dsimp only; split)
    | refine Evolves.fst (by with_reducible assumption) ?_ | refine Evolves.snd (by with_reducible assumption) ?_

theorem execIslandCommit_evolves (s : State) :
    Answers s (execIslandCommit s) := by
  unfold execIslandCommit
  repeat' first
    | with_reducible assumption | (intro)
    | with_reducible exact Evolves.refl _ | with_reducible apply Answers.next | with_reducible apply Answers.ite
    | with_reducible apply islandCommit_evolves
    | split | (dsimp only; split)

theorem execVddExcFail_evolves (done : Bool) (s : State) :
    Answers s (execVddExcFail done s) := by
  unfold execVddExcFail
  repeat' first
    | with_reducible assumption | (intro)
    | with_reducible exact Evolves.refl _ | with_reducible apply Answers.next | with_reducible apply Answers.ite
    | with_reducible apply islandDown_evolves | with_reducible apply Evolves.ite
    | with_reducible apply Excise.Grows.cur | with_reducible apply Excise.Grows.saved
    | (have hb := ‹Excise.Sound _›; exact ⟨List.length_take_le _ _, hb.1.2⟩) | (have hb := ‹Excise.Sound _›; exact hb.1)
    | (have hb := ‹Excise.Sound _›; exact hb.2)
    | split | (dsimp only; split)
    | with_reducible apply Evolves.upd | with_reducible apply HostIf.Grows.refl | with_reducible apply HostIf.Grows.upd
    | with_reducible apply Excise.Grows.refl | with_reducible apply Excise.Grows.upd
    | exact ⟨id, Nat.le_refl _⟩ | exact ⟨id, Nat.le_succ _⟩

theorem execVddExcReturn_evolves (s : State) :
    Answers s (execVddExcReturn s) := by
  unfold execVddExcReturn
  repeat' first
    | with_reducible assumption | (intro)
    | with_reducible exact Evolves.refl _ | with_reducible apply Answers.next | with_reducible apply Answers.ite
    | with_reducible apply ledgerBreak_evolves | with_reducible apply islandStart_evolves
    | with_reducible apply Evolves.ite
    | split | (dsimp only; split)

theorem execIslandRestart_evolves (s : State) :
    Answers s (execIslandRestart s) := by
  unfold execIslandRestart
  repeat' first
    | with_reducible assumption | (intro)
    | with_reducible exact Evolves.refl _ | with_reducible apply Answers.next | with_reducible apply Answers.ite
    | with_reducible apply islandDown_evolves | with_reducible apply islandStart_evolves
    | with_reducible apply Evolves.ite
    | with_reducible apply Excise.Grows.cur | with_reducible apply Excise.Grows.saved
    | (have hb := ‹Excise.Sound _›; exact ⟨List.length_take_le _ _, hb.1.2⟩) | (have hb := ‹Excise.Sound _›; exact hb.1)
    | (have hb := ‹Excise.Sound _›; exact hb.2)
    | split | (dsimp only; split)
    | with_reducible apply Evolves.upd | with_reducible apply HostIf.Grows.refl | with_reducible apply HostIf.Grows.upd
    | with_reducible apply Excise.Grows.refl | with_reducible apply Excise.Grows.upd
    | exact ⟨id, Nat.le_refl _⟩ | exact ⟨id, Nat.le_succ _⟩

theorem execExcViewRefresh_evolves (s : State) :
    Answers s (execExcViewRefresh s) := by
  unfold execExcViewRefresh
  repeat' first
    | with_reducible assumption | (intro)
    | with_reducible exact Evolves.refl _ | with_reducible apply Answers.next | with_reducible apply Answers.ite
    | with_reducible apply advanceTo_evolves | with_reducible apply excView_evolves
    | with_reducible apply Excise.Grows.cur | with_reducible apply Excise.Grows.saved
    | (have hb := ‹Excise.Sound _›; exact ⟨List.length_take_le _ _, hb.1.2⟩) | (have hb := ‹Excise.Sound _›; exact hb.1)
    | (have hb := ‹Excise.Sound _›; exact hb.2)
    | split | (dsimp only; split)
    | with_reducible apply Evolves.upd | with_reducible apply HostIf.Grows.refl | with_reducible apply HostIf.Grows.upd
    | with_reducible apply Excise.Grows.refl | with_reducible apply Excise.Grows.upd
    | exact ⟨id, Nat.le_refl _⟩ | exact ⟨id, Nat.le_succ _⟩

end Sys2Proof.Machine
end

