-- ==== Sys2Proof/Laws/EvSecurityCmds.lean ====
section
/-! SUPPORT. What the operations of Machine/SecurityCmds.lean keep (Evolves). -/

namespace Sys2Proof.Machine

theorem setLifecycle_evolves {base s : State} (ev : Evolves base s) (l : Nat) :
    Evolves base (setLifecycle l s) := by
  unfold setLifecycle
  repeat' first
    | with_reducible assumption | (intro)
    | with_reducible apply State.set_evolves | with_reducible apply State.event_evolves
    | split | (dsimp only; split)

theorem takeOwnership_evolves {base s : State} (ev : Evolves base s) (p : List Byte) :
    Evolves base (takeOwnership p s) := by
  unfold takeOwnership
  repeat' first
    | with_reducible assumption | (intro)
    | with_reducible apply State.set_evolves | with_reducible apply setLifecycle_evolves
    | with_reducible apply State.setB_evolves | with_reducible apply Evolves.foldl
    | with_reducible apply Evolves.foldl_snd | with_reducible apply Evolves.foldl_fst
    | split | (dsimp only; split)
    | with_reducible apply Evolves.upd | with_reducible apply HostIf.Grows.refl | with_reducible apply HostIf.Grows.upd
    | with_reducible apply Excise.Grows.refl | with_reducible apply Excise.Grows.upd
    | exact ⟨id, Nat.le_refl _⟩ | exact ⟨id, Nat.le_succ _⟩

theorem execSecTakeOwnership_evolves (m : Fin 16) (dma : Dma) (s : State) :
    Answers s (execSecTakeOwnership m dma s) := by
  unfold execSecTakeOwnership
  repeat' first
    | with_reducible assumption | (intro)
    | with_reducible exact Evolves.refl _ | with_reducible apply Answers.next | with_reducible apply Answers.ite
    | with_reducible apply takeOwnership_evolves | with_reducible apply runCommand_evolves
    | with_reducible apply refuse_evolves | with_reducible apply celCommand_evolves | with_reducible apply Evolves.ite
    | split | (dsimp only; split)

theorem execSecSetField_evolves (m : Fin 16) (dma : Dma) (s : State) :
    Answers s (execSecSetField m dma s) := by
  unfold execSecSetField
  repeat' first
    | with_reducible assumption | (intro)
    | with_reducible exact Evolves.refl _ | with_reducible apply Answers.next | with_reducible apply Answers.ite
    | with_reducible apply setLifecycle_evolves | with_reducible apply runCommand_evolves
    | with_reducible apply refuse_evolves | with_reducible apply celCommand_evolves | with_reducible apply Evolves.ite
    | split | (dsimp only; split)

theorem emptySlot_evolves {base s : State} (ev : Evolves base s) (k : Nat) :
    Evolves base (emptySlot k s) := by
  unfold emptySlot
  repeat' first
    | with_reducible assumption | (intro)
    | with_reducible apply State.set_evolves | with_reducible apply State.setB_evolves
    | with_reducible apply Evolves.foldl | with_reducible apply Evolves.foldl_snd | with_reducible apply Evolves.foldl_fst
    | split | (dsimp only; split)

theorem execSecRma_evolves (m : Fin 16) (dma : Dma) (s : State) :
    Answers s (execSecRma m dma s) := by
  unfold execSecRma
  repeat' first
    | with_reducible assumption | (intro)
    | with_reducible exact Evolves.refl _ | with_reducible apply Answers.next | with_reducible apply Answers.ite
    | with_reducible apply setLifecycle_evolves | with_reducible apply emptySlot_evolves
    | with_reducible apply runCommand_evolves | with_reducible apply refuse_evolves
    | with_reducible apply celCommand_evolves | with_reducible apply Evolves.ite | with_reducible apply Evolves.foldl
    | with_reducible apply Evolves.foldl_snd | with_reducible apply Evolves.foldl_fst
    | split | (dsimp only; split)
    | with_reducible apply Evolves.upd | with_reducible apply HostIf.Grows.refl | with_reducible apply HostIf.Grows.upd
    | with_reducible apply Excise.Grows.refl | with_reducible apply Excise.Grows.upd
    | exact ⟨id, Nat.le_refl _⟩ | exact ⟨id, Nat.le_succ _⟩

theorem installKey_evolves {base s : State} (ev : Evolves base s) (k : Nat) (cert : List Byte) :
    Evolves base (installKey k cert s) := by
  unfold installKey
  repeat' first
    | with_reducible assumption | (intro)
    | with_reducible apply State.set_evolves | with_reducible apply State.setB_evolves
    | with_reducible apply State.flagAlways_evolves | with_reducible apply Evolves.foldl
    | with_reducible apply Evolves.foldl_snd | with_reducible apply Evolves.foldl_fst
    | split | (dsimp only; split)

theorem execSecAddKey_evolves (m : Fin 16) (dma : Dma) (s : State) :
    Answers s (execSecAddKey m dma s) := by
  unfold execSecAddKey
  repeat' first
    | with_reducible assumption | (intro)
    | with_reducible exact Evolves.refl _ | with_reducible apply Answers.next | with_reducible apply Answers.ite
    | with_reducible apply installKey_evolves | with_reducible apply runCommand_evolves
    | with_reducible apply refuse_evolves | with_reducible apply celCommand_evolves | with_reducible apply Evolves.ite
    | split | (dsimp only; split)

theorem execSecRevokeKey_evolves (m : Fin 16) (dma : Dma) (s : State) :
    Answers s (execSecRevokeKey m dma s) := by
  unfold execSecRevokeKey
  repeat' first
    | with_reducible assumption | (intro)
    | with_reducible exact Evolves.refl _ | with_reducible apply Answers.next | with_reducible apply Answers.ite
    | with_reducible apply emptySlot_evolves | with_reducible apply State.flagAlways_evolves
    | with_reducible apply runCommand_evolves | with_reducible apply refuse_evolves
    | with_reducible apply celCommand_evolves | with_reducible apply Evolves.ite
    | split | (dsimp only; split)

theorem loadFirmware_evolves {base s : State} (ev : Evolves base s) (c : List Byte) :
    Evolves base (loadFirmware c s) := by
  unfold loadFirmware
  repeat' first
    | with_reducible assumption | (intro)
    | with_reducible apply Evolves.ite
    | split | (dsimp only; split)
    | with_reducible apply Evolves.upd | with_reducible apply HostIf.Grows.refl | with_reducible apply HostIf.Grows.upd
    | with_reducible apply Excise.Grows.refl | with_reducible apply Excise.Grows.upd
    | exact ⟨id, Nat.le_refl _⟩ | exact ⟨id, Nat.le_succ _⟩

theorem execSecLoadFw_evolves (m : Fin 16) (dma : Dma) (s : State) :
    Answers s (execSecLoadFw m dma s) := by
  unfold execSecLoadFw
  repeat' first
    | with_reducible assumption | (intro)
    | with_reducible exact Evolves.refl _ | with_reducible apply Answers.next | with_reducible apply Answers.ite
    | with_reducible apply loadFirmware_evolves | with_reducible apply runCommand_evolves
    | with_reducible apply refuse_evolves | with_reducible apply celCommand_evolves | with_reducible apply Evolves.ite
    | split | (dsimp only; split)

theorem execSecSetRollback_evolves (m : Fin 16) (dma : Dma) (s : State) :
    Answers s (execSecSetRollback m dma s) := by
  unfold execSecSetRollback
  repeat' first
    | with_reducible assumption | (intro)
    | with_reducible exact Evolves.refl _ | with_reducible apply Answers.next | with_reducible apply Answers.ite
    | with_reducible apply State.set_evolves | with_reducible apply runCommand_evolves
    | with_reducible apply celCommand_evolves
    | split | (dsimp only; split)

theorem execSecDebugChallenge_evolves (m : Fin 16) (dma : Dma) (s : State) :
    Answers s (execSecDebugChallenge m dma s) := by
  unfold execSecDebugChallenge
  repeat' first
    | with_reducible assumption | (intro)
    | with_reducible exact Evolves.refl _ | with_reducible apply Answers.next | with_reducible apply Answers.ite
    | with_reducible apply freeBytes_evolves | with_reducible apply State.setMbx_evolves
    | with_reducible apply runCommand_evolves
    | split | (dsimp only; split)

theorem openDebug_evolves {base s : State} (ev : Evolves base s) (role : Nat) :
    Evolves base (openDebug role s).2 := by
  unfold openDebug
  repeat' first
    | with_reducible assumption | (intro)
    | with_reducible apply State.set_evolves | with_reducible apply State.setB_evolves
    | with_reducible apply audit_evolves | with_reducible apply State.event_evolves | with_reducible apply refuse_evolves
    | with_reducible apply celCommand_evolves | with_reducible apply Evolves.ite | with_reducible apply Evolves.ite_snd
    | split | (dsimp only; split)
    | dsimp only

theorem execSecDebugOpen_evolves (m : Fin 16) (dma : Dma) (s : State) :
    Answers s (execSecDebugOpen m dma s) := by
  unfold execSecDebugOpen
  repeat' first
    | with_reducible assumption | (intro)
    | with_reducible exact Evolves.refl _ | with_reducible apply Answers.next | with_reducible apply Answers.ite
    | with_reducible apply countFail_evolves | with_reducible apply openDebug_evolves
    | with_reducible apply State.setMbx_evolves | with_reducible apply runCommand_evolves
    | with_reducible apply refuse_evolves | with_reducible apply Evolves.ite
    | split | (dsimp only; split)
    | refine Evolves.fst (by with_reducible assumption) ?_ | refine Evolves.snd (by with_reducible assumption) ?_

theorem parkWrite_evolves {base s : State} (ev : Evolves base s) (kind : Nat) (first : Nat) (es : List Nat) :
    Evolves base (parkWrite kind first es s) := by
  unfold parkWrite
  repeat' first
    | with_reducible assumption | (intro)
    | with_reducible apply State.set_evolves | with_reducible apply showRfoPark_evolves
    | with_reducible apply showZPark_evolves | with_reducible apply Evolves.ite | with_reducible apply Evolves.foldl
    | with_reducible apply Evolves.foldl_snd | with_reducible apply Evolves.foldl_fst
    | with_reducible apply Evolves.getD
    | split | (dsimp only; split)
    | with_reducible apply Evolves.upd | with_reducible apply HostIf.Grows.refl | with_reducible apply HostIf.Grows.upd
    | with_reducible apply Excise.Grows.refl | with_reducible apply Excise.Grows.upd
    | exact ⟨id, Nat.le_refl _⟩ | exact ⟨id, Nat.le_succ _⟩

theorem execParkWrite_evolves (m : Fin 16) (dma : Dma) (s : State) :
    Answers s (execParkWrite m dma s) := by
  unfold execParkWrite
  repeat' first
    | with_reducible assumption | (intro)
    | with_reducible exact Evolves.refl _ | with_reducible apply Answers.next | with_reducible apply Answers.ite
    | with_reducible apply parkWrite_evolves | with_reducible apply runCommand_evolves
    | with_reducible apply refuse_evolves | with_reducible apply celCommand_evolves | with_reducible apply Evolves.ite
    | split | (dsimp only; split)

theorem execParkRead_evolves (m : Fin 16) (dma : Dma) (s : State) :
    Answers s (execParkRead m dma s) := by
  unfold execParkRead
  repeat' first
    | with_reducible assumption | (intro)
    | with_reducible exact Evolves.refl _ | with_reducible apply Answers.next | with_reducible apply Answers.ite
    | with_reducible apply runCommand_evolves
    | with_reducible apply Evolves.getD
    | split | (dsimp only; split)

end Sys2Proof.Machine
end

