-- ==== Sys2Proof/Laws/EvSessionCmds.lean ====
section
/-! SUPPORT. What the operations of Machine/SessionCmds.lean keep (Evolves). -/

namespace Sys2Proof.Machine

theorem execMbxRing_evolves (r : Req) (m : Fin 16) (s : State) :
    Answers s (execMbxRing r m s) := by
  unfold execMbxRing
  repeat' first
    | with_reducible assumption | (intro)
    | with_reducible exact Evolves.refl _ | with_reducible apply Answers.next | with_reducible apply Answers.ite
    | with_reducible apply privileged_evolves | with_reducible apply ring_evolves | with_reducible apply Evolves.ite
    | split | (dsimp only; split)

theorem execSessionTimeout_evolves (m : Fin 16) (s : State) :
    Answers s (execSessionTimeout m s) := by
  unfold execSessionTimeout
  repeat' first
    | with_reducible assumption | (intro)
    | with_reducible exact Evolves.refl _ | with_reducible apply Answers.next | with_reducible apply Answers.ite
    | with_reducible apply advanceTo_evolves | with_reducible apply closeSession_evolves
    | split | (dsimp only; split)
    | refine Evolves.fst (by with_reducible assumption) ?_ | refine Evolves.snd (by with_reducible assumption) ?_

theorem execLockoutExpiry_evolves (m : Fin 16) (s : State) :
    Answers s (execLockoutExpiry m s) := by
  unfold execLockoutExpiry
  repeat' first
    | with_reducible assumption | (intro)
    | with_reducible exact Evolves.refl _ | with_reducible apply Answers.next | with_reducible apply Answers.ite
    | with_reducible apply State.setB_evolves | with_reducible apply advanceTo_evolves
    | with_reducible apply State.setMbx_evolves
    | split | (dsimp only; split)
    | refine Evolves.fst (by with_reducible assumption) ?_ | refine Evolves.snd (by with_reducible assumption) ?_

theorem execGetInfo_evolves (m : Fin 16) (dma : Dma) (s : State) :
    Answers s (execGetInfo m dma s) := by
  unfold execGetInfo
  repeat' first
    | with_reducible assumption | (intro)
    | with_reducible exact Evolves.refl _ | with_reducible apply Answers.next | with_reducible apply Answers.ite
    | with_reducible apply runCommand_evolves
    | split | (dsimp only; split)

theorem execGetNonce_evolves (m : Fin 16) (dma : Dma) (s : State) :
    Answers s (execGetNonce m dma s) := by
  unfold execGetNonce
  repeat' first
    | with_reducible assumption | (intro)
    | with_reducible exact Evolves.refl _ | with_reducible apply Answers.next | with_reducible apply Answers.ite
    | with_reducible apply freeBytes_evolves | with_reducible apply State.setMbx_evolves
    | with_reducible apply runCommand_evolves | with_reducible apply refuse_evolves | with_reducible apply Evolves.ite
    | split | (dsimp only; split)
    | refine Evolves.fst (by with_reducible assumption) ?_ | refine Evolves.snd (by with_reducible assumption) ?_

theorem authFail_evolves {base s : State} (ev : Evolves base s) (m : Nat) :
    Evolves base (authFail m s).2 := by
  unfold authFail
  repeat' first
    | with_reducible assumption | (intro)
    | with_reducible apply countFail_evolves
    | split | (dsimp only; split)
    | dsimp only

theorem openSession_evolves {base s : State} (ev : Evolves base s) (m : Nat) (r : Nat) (nonce : List Byte) (mac : List
    Byte) :
    Evolves base (openSession m r nonce mac s).2 := by
  unfold openSession
  repeat' first
    | with_reducible assumption | (intro)
    | with_reducible apply State.setB_evolves | with_reducible apply State.fresh_evolves
    | with_reducible apply authFail_evolves | with_reducible apply State.setMbx_evolves | with_reducible apply Evolves.ite
    | with_reducible apply Evolves.ite_snd
    | split | (dsimp only; split)
    | refine Evolves.fst (by with_reducible assumption) ?_ | refine Evolves.snd (by with_reducible assumption) ?_
    | dsimp only

theorem execOpenSession_evolves (m : Fin 16) (dma : Dma) (s : State) :
    Answers s (execOpenSession m dma s) := by
  unfold execOpenSession
  repeat' first
    | with_reducible assumption | (intro)
    | with_reducible exact Evolves.refl _ | with_reducible apply Answers.next | with_reducible apply Answers.ite
    | with_reducible apply openSession_evolves | with_reducible apply State.setMbx_evolves
    | with_reducible apply runCommand_evolves | with_reducible apply refuse_evolves | with_reducible apply Evolves.ite
    | split | (dsimp only; split)
    | refine Evolves.fst (by with_reducible assumption) ?_ | refine Evolves.snd (by with_reducible assumption) ?_

theorem execCloseSession_evolves (m : Fin 16) (dma : Dma) (s : State) :
    Answers s (execCloseSession m dma s) := by
  unfold execCloseSession
  repeat' first
    | with_reducible assumption | (intro)
    | with_reducible exact Evolves.refl _ | with_reducible apply Answers.next | with_reducible apply Answers.ite
    | with_reducible apply closeSession_evolves | with_reducible apply runCommand_evolves
    | split | (dsimp only; split)

theorem execSetKey_evolves (m : Fin 16) (dma : Dma) (s : State) :
    Answers s (execSetKey m dma s) := by
  unfold execSetKey
  repeat' first
    | with_reducible assumption | (intro)
    | with_reducible exact Evolves.refl _ | with_reducible apply Answers.next | with_reducible apply Answers.ite
    | with_reducible apply runCommand_evolves | with_reducible apply refuse_evolves
    | with_reducible apply celCommand_evolves | with_reducible apply Evolves.ite
    | split | (dsimp only; split)
    | with_reducible apply Evolves.upd | with_reducible apply HostIf.Grows.refl | with_reducible apply HostIf.Grows.upd
    | with_reducible apply Excise.Grows.refl | with_reducible apply Excise.Grows.upd
    | exact ⟨id, Nat.le_refl _⟩ | exact ⟨id, Nat.le_succ _⟩

theorem execEcho_evolves (m : Fin 16) (dma : Dma) (s : State) :
    Answers s (execEcho m dma s) := by
  unfold execEcho
  repeat' first
    | with_reducible assumption | (intro)
    | with_reducible exact Evolves.refl _ | with_reducible apply Answers.next | with_reducible apply Answers.ite
    | with_reducible apply runCommand_evolves
    | split | (dsimp only; split)

theorem execSetSecRid_evolves (m : Fin 16) (dma : Dma) (s : State) :
    Answers s (execSetSecRid m dma s) := by
  unfold execSetSecRid
  repeat' first
    | with_reducible assumption | (intro)
    | with_reducible exact Evolves.refl _ | with_reducible apply Answers.next | with_reducible apply Answers.ite
    | with_reducible apply secRidWrite_evolves | with_reducible apply runCommand_evolves
    | with_reducible apply refuse_evolves | with_reducible apply celCommand_evolves | with_reducible apply Evolves.ite
    | split | (dsimp only; split)
    | with_reducible apply Evolves.upd | with_reducible apply HostIf.Grows.refl | with_reducible apply HostIf.Grows.upd
    | with_reducible apply Excise.Grows.refl | with_reducible apply Excise.Grows.upd
    | exact ⟨id, Nat.le_refl _⟩ | exact ⟨id, Nat.le_succ _⟩

end Sys2Proof.Machine
end

