-- ==== Sys2Proof/Laws/EvCellarCmds.lean ====
section
/-! SUPPORT. What the operations of Machine/CellarCmds.lean keep (Evolves). -/

namespace Sys2Proof.Machine

theorem cellarCommand_evolves (m : Fin 16) (dma : Dma) (s : State) :
    Answers s (cellarCommand m dma s) := by
  unfold cellarCommand
  repeat' first
    | with_reducible assumption | (intro)
    | with_reducible exact Evolves.refl _ | with_reducible apply Answers.next | with_reducible apply Answers.ite
    | with_reducible apply execSecTakeOwnership_evolves | with_reducible apply execCalStore_evolves
    | with_reducible apply execSecSetField_evolves | with_reducible apply execSecRma_evolves
    | with_reducible apply execSecAddKey_evolves | with_reducible apply execSetKey_evolves
    | with_reducible apply execSecRevokeKey_evolves | with_reducible apply execSetSecRid_evolves
    | with_reducible apply execExcLoadVoucher_evolves | with_reducible apply execSecLoadFw_evolves
    | with_reducible apply execStoreRecipe_evolves | with_reducible apply execSecSetRollback_evolves
    | with_reducible apply execExcSetVoucherKey_evolves | with_reducible apply execSecDebugOpen_evolves
    | with_reducible apply execExcUpdate_evolves | with_reducible apply execExcSeal_evolves
    | with_reducible apply execParkWrite_evolves
    | split | (dsimp only; split)
    | refine Evolves.fst (by with_reducible assumption) ?_ | refine Evolves.snd (by with_reducible assumption) ?_

theorem execCellarTimeout_evolves (q : Queued) (s : State) :
    Answers s (execCellarTimeout q s) := by
  unfold execCellarTimeout
  have hu : Evolves s { s with cel := { s.cel with late := true } } :=
    Evolves.upd (Evolves.refl s) _ _ _ _ _ _ _ _ _ _ _ _ _ _ _ _ _ _ _ _ _ _ _ _ _ _ _ _ _ _ _ _
      (HostIf.Grows.refl _) (Excise.Grows.refl _)
  obtain ⟨t, ht, k⟩ := cellarCommand_evolves q.m q.dma { s with cel := { s.cel with late := true } }
  refine Answers.ite (Answers.next (Evolves.refl _)) ?_
  dsimp only
  rw [ht]
  exact Answers.next (Evolves.upd (hu.trans k) _ _ _ _ _ _ _ _ _ _ _ _ _ _ _ _ _ _ _ _ _ _ _ _ _ _ _ _ _ _ _ _
    (HostIf.Grows.refl _) (Excise.Grows.refl _))

end Sys2Proof.Machine
end

