-- ==== Sys2Proof/Laws/EvMgmtFrames.lean ====
section
/-! SUPPORT. What the operations of Machine/MgmtFrames.lean keep (Evolves). -/

namespace Sys2Proof.Machine

theorem mgmtBusy_evolves {base s : State} (ev : Evolves base s) (m : Nat) (origin : Origin) (body : List Byte) :
    Evolves base (mgmtBusy m origin body s) := by
  unfold mgmtBusy
  repeat' first
    | with_reducible assumption | (intro)
    | with_reducible apply mgmtReply_evolves
    | split | (dsimp only; split)

theorem mgmtCommand_evolves {base s : State} (ev : Evolves base s) (m : Nat) (origin : Origin) (body : List Byte) :
    Evolves base (mgmtCommand m origin body s) := by
  unfold mgmtCommand
  repeat' first
    | with_reducible assumption | (intro)
    | with_reducible apply State.setBytes_evolves | with_reducible apply State.setMbx_evolves
    | with_reducible apply post_evolves
    | split | (dsimp only; split)

theorem mgmtHere_evolves {base s : State} (ev : Evolves base s) (origin : Origin) (body : List Byte) :
    Evolves base (mgmtHere origin body s) := by
  unfold mgmtHere
  repeat' first
    | with_reducible assumption | (intro)
    | with_reducible apply mgmtBusy_evolves | with_reducible apply mgmtCommand_evolves | with_reducible apply Evolves.ite
    | split | (dsimp only; split)

theorem mgmtRelay_evolves {base s : State} (ev : Evolves base s) (e : Nat) (station : Nat) (body : List Byte) :
    Evolves base (mgmtRelay e station body s) := by
  unfold mgmtRelay
  repeat' first
    | with_reducible assumption | (intro)
    | with_reducible apply relayContent_evolves
    | split | (dsimp only; split)
    | with_reducible apply Evolves.upd | with_reducible apply HostIf.Grows.refl | with_reducible apply HostIf.Grows.upd
    | with_reducible apply Excise.Grows.refl | with_reducible apply Excise.Grows.upd
    | exact ⟨id, Nat.le_refl _⟩ | exact ⟨id, Nat.le_succ _⟩

theorem relayArrive_evolves {base s : State} (ev : Evolves base s) (dev : Nat) (content : List Byte) :
    Evolves base (relayArrive dev content s) := by
  unfold relayArrive
  repeat' first
    | with_reducible assumption | (intro)
    | with_reducible apply mgmtHere_evolves | with_reducible apply State.incSat_evolves
    | with_reducible apply mgmtFrame_evolves | with_reducible apply Evolves.ite
    | split | (dsimp only; split)
    | refine Evolves.fst (by with_reducible assumption) ?_ | refine Evolves.snd (by with_reducible assumption) ?_
    | with_reducible apply Evolves.upd | with_reducible apply HostIf.Grows.refl | with_reducible apply HostIf.Grows.upd
    | with_reducible apply Excise.Grows.refl | with_reducible apply Excise.Grows.upd
    | exact ⟨id, Nat.le_refl _⟩ | exact ⟨id, Nat.le_succ _⟩

theorem relayFragment_evolves {base s : State} (ev : Evolves base s) (dev : Nat) (data : Nat) :
    Evolves base (relayFragment dev data s) := by
  unfold relayFragment
  repeat' first
    | with_reducible assumption | (intro)
    | with_reducible apply relayArrive_evolves | with_reducible apply Evolves.ite
    | split | (dsimp only; split)
    | refine Evolves.fst (by with_reducible assumption) ?_ | refine Evolves.snd (by with_reducible assumption) ?_
    | with_reducible apply Evolves.upd | with_reducible apply HostIf.Grows.refl | with_reducible apply HostIf.Grows.upd
    | with_reducible apply Excise.Grows.refl | with_reducible apply Excise.Grows.upd
    | exact ⟨id, Nat.le_refl _⟩ | exact ⟨id, Nat.le_succ _⟩

end Sys2Proof.Machine
end

