-- ==== Sys2Proof/Laws/EvEtherCmds.lean ====
section
/-! SUPPORT. What the operations of Machine/EtherCmds.lean keep (Evolves). -/

namespace Sys2Proof.Machine

theorem ethFetch_evolves {base s : State} (ev : Evolves base s) (q : Nat) (buf : List Byte) :
    Evolves base (ethFetch q buf s) := by
  unfold ethFetch
  repeat' first
    | with_reducible assumption | (intro)
    | with_reducible apply State.append_evolves | with_reducible apply Evolves.ite
    | split | (dsimp only; split)

theorem ethServe_evolves {base s : State} (ev : Evolves base s) (e : Nat) :
    Evolves base (ethServe e s) := by
  unfold ethServe
  repeat' first
    | with_reducible assumption | (intro)
    | with_reducible apply advanceTo_evolves | with_reducible apply txStamp_evolves
    | with_reducible apply ethComplete_evolves | with_reducible apply ethSend_evolves | with_reducible apply Evolves.ite
    | split | (dsimp only; split)
    | refine Evolves.fst (by with_reducible assumption) ?_ | refine Evolves.snd (by with_reducible assumption) ?_

theorem execEthTx_evolves (e : Fin 2) (bufs : List (List Byte)) (s : State) :
    Answers s (execEthTx e bufs s) := by
  unfold execEthTx
  repeat' first
    | with_reducible assumption | (intro)
    | with_reducible exact Evolves.refl _ | with_reducible apply Answers.next | with_reducible apply Answers.ite
    | with_reducible apply ethFetch_evolves | with_reducible apply ethServe_evolves | with_reducible apply Evolves.foldl
    | with_reducible apply Evolves.foldl_snd | with_reducible apply Evolves.foldl_fst
    | split | (dsimp only; split)

theorem execEthTimedLaunch_evolves (e : Fin 2) (bufs : List (List Byte)) (s : State) :
    Answers s (execEthTimedLaunch e bufs s) := by
  unfold execEthTimedLaunch
  repeat' first
    | with_reducible assumption | (intro)
    | with_reducible exact Evolves.refl _ | with_reducible apply Answers.next | with_reducible apply Answers.ite
    | with_reducible apply ethFetch_evolves | with_reducible apply runTo_evolves | with_reducible apply advanceTo_evolves
    | with_reducible apply timedJudge_evolves | with_reducible apply Evolves.foldl
    | with_reducible apply Evolves.foldl_snd | with_reducible apply Evolves.foldl_fst
    | split | (dsimp only; split)
    | refine Evolves.fst (by with_reducible assumption) ?_ | refine Evolves.snd (by with_reducible assumption) ?_

theorem execEthLink_evolves (e : Fin 2) (up : Bool) (s : State) :
    Answers s (execEthLink e up s) := by
  unfold execEthLink
  repeat' first
    | with_reducible assumption | (intro)
    | with_reducible exact Evolves.refl _ | with_reducible apply Answers.next | with_reducible apply Answers.ite
    | with_reducible apply State.setB_evolves | with_reducible apply advanceTo_evolves
    | with_reducible apply deriveReady_evolves | with_reducible apply State.event_evolves
    | with_reducible apply Evolves.ite
    | split | (dsimp only; split)

theorem ethDrop_evolves {base s : State} (ev : Evolves base s) (e : Nat) :
    Evolves base (ethDrop e s) := by
  unfold ethDrop
  repeat' first
    | with_reducible assumption | (intro)
    | with_reducible apply State.incSat_evolves
    | split | (dsimp only; split)

theorem ethMgmt_evolves {base s : State} (ev : Evolves base s) (e : Nat) (f : List Byte) :
    Evolves base (ethMgmt e f s) := by
  unfold ethMgmt
  repeat' first
    | with_reducible assumption | (intro)
    | with_reducible apply mgmtHere_evolves | with_reducible apply mgmtRelay_evolves
    | with_reducible apply ethDrop_evolves | with_reducible apply Evolves.ite
    | split | (dsimp only; split)

theorem ethQueueRx_evolves {base s : State} (ev : Evolves base s) (e : Nat) (f : List Byte) :
    Evolves base (ethQueueRx e f s) := by
  unfold ethQueueRx
  repeat' first
    | with_reducible assumption | (intro)
    | with_reducible apply ethDrop_evolves | with_reducible apply rxStamp_evolves
    | with_reducible apply State.append_evolves | with_reducible apply State.noteEmpty_evolves
    | with_reducible apply Evolves.ite
    | split | (dsimp only; split)

theorem ethReceive_evolves {base s : State} (ev : Evolves base s) (e : Nat) (f : List Byte) (fcs : Bool) :
    Evolves base (ethReceive e f fcs s) := by
  unfold ethReceive
  repeat' first
    | with_reducible assumption | (intro)
    | with_reducible apply State.inc_evolves | with_reducible apply State.incSat_evolves
    | with_reducible apply ethMgmt_evolves | with_reducible apply ethQueueRx_evolves
    | with_reducible apply State.flag_evolves | with_reducible apply Evolves.ite
    | split | (dsimp only; split)

theorem execEthRxFrame_evolves (e : Fin 2) (f : List Byte) (fcs : Bool) (s : State) :
    Answers s (execEthRxFrame e f fcs s) := by
  unfold execEthRxFrame
  repeat' first
    | with_reducible assumption | (intro)
    | with_reducible exact Evolves.refl _ | with_reducible apply Answers.next | with_reducible apply Answers.ite
    | with_reducible apply ethReceive_evolves
    | split | (dsimp only; split)

theorem execMgmtFrame_evolves (e : Fin 2) (f : List Byte) (s : State) :
    Answers s (execMgmtFrame e f s) := by
  unfold execMgmtFrame
  repeat' first
    | with_reducible assumption | (intro)
    | with_reducible exact Evolves.refl _ | with_reducible apply Answers.next | with_reducible apply Answers.ite
    | with_reducible apply ethReceive_evolves | with_reducible apply Evolves.ite
    | split | (dsimp only; split)

end Sys2Proof.Machine
end

