-- ==== Sys2Proof/Laws/EvExportCmds.lean ====
section
/-! SUPPORT. What the operations of Machine/ExportCmds.lean keep (Evolves). -/

namespace Sys2Proof.Machine

theorem execExportBind_evolves (m : Fin 16) (dma : Dma) (s : State) :
    Answers s (execExportBind m dma s) := by
  unfold execExportBind
  repeat' first
    | with_reducible assumption | (intro)
    | with_reducible exact Evolves.refl _ | with_reducible apply Answers.next | with_reducible apply Answers.ite
    | with_reducible apply runCommand_evolves | with_reducible apply refuse_evolves | with_reducible apply Evolves.ite
    | split | (dsimp only; split)
    | with_reducible apply Evolves.upd | with_reducible apply HostIf.Grows.refl | with_reducible apply HostIf.Grows.upd
    | with_reducible apply Excise.Grows.refl | with_reducible apply Excise.Grows.upd
    | exact ⟨id, Nat.le_refl _⟩ | exact ⟨id, Nat.le_succ _⟩

theorem execExportUnbind_evolves (m : Fin 16) (dma : Dma) (s : State) :
    Answers s (execExportUnbind m dma s) := by
  unfold execExportUnbind
  repeat' first
    | with_reducible assumption | (intro)
    | with_reducible exact Evolves.refl _ | with_reducible apply Answers.next | with_reducible apply Answers.ite
    | with_reducible apply runCommand_evolves | with_reducible apply refuse_evolves | with_reducible apply Evolves.ite
    | split | (dsimp only; split)
    | with_reducible apply Evolves.upd | with_reducible apply HostIf.Grows.refl | with_reducible apply HostIf.Grows.upd
    | with_reducible apply Excise.Grows.refl | with_reducible apply Excise.Grows.upd
    | exact ⟨id, Nat.le_refl _⟩ | exact ⟨id, Nat.le_succ _⟩

theorem exportSlot_evolves {base s : State} (ev : Evolves base s) (k : Nat) (cons : Nat) (x : Export) (it : Item) :
    Evolves base (exportSlot k cons x it s) := by
  unfold exportSlot
  repeat' first
    | with_reducible assumption | (intro)
    | with_reducible apply State.emit_evolves | with_reducible apply State.popHead_evolves
    | with_reducible apply Evolves.ite
    | split | (dsimp only; split)
    | with_reducible apply Evolves.upd | with_reducible apply HostIf.Grows.refl | with_reducible apply HostIf.Grows.upd
    | with_reducible apply Excise.Grows.refl | with_reducible apply Excise.Grows.upd
    | exact ⟨id, Nat.le_refl _⟩ | exact ⟨id, Nat.le_succ _⟩

theorem execExportSlotWrite_evolves (k : Fin 1008) (cons : BitVec 64) (s : State) :
    Answers s (execExportSlotWrite k cons s) := by
  unfold execExportSlotWrite
  repeat' first
    | with_reducible assumption | (intro)
    | with_reducible exact Evolves.refl _ | with_reducible apply Answers.next | with_reducible apply Answers.ite
    | with_reducible apply exportSlot_evolves | with_reducible apply Evolves.ite
    | split | (dsimp only; split)
    | refine Evolves.fst (by with_reducible assumption) ?_ | refine Evolves.snd (by with_reducible assumption) ?_

end Sys2Proof.Machine
end

