-- ==== Sys2Proof/Laws/EvFenceCmds.lean ====
section
/-! SUPPORT. What the operations of Machine/FenceCmds.lean keep (Evolves). -/

namespace Sys2Proof.Machine

theorem execPark_evolves (m : Fin 16) (dma : Dma) (s : State) :
    Answers s (execPark m dma s) := by
  unfold execPark
  repeat' first
    | with_reducible assumption | (intro)
    | with_reducible exact Evolves.refl _ | with_reducible apply Answers.next | with_reducible apply Answers.ite
    | with_reducible apply parkRfo_evolves | with_reducible apply runCommand_evolves | with_reducible apply parkZ_evolves
    | with_reducible apply refuse_evolves | with_reducible apply Evolves.ite | with_reducible apply Evolves.foldl
    | with_reducible apply Evolves.foldl_snd | with_reducible apply Evolves.foldl_fst
    | split | (dsimp only; split)

theorem execRelease_evolves (m : Fin 16) (dma : Dma) (s : State) :
    Answers s (execRelease m dma s) := by
  unfold execRelease
  repeat' first
    | with_reducible assumption | (intro)
    | with_reducible exact Evolves.refl _ | with_reducible apply Answers.next | with_reducible apply Answers.ite
    | with_reducible apply rfoRelease_evolves | with_reducible apply runCommand_evolves
    | with_reducible apply refuse_evolves | with_reducible apply zRelease_evolves | with_reducible apply Evolves.ite
    | with_reducible apply Evolves.foldl | with_reducible apply Evolves.foldl_snd | with_reducible apply Evolves.foldl_fst
    | split | (dsimp only; split)

theorem execFence_evolves (m : Fin 16) (dma : Dma) (s : State) :
    Answers s (execFence m dma s) := by
  unfold execFence
  repeat' first
    | with_reducible assumption | (intro)
    | with_reducible exact Evolves.refl _ | with_reducible apply Answers.next | with_reducible apply Answers.ite
    | with_reducible apply State.set_evolves | with_reducible apply fenceTile_evolves
    | with_reducible apply State.setMbx_evolves | with_reducible apply finish_evolves
    | with_reducible apply takeCommand_evolves | with_reducible apply Evolves.ite
    | split | (dsimp only; split)
    | with_reducible apply Evolves.upd | with_reducible apply HostIf.Grows.refl | with_reducible apply HostIf.Grows.upd
    | with_reducible apply Excise.Grows.refl | with_reducible apply Excise.Grows.upd
    | exact ⟨id, Nat.le_refl _⟩ | exact ⟨id, Nat.le_succ _⟩

theorem untilParked_evolves {base x3 : State} (ev : Evolves base x3) (x0 : Nat) (x1 : Nat) (x2 : Nat) :
    Evolves base (untilParked x0 x1 x2 x3) := by
  induction x0 generalizing x3 x1 x2 with
  | zero =>
    unfold untilParked
    repeat' first
      | with_reducible assumption | (intro)
      | with_reducible apply advanceTo_evolves | with_reducible apply Evolves.ite
      | split | (dsimp only; split)
      | refine Evolves.fst (by with_reducible assumption) ?_ | refine Evolves.snd (by with_reducible assumption) ?_
  | succ fuel ih =>
    unfold untilParked
    repeat' first
      | with_reducible apply ih
      | with_reducible assumption | (intro)
      | with_reducible apply advanceTo_evolves | with_reducible apply Evolves.ite
      | split | (dsimp only; split)
      | refine Evolves.fst (by with_reducible assumption) ?_ | refine Evolves.snd (by with_reducible assumption) ?_

theorem execFencePowerOff_evolves (a : Fin 8) (s : State) :
    Answers s (execFencePowerOff a s) := by
  unfold execFencePowerOff
  repeat' first
    | with_reducible assumption | (intro)
    | with_reducible exact Evolves.refl _ | with_reducible apply Answers.next | with_reducible apply Answers.ite
    | with_reducible apply tileOff_evolves | with_reducible apply untilParked_evolves
    | with_reducible apply State.setMbx_evolves | with_reducible apply finish_evolves
    | with_reducible apply rejectAll_evolves | with_reducible apply Evolves.ite | with_reducible apply Evolves.foldl
    | with_reducible apply Evolves.foldl_snd | with_reducible apply Evolves.foldl_fst
    | split | (dsimp only; split)

theorem liftFence_evolves {base s : State} (ev : Evolves base s) (a : Nat) :
    Evolves base (liftFence a s) := by
  unfold liftFence
  repeat' first
    | with_reducible assumption | (intro)
    | with_reducible apply State.set_evolves | with_reducible apply applyPark_evolves
    | with_reducible apply holdTile_evolves | with_reducible apply calLoad_evolves
    | with_reducible apply State.event_evolves
    | split | (dsimp only; split)
    | with_reducible apply Evolves.upd | with_reducible apply HostIf.Grows.refl | with_reducible apply HostIf.Grows.upd
    | with_reducible apply Excise.Grows.refl | with_reducible apply Excise.Grows.upd
    | exact ⟨id, Nat.le_refl _⟩ | exact ⟨id, Nat.le_succ _⟩

theorem execUnfence_evolves (m : Fin 16) (dma : Dma) (rails : Bool) (stands : Bool) (s : State) :
    Answers s (execUnfence m dma rails stands s) := by
  unfold execUnfence
  repeat' first
    | with_reducible assumption | (intro)
    | with_reducible exact Evolves.refl _ | with_reducible apply Answers.next | with_reducible apply Answers.ite
    | with_reducible apply advanceTo_evolves | with_reducible apply liftFence_evolves
    | with_reducible apply runCommand_evolves | with_reducible apply refuse_evolves | with_reducible apply Evolves.ite
    | split | (dsimp only; split)

end Sys2Proof.Machine
end

