-- ==== Sys2Proof/Laws/EvFires.lean ====
section
/-! SUPPORT. What the operations of Machine/Fires.lean keep (Evolves). -/

namespace Sys2Proof.Machine

theorem fireHead_evolves {base s : State} (ev : Evolves base s) (kind : Nat) (k : Nat) (j : Nat) :
    Evolves base (fireHead kind k j s) := by
  unfold fireHead
  repeat' first
    | with_reducible assumption | (intro)
    | with_reducible apply runTo_evolves | with_reducible apply fireEntry_evolves | with_reducible apply Evolves.ite
    | split | (dsimp only; split)
    | refine Evolves.fst (by with_reducible assumption) ?_ | refine Evolves.snd (by with_reducible assumption) ?_

theorem execPulseFire_evolves (k : Fin 512) (j : Fin 32) (s : State) :
    Answers s (execPulseFire k j s) := by
  unfold execPulseFire
  repeat' first
    | with_reducible assumption | (intro)
    | with_reducible exact Evolves.refl _ | with_reducible apply Answers.next | with_reducible apply Answers.ite
    | with_reducible apply fireHead_evolves
    | split | (dsimp only; split)

theorem execZpulseFire_evolves (k : Fin 512) (j : Fin 32) (s : State) :
    Answers s (execZpulseFire k j s) := by
  unfold execZpulseFire
  repeat' first
    | with_reducible assumption | (intro)
    | with_reducible exact Evolves.refl _ | with_reducible apply Answers.next | with_reducible apply Answers.ite
    | with_reducible apply fireHead_evolves
    | split | (dsimp only; split)

theorem execBiasSetFire_evolves (k : Fin 512) (j : Fin 32) (s : State) :
    Answers s (execBiasSetFire k j s) := by
  unfold execBiasSetFire
  repeat' first
    | with_reducible assumption | (intro)
    | with_reducible exact Evolves.refl _ | with_reducible apply Answers.next | with_reducible apply Answers.ite
    | with_reducible apply fireHead_evolves
    | split | (dsimp only; split)

theorem execBiasRampFire_evolves (k : Fin 512) (j : Fin 32) (s : State) :
    Answers s (execBiasRampFire k j s) := by
  unfold execBiasRampFire
  repeat' first
    | with_reducible assumption | (intro)
    | with_reducible exact Evolves.refl _ | with_reducible apply Answers.next | with_reducible apply Answers.ite
    | with_reducible apply fireHead_evolves
    | split | (dsimp only; split)

theorem execMeasureFire_evolves (k : Fin 512) (j : Fin 32) (s : State) :
    Answers s (execMeasureFire k j s) := by
  unfold execMeasureFire
  repeat' first
    | with_reducible assumption | (intro)
    | with_reducible exact Evolves.refl _ | with_reducible apply Answers.next | with_reducible apply Answers.ite
    | with_reducible apply fireHead_evolves
    | split | (dsimp only; split)

theorem execAcqFire_evolves (k : Fin 512) (j : Fin 32) (s : State) :
    Answers s (execAcqFire k j s) := by
  unfold execAcqFire
  repeat' first
    | with_reducible assumption | (intro)
    | with_reducible exact Evolves.refl _ | with_reducible apply Answers.next | with_reducible apply Answers.ite
    | with_reducible apply fireHead_evolves
    | split | (dsimp only; split)

theorem execFrameFire_evolves (k : Fin 512) (j : Fin 32) (s : State) :
    Answers s (execFrameFire k j s) := by
  unfold execFrameFire
  repeat' first
    | with_reducible assumption | (intro)
    | with_reducible exact Evolves.refl _ | with_reducible apply Answers.next | with_reducible apply Answers.ite
    | with_reducible apply fireHead_evolves
    | split | (dsimp only; split)

end Sys2Proof.Machine
end

