-- ==== Sys2Proof/Laws/EvFlitCmds.lean ====
section
/-! SUPPORT. What the operations of Machine/FlitCmds.lean keep (Evolves). -/

namespace Sys2Proof.Machine

theorem flitDiscard_evolves {base s : State} (ev : Evolves base s) (n : Nat) :
    Evolves base (flitDiscard n s) := by
  unfold flitDiscard
  repeat' first
    | with_reducible assumption | (intro)
    | with_reducible apply State.setLink_evolves | with_reducible apply State.incSat_evolves
    | with_reducible apply retrain_evolves | with_reducible apply State.flag_evolves | with_reducible apply Evolves.ite
    | split | (dsimp only; split)

theorem flitHeader_evolves {base s : State} (ev : Evolves base s) (n : Nat) (f : Nat) :
    Evolves base (flitHeader n f s) := by
  unfold flitHeader
  repeat' first
    | with_reducible assumption | (intro)
    | with_reducible apply State.setLink_evolves | with_reducible apply State.set_evolves
    | with_reducible apply State.inc_evolves | with_reducible apply State.incSat_evolves
    | with_reducible apply Evolves.ite
    | split | (dsimp only; split)
    | refine Evolves.fst (by with_reducible assumption) ?_ | refine Evolves.snd (by with_reducible assumption) ?_

theorem oneWay_evolves {base s : State} (ev : Evolves base s) (n : Nat) (m : Nat) :
    Evolves base (oneWay n m s) := by
  unfold oneWay
  repeat' first
    | with_reducible assumption | (intro)
    | with_reducible apply State.set_evolves | with_reducible apply State.setB_evolves | with_reducible apply Evolves.ite
    | split | (dsimp only; split)

theorem resultHere_evolves {base s : State} (ev : Evolves base s) (n : Nat) (m : Nat) :
    Evolves base (resultHere n m s) := by
  unfold resultHere
  repeat' first
    | with_reducible assumption | (intro)
    | with_reducible apply oneWay_evolves | with_reducible apply State.inc_evolves
    | with_reducible apply writePair_evolves | with_reducible apply Evolves.ite
    | split | (dsimp only; split)

theorem triggerHere_evolves {base s : State} (ev : Evolves base s) (n : Nat) (m : Nat) :
    Evolves base (triggerHere n m s) := by
  unfold triggerHere
  repeat' first
    | with_reducible assumption | (intro)
    | with_reducible apply oneWay_evolves | with_reducible apply rxDrop_evolves
    | with_reducible apply State.append_evolves | with_reducible apply State.noteEmpty_evolves
    | with_reducible apply Evolves.ite
    | split | (dsimp only; split)

theorem timeHere_evolves {base s : State} (ev : Evolves base s) (n : Nat) (src : Nat) (m : Nat) :
    Evolves base (timeHere n src m s) := by
  unfold timeHere
  repeat' first
    | with_reducible assumption | (intro)
    | with_reducible apply State.setLink_evolves | with_reducible apply State.set_evolves
    | with_reducible apply State.setB_evolves | with_reducible apply linkSend_evolves | with_reducible apply Evolves.ite
    | split | (dsimp only; split)
    | refine Evolves.fst (by with_reducible assumption) ?_ | refine Evolves.snd (by with_reducible assumption) ?_

theorem transit_evolves {base s : State} (ev : Evolves base s) (n : Nat) (m : Nat) :
    Evolves base (transit n m s) := by
  unfold transit
  repeat' first
    | with_reducible assumption | (intro)
    | with_reducible apply linkSend_evolves | with_reducible apply rxDrop_evolves | with_reducible apply Evolves.ite
    | split | (dsimp only; split)

theorem dispatch_evolves {base s : State} (ev : Evolves base s) (n : Nat) (src : Nat) (m : Nat) :
    Evolves base (dispatch n src m s) := by
  unfold dispatch
  repeat' first
    | with_reducible assumption | (intro)
    | with_reducible apply resultHere_evolves | with_reducible apply triggerHere_evolves
    | with_reducible apply timeHere_evolves | with_reducible apply relayFragment_evolves
    | with_reducible apply transit_evolves | with_reducible apply rxDrop_evolves | with_reducible apply Evolves.ite
    | split | (dsimp only; split)
    | refine Evolves.fst (by with_reducible assumption) ?_ | refine Evolves.snd (by with_reducible assumption) ?_

theorem countSync_evolves {base s : State} (ev : Evolves base s) (n : Nat) (x : Nat) :
    Evolves base (countSync n x s) := by
  unfold countSync
  repeat' first
    | with_reducible assumption | (intro)
    | with_reducible apply State.setFibre_evolves | with_reducible apply State.incSat_evolves
    | with_reducible apply Evolves.ite | with_reducible apply Evolves.foldl | with_reducible apply Evolves.foldl_snd
    | with_reducible apply Evolves.foldl_fst
    | split | (dsimp only; split)

theorem flitTake_evolves {base s : State} (ev : Evolves base s) (n : Nat) (f : Nat) :
    Evolves base (flitTake n f s) := by
  unfold flitTake
  repeat' first
    | with_reducible assumption | (intro)
    | with_reducible apply flitDiscard_evolves | with_reducible apply flitHeader_evolves
    | with_reducible apply dispatch_evolves | with_reducible apply flitConsume_evolves | with_reducible apply Evolves.ite
    | with_reducible apply Evolves.foldl | with_reducible apply Evolves.foldl_snd | with_reducible apply Evolves.foldl_fst
    | split | (dsimp only; split)

theorem execFlitRx_evolves (n : Fin 32) (f : BitVec 528) (s : State) :
    Answers s (execFlitRx n f s) := by
  unfold execFlitRx
  repeat' first
    | with_reducible assumption | (intro)
    | with_reducible exact Evolves.refl _ | with_reducible apply Answers.next | with_reducible apply Answers.ite
    | with_reducible apply countSync_evolves | with_reducible apply flitTake_evolves
    | with_reducible apply flvPump_evolves | with_reducible apply startExit_evolves
    | with_reducible apply flitFlush_evolves | with_reducible apply Evolves.ite
    | split | (dsimp only; split)

end Sys2Proof.Machine
end

