-- ==== Sys2Proof/Laws/EvHostCmds.lean ====
section
/-! SUPPORT. What the operations of Machine/HostCmds.lean keep (Evolves). -/

namespace Sys2Proof.Machine

theorem setMsix_evolves {base s : State} (ev : Evolves base s) (v : Nat) (x : Msix) :
    Evolves base (setMsix v x s) := by
  unfold setMsix
  repeat' first
    | with_reducible assumption | (intro)
    | with_reducible apply State.emit_evolves | with_reducible apply Evolves.ite
    | split | (dsimp only; split)
    | with_reducible apply Evolves.upd | with_reducible apply HostIf.Grows.refl | with_reducible apply HostIf.Grows.upd
    | with_reducible apply Excise.Grows.refl | with_reducible apply Excise.Grows.upd
    | exact ⟨id, Nat.le_refl _⟩ | exact ⟨id, Nat.le_succ _⟩

theorem bar2Write_evolves {base s : State} (ev : Evolves base s) (fn : Nat) (a : Nat) (v : Nat) :
    Evolves base (bar2Write fn a v s) := by
  unfold bar2Write
  repeat' first
    | with_reducible assumption | (intro)
    | with_reducible apply setMsix_evolves | with_reducible apply Evolves.ite
    | split | (dsimp only; split)
    | refine Evolves.fst (by with_reducible assumption) ?_ | refine Evolves.snd (by with_reducible assumption) ?_

theorem configWrite_evolves {base s : State} (ev : Evolves base s) (fn : Nat) (be : Nat) (a : Nat) (v : Nat) :
    Evolves base (configWrite fn be a v s) := by
  unfold configWrite
  repeat' first
    | with_reducible assumption | (intro)
    | with_reducible apply Evolves.ite
    | split | (dsimp only; split)
    | with_reducible apply Evolves.upd | with_reducible apply HostIf.Grows.refl | with_reducible apply HostIf.Grows.upd
    | with_reducible apply Excise.Grows.refl | with_reducible apply Excise.Grows.upd
    | exact ⟨id, Nat.le_refl _⟩ | exact ⟨id, Nat.le_succ _⟩

theorem otherWrite_evolves {base s : State} (ev : Evolves base s) (r : Req) (be : Nat) (a : Nat) (v : Nat) :
    Evolves base (otherWrite r be a v s) := by
  unfold otherWrite
  repeat' first
    | with_reducible assumption | (intro)
    | with_reducible apply bar2Write_evolves | with_reducible apply configWrite_evolves | with_reducible apply Evolves.ite
    | split | (dsimp only; split)
    | refine Evolves.fst (by with_reducible assumption) ?_ | refine Evolves.snd (by with_reducible assumption) ?_

theorem functionReset_evolves {base s : State} (ev : Evolves base s) (fn : Nat) :
    Evolves base (functionReset fn s) := by
  unfold functionReset
  repeat' first
    | with_reducible assumption | (intro)
    | split | (dsimp only; split)
    | with_reducible apply Evolves.upd | with_reducible apply HostIf.Grows.refl | with_reducible apply HostIf.Grows.upd
    | with_reducible apply Excise.Grows.refl | with_reducible apply Excise.Grows.upd
    | exact ⟨id, Nat.le_refl _⟩ | exact ⟨id, Nat.le_succ _⟩

theorem execRegisterWrite_evolves (r : Req) (addr : BitVec 26) (xs : List (BitVec 4 × Dword)) (s : State) :
    Answers s (execRegisterWrite r addr xs s) := by
  unfold execRegisterWrite
  repeat' first
    | with_reducible assumption | (intro)
    | with_reducible exact Evolves.refl _ | with_reducible apply Answers.next | with_reducible apply Answers.ite
    | with_reducible apply otherWrite_evolves | with_reducible apply writeRequest_evolves
    | with_reducible apply Evolves.ite | with_reducible apply Evolves.foldl | with_reducible apply Evolves.foldl_snd
    | with_reducible apply Evolves.foldl_fst
    | split | (dsimp only; split)

theorem execLoRead_evolves (r : Req) (addr : BitVec 26) (bes : List (BitVec 4)) (s : State) :
    Answers s (execLoRead r addr bes s) := by
  unfold execLoRead
  repeat' first
    | with_reducible assumption | (intro)
    | with_reducible exact Evolves.refl _ | with_reducible apply Answers.next | with_reducible apply Answers.ite
    | with_reducible apply State.emit_evolves | with_reducible apply applyWrites_evolves
    | with_reducible apply readRequest_evolves | with_reducible apply Evolves.ite
    | split | (dsimp only; split)

theorem execSecRidWrite_evolves (r : Req) (rid : BitVec 16) (s : State) :
    Answers s (execSecRidWrite r rid s) := by
  unfold execSecRidWrite
  repeat' first
    | with_reducible assumption | (intro)
    | with_reducible exact Evolves.refl _ | with_reducible apply Answers.next | with_reducible apply Answers.ite
    | with_reducible apply privileged_evolves | with_reducible apply secRidWrite_evolves
    | split | (dsimp only; split)

theorem execPartLock_evolves (r : Req) (s : State) :
    Answers s (execPartLock r s) := by
  unfold execPartLock
  repeat' first
    | with_reducible assumption | (intro)
    | with_reducible exact Evolves.refl _ | with_reducible apply Answers.next | with_reducible apply Answers.ite
    | with_reducible apply State.setB_evolves | with_reducible apply privileged_evolves
    | split | (dsimp only; split)

theorem execVecLock_evolves (r : Req) (s : State) :
    Answers s (execVecLock r s) := by
  unfold execVecLock
  repeat' first
    | with_reducible assumption | (intro)
    | with_reducible exact Evolves.refl _ | with_reducible apply Answers.next | with_reducible apply Answers.ite
    | with_reducible apply State.setB_evolves | with_reducible apply privileged_evolves
    | split | (dsimp only; split)

theorem execPartWrite_evolves (r : Req) (m : PartMap) (j : Fin 128) (v : Dword) (s : State) :
    Answers s (execPartWrite r m j v s) := by
  unfold execPartWrite
  repeat' first
    | with_reducible assumption | (intro)
    | with_reducible exact Evolves.refl _ | with_reducible apply Answers.next | with_reducible apply Answers.ite
    | with_reducible apply accessFault_evolves | with_reducible apply privileged_evolves
    | with_reducible apply partWrite_evolves | with_reducible apply Evolves.ite
    | split | (dsimp only; split)

theorem execQueueReset_evolves (r : Req) (s : State) :
    Answers s (execQueueReset r s) := by
  unfold execQueueReset
  repeat' first
    | with_reducible assumption | (intro)
    | with_reducible exact Evolves.refl _ | with_reducible apply Answers.next | with_reducible apply Answers.ite
    | with_reducible apply privileged_evolves | with_reducible apply queueReset_evolves
    | split | (dsimp only; split)

theorem execCfgCrcCommit_evolves (r : Req) (b : CfgBlock) (s : State) :
    Answers s (execCfgCrcCommit r b s) := by
  unfold execCfgCrcCommit
  repeat' first
    | with_reducible assumption | (intro)
    | with_reducible exact Evolves.refl _ | with_reducible apply Answers.next | with_reducible apply Answers.ite
    | with_reducible apply privileged_evolves | with_reducible apply crcCommit_evolves
    | split | (dsimp only; split)

theorem execCrcPass_evolves (b : CfgBlock) (s : State) :
    Answers s (execCrcPass b s) := by
  unfold execCrcPass
  repeat' first
    | with_reducible assumption | (intro)
    | with_reducible exact Evolves.refl _ | with_reducible apply Answers.next | with_reducible apply Answers.ite
    | with_reducible apply crcPass_evolves
    | split | (dsimp only; split)

theorem execFlr_evolves (fn : Fin 2) (s : State) :
    Answers s (execFlr fn s) := by
  unfold execFlr
  repeat' first
    | with_reducible assumption | (intro)
    | with_reducible exact Evolves.refl _ | with_reducible apply Answers.next | with_reducible apply Answers.ite
    | with_reducible apply functionReset_evolves | with_reducible apply closeSession_evolves
    | with_reducible apply Evolves.ite | with_reducible apply Evolves.foldl | with_reducible apply Evolves.foldl_snd
    | with_reducible apply Evolves.foldl_fst
    | split | (dsimp only; split)
    | refine Evolves.fst (by with_reducible assumption) ?_ | refine Evolves.snd (by with_reducible assumption) ?_

theorem execNtIncWrite_evolves (r : Req) (hi : Dword) (s : State) :
    Answers s (execNtIncWrite r hi s) := by
  unfold execNtIncWrite
  repeat' first
    | with_reducible assumption | (intro)
    | with_reducible exact Evolves.refl _ | with_reducible apply Answers.next | with_reducible apply Answers.ite
    | with_reducible apply ntIncHi_evolves | with_reducible apply accessFault_evolves
    | with_reducible apply pairLow_evolves | with_reducible apply Evolves.ite
    | split | (dsimp only; split)

end Sys2Proof.Machine
end

