-- ==== Sys2Proof/Laws/EvMonCmds.lean ====
section
/-! SUPPORT. What the operations of Machine/MonCmds.lean keep (Evolves). -/

namespace Sys2Proof.Machine

theorem openQuotient_evolves {base s : State} (ev : Evolves base s) (a : Int) (b : Nat) :
    Evolves base (openQuotient a b s).2 := by
  unfold openQuotient
  repeat' first
    | with_reducible assumption | (intro)
    | with_reducible apply State.fresh_evolves | with_reducible apply Evolves.ite | with_reducible apply Evolves.ite_snd
    | split | (dsimp only; split)
    | dsimp only

theorem execMonDiag_evolves (m : Fin 16) (dma : Dma) (m1 : BitVec 12) (m2 : BitVec 12) (i1 : BitVec 12) (i2 : BitVec 12)
    (s : State) :
    Answers s (execMonDiag m dma m1 m2 i1 i2 s) := by
  unfold execMonDiag
  repeat' first
    | with_reducible assumption | (intro)
    | with_reducible exact Evolves.refl _ | with_reducible apply Answers.next | with_reducible apply Answers.ite
    | with_reducible apply openQuotient_evolves | with_reducible apply runCommand_evolves
    | with_reducible apply refuse_evolves | with_reducible apply Evolves.ite
    | split | (dsimp only; split)

theorem execMonSeqFire_evolves (x : Fin 10) (j : Fin 8) (s : State) :
    Answers s (execMonSeqFire x j s) := by
  unfold execMonSeqFire
  repeat' first
    | with_reducible assumption | (intro)
    | with_reducible exact Evolves.refl _ | with_reducible apply Answers.next | with_reducible apply Answers.ite
    | with_reducible apply runTo_evolves | with_reducible apply Evolves.ite
    | split | (dsimp only; split)
    | refine Evolves.fst (by with_reducible assumption) ?_ | refine Evolves.snd (by with_reducible assumption) ?_

theorem monResult_evolves {base s : State} (ev : Evolves base s) (x : Nat) (code : BitVec 12) (c : MonConv) :
    Evolves base (monResult x code c s) := by
  unfold monResult
  repeat' first
    | with_reducible assumption | (intro)
    | with_reducible apply State.setMon_evolves | with_reducible apply State.set_evolves
    | with_reducible apply State.setB_evolves | with_reducible apply State.flag_evolves | with_reducible apply Evolves.ite
    | split | (dsimp only; split)

theorem execMonConversion_evolves (x : Fin 10) (code : BitVec 12) (s : State) :
    Answers s (execMonConversion x code s) := by
  unfold execMonConversion
  repeat' first
    | with_reducible assumption | (intro)
    | with_reducible exact Evolves.refl _ | with_reducible apply Answers.next | with_reducible apply Answers.ite
    | with_reducible apply runTo_evolves | with_reducible apply monResult_evolves | with_reducible apply withTick_evolves
    | split | (dsimp only; split)
    | refine Evolves.fst (by with_reducible assumption) ?_ | refine Evolves.snd (by with_reducible assumption) ?_

theorem caReading_evolves {base s : State} (ev : Evolves base s) (n : Nat) (y : Int) (stamp : Nat) (suspect : Bool) (t :
    Nat) :
    Evolves base (caReading n y stamp suspect t s) := by
  unfold caReading
  repeat' first
    | with_reducible assumption | (intro)
    | with_reducible apply openQuotient_evolves | with_reducible apply State.setB_evolves
    | with_reducible apply modAngle_evolves | with_reducible apply caIndex_evolves | with_reducible apply Evolves.ite
    | split | (dsimp only; split)
    | refine Evolves.fst (by with_reducible assumption) ?_ | refine Evolves.snd (by with_reducible assumption) ?_

theorem brgOutput_evolves {base s : State} (ev : Evolves base s) (n : Nat) (t : Nat) :
    Evolves base (brgOutput n t s) := by
  unfold brgOutput
  repeat' first
    | with_reducible assumption | (intro)
    | with_reducible apply openQuotient_evolves | with_reducible apply State.set_evolves
    | with_reducible apply State.setB_evolves | with_reducible apply State.setI_evolves
    | with_reducible apply State.fresh_evolves | with_reducible apply caReading_evolves | with_reducible apply Evolves.ite
    | split | (dsimp only; split)
    | refine Evolves.fst (by with_reducible assumption) ?_ | refine Evolves.snd (by with_reducible assumption) ?_
    | with_reducible apply Evolves.upd | with_reducible apply HostIf.Grows.refl | with_reducible apply HostIf.Grows.upd
    | with_reducible apply Excise.Grows.refl | with_reducible apply Excise.Grows.upd
    | exact ⟨id, Nat.le_refl _⟩ | exact ⟨id, Nat.le_succ _⟩

theorem brgBreak_evolves {base s : State} (ev : Evolves base s) (n : Nat) (overs : Bool) :
    Evolves base (brgBreak n overs s) := by
  unfold brgBreak
  repeat' first
    | with_reducible assumption | (intro)
    | with_reducible apply State.setB_evolves | with_reducible apply State.incSat_evolves
    | with_reducible apply State.flagAlways_evolves | with_reducible apply Evolves.ite
    | split | (dsimp only; split)
    | with_reducible apply Evolves.upd | with_reducible apply HostIf.Grows.refl | with_reducible apply HostIf.Grows.upd
    | with_reducible apply Excise.Grows.refl | with_reducible apply Excise.Grows.upd
    | exact ⟨id, Nat.le_refl _⟩ | exact ⟨id, Nat.le_succ _⟩

theorem execBrgConversion_evolves (n : Fin 8) (code : BitVec 12) (s : State) :
    Answers s (execBrgConversion n code s) := by
  unfold execBrgConversion
  repeat' first
    | with_reducible assumption | (intro)
    | with_reducible exact Evolves.refl _ | with_reducible apply Answers.next | with_reducible apply Answers.ite
    | with_reducible apply advanceTo_evolves | with_reducible apply brgOutput_evolves
    | with_reducible apply brgBreak_evolves | with_reducible apply Evolves.ite
    | split | (dsimp only; split)
    | with_reducible apply Evolves.upd | with_reducible apply HostIf.Grows.refl | with_reducible apply HostIf.Grows.upd
    | with_reducible apply Excise.Grows.refl | with_reducible apply Excise.Grows.upd
    | exact ⟨id, Nat.le_refl _⟩ | exact ⟨id, Nat.le_succ _⟩

theorem excJudge_evolves {base s : State} (ev : Evolves base s) (n : Nat) (i : Nat) (t : Nat) :
    Evolves base (excJudge n i t s) := by
  unfold excJudge
  repeat' first
    | with_reducible assumption | (intro)
    | with_reducible apply State.set_evolves | with_reducible apply State.setB_evolves
    | with_reducible apply State.flagAlways_evolves | with_reducible apply Evolves.ite
    | split | (dsimp only; split)
    | with_reducible apply Evolves.upd | with_reducible apply HostIf.Grows.refl | with_reducible apply HostIf.Grows.upd
    | with_reducible apply Excise.Grows.refl | with_reducible apply Excise.Grows.upd
    | exact ⟨id, Nat.le_refl _⟩ | exact ⟨id, Nat.le_succ _⟩

theorem execBrgExcCheck_evolves (n : Fin 8) (current : BitVec 16) (s : State) :
    Answers s (execBrgExcCheck n current s) := by
  unfold execBrgExcCheck
  repeat' first
    | with_reducible assumption | (intro)
    | with_reducible exact Evolves.refl _ | with_reducible apply Answers.next | with_reducible apply Answers.ite
    | with_reducible apply State.setMon_evolves | with_reducible apply advanceTo_evolves
    | with_reducible apply excJudge_evolves | with_reducible apply Evolves.ite
    | split | (dsimp only; split)
    | with_reducible apply Evolves.upd | with_reducible apply HostIf.Grows.refl | with_reducible apply HostIf.Grows.upd
    | with_reducible apply Excise.Grows.refl | with_reducible apply Excise.Grows.upd
    | exact ⟨id, Nat.le_refl _⟩ | exact ⟨id, Nat.le_succ _⟩

end Sys2Proof.Machine
end

