-- ==== Sys2Proof/Laws/EvKilnCmds.lean ====
section
/-! SUPPORT. What the operations of Machine/KilnCmds.lean keep (Evolves). -/

namespace Sys2Proof.Machine

theorem State.setSensor_evolves {base s : State} (ev : Evolves base s) (n : Nat) (x : Sensor) :
    Evolves base (State.setSensor s n x) := by
  unfold State.setSensor
  repeat' first
    | with_reducible assumption | (intro)
    | split | (dsimp only; split)
    | with_reducible apply Evolves.upd | with_reducible apply HostIf.Grows.refl | with_reducible apply HostIf.Grows.upd
    | with_reducible apply Excise.Grows.refl | with_reducible apply Excise.Grows.upd
    | exact ⟨id, Nat.le_refl _⟩ | exact ⟨id, Nat.le_succ _⟩

theorem setLevel_evolves {base s : State} (ev : Evolves base s) (l : Nat) :
    Evolves base (setLevel l s) := by
  unfold setLevel
  repeat' first
    | with_reducible assumption | (intro)
    | with_reducible apply State.set_evolves | with_reducible apply noteLoad_evolves
    | with_reducible apply engSettle_evolves | with_reducible apply State.event_evolves
    | with_reducible apply State.flagAlways_evolves | with_reducible apply Evolves.ite
    | with_reducible apply Evolves.foldl | with_reducible apply Evolves.foldl_snd | with_reducible apply Evolves.foldl_fst
    | split | (dsimp only; split)
    | with_reducible apply Evolves.upd | with_reducible apply HostIf.Grows.refl | with_reducible apply HostIf.Grows.upd
    | with_reducible apply Excise.Grows.refl | with_reducible apply Excise.Grows.upd
    | exact ⟨id, Nat.le_refl _⟩ | exact ⟨id, Nat.le_succ _⟩

theorem execKilnLevelStep_evolves (s : State) :
    Answers s (execKilnLevelStep s) := by
  unfold execKilnLevelStep
  repeat' first
    | with_reducible assumption | (intro)
    | with_reducible exact Evolves.refl _ | with_reducible apply Answers.next | with_reducible apply Answers.ite
    | with_reducible apply advanceTo_evolves | with_reducible apply setLevel_evolves | with_reducible apply Evolves.ite
    | split | (dsimp only; split)

theorem critActs_evolves {base s : State} (ev : Evolves base s)  :
    Evolves base (critActs s) := by
  unfold critActs
  repeat' first
    | with_reducible assumption | (intro)
    | with_reducible apply parkAll_evolves | with_reducible apply State.setB_evolves
    | with_reducible apply State.flagAlways_evolves
    | split | (dsimp only; split)

theorem crossActs_evolves {base s : State} (ev : Evolves base s) (k : Nat) :
    Evolves base (crossActs k s) := by
  unfold crossActs
  repeat' first
    | with_reducible assumption | (intro)
    | with_reducible apply State.setB_evolves | with_reducible apply setLevel_evolves
    | with_reducible apply fenceTile_evolves | with_reducible apply critActs_evolves
    | with_reducible apply State.flagAlways_evolves | with_reducible apply Evolves.ite
    | with_reducible apply Evolves.foldl | with_reducible apply Evolves.foldl_snd | with_reducible apply Evolves.foldl_fst
    | split | (dsimp only; split)
    | refine Evolves.fst (by with_reducible assumption) ?_ | refine Evolves.snd (by with_reducible assumption) ?_

theorem critEnds_evolves {base s : State} (ev : Evolves base s)  :
    Evolves base (critEnds s) := by
  unfold critEnds
  repeat' first
    | with_reducible assumption | (intro)
    | with_reducible apply State.setB_evolves | with_reducible apply Evolves.ite
    | split | (dsimp only; split)

theorem judgeThreshold_evolves {base s : State} (ev : Evolves base s) (n : Nat) (last : Option Int) (r : Int) (k : Nat) :
    Evolves base (judgeThreshold n last r k s) := by
  unfold judgeThreshold
  repeat' first
    | with_reducible assumption | (intro)
    | with_reducible apply State.setSensor_evolves | with_reducible apply crossActs_evolves
    | with_reducible apply Evolves.ite
    | split | (dsimp only; split)
    | refine Evolves.fst (by with_reducible assumption) ?_ | refine Evolves.snd (by with_reducible assumption) ?_

theorem judgeRate_evolves {base s : State} (ev : Evolves base s) (n : Nat) (past : List (Nat × Int)) (r : Int) :
    Evolves base (judgeRate n past r s) := by
  unfold judgeRate
  repeat' first
    | with_reducible assumption | (intro)
    | with_reducible apply State.setSensor_evolves | with_reducible apply setLevel_evolves
    | with_reducible apply critActs_evolves | with_reducible apply State.flagAlways_evolves
    | with_reducible apply Evolves.ite
    | split | (dsimp only; split)
    | refine Evolves.fst (by with_reducible assumption) ?_ | refine Evolves.snd (by with_reducible assumption) ?_

theorem judgeRange_evolves {base s : State} (ev : Evolves base s)  :
    Evolves base (judgeRange s) := by
  unfold judgeRange
  repeat' first
    | with_reducible assumption | (intro)
    | with_reducible apply State.set_evolves | with_reducible apply State.setB_evolves
    | with_reducible apply State.incSat_evolves | with_reducible apply State.event_evolves
    | with_reducible apply Evolves.ite
    | split | (dsimp only; split)

theorem setInhibit_evolves {base s : State} (ev : Evolves base s) (on : Bool) :
    Evolves base (setInhibit on s) := by
  unfold setInhibit
  repeat' first
    | with_reducible assumption | (intro)
    | with_reducible apply State.setB_evolves | with_reducible apply islandCommit_evolves
    | with_reducible apply State.event_evolves | with_reducible apply Evolves.ite
    | split | (dsimp only; split)
    | with_reducible apply Evolves.upd | with_reducible apply HostIf.Grows.refl | with_reducible apply HostIf.Grows.upd
    | with_reducible apply Excise.Grows.refl | with_reducible apply Excise.Grows.upd
    | exact ⟨id, Nat.le_refl _⟩ | exact ⟨id, Nat.le_succ _⟩

theorem judgeInhibit_evolves {base s : State} (ev : Evolves base s)  :
    Evolves base (judgeInhibit s) := by
  unfold judgeInhibit
  repeat' first
    | with_reducible assumption | (intro)
    | with_reducible apply setInhibit_evolves | with_reducible apply Evolves.ite
    | split | (dsimp only; split)

theorem setKiln_evolves {base s : State} (ev : Evolves base s) (up : Bool) :
    Evolves base (setKiln up s) := by
  unfold setKiln
  repeat' first
    | with_reducible assumption | (intro)
    | with_reducible apply State.setB_evolves | with_reducible apply deriveReady_evolves
    | with_reducible apply serviceLoss_evolves | with_reducible apply Evolves.ite
    | split | (dsimp only; split)
    | with_reducible apply Evolves.upd | with_reducible apply HostIf.Grows.refl | with_reducible apply HostIf.Grows.upd
    | with_reducible apply Excise.Grows.refl | with_reducible apply Excise.Grows.upd
    | exact ⟨id, Nat.le_refl _⟩ | exact ⟨id, Nat.le_succ _⟩

theorem judgeKiln_evolves {base s : State} (ev : Evolves base s)  :
    Evolves base (judgeKiln s) := by
  unfold judgeKiln
  repeat' first
    | with_reducible assumption | (intro)
    | with_reducible apply setKiln_evolves | with_reducible apply Evolves.ite
    | split | (dsimp only; split)

theorem tileTemp_evolves {base s : State} (ev : Evolves base s) (a : Nat) :
    Evolves base (tileTemp a s) := by
  unfold tileTemp
  repeat' first
    | with_reducible assumption | (intro)
    | with_reducible apply State.setB_evolves | with_reducible apply State.setI_evolves | with_reducible apply Evolves.ite
    | with_reducible apply Evolves.foldl | with_reducible apply Evolves.foldl_snd | with_reducible apply Evolves.foldl_fst
    | split | (dsimp only; split)

theorem sensorFault_evolves {base s : State} (ev : Evolves base s) (n : Nat) :
    Evolves base (sensorFault n s) := by
  unfold sensorFault
  repeat' first
    | with_reducible assumption | (intro)
    | with_reducible apply State.setSensor_evolves | with_reducible apply State.setB_evolves
    | with_reducible apply State.flagAlways_evolves | with_reducible apply Evolves.ite
    | split | (dsimp only; split)

theorem keepReading_evolves {base s : State} (ev : Evolves base s) (n : Nat) (r : Int) :
    Evolves base (keepReading n r s) := by
  unfold keepReading
  repeat' first
    | with_reducible assumption | (intro)
    | with_reducible apply State.setSensor_evolves
    | split | (dsimp only; split)

theorem goodReading_evolves {base s : State} (ev : Evolves base s) (n : Nat) (past : List (Nat × Int)) (r : Int) :
    Evolves base (goodReading n past r s) := by
  unfold goodReading
  repeat' first
    | with_reducible assumption | (intro)
    | with_reducible apply State.setB_evolves | with_reducible apply critEnds_evolves
    | with_reducible apply judgeThreshold_evolves | with_reducible apply Evolves.ite | with_reducible apply Evolves.foldl
    | with_reducible apply Evolves.foldl_snd | with_reducible apply Evolves.foldl_fst
    | split | (dsimp only; split)

theorem faultActs_evolves {base s : State} (ev : Evolves base s) (n : Nat) :
    Evolves base (faultActs n s) := by
  unfold faultActs
  repeat' first
    | with_reducible assumption | (intro)
    | with_reducible apply setLevel_evolves | with_reducible apply fenceTile_evolves | with_reducible apply Evolves.ite
    | split | (dsimp only; split)

theorem execKilnTempRead_evolves (n : Fin 49) (r : BitVec 16) (s : State) :
    Answers s (execKilnTempRead n r s) := by
  unfold execKilnTempRead
  repeat' first
    | with_reducible assumption | (intro)
    | with_reducible exact Evolves.refl _ | with_reducible apply Answers.next | with_reducible apply Answers.ite
    | with_reducible apply State.set_evolves | with_reducible apply judgeRate_evolves
    | with_reducible apply judgeRange_evolves | with_reducible apply judgeInhibit_evolves
    | with_reducible apply judgeKiln_evolves | with_reducible apply tileTemp_evolves
    | with_reducible apply sensorFault_evolves | with_reducible apply keepReading_evolves
    | with_reducible apply goodReading_evolves | with_reducible apply faultActs_evolves | with_reducible apply Evolves.ite
    | split | (dsimp only; split)

theorem execKilnReadingStale_evolves (n : Fin 49) (s : State) :
    Answers s (execKilnReadingStale n s) := by
  unfold execKilnReadingStale
  repeat' first
    | with_reducible assumption | (intro)
    | with_reducible exact Evolves.refl _ | with_reducible apply Answers.next | with_reducible apply Answers.ite
    | with_reducible apply advanceTo_evolves | with_reducible apply setKiln_evolves | with_reducible apply Evolves.ite
    | split | (dsimp only; split)

theorem execKilnRailRead_evolves (r : Fin 24) (mv : BitVec 16) (s : State) :
    Answers s (execKilnRailRead r mv s) := by
  unfold execKilnRailRead
  repeat' first
    | with_reducible assumption | (intro)
    | with_reducible exact Evolves.refl _ | with_reducible apply Answers.next | with_reducible apply Answers.ite
    | with_reducible apply State.set_evolves | with_reducible apply State.setB_evolves
    | with_reducible apply judgeRange_evolves | with_reducible apply State.flagAlways_evolves
    | with_reducible apply Evolves.ite
    | split | (dsimp only; split)
    | with_reducible apply Evolves.upd | with_reducible apply HostIf.Grows.refl | with_reducible apply HostIf.Grows.upd
    | with_reducible apply Excise.Grows.refl | with_reducible apply Excise.Grows.upd
    | exact ⟨id, Nat.le_refl _⟩ | exact ⟨id, Nat.le_succ _⟩

theorem execKilnProcRead_evolves (k : Fin 32) (mhz : BitVec 16) (s : State) :
    Answers s (execKilnProcRead k mhz s) := by
  unfold execKilnProcRead
  repeat' first
    | with_reducible assumption | (intro)
    | with_reducible exact Evolves.refl _ | with_reducible apply Answers.next | with_reducible apply Answers.ite
    | with_reducible apply State.set_evolves | with_reducible apply State.setB_evolves
    | with_reducible apply State.flagAlways_evolves | with_reducible apply Evolves.ite
    | split | (dsimp only; split)

end Sys2Proof.Machine
end

