-- ==== Sys2Proof/Laws/EvStartCmds.lean ====
section
/-! SUPPORT. What the operations of Machine/StartCmds.lean keep (Evolves). -/

namespace Sys2Proof.Machine

theorem State.reset_canonical : Canonical State.reset := by
  constructor <;> decide

theorem porstReset_evolves {base s : State} (ev : Evolves base s) : Evolves base (porstReset s) := by
  unfold porstReset
  generalize cellarFields = l
  dsimp only
  refine excShow_evolves ?_ _
  refine Evolves.foldl l _ ?_ fun t f h => State.set_evolves h _ _
  exact ev.trans ⟨fun _ => State.reset_canonical, rfl, List.suffix_rfl, Nat.le_refl _,
    ⟨fun b => ⟨b.1, Nat.zero_le _⟩, Nat.le_refl _⟩, ⟨id, Nat.le_refl _⟩⟩

theorem warmHold_evolves {base r : State} (ev : Evolves base r) (s : State) (a : Nat) :
    Evolves base (warmHold s a r) := by
  unfold warmHold
  repeat' first
    | with_reducible assumption | (intro)
    | with_reducible apply State.setZp_evolves | with_reducible apply setRfoState_evolves
    | with_reducible apply setZRange_evolves | with_reducible apply Evolves.foldl | with_reducible apply Evolves.foldl_snd
    | with_reducible apply Evolves.foldl_fst
    | split | (dsimp only; split)

theorem porstAssert_evolves {base s : State} (ev : Evolves base s)  :
    Evolves base (porstAssert s) := by
  unfold porstAssert
  repeat' first
    | with_reducible assumption | (intro)
    | with_reducible apply porstReset_evolves | with_reducible apply warmHold_evolves
    | with_reducible apply islandFeed_evolves | with_reducible apply Evolves.ite | with_reducible apply Evolves.foldl
    | with_reducible apply Evolves.foldl_snd | with_reducible apply Evolves.foldl_fst
    | split | (dsimp only; split)

theorem execPorstAssert_evolves (s : State) :
    Answers s (execPorstAssert s) := by
  unfold execPorstAssert
  repeat' first
    | with_reducible assumption | (intro)
    | with_reducible exact Evolves.refl _ | with_reducible apply Answers.next | with_reducible apply Answers.ite
    | with_reducible apply porstAssert_evolves
    | split | (dsimp only; split)

theorem execPorstRelease_evolves (dev : BitVec 6) (s : State) :
    Answers s (execPorstRelease dev s) := by
  unfold execPorstRelease
  repeat' first
    | with_reducible assumption | (intro)
    | with_reducible exact Evolves.refl _ | with_reducible apply Answers.next | with_reducible apply Answers.ite
    | with_reducible apply State.set_evolves | with_reducible apply audit_evolves | with_reducible apply Evolves.ite
    | with_reducible apply Excise.Grows.cur | with_reducible apply Excise.Grows.saved
    | (have hb := ‹Excise.Sound _›; exact ⟨List.length_take_le _ _, hb.1.2⟩) | (have hb := ‹Excise.Sound _›; exact hb.1)
    | (have hb := ‹Excise.Sound _›; exact hb.2)
    | split | (dsimp only; split)
    | with_reducible apply Evolves.upd | with_reducible apply HostIf.Grows.refl | with_reducible apply HostIf.Grows.upd
    | with_reducible apply Excise.Grows.refl | with_reducible apply Excise.Grows.upd
    | exact ⟨id, Nat.le_refl _⟩ | exact ⟨id, Nat.le_succ _⟩

theorem railFence_evolves {base s : State} (ev : Evolves base s) (a : Nat) :
    Evolves base (railFence s a) := by
  unfold railFence
  repeat' first
    | with_reducible assumption | (intro)
    | with_reducible apply fenceTile_evolves
    | split | (dsimp only; split)

theorem execPgLost_evolves (r : Rail) (s : State) :
    Answers s (execPgLost r s) := by
  unfold execPgLost
  repeat' first
    | with_reducible assumption | (intro)
    | with_reducible exact Evolves.refl _ | with_reducible apply Answers.next | with_reducible apply Answers.ite
    | with_reducible apply tileOff_evolves | with_reducible apply porstAssert_evolves
    | with_reducible apply railFence_evolves | with_reducible apply State.event_evolves | with_reducible apply Evolves.ite
    | with_reducible apply Evolves.foldl | with_reducible apply Evolves.foldl_snd | with_reducible apply Evolves.foldl_fst
    | split | (dsimp only; split)
    | refine Evolves.fst (by with_reducible assumption) ?_ | refine Evolves.snd (by with_reducible assumption) ?_

theorem execTileRailsGood_evolves (a : Fin 8) (s : State) :
    Answers s (execTileRailsGood a s) := by
  unfold execTileRailsGood
  repeat' first
    | with_reducible assumption | (intro)
    | with_reducible exact Evolves.refl _ | with_reducible apply Answers.next | with_reducible apply Answers.ite
    | with_reducible apply deriveReady_evolves | with_reducible apply holdTile_evolves
    | with_reducible apply State.event_evolves | with_reducible apply Evolves.ite
    | split | (dsimp only; split)

theorem execParkApplied_evolves (a : Fin 8) (s : State) :
    Answers s (execParkApplied a s) := by
  unfold execParkApplied
  repeat' first
    | with_reducible assumption | (intro)
    | with_reducible exact Evolves.refl _ | with_reducible apply Answers.next | with_reducible apply Answers.ite
    | with_reducible apply applyPark_evolves | with_reducible apply Evolves.ite
    | split | (dsimp only; split)

theorem execRailEnableTimeout_evolves (tile : Option (Fin 8)) (s : State) :
    Answers s (execRailEnableTimeout tile s) := by
  unfold execRailEnableTimeout
  repeat' first
    | with_reducible assumption | (intro)
    | with_reducible exact Evolves.refl _ | with_reducible apply Answers.next | with_reducible apply Answers.ite
    | with_reducible apply railFence_evolves | with_reducible apply Evolves.ite | with_reducible apply Evolves.foldl
    | with_reducible apply Evolves.foldl_snd | with_reducible apply Evolves.foldl_fst
    | split | (dsimp only; split)
    | refine Evolves.fst (by with_reducible assumption) ?_ | refine Evolves.snd (by with_reducible assumption) ?_
    | with_reducible apply Evolves.upd | with_reducible apply HostIf.Grows.refl | with_reducible apply HostIf.Grows.upd
    | with_reducible apply Excise.Grows.refl | with_reducible apply Excise.Grows.upd
    | exact ⟨id, Nat.le_refl _⟩ | exact ⟨id, Nat.le_succ _⟩

theorem execParkLogicLost_evolves (a : Fin 8) (s : State) :
    Answers s (execParkLogicLost a s) := by
  unfold execParkLogicLost
  repeat' first
    | with_reducible assumption | (intro)
    | with_reducible exact Evolves.refl _ | with_reducible apply Answers.next | with_reducible apply Answers.ite
    | with_reducible apply deriveReady_evolves | with_reducible apply fenceTile_evolves | with_reducible apply Evolves.ite
    | split | (dsimp only; split)
    | with_reducible apply Evolves.upd | with_reducible apply HostIf.Grows.refl | with_reducible apply HostIf.Grows.upd
    | with_reducible apply Excise.Grows.refl | with_reducible apply Excise.Grows.upd
    | exact ⟨id, Nat.le_refl _⟩ | exact ⟨id, Nat.le_succ _⟩

theorem execBoot_evolves (s : State) :
    Answers s (execBoot s) := by
  unfold execBoot
  repeat' first
    | with_reducible assumption | (intro)
    | with_reducible exact Evolves.refl _ | with_reducible apply Answers.next | with_reducible apply Answers.ite
    | with_reducible apply bootSlots_evolves | with_reducible apply checkExcise_evolves
    | with_reducible apply readCellar_evolves | with_reducible apply rejectAll_evolves | with_reducible apply Evolves.ite
    | split | (dsimp only; split)

theorem execStartupReady_evolves (s : State) :
    Answers s (execStartupReady s) := by
  unfold execStartupReady
  repeat' first
    | with_reducible assumption | (intro)
    | with_reducible exact Evolves.refl _ | with_reducible apply Answers.next | with_reducible apply Answers.ite
    | with_reducible apply deriveReady_evolves | with_reducible apply recipeStart_evolves
    | with_reducible apply Evolves.ite | with_reducible apply Evolves.foldl | with_reducible apply Evolves.foldl_snd
    | with_reducible apply Evolves.foldl_fst
    | split | (dsimp only; split)
    | with_reducible apply Evolves.upd | with_reducible apply HostIf.Grows.refl | with_reducible apply HostIf.Grows.upd
    | with_reducible apply Excise.Grows.refl | with_reducible apply Excise.Grows.upd
    | exact ⟨id, Nat.le_refl _⟩ | exact ⟨id, Nat.le_succ _⟩

theorem execWatchdog_evolves (s : State) :
    Answers s (execWatchdog s) := by
  unfold execWatchdog
  repeat' first
    | with_reducible assumption | (intro)
    | with_reducible exact Evolves.refl _ | with_reducible apply Answers.next | with_reducible apply Answers.ite
    | with_reducible apply closeMailboxes_evolves | with_reducible apply serviceLoss_evolves
    | with_reducible apply State.event_evolves | with_reducible apply Evolves.ite
    | split | (dsimp only; split)
    | with_reducible apply Evolves.upd | with_reducible apply HostIf.Grows.refl | with_reducible apply HostIf.Grows.upd
    | with_reducible apply Excise.Grows.refl | with_reducible apply Excise.Grows.upd
    | exact ⟨id, Nat.le_refl _⟩ | exact ⟨id, Nat.le_succ _⟩

theorem execRyvexUp_evolves (s : State) :
    Answers s (execRyvexUp s) := by
  unfold execRyvexUp
  repeat' first
    | with_reducible assumption | (intro)
    | with_reducible exact Evolves.refl _ | with_reducible apply Answers.next | with_reducible apply Answers.ite
    | with_reducible apply deriveReady_evolves | with_reducible apply bootSlots_evolves
    | with_reducible apply checkExcise_evolves | with_reducible apply rejectAll_evolves
    | with_reducible apply State.event_evolves | with_reducible apply Evolves.ite
    | split | (dsimp only; split)

theorem execRefLost_evolves (s : State) :
    Answers s (execRefLost s) := by
  unfold execRefLost
  repeat' first
    | with_reducible assumption | (intro)
    | with_reducible exact Evolves.refl _ | with_reducible apply Answers.next | with_reducible apply Answers.ite
    | with_reducible apply serviceLoss_evolves | with_reducible apply State.event_evolves
    | with_reducible apply Evolves.ite
    | split | (dsimp only; split)
    | with_reducible apply Evolves.upd | with_reducible apply HostIf.Grows.refl | with_reducible apply HostIf.Grows.upd
    | with_reducible apply Excise.Grows.refl | with_reducible apply Excise.Grows.upd
    | exact ⟨id, Nat.le_refl _⟩ | exact ⟨id, Nat.le_succ _⟩

theorem execRefOk_evolves (s : State) :
    Answers s (execRefOk s) := by
  unfold execRefOk
  repeat' first
    | with_reducible assumption | (intro)
    | with_reducible exact Evolves.refl _ | with_reducible apply Answers.next | with_reducible apply Answers.ite
    | with_reducible apply deriveReady_evolves | with_reducible apply State.event_evolves
    | with_reducible apply Evolves.ite
    | split | (dsimp only; split)
    | with_reducible apply Evolves.upd | with_reducible apply HostIf.Grows.refl | with_reducible apply HostIf.Grows.upd
    | with_reducible apply Excise.Grows.refl | with_reducible apply Excise.Grows.upd
    | exact ⟨id, Nat.le_refl _⟩ | exact ⟨id, Nat.le_succ _⟩

theorem execPllLocked_evolves (s : State) :
    Answers s (execPllLocked s) := by
  unfold execPllLocked
  repeat' first
    | with_reducible assumption | (intro)
    | with_reducible exact Evolves.refl _ | with_reducible apply Answers.next | with_reducible apply Answers.ite
    | with_reducible apply State.setB_evolves | with_reducible apply deriveReady_evolves
    | with_reducible apply State.event_evolves | with_reducible apply Evolves.ite
    | split | (dsimp only; split)
    | with_reducible apply Evolves.upd | with_reducible apply HostIf.Grows.refl | with_reducible apply HostIf.Grows.upd
    | with_reducible apply Excise.Grows.refl | with_reducible apply Excise.Grows.upd
    | exact ⟨id, Nat.le_refl _⟩ | exact ⟨id, Nat.le_succ _⟩

theorem execPllUnlocked_evolves (s : State) :
    Answers s (execPllUnlocked s) := by
  unfold execPllUnlocked
  repeat' first
    | with_reducible assumption | (intro)
    | with_reducible exact Evolves.refl _ | with_reducible apply Answers.next | with_reducible apply Answers.ite
    | with_reducible apply State.setB_evolves | with_reducible apply serviceLoss_evolves
    | with_reducible apply State.event_evolves | with_reducible apply Evolves.ite
    | split | (dsimp only; split)

theorem execLedgerBreak_evolves (counter : CounterId) (word : BitVec 64) (s : State) :
    Answers s (execLedgerBreak counter word s) := by
  unfold execLedgerBreak
  repeat' first
    | with_reducible assumption | (intro)
    | with_reducible exact Evolves.refl _ | with_reducible apply Answers.next | with_reducible apply Answers.ite
    | with_reducible apply cellarCount_evolves | with_reducible apply ledgerBreak_evolves
    | with_reducible apply State.event_evolves | with_reducible apply Evolves.ite
    | split | (dsimp only; split)
    | with_reducible apply Evolves.upd | with_reducible apply HostIf.Grows.refl | with_reducible apply HostIf.Grows.upd
    | with_reducible apply Excise.Grows.refl | with_reducible apply Excise.Grows.upd
    | exact ⟨id, Nat.le_refl _⟩ | exact ⟨id, Nat.le_succ _⟩

theorem execHostLinkChange_evolves (up : Bool) (speed : BitVec 3) (width : BitVec 4) (s : State) :
    Answers s (execHostLinkChange up speed width s) := by
  unfold execHostLinkChange
  repeat' first
    | with_reducible assumption | (intro)
    | with_reducible exact Evolves.refl _ | with_reducible apply Answers.next | with_reducible apply Answers.ite
    | with_reducible apply State.set_evolves | with_reducible apply State.setB_evolves
    | with_reducible apply deriveReady_evolves | with_reducible apply Evolves.ite
    | split | (dsimp only; split)

end Sys2Proof.Machine
end

