-- ==== Sys2Proof/Laws/EvTelemetryCmds.lean ====
section
/-! SUPPORT. What the operations of Machine/TelemetryCmds.lean keep (Evolves). -/

namespace Sys2Proof.Machine

theorem superReads_evolves {base x1 : State} (ev : Evolves base x1) (x0 : List Nat) :
    Evolves base (superReads x0 x1).2 := by
  induction x0 generalizing x1 with
  | nil =>
    unfold superReads
    repeat' first
      | with_reducible assumption | (intro)
      | with_reducible apply readDword_evolves | with_reducible apply Evolves.ite | with_reducible apply Evolves.ite_snd
      | split | (dsimp only; split)
      | refine Evolves.fst (by with_reducible assumption) ?_ | refine Evolves.snd (by with_reducible assumption) ?_
      | dsimp only
  | cons y l ih =>
    unfold superReads
    repeat' first
      | with_reducible apply ih
      | with_reducible assumption | (intro)
      | with_reducible apply readDword_evolves | with_reducible apply Evolves.ite | with_reducible apply Evolves.ite_snd
      | split | (dsimp only; split)
      | refine Evolves.fst (by with_reducible assumption) ?_ | refine Evolves.snd (by with_reducible assumption) ?_
      | dsimp only

theorem execRegRead_evolves (m : Fin 16) (dma : Dma) (s : State) :
    Answers s (execRegRead m dma s) := by
  unfold execRegRead
  repeat' first
    | with_reducible assumption | (intro)
    | with_reducible exact Evolves.refl _ | with_reducible apply Answers.next | with_reducible apply Answers.ite
    | with_reducible apply superReads_evolves | with_reducible apply applyWrites_evolves
    | with_reducible apply runCommand_evolves | with_reducible apply refuse_evolves | with_reducible apply Evolves.ite
    | split | (dsimp only; split)

theorem superWrites_evolves {base x1 : State} (ev : Evolves base x1) (x0 : List (Nat × Nat)) :
    Evolves base (superWrites x0 x1) := by
  induction x0 generalizing x1 with
  | nil =>
    unfold superWrites
    repeat' first
      | with_reducible assumption | (intro)
      | with_reducible apply accessFault_evolves | with_reducible apply writeDword_evolves
      | with_reducible apply Evolves.ite
      | split | (dsimp only; split)
      | refine Evolves.fst (by with_reducible assumption) ?_ | refine Evolves.snd (by with_reducible assumption) ?_
  | cons y l ih =>
    unfold superWrites
    repeat' first
      | with_reducible apply ih
      | with_reducible assumption | (intro)
      | with_reducible apply accessFault_evolves | with_reducible apply writeDword_evolves
      | with_reducible apply Evolves.ite
      | split | (dsimp only; split)
      | refine Evolves.fst (by with_reducible assumption) ?_ | refine Evolves.snd (by with_reducible assumption) ?_

theorem execRegWrite_evolves (m : Fin 16) (dma : Dma) (s : State) :
    Answers s (execRegWrite m dma s) := by
  unfold execRegWrite
  repeat' first
    | with_reducible assumption | (intro)
    | with_reducible exact Evolves.refl _ | with_reducible apply Answers.next | with_reducible apply Answers.ite
    | with_reducible apply superWrites_evolves | with_reducible apply runCommand_evolves
    | with_reducible apply refuse_evolves | with_reducible apply Evolves.ite
    | split | (dsimp only; split)

theorem commitNow_evolves {base s : State} (ev : Evolves base s) (b : CfgBlock) :
    Evolves base (commitNow b s) := by
  unfold commitNow
  repeat' first
    | with_reducible assumption | (intro)
    | with_reducible apply crcCommit_evolves | with_reducible apply crcPass_evolves
    | split | (dsimp only; split)

theorem execCommitCrc_evolves (m : Fin 16) (dma : Dma) (s : State) :
    Answers s (execCommitCrc m dma s) := by
  unfold execCommitCrc
  repeat' first
    | with_reducible assumption | (intro)
    | with_reducible exact Evolves.refl _ | with_reducible apply Answers.next | with_reducible apply Answers.ite
    | with_reducible apply commitNow_evolves | with_reducible apply runCommand_evolves
    | with_reducible apply refuse_evolves | with_reducible apply Evolves.ite | with_reducible apply Evolves.foldl
    | with_reducible apply Evolves.foldl_snd | with_reducible apply Evolves.foldl_fst
    | split | (dsimp only; split)

theorem execSnapshot_evolves (m : Fin 16) (dma : Dma) (s : State) :
    Answers s (execSnapshot m dma s) := by
  unfold execSnapshot
  repeat' first
    | with_reducible assumption | (intro)
    | with_reducible exact Evolves.refl _ | with_reducible apply Answers.next | with_reducible apply Answers.ite
    | with_reducible apply runCommand_evolves | with_reducible apply refuse_evolves | with_reducible apply Evolves.ite
    | split | (dsimp only; split)

theorem execPoolAudit_evolves (m : Fin 16) (dma : Dma) (s : State) :
    Answers s (execPoolAudit m dma s) := by
  unfold execPoolAudit
  repeat' first
    | with_reducible assumption | (intro)
    | with_reducible exact Evolves.refl _ | with_reducible apply Answers.next | with_reducible apply Answers.ite
    | with_reducible apply runCommand_evolves | with_reducible apply Evolves.ite
    | split | (dsimp only; split)

theorem execSeqState_evolves (m : Fin 16) (dma : Dma) (s : State) :
    Answers s (execSeqState m dma s) := by
  unfold execSeqState
  repeat' first
    | with_reducible assumption | (intro)
    | with_reducible exact Evolves.refl _ | with_reducible apply Answers.next | with_reducible apply Answers.ite
    | with_reducible apply runCommand_evolves | with_reducible apply refuse_evolves | with_reducible apply Evolves.ite
    | split | (dsimp only; split)

end Sys2Proof.Machine
end

