-- ==== Sys2Proof/Laws/EventOps.lean ====
section
/-! SUPPORT. What raising an event touches: the event aggregator, the fault log and its copy in queue 0xFFFF, and nothing of
any unit. -/

namespace Sys2Proof.Machine

/-- The place of a register that stands neither with the events nor with the Queue Manager. -/
def UnitKey (x : Nat) : Prop := (4096 ≤ x ∧ x < 30408704) ∨ (30932992 ≤ x ∧ x < 2147483648)

/-- What an event leaves: every unit, and every register of a unit. -/
def Quiet (s t : State) : Prop :=
  t = { s with regs := t.regs, outbox := t.outbox, queues := t.queues, host := t.host }
    ∧ ∀ f : Fld, UnitKey f.key → t.get f = s.get f

theorem Quiet.refl (s : State) : Quiet s s := ⟨rfl, fun _ _ => rfl⟩

theorem Quiet.trans {a b c : State} (h : Quiet a b) (k : Quiet b c) : Quiet a c :=
  ⟨by rw [k.1, h.1], fun f hf => (k.2 f hf).trans (h.2 f hf)⟩

theorem Quiet.ite {a s t : State} {c : Prop} [Decidable c] (h : Quiet a s) (k : Quiet a t) : Quiet a (if c then s else t) := by
  split
  · exact h
  · exact k

theorem Quiet.set {a s : State} (h : Quiet a s) (f : Fld) (v : Nat) (hf : ¬ UnitKey f.key) : Quiet a (s.set f v) :=
  h.trans ⟨rfl, fun _ hg => State.get_set_ne s v (fun e => hf (e ▸ hg))⟩

theorem Quiet.host {a s : State} (h : Quiet a s) (x : HostIf) : Quiet a { s with host := x } := h.trans ⟨rfl, fun _ _ => rfl⟩
theorem Quiet.setQueue {a s : State} (h : Quiet a s) (q : Nat) (x : Queue) : Quiet a (s.setQueue q x) :=
  h.trans ⟨rfl, fun _ _ => rfl⟩
theorem Quiet.emit {a s : State} (h : Quiet a s) (o : Out) : Quiet a (s.emit o) := h.trans ⟨rfl, fun _ _ => rfl⟩

theorem UnitKey.pend {n : Nat} (h : n < 2048) : ¬ UnitKey (GLB_EVT_PEND (n / 32)).key := by
  unfold UnitKey GLB_EVT_PEND
  simp only []
  omega

theorem State.sendVector_quiet {a s : State} (h : Quiet a s) (v : Nat) : Quiet a (s.sendVector v) := by
  unfold State.sendVector
  exact Quiet.ite (h.host _) (h.emit _)

theorem State.pend_quiet {a s : State} (h : Quiet a s) {n : Nat} (hn : n < 2048) : Quiet a (s.pend n) := by
  unfold State.pend
  have k := h.set (GLB_EVT_PEND (n / 32)) (s.get (GLB_EVT_PEND (n / 32)) ||| 2 ^ (n % 32)) (UnitKey.pend hn)
  exact Quiet.ite (State.sendVector_quiet k _) k

theorem State.logEntry_quiet {a s : State} (h : Quiet a s) (n c : Nat) : Quiet a (s.logEntry n c).1 := by
  unfold State.logEntry
  dsimp only
  split
  · exact h.host _
  · exact h.host _

theorem UnitKey.owner (s : State) (q : Nat) : ¬ UnitKey (QM_PART_USED (s.owner q)).key := by
  have : s.owner q < 2 ^ 4 := State.get_lt s _
  unfold UnitKey QM_PART_USED
  simp only []
  omega

theorem State.appendRaw_quiet {a s : State} (h : Quiet a s) (q : Nat) (it : Item) : Quiet a (s.appendRaw q it) := by
  unfold State.appendRaw State.showQueue State.inc State.setB
  dsimp only
  refine Quiet.set (Quiet.set (Quiet.set (Quiet.set (Quiet.set (h.setQueue q _) _ _ ?_) _ _ ?_) _ _ ?_) _ _ ?_) _ _ ?_
  · unfold UnitKey QM_POOL_FREE; simp
  · unfold UnitKey QM_POOL_ALLOC; simp
  · exact UnitKey.owner _ _
  · unfold UnitKey QM_Q_STATUS_COUNT; simp only []; omega
  · unfold UnitKey QM_Q_STATUS_FULL; simp only []; omega

theorem State.countDrop_quiet {a s : State} (h : Quiet a s) (q n : Nat) : Quiet a (s.countDrop q n) := by
  unfold State.countDrop State.inc
  refine Quiet.set (h.setQueue q _) _ _ ?_
  unfold UnitKey QM_Q_DROPS
  simp only []
  omega

theorem State.eventN_quiet {a s : State} (h : Quiet a s) (fuel : Nat) {n : Nat} (c : Nat) (hn : n < 2048) :
    Quiet a (State.eventN fuel s n c) := by
  induction fuel generalizing s n c with
  | zero => exact State.pend_quiet h hn
  | succ fuel ih =>
    have up : ∀ {t : State} {f : Fld} {n : Nat}, Quiet a t → ¬ UnitKey f.key → n < 2048 →
        Quiet a (if t.on f then t else State.eventN fuel (t.setB f true) n 0) :=
      fun h hf hn => Quiet.ite h (ih (h.set _ _ hf) 0 hn)
    unfold State.eventN
    refine Quiet.ite (State.pend_quiet h hn) ?_
    have h1 := State.logEntry_quiet (State.pend_quiet h hn) n c
    generalize State.logEntry (s.pend n) n c = p at h1
    obtain ⟨s1, lost⟩ := p
    have h2 : Quiet a (if lost && !s1.host.logLost && s1.on GLB_STATUS_READY then
        State.eventN fuel { s1 with host := { s1.host with logLost := true } } 17 0 else s1) :=
      Quiet.ite (ih (h1.host _) 0 (by decide)) h1
    dsimp only
    generalize (if lost && !s1.host.logLost && s1.on GLB_STATUS_READY then
        State.eventN fuel { s1 with host := { s1.host with logLost := true } } 17 0 else s1) = s2 at h2 ⊢
    have empty : ¬ UnitKey QM_STATUS_POOL_EMPTY.key := by unfold UnitKey QM_STATUS_POOL_EMPTY; simp
    have low : ¬ UnitKey QM_STATUS_POOL_LOW.key := by unfold UnitKey QM_STATUS_POOL_LOW; simp
    split
    · exact h2
    · refine Quiet.ite ?_ ?_
      · exact Quiet.ite (up (State.countDrop_quiet h2 _ _) empty (by decide)) (State.countDrop_quiet h2 _ _)
      · have h3 := State.appendRaw_quiet h2 0xFFFF { bytes := (‹FaultLog›).bytes }
        have h4 := Quiet.ite (c := (s2.appendRaw 0xFFFF { bytes := (‹FaultLog›).bytes }).poolEmpty = true)
          (up (n := 761) h3 empty (by decide)) h3
        refine Quiet.ite (ih ?_ 0 (by decide)) ?_ <;> exact Quiet.ite (up h4 low (by decide)) h4

theorem State.event_quiet {a s : State} (h : Quiet a s) {n : Nat} (hn : n < 2048) (c : Nat := 0) : Quiet a (s.event n c) :=
  State.eventN_quiet h _ c hn

/-- An event leaves the registers of every unit. -/
theorem State.event_get (s : State) {n : Nat} (hn : n < 2048) (c : Nat) {f : Fld} (hf : UnitKey f.key) :
    (s.event n c).get f = s.get f := (State.event_quiet (Quiet.refl s) hn c).2 f hf

/-- An event leaves every sequencer. -/
theorem State.event_seq (s : State) {n : Nat} (hn : n < 2048) (c k : Nat) : (s.event n c).seq k = s.seq k := by
  have h := (State.event_quiet (Quiet.refl s) hn c).1
  unfold State.seq
  rw [h]

/-- An event leaves every byte of memory. -/
theorem State.event_byte (s : State) {n : Nat} (hn : n < 2048) (c a : Nat) : (s.event n c).byte a = s.byte a := by
  have h := (State.event_quiet (Quiet.refl s) hn c).1
  unfold State.byte
  rw [h]

/-- The state of a sequencer after a move to it. -/
theorem setSeqState_state (k st : Nat) (s : State) (hk : k < 512) (hst : st < 8) : seqState k (setSeqState k st s) = st := by
  unfold setSeqState
  split
  · assumption
  · unfold seqState
    rw [State.event_get _ (by omega)]
    · rw [State.get_set_same]
      exact Nat.mod_eq_of_lt hst
    · unfold UnitKey SEQ_STATUS_STATE
      simp only []
      omega

end Sys2Proof.Machine
end

