-- ==== Sys2Proof/Laws/SeqOps.lean ====
section
/-! SUPPORT. What retirement, flags and the prologue of an instruction do to a sequencer, said once. -/

namespace Sys2Proof.Machine

@[simp] theorem State.seq_modSeq_same (s : State) (k : Nat) (f : Seq → Seq) : (s.modSeq k f).seq k = f (s.seq k) := by
  simp [State.modSeq]

theorem State.seq_modSeq_ne (s : State) {k j : Nat} (f : Seq → Seq) (h : j ≠ k) : (s.modSeq k f).seq j = s.seq j := by
  simp [State.modSeq, State.seq_setSeq_ne _ _ h]

@[simp] theorem State.get_modSeq (s : State) (k : Nat) (f : Seq → Seq) (g : Fld) : (s.modSeq k f).get g = s.get g := rfl
@[simp] theorem State.byte_modSeq (s : State) (k : Nat) (f : Seq → Seq) (a : Nat) : (s.modSeq k f).byte a = s.byte a := rfl
@[simp] theorem State.fetchWord_modSeq (s : State) (k j : Nat) (f : Seq → Seq) : fetchWord j (s.modSeq k f) = fetchWord j s := rfl

/-- A program register and the program counter are different fields. -/
theorem greg_ne_pc (k j n : Nat) (h : n < 16) : (SEQ_GREG_G k n).key ≠ (SEQ_PC j).key := by
  simp only [SEQ_GREG_G, SEQ_PC]
  omega

/-- Sequencer k after a retirement. -/
theorem retire_seq_same (k t : Nat) (s : State) :
    (retire k t s).seq k = { s.seq k with
      stack := (loopNext (pcOf k s) (s.seq k).stack).1
      readyAt := t
      lastPc := pcOf k s
      pcOver := decide ((loopNext (pcOf k s) (s.seq k).stack).2 ≥ 8192) } := by
  unfold retire setPc
  simp

/-- Another sequencer after a retirement. -/
theorem retire_seq_ne {k j : Nat} (t : Nat) (s : State) (h : j ≠ k) : (retire k t s).seq j = s.seq j := by
  unfold retire setPc
  simp [State.seq_modSeq_ne _ _ h]

/-- The program counter after a retirement. -/
theorem retire_pc (k t : Nat) (s : State) :
    (retire k t s).get (SEQ_PC k) = (loopNext (pcOf k s) (s.seq k).stack).2 % 2 ^ 13 := by
  unfold retire setPc
  simp [SEQ_PC]

/-- Every other register after a retirement. -/
theorem retire_get (k t : Nat) (s : State) {f : Fld} (h : f.key ≠ (SEQ_PC k).key) : (retire k t s).get f = s.get f := by
  unfold retire setPc
  simp [State.get_set_ne _ _ h]

/-- A retirement changes registers and sequencers alone. -/
theorem retire_units (k t : Nat) (s : State) :
    retire k t s = { s with regs := (retire k t s).regs, seqs := (retire k t s).seqs } := rfl

@[simp] theorem retire_byte (k t : Nat) (s : State) (a : Nat) : (retire k t s).byte a = s.byte a := rfl

/-- A change of sequencer k that leaves PCOVER leaves the full program counter. -/
theorem pcOf_modSeq (s : State) (k : Nat) (f : Seq → Seq) (h : (f (s.seq k)).pcOver = (s.seq k).pcOver) :
    pcOf k (s.modSeq k f) = pcOf k s := by
  simp [pcOf, h]

/-- Writing a field other than the program counter leaves the full program counter. -/
theorem pcOf_set (s : State) (k : Nat) {f : Fld} (v : Nat) (h : f.key ≠ (SEQ_PC k).key) : pcOf k (s.set f v) = pcOf k s := by
  unfold pcOf
  rw [State.get_set_ne _ _ (Ne.symm h)]
  rfl

/-- Opening the micro-state of a sequencer changes nothing else. -/
theorem opens_seq_ne {op k j : Nat} (s : State) (h : j ≠ k) : (opens op k s).seq j = s.seq j := by
  unfold opens
  split
  · rfl
  · exact State.seq_modSeq_ne _ _ h

@[simp] theorem opens_get (op k : Nat) (s : State) (f : Fld) : (opens op k s).get f = s.get f := by
  unfold opens; split <;> rfl
@[simp] theorem opens_byte (op k : Nat) (s : State) (a : Nat) : (opens op k s).byte a = s.byte a := by
  unfold opens; split <;> rfl
@[simp] theorem opens_fetchWord (op k j : Nat) (s : State) : fetchWord j (opens op k s) = fetchWord j s := by
  unfold opens; split <;> rfl

/-- Opening the micro-state of a sequencer changes its micro-state alone. -/
theorem opens_units (op k : Nat) (s : State) : opens op k s = { s with seqs := (opens op k s).seqs } := by
  unfold opens; split <;> rfl

/-- A sequencer at a boundary whose next word has the row's opcode, an opcode of image 2.4, and a COND that holds runs the row's
body from the tick at which it is ready. -/
theorem instr_runs {op k : Nat} {s s1 : State} (body : Nat → Nat → State → State) (e : advanceTo (s.seq k).readyAt s = s1)
    (h1 : atBoundary k s1 = true) (h2 : (s1.seq k).pcOver = false) (h3 : fetchWord k s1 / 2 ^ 56 = op)
    (h4 : byRule k op s1 = true) (h5 : condHolds (s1.seq k) (bits (fetchWord k s1) 52 4) = true) :
    instr op k s body = body (fetchWord k s1) (s.seq k).readyAt (opens op k s1) := by
  unfold instr
  simp only [e, h1, h2, h3, h4, h5, Bool.not_true, Bool.false_eq_true, if_false, if_true, ne_eq, not_true_eq_false]

/-- A false COND retires the instruction in 1 cycle. -/
theorem instr_skips {op k : Nat} {s s1 : State} (body : Nat → Nat → State → State) (e : advanceTo (s.seq k).readyAt s = s1)
    (h1 : atBoundary k s1 = true) (h2 : (s1.seq k).pcOver = false) (h3 : fetchWord k s1 / 2 ^ 56 = op)
    (h4 : byRule k op s1 = true) (h5 : condHolds (s1.seq k) (bits (fetchWord k s1) 52 4) = false) :
    instr op k s body = retire k ((s.seq k).readyAt + 2) (advanceTo ((s.seq k).readyAt + 2) s1) := by
  unfold instr
  simp only [e, h1, h2, h3, h4, h5, Bool.not_true, Bool.false_eq_true, if_false, ne_eq, not_true_eq_false]

end Sys2Proof.Machine
end

