-- ==== Sys2Proof/Machine/Outputs.lean ====
section
/-! DEFINITION. What the block shows at its pins as a function of its state, where the table has no command for it: the trigger
pins (R45) and the debug port (R460), and what an error of its Cellar does (R456), which has no row either. -/

namespace Sys2Proof.Machine

/-! ### RFO balls (R173, R182, R185) -/

/-- The gated sum of port p for tick m, as the interpolator holds it; 0 where nothing played. -/
def heldSum (p m : Nat) (s : State) : Int × Int :=
  match (s.rfo p).past.find? fun g => g.1 == m with
  | some g => g.2
  | none => (0, 0)

/-- The interpolated sum of port p at an instant of the firing axis [fine ticks], I and Q [2^-159]: the sums themselves at whole ticks,
and between them a filter of linear phase over 24 ticks either side whose taps the spec does not give (R182)
(DESIGN CHOICE, log entry 9). -/
def upSum (p tau : Nat) (s : State) : Int × Int :=
  if tau % 32 = 0 then
    let v := heldSum p (tau / 32) s
    (v.1 * 2 ^ 24, v.2 * 2 ^ 24)
  else sumTo 48 fun j =>
    let m := tau / 32 + j - 23
    let h := if tau / 32 + j < 23 then 0 else Config.upTap (absI ((tau : Int) - (32 * m : Nat)))
    let v := heldSum p m s
    (h * v.1, h * v.2)

/-- The sample of port p that leaves its ball at instant u [fine ticks], one of the 64 GS/s and at most the present tick's [2^-219 of
full scale]: the interpolated sum of 40 ticks before times exp(j2 pi Fc tau / 2^48), its real part (R173, R182, R185).  What the
equaliser, the noise shaper, the cells and the driver make of it is analog and not in the model (DESIGN CHOICE, log entry 9). -/
def rfoBall (p u : Nat) (s : State) : Int :=
  if u < 1280 then 0
  else
    let tau := u - 1280
    let ph := (centreWord (8 * p) s * tau) % 2 ^ 48
    let v := upSum p tau s
    v.1 * cosTurn ph - v.2 * sinTurn ph

/-! ### Lane test (R335) -/

/-- The 16 bits of its test pattern that lane l sends in tick t, bit 0 first, with the errors it injects: none where it sends no
pattern (DESIGN CHOICE, log entry 112). -/
def laneTest (l t : Nat) (s : State) : Option Nat :=
  let p := s.get (FLV_LANE_TEST_PATTERN l)
  if p = 0 ∨ !s.on (FLV_LANE_TEST_GEN l) then none
  else
    let line := prbsRun p (16 * t + 16) ((List.range 31).map (Config.prbsSeed l).testBit)
    some (injectBits l (16 * t) 16 (bitsNat (line.take 16).reverse) s)

/-! ### Trigger pins (R43, R45) -/

/-- How a pin is driven. -/
inductive PinDrive where
  /-- High impedance. -/
  | highZ
  /-- A level. -/
  | level (high : Bool)
  /-- A trigger source repeated. -/
  | repeats (code : Nat)
deriving DecidableEq, Repr

/-- PULSE_W of pin n [ticks]. -/
def pulseWidth (n : Nat) (s : State) : Nat := let w := s.get (TL_PIN_CFG_PULSE_W n); if w = 0 then 256 else w

/-- Pin n emits its TIMED pulse at the present tick: the armed one once it is reached, else the last one sent. -/
def timedHigh (n : Nat) (s : State) : Bool :=
  (match (s.pin n).pulse with | some (st, w) => pulseHigh st w s.now | none => false)
    || (match (s.pin n).armed with
        | some a => pulseHigh (fineStamp ((32 * a : Nat) - pinComp n s)) (pulseWidth n s) s.now
        | none => false)

/-- Pin n is an output that the Timeline drives. -/
def pinDriven (n : Nat) (s : State) : Bool := s.on TL_CTRL_EN && s.get (TL_PIN_CFG_DIR n) == 1

/-- Pin n, 0..15 a TRIG pin and 16..21 a fast line, is driven so at the present tick (R45): a GATE by the angle that COMP's lead
extrapolates (R43). -/
def pinDrive (n : Nat) (s : State) : PinDrive :=
  if !pinDriven n s then (if n < 16 ∨ (s.on TL_CTRL_EN ∧ s.get (TL_PIN_CFG_DIR n) = 0) then .highZ else .level false)
  else match s.get (TL_PIN_CFG_OUT_SRC n) with
    | 0 => .level (s.on (TL_PIN_CFG_LEVEL n))
    | 1 => .level (timedHigh n s)
    | 2 => .repeats (s.get (TL_PIN_CFG_SEL n))
    | _ => .level (angleValid s && inWindow s (s.get (TL_PIN_CFG_SEL n) % 8) (angleFine s ((256 * s.now : Nat) + 8 * pinComp n s)))

/-! ### Debug port (R444, R460) -/

/-- What a debug instruction asks for: the two of IEEE 1149.1, or a vendor extension that addresses a part of the device. -/
inductive DebugReq where
  | idcode
  | bypass
  | vendor (part : Nat)
deriving DecidableEq, Repr

/-- Parts that a vendor extension can name: 0 the control die, 1 + a the analog tile a, 9 the Excise island, 10 its Cellar
region, 11 the key store (DESIGN CHOICE, log entry 109). -/
def debugReach (part : Nat) : Bool := decide (part ≤ 8)

/-- What the debug port does with a request. -/
inductive DebugAns where
  /-- The device identification. -/
  | idcode (w : BitVec 32)
  /-- The one-bit bypass register stands between TDI and TDO. -/
  | bypass
  /-- The extension acts on the part. -/
  | reaches (part : Nat)
deriving DecidableEq, Repr

/-- The debug port is open (R444, R461). -/
def debugOpen (s : State) : Bool := lifecycle s != 2 || s.on SEC_STATUS_DEBUG_OPEN

/-- The answer of the debug port (R460): the extension's own effect on what it reaches is the vendor's and not in the spec
(DESIGN CHOICE, log entry 109). -/
def debugPort (q : DebugReq) (s : State) : DebugAns :=
  match q with
  | .idcode => .idcode Config.idcode
  | .bypass => .bypass
  | .vendor part => if debugOpen s && debugReach part then .reaches part else .bypass

end Sys2Proof.Machine
end

