-- ==== Sys2Proof/Machine/Package.lean ====
section
/-! DEFINITION. The package: which signal or supply every ball carries (R495 to R499). -/

namespace Sys2Proof.Machine

/-- What a ball carries. P and N of a pair are told by `p`. -/
inductive Ball where
  | ground
  | vddCore
  | vddIo
  | vddHbm
  | vdd33
  | vddExc
  | vddaBp
  | vddaBn
  | vddAtd (a : Nat)
  | vdda18 (a : Nat)
  | rfo (p : Nat)
  | rfi (i : Nat)
  | zf (z : Nat)
  | zb (z : Nat)
  | pcie (lane : Nat) (tx p : Bool)
  | eth (port lane : Nat) (tx p : Bool)
  | flavas (lane : Nat) (tx p : Bool)
  | refIn (p : Bool)
  | refOut (p : Bool)
  | tbus (line : Nat) (p : Bool)
  /-- Pair k of bridge channel n: 0 SENS, 1 EXC, 2 EXS. -/
  | bridge (n k : Nat) (p : Bool)
  /-- Single-ended control signal j in the order of R499: TRIG, CYC, DEV_ID, PORST_L, the debug port, the power-good inputs, the
  enables. -/
  | single (j : Nat)
deriving DecidableEq, Repr

/-- The regions of the ball array (R496). -/
inductive Region where
  | tile (a : Nat)
  | top
  | right
  | bottom
  | left
  | core
deriving DecidableEq, Repr

/-- The ball at depth d and position u of a region; in the core the coordinates are the row and the column (R496). -/
def regionBall (g : Region) (d u : Nat) : Nat × Nat :=
  match g with
  | .tile 0 => (1 + d, 1 + u)
  | .tile 1 => (1 + d, 45 + u)
  | .tile 2 => (1 + u, 104 - d)
  | .tile 3 => (45 + u, 104 - d)
  | .tile 4 => (104 - d, 104 - u)
  | .tile 5 => (104 - d, 60 - u)
  | .tile 6 => (104 - u, 1 + d)
  | .tile _ => (60 - u, 1 + d)
  | .top => (17 + d, 17 + u)
  | .right => (17 + u, 88 - d)
  | .bottom => (88 - d, 88 - u)
  | .left => (88 - u, 17 + d)
  | .core => (d, u)

/-- The region and local coordinates of a ball, none for a position that holds none (R495, R496). -/
def ballPlace (r c : Nat) : Option (Region × Nat × Nat) :=
  if r < 1 ∨ 104 < r ∨ c < 1 ∨ 104 < c ∨ (37 ≤ r ∧ r ≤ 68 ∧ 37 ≤ c ∧ c ≤ 68) then none
  else if r ≤ 16 ∧ c ≤ 44 then some (.tile 0, r - 1, c - 1)
  else if r ≤ 16 ∧ c ≤ 88 then some (.tile 1, r - 1, c - 45)
  else if 89 ≤ c ∧ r ≤ 44 then some (.tile 2, 104 - c, r - 1)
  else if 89 ≤ c ∧ r ≤ 88 then some (.tile 3, 104 - c, r - 45)
  else if 89 ≤ r ∧ 61 ≤ c then some (.tile 4, 104 - r, 104 - c)
  else if 89 ≤ r ∧ 17 ≤ c then some (.tile 5, 104 - r, 60 - c)
  else if c ≤ 16 ∧ 61 ≤ r then some (.tile 6, c - 1, 104 - r)
  else if c ≤ 16 then some (.tile 7, c - 1, 60 - r)
  else if r ≤ 24 ∧ c ≤ 80 then some (.top, r - 17, c - 17)
  else if 81 ≤ c ∧ r ≤ 80 then some (.right, 88 - c, r - 17)
  else if 81 ≤ r ∧ 25 ≤ c then some (.bottom, 88 - r, 88 - c)
  else if c ≤ 24 then some (.left, c - 17, 88 - r)
  else some (.core, r, c)

/-- The ball of tile a at depth d and position u (R497). -/
def tileBall (a d u : Nat) : Ball :=
  let j := 22 * d + (u - 1) / 2
  if u % 2 = 0 then .ground
  else if d = 11 ∨ d = 14 then .vdda18 a
  else if 11 < d then .vddAtd a
  else if j < 36 then .rfo (36 * a + j)
  else if j < 40 then .rfi (4 * a + (j - 36))
  else if j < 136 then .zf (96 * a + (j - 40))
  else if j < 232 then .zb (96 * a + (j - 136))
  else .ground

/-- The pin of a lane column at depth e: transmit or receive, P or N (R498). -/
def lanePin (e : Nat) : Option (Bool × Bool) :=
  match e with
  | 1 => some (true, true)
  | 2 => some (true, false)
  | 4 => some (false, true)
  | 5 => some (false, false)
  | _ => none

/-- The ball of the top lane region (R498). -/
def topBall (e u : Nat) : Ball :=
  let n := (u - 1) / 2
  if u % 2 = 0 then .ground
  else if 33 ≤ u then (if 1 ≤ e ∧ e ≤ 6 then .vddIo else .ground)
  else match lanePin e with
    | none => .ground
    | some (tx, p) => if n < 8 then .pcie n tx p else .eth ((n - 8) / 4) ((n - 8) % 4) tx p

/-- The ball of the right or the bottom lane region, whose first lane is `first` (R498). -/
def flavasBall (first e u : Nat) : Ball :=
  if u % 2 = 0 ∨ 31 < u then .ground
  else match lanePin e with
    | none => .ground
    | some (tx, p) => .flavas (first + (u - 1) / 2) tx p

/-- The position of a depth among those of the single-ended signals (R499). -/
def singleSlot (e : Nat) : Option Nat :=
  match e with
  | 1 => some 0
  | 2 => some 1
  | 4 => some 2
  | 5 => some 3
  | 7 => some 4
  | _ => none

/-- The ball of the control region (R499). -/
def controlBall (e u : Nat) : Ball :=
  if u % 2 = 0 then .ground
  else if 35 ≤ u ∧ u ≤ 61 then
    match singleSlot e with
    | some k => .single (5 * ((u - 35) / 2) + k)
    | none => if e = 3 ∨ e = 6 then .vdd33 else .ground
  else match lanePin e with
    | none => .ground
    | some (first, p) =>
      if u = 1 then (if first then .refIn p else .refOut p)
      else if u ≤ 9 then .tbus (2 * ((u - 3) / 2) + if first then 0 else 1) p
      else if u ≤ 33 then
        let q := 2 * ((u - 11) / 2) + if first then 0 else 1
        .bridge (q / 3) (q % 3) p
      else .vddExc

/-- The ball of the core region (R499). -/
def coreBall (r c : Nat) : Ball :=
  if (r + c) % 2 = 0 then .ground
  else if r ≤ 36 ∧ c ≤ 36 then .vddaBp
  else if r ≤ 36 ∧ 69 ≤ c then .vddaBn
  else if 69 ≤ r ∧ (c ≤ 36 ∨ 69 ≤ c) then .vddHbm
  else .vddCore

/-- What the ball in row r and column c carries, none for a position that holds no ball (R495 to R499). -/
def ball (r c : Nat) : Option Ball :=
  (ballPlace r c).map fun x => match x with
    | (.tile a, d, u) => tileBall a d u
    | (.top, d, u) => topBall d u
    | (.right, d, u) => flavasBall 0 d u
    | (.bottom, d, u) => flavasBall 16 d u
    | (.left, d, u) => controlBall d u
    | (.core, d, u) => coreBall d u

end Sys2Proof.Machine
end

