-- ==== Sys2Proof/Tests/Slice0.lean ====
section
/-! SUPPORT. Tests of the model: ill-formed terms that WellFormed refuses, a witness of the hypotheses of each obligation's clauses,
and small steps with results taken from the spec's words and worked examples. -/

namespace Sys2Proof.Tests
open Sys2Proof.Machine

set_option Elab.async false

/-- A host that is not privileged. -/
def host : Req := ⟨0, 7, false, .bar0⟩
/-- The Supervisor. -/
def sup : Req := ⟨0, 0, true, .bar0⟩

theorem test_wf_write_empty : (Instr.registerWrite host 0 []).wf = false := by decide
theorem test_wf_write_long : (Instr.registerWrite host 0 (List.replicate 129 (15, 0))).wf = false := by simp [Instr.wf]
theorem test_wf_read_empty : (Instr.loRead host 0 []).wf = false := by decide
theorem test_wf_part_range : (Instr.partWrite host .tun 8 0).wf = false := by decide
theorem test_wf_driver_port : (Instr.driverFaultRetest false 288 true).wf = false := by decide
theorem test_wf_ledger_account : (Instr.ledgerBreak ⟨0, 16⟩ 0).wf = false := by decide
theorem test_wf_link_speed : (Instr.hostLinkChange true 6 8).wf = false := by decide
theorem test_wf_frame_short : (Instr.ethRxFrame 0 [] true).wf = false := by decide
theorem test_wf_mgmt_short : (Instr.mgmtFrame 0 []).wf = false := by decide
theorem test_wf_dma_fail : (Instr.getInfo 0 ⟨[], some (dmaMax + 1), []⟩).wf = false := by decide

/-! ### Sequencers: witnesses -/

/-- The word with opcode `op` and COND = AL. -/
abbrev ir (op : Nat) (fields : Nat := 0) : Nat := op * 2 ^ 56 + fields

/-- Sequencer 0 RUNNING, its Tun with the factory's image, with w at address 0 of its store. -/
def run (w : Nat) (s : State := .reset) : State :=
  { (s.wr instrStoreBase 8 w).set (SEQ_STATUS_STATE 0) stRunning with tuns := [(0, { factory := true })] }

/-- Sequencer 0 changed. -/
def seq0 (q : Seq) (s : State) : State := { s with seqs := [(0, q)] }

/-- The conditions of `Issues`, as they are computed. -/
def issuesB (k op : Nat) (s : State) : Bool :=
  let u := atIssue k s
  atBoundary k u && !(u.seq k).pcOver && fetchWord k u / 2 ^ 56 == op && byRule k op u
    && condHolds (u.seq k) (bits (fetchWord k u) 52 4)

theorem issues {k op : Nat} {s : State} (h : issuesB k op s = true) : Issues k op s := by
  simp only [issuesB, Bool.and_eq_true, beq_iff_eq, Bool.not_eq_true'] at h
  exact ⟨h.1.1.1.1, h.1.1.1.2, h.1.1.2, h.1.2, h.2⟩

/-- Sequencer 0 of s issues opcode `op`, and the condition of a clause holds. -/
abbrev Meets (op : Nat) (s : State) (cond : State → Prop) : Prop := issuesB 0 op s = true ∧ cond s

/-- Every opcode of image 2.4 can issue. -/
theorem wit_issues : ∀ row ∈ seqRows, Issues 0 row.1 (run (ir row.1)) := by
  have h : seqRows.all (fun row => issuesB 0 row.1 (run (ir row.1))) = true := by decide +kernel
  exact fun row hr => issues (List.all_eq_true.mp h row hr)

/-- Every one of them with COND = NV. -/
theorem wit_skips : seqRows.all (fun row =>
    let s := run (ir row.1 (0xF * 2 ^ 52))
    let u := atIssue 0 s
    atBoundary 0 u && !(u.seq 0).pcOver && issued 0 s / 2 ^ 56 == row.1 && byRule 0 row.1 u
      && !condHolds (u.seq 0) (wordBits 0 s 52 4)) = true := by decide +kernel

/-- WAITUNTIL of each MODE, and with an odd pair (R113). -/
theorem wit_waituntil :
    Meets 0x09 (run (ir 0x09)) (fun s => waitTarget 0 (issued 0 s) (inTicks 0 4 s) = some 0)
      ∧ Meets 0x09 (run (ir 0x09 (2 ^ 46 + 0xFFFFFFFF))) (fun s => wordBits 0 s 46 2 = 1 ∧ wordBits 0 s 0 32 = 0xFFFFFFFF)
      ∧ Meets 0x09 (run (ir 0x09 (2 * 2 ^ 46))) (fun s => wordBits 0 s 46 2 = 2)
      ∧ Meets 0x09 (run (ir 0x09 (3 * 2 ^ 46)))
          (fun s => waitTarget 0 (issued 0 s) (inTicks 0 4 s) = none ∧ wordBits 0 s 46 2 = 3)
      ∧ Meets 0x09 (run (ir 0x09 (2 ^ 32))) (fun s => wordBits 0 s 46 2 = 0 ∧ wordBits 0 s 32 4 % 2 = 1) := by decide +kernel

/-- LD at the ends of its table's ranges and beyond; ST at the ends of the sample memory and beyond (R124). -/
theorem wit_data :
    (∀ off ∈ [0, 0x40000, 0x7FFFF], Meets 0x30 (run (ir 0x30 off)) fun s =>
        let a := dataAddr 0 (issued 0 s) (atBegin 0 s)
        let n := 2 * (if 0x40000 ≤ a ∧ a ≤ 0x7FFFF then 4 else 3)
        a = off ∧ (dataWord 0 a (beginTick 0 s + n) (inTicks 0 n s)).isSome = true)
      ∧ (∀ off ∈ [0x4100, 0x3FFFF, 0x80000], Meets 0x30 (run (ir 0x30 off)) fun s =>
        dataAddr 0 (issued 0 s) (atBegin 0 s) = off ∧ ((0x4100 ≤ off ∧ off < 0x40000) ∨ 0x80000 ≤ off))
      ∧ (∀ off ∈ [0x40000, 0x7FFFF], Meets 0x31 (run (ir 0x31 off)) fun s => dataAddr 0 (issued 0 s) (atBegin 0 s) = off)
      ∧ (∀ off ∈ [0x3FFFF, 0x80000], Meets 0x31 (run (ir 0x31 off)) fun s => dataAddr 0 (issued 0 s) (atBegin 0 s) = off) := by
  decide +kernel

/-- CALL with 15 and with 16 entries; RET with and without a call; LOOP with counts 0 and 1, with 16 entries, and at its own END. -/
theorem wit_flow :
    Meets 0x2B (seq0 { stack := List.replicate 15 (.call 1) } (run (ir 0x2B))) (fun s => ((inTicks 0 4 s).seq 0).stack.length < 16)
      ∧ Meets 0x2B (seq0 { stack := List.replicate 16 (.call 1) } (run (ir 0x2B)))
          (fun s => 16 ≤ ((inTicks 0 4 s).seq 0).stack.length)
      ∧ Meets 0x2C (seq0 { stack := [.loop 1 2 3, .call 9] } (run (ir 0x2C)))
          (fun s => popCall ((inTicks 0 4 s).seq 0).stack = some (9, []))
      ∧ Meets 0x2C (run (ir 0x2C)) (fun s => popCall ((inTicks 0 4 s).seq 0).stack = none)
      ∧ Meets 0x2A (run (ir 0x2A 1)) (fun s => pcOf 0 (inTicks 0 4 s) < wordBits 0 s 0 13 ∧ wordBits 0 s 24 24 = 0)
      ∧ Meets 0x2A (run (ir 0x2A (2 ^ 24 + 1)))
          (fun s => pcOf 0 (inTicks 0 4 s) < wordBits 0 s 0 13 ∧ wordBits 0 s 24 24 = 1 ∧ ((inTicks 0 4 s).seq 0).stack.length < 16)
      ∧ Meets 0x2A (seq0 { stack := List.replicate 16 (.call 1) } (run (ir 0x2A (2 ^ 24 + 1))))
          (fun s => pcOf 0 (inTicks 0 4 s) < wordBits 0 s 0 13 ∧ wordBits 0 s 24 24 ≠ 0 ∧ 16 ≤ ((inTicks 0 4 s).seq 0).stack.length)
      ∧ Meets 0x2A (run (ir 0x2A)) (fun s => wordBits 0 s 0 13 ≤ pcOf 0 (inTicks 0 4 s)) := by decide +kernel

/-- Result Vector pair 0 valid with generation 0 and value 0. -/
def rv0 (s : State) : State := { s with rv := [(0, { val := 0, gen := 0, inv := false })] }

/-- Sequencer 0's BRR at its arming; what it finds there, and whether it is taken, to an address in the store. -/
def brrArm (s : State) : State := modMicro 0 (fun m => { m with resgen := brrExpected 0 (issued 0 s) (inTicks 0 4 s) }) (inTicks 0 4 s)

def brrFinds (s : State) (o : BrrOutcome) : Prop :=
  brrOk (issued 0 s) = true ∧ brrCompare 0 (issued 0 s) (brrExpected 0 (issued 0 s) (inTicks 0 4 s)) (brrArm s) = o

def brrGoes (s : State) : Bool × Nat := brrTaken 0 (issued 0 s) (brrArm s)

/-- BRR: resolved and taken, taken beyond the store, not taken; behind; stale and invalid with either ON_FAIL; a bad INDEX. -/
theorem wit_brr :
    Meets 0x29 (rv0 (run (ir 0x29 8191))) (fun s => brrFinds s .resolve ∧ brrGoes s = (true, 8191))
      ∧ Meets 0x29 (seq0 { codes := [(0, { gen := 0, val := 1, inv := false })] } (run (ir 0x29 (3 * 2 ^ 46 + 8191))))
          (fun s => brrFinds s .resolve ∧ brrGoes s = (true, 8192))
      ∧ Meets 0x29 (rv0 (run (ir 0x29 (2 ^ 30)))) (fun s => brrFinds s .resolve ∧ (brrGoes s).1 = false)
      ∧ Meets 0x29 ((rv0 (run (ir 0x29))).set (SEQ_GREG_G 0 0) 1) (fun s => brrFinds s .behind)
      ∧ (∀ f, f < 2 → Meets 0x29 ((rv0 (run (ir 0x29 (f * 2 ^ 49)))).set (SEQ_GREG_G 0 0) 0xFFFF)
          (fun s => brrFinds s .stale ∧ wordBit 0 s 49 = decide (f = 1)))
      ∧ (∀ f, f < 2 → Meets 0x29 (run (ir 0x29 (f * 2 ^ 49))) (fun s => brrFinds s .invalid ∧ wordBit 0 s 49 = decide (f = 1)))
      ∧ Meets 0x29 (run (ir 0x29 (2 ^ 46 + 2048 * 2 ^ 34))) (fun s => brrOk (issued 0 s) = false) := by
  unfold brrFinds; decide +kernel

/-- ALIGN_ANGLE on an empty window, and with the tracker locked or not; sources 33 and 34; barriers; messages. -/
theorem wit_waiting :
    Meets 0x0A (run (ir 0x0A)) (fun s => windowEmpty (inTicks 0 4 s) (wordBits 0 s 0 3) = true)
      ∧ Meets 0x0A ((run (ir 0x0A)).set (TL_CA_WIN_HI 0) 1)
          (fun s => windowEmpty (inTicks 0 4 s) (wordBits 0 s 0 3) = false ∧ angleValid (inTicks 0 4 s) = false)
      ∧ Meets 0x0A (((run (ir 0x0A)).set (TL_CA_WIN_HI 0) 1).setB TL_CA_STATUS_LOCKED true)
          (fun s => windowEmpty (inTicks 0 4 s) (wordBits 0 s 0 3) = false ∧ angleValid (inTicks 0 4 s) = true)
      ∧ Meets 0x0B (run (ir 0x0B (33 * 2 ^ 42))) (fun s => sourceOk (wordBits 0 s 42 6) = true)
      ∧ Meets 0x0B (run (ir 0x0B (34 * 2 ^ 42))) (fun s => sourceOk (wordBits 0 s 42 6) = false)
      ∧ Meets 0x0C ((run (ir 0x0C 255)).set (QM_BAR_CFG_COUNT 255) 512)
          (fun s => barPart (wordBits 0 s 0 8) (inTicks 0 4 s) = seqPart 0 (inTicks 0 4 s) ∧ barEnabled 255 (inTicks 0 4 s) = true)
      ∧ Meets 0x0C ((run (ir 0x0C)).set (GLB_PART_BAR 0) 1) (fun s => barPart 0 (inTicks 0 4 s) ≠ seqPart 0 (inTicks 0 4 s))
      ∧ Meets 0x0C (run (ir 0x0C)) (fun s => barPart 0 (inTicks 0 4 s) = seqPart 0 (inTicks 0 4 s) ∧ barEnabled 0 (inTicks 0 4 s) = false)
      ∧ Meets 0x51 (run (ir 0x51 (0x97FF * 2 ^ 32))) (fun s => wordBits 0 s 32 16 < 0x9800)
      ∧ Meets 0x51 ((run (ir 0x51 (0x9800 * 2 ^ 32))).set (QM_Q_CFG_OWNER 0x9800) 1)
          (fun s => (inTicks 0 4 s).owner 0x9800 ≠ seqPart 0 (inTicks 0 4 s))
      ∧ Meets 0x51 (run (ir 0x51 (0x9800 * 2 ^ 32)))
          (fun s => (inTicks 0 4 s).owner 0x9800 = seqPart 0 (inTicks 0 4 s) ∧ headVisible 0x9800 (beginTick 0 s + 4) (inTicks 0 4 s) = none)
      ∧ Meets 0x51 { run (ir 0x51 (0x9800 * 2 ^ 32)) with queues := [(0x9800, { items := [{ bytes := [], visible := 4 }] })] }
          (fun s => (headVisible 0x9800 (beginTick 0 s + 4) (inTicks 0 4 s)).isSome = true) := by decide +kernel

/-- Each outcome of SHOT_BEGIN; SHOT_END in a shot and without one. -/
theorem wit_shots :
    Meets 0x48 (seq0 { shotOpen := true } (run (ir 0x48))) (fun s => ((inTicks 0 4 s).seq 0).shotOpen = true)
      ∧ Meets 0x48 (seq0 { stopNext := true } (run (ir 0x48)))
          (fun s => ((inTicks 0 4 s).seq 0).shotOpen = false ∧ ((inTicks 0 4 s).seq 0).stopNext = true)
      ∧ (∀ mode, Meets 0x48 ((((run (ir 0x48)).set KILN_STATUS_LEVEL 1).setB KILN_CFG_THR_MODE mode).set (KILN_SKIP_PAUSE 1) 1 |>.set
            (KILN_SKIP_SKIP 1) 1) (fun s => ((inTicks 0 4 s).seq 0).shotOpen = false ∧ ((inTicks 0 4 s).seq 0).stopNext = false
          ∧ kilnWait (inTicks 0 4 s) ≠ 0))
      ∧ Meets 0x48 ((seq0 { rings := [0x4000] } (run (ir 0x48))).set (QM_Q_CFG_FULL_POLICY 0x4000) 0 |>.set QM_POOL_FREE 0)
          (fun s => kilnWait (inTicks 0 4 s) = 0 ∧ ringHeld 0 (inTicks 0 4 s) = true)
      ∧ Meets 0x48 { run (ir 0x48) with exc := { parts := [(0, { enforced := true })] } }
          (fun s => let u := inTicks 0 4 s
            (u.seq 0).micro.active = false ∧ ringHeld 0 u = false ∧ creditHolds 0 (seqPart 0 u) (beginTick 0 s + 4) u = true
              ∧ trapByRule 0 5 (ruleShadow 0 5 (upcOf 0x48 3) (beginTick 0 s + 4) true [] u) = true)
      ∧ Meets 0x48 { run (ir 0x48) with exc := { parts := [(0, { enforced := true })] }, tuns := [(0, { factory := true, written := [(0x105, 1)] })] }
          (fun s => let u := inTicks 0 4 s
            let v := ruleShadow 0 5 (upcOf 0x48 3) (beginTick 0 s + 4) true [] u
            kilnWait u = 0 ∧ ringHeld 0 u = false ∧ creditHolds 0 (seqPart 0 u) (beginTick 0 s + 4) u = true ∧ trapByRule 0 5 v = false
              ∧ (v.seq 0).micro.active = false)
      ∧ (∀ limit, limit < 2 → Meets 0x48 { run (ir 0x48) with exc := { parts := [(0, { enforced := limit == 1, limit := limit })] } }
          (fun s => let u := inTicks 0 4 s
            (u.seq 0).shotOpen = false ∧ (u.seq 0).stopNext = false ∧ kilnWait u = 0 ∧ ringHeld 0 u = false
              ∧ creditHolds 0 (seqPart 0 u) (beginTick 0 s + 4) u = false))
      ∧ Meets 0x49 (seq0 { shotOpen := true } (run (ir 0x49))) (fun s => ((inTicks 0 6 s).seq 0).shotOpen = true)
      ∧ Meets 0x49 (run (ir 0x49)) (fun s => ((inTicks 0 6 s).seq 0).shotOpen = false) := by decide +kernel

/-- SIGNAL to a queue below 0x9800, of another partition, through a proxy, with room, and to one that is not enabled with either DROP. -/
theorem wit_signal :
    Meets 0x50 (run (ir 0x50 (0x97FF * 2 ^ 32))) (fun s => wordBits 0 s 32 16 < 0x9800)
      ∧ Meets 0x50 ((run (ir 0x50 (0x9800 * 2 ^ 32))).set (QM_Q_CFG_OWNER 0x9800) 1)
          (fun s => (inTicks 0 6 s).owner 0x9800 ≠ seqPart 0 (inTicks 0 6 s))
      ∧ Meets 0x50 (((run (ir 0x50 (0x9800 * 2 ^ 32))).set (FLV_PROXY_SRC_LQUEUE 0) 0x9800).setB (FLV_PROXY_DST_VALID 0) true |>.setB FLV_GCTRL_EN true)
          (fun s => (proxyOf 0x9800 (inTicks 0 6 s)).isSome = true)
      ∧ Meets 0x50 ((run (ir 0x50 (0xFFFF * 2 ^ 32))).setB (QM_Q_CTRL_Q_EN 0xFFFF) true)
          (fun s => let u := inTicks 0 6 s
            wordBits 0 s 32 16 = 0xFFFF ∧ u.owner 0xFFFF = seqPart 0 u ∧ proxyOf 0xFFFF u = none
              ∧ u.on (QM_Q_CTRL_Q_EN 0xFFFF) = true ∧ u.full 0xFFFF = false)
      ∧ (∀ drop, drop < 2 → Meets 0x50 (run (ir 0x50 (0x9800 * 2 ^ 32 + drop * 2 ^ 48)))
          (fun s => let u := inTicks 0 6 s
            u.owner 0x9800 = seqPart 0 u ∧ proxyOf 0x9800 u = none ∧ u.on (QM_Q_CTRL_Q_EN 0x9800) = false
              ∧ wordBit 0 s 48 = decide (drop = 1))) := by decide +kernel

/-- Queue 0 of sequencer 0 bound to a target class, the cursor at the least lead from t_w. -/
def bound (c : Target) (base count cursor : Nat) (s : State) : State :=
  (((s.set (SEQ_TEQ_BIND_CLASS 0 0) c.code).set (SEQ_TEQ_BIND_BASE 0 0) base).set (SEQ_TEQ_BIND_COUNT 0 0) count).set
    (SEQ_CURSOR 0) cursor

/-- The write of n cycles passes its checks, as its last cycle begins and as it ends. -/
def passes (kind n target fine : Nat) (s : State) : Bool :=
  let tw := beginTick 0 s + 2 * n
  checkWrite 0 kind target fine tw (advanceTo (tw - 2) (atBegin 0 s)) == .ok 0
    && checkWrite 0 kind target fine tw (advanceTo tw (advanceTo (tw - 2) (atBegin 0 s))) == .ok 0

/-- Entry instructions at the ends of their classes, with the checks of R102 passed. -/
theorem wit_entries :
    (∀ scl, scl < 2 → Meets 0x10 (bound .tone 0 1 60 (run (ir 0x10 (scl * 2 ^ 49)))) fun s =>
        let y := if wordBit 0 s 49 then (tauRequest 0 (beginTick 0 s + 4) (inTicks 0 4 s)).2 else atBegin 0 s
        let x := playStaged 0 (plainWrite 0 0 0 (gpair 0 (wordBits 0 s 10 4) y)) y
        wordBits 0 s 10 4 % 2 ≠ 1 ∧ arg 0 s 36 12 50 12 ≤ 2303 ∧ bits (gpair 0 (wordBits 0 s 10 4) y) 0 16 ≤ 40959
          ∧ checkWrite 0 0 0 0 12 (advanceTo 10 x) = .ok 0 ∧ checkWrite 0 0 0 0 12 (advanceTo 12 (advanceTo 10 x)) = .ok 0)
      ∧ Meets 0x11 (bound .zlane 2304 1 56 (run (ir 0x11 (2304 * 2 ^ 36)))) (fun s =>
          targetOk .zlane (arg 0 s 36 12 50 12) = true ∧ passes 1 4 (arg 0 s 36 12 50 12) 0 s = true)
      ∧ Meets 0x12 (bound .zb 2304 768 70 (run (ir 0x12 (3071 * 2 ^ 36)))) (fun s =>
          targetOk .zb (arg 0 s 36 12 50 12) = true ∧ passes 2 3 (arg 0 s 36 12 50 12) 0 s = true)
      ∧ Meets 0x13 ((bound .zb 2304 1 56 (run (ir 0x13 (2304 * 2 ^ 36)))).set (SEQ_GREG_G 0 0) 1) (fun s =>
          targetOk .zb (arg 0 s 36 12 50 12) = true ∧ greg 0 (wordBits 0 s 32 4) (atBegin 0 s) ≠ 0
            ∧ passes 3 4 (arg 0 s 36 12 50 12) 0 s = true)
      ∧ (∀ p ∈ [(0x18, 3), (0x19, 2), (0x1A, 2), (0x1B, 2)],
          Meets p.1 (bound .frame 40959 1 54 (run (ir p.1 (40959 * 2 ^ 32)))) fun s =>
            wordBits 0 s 28 4 % 2 = 0 ∧ targetOk .frame (arg 0 s 32 16 50 16) = true ∧ passes 6 p.2 (arg 0 s 32 16 50 16) 0 s = true)
      ∧ Meets 0x20 (bound .lauter 1023 1 72 (run (ir 0x20 (1023 * 2 ^ 38)))) (fun s =>
          targetOk .lauter (arg 0 s 38 10 50 10) = true ∧ passes 4 4 (arg 0 s 38 10 50 10) 0 s = true)
      ∧ Meets 0x21 (bound .tap 31 1 70 (run (ir 0x21 (31 * 2 ^ 43)))) (fun s =>
          targetOk .tap (wordBits 0 s 43 5) = true ∧ passes 5 3 (wordBits 0 s 43 5) 0 s = true) := by decide +kernel

/-- Operands outside their class: an odd pair, a lane, a frame, a ramp of no duration. -/
theorem wit_operands :
    Meets 0x10 (run (ir 0x10 (2 ^ 10))) (fun s => wordBits 0 s 10 4 % 2 = 1)
      ∧ Meets 0x10 (run (ir 0x10 (2304 * 2 ^ 36))) (fun s => 2303 < arg 0 s 36 12 50 12)
      ∧ Meets 0x10 ((run (ir 0x10)).set (SEQ_GREG_G 0 0) 40960) (fun s => 40959 < bits (gpair 0 0 (atBegin 0 s)) 0 16)
      ∧ Meets 0x11 (run (ir 0x11)) (fun s => targetOk .zlane (arg 0 s 36 12 50 12) = false)
      ∧ Meets 0x12 (run (ir 0x12)) (fun s => targetOk .zb (arg 0 s 36 12 50 12) = false)
      ∧ Meets 0x13 (run (ir 0x13 (2304 * 2 ^ 36)))
          (fun s => targetOk .zb (arg 0 s 36 12 50 12) = true ∧ greg 0 (wordBits 0 s 32 4) (atBegin 0 s) = 0)
      ∧ (∀ op ∈ [0x18, 0x19, 0x1A, 0x1B], Meets op (run (ir op (40960 * 2 ^ 32)))
          fun s => targetOk .frame (arg 0 s 32 16 50 16) = false)
      ∧ Meets 0x18 (run (ir 0x18 (2 ^ 28))) (fun s => wordBits 0 s 28 4 % 2 = 1) := by decide +kernel

/-- Sequencer 0 stalled, with its instruction's timeout. -/
theorem wit_stalls :
    stallCode 0 (seq0 { stall := some .angle } .reset) = 6
      ∧ stallCode 0 (seq0 { stall := some (.trig 0 0) } (run (ir 0x0B 0xFFFF))) = 4 ∧ bits (fetchWord 0 (run (ir 0x0B 0xFFFF))) 0 16 ≠ 0
      ∧ (let s := seq0 { stall := some .msg } { run (ir 0x51 (0x9800 * 2 ^ 32 + 2 ^ 12)) with
           queues := [(0x9800, { items := [{ bytes := [], visible := 2000 }] })] }
         stallCode 0 s = 3 ∧ bits (fetchWord 0 s) 12 16 = 1 ∧ (headVisible 0x9800 ((s.seq 0).since + 2000) s).isSome = true
          ∧ msgTaker 0x9800 s = some 0)
      ∧ (let s := seq0 { stall := some .msg } (run (ir 0x51 (0x9800 * 2 ^ 32 + 2 ^ 12)))
         stallCode 0 s = 3 ∧ headVisible 0x9800 2000 s = none)
      ∧ bits (fetchWord 0 (run (ir 0x51))) 12 16 = 0
      ∧ (let s := seq0 { stall := some (.result 1) } (rv0 (run (ir 0x29 (63 * 2 ^ 20))))
         let u := resultReady 0 (256 * 63) (advanceTo (256 * 63) s)
         Stalled 0 (.result 1) s ∧ (s.seq 0).micro.active = false ∧ bits (fetchWord 0 s) 20 6 = 63 ∧ Stalled 0 (.result 1) u)
      ∧ (let s := seq0 { stall := some (.result 0) } (rv0 (run (ir 0x29 (63 * 2 ^ 20))))
         let u := resultReady 0 (256 * 63) (advanceTo (256 * 63) s)
         Stalled 0 (.result 0) s ∧ (u.seq 0).stall = none)
      ∧ bits (fetchWord 0 (run (ir 0x29))) 20 6 = 0 := by
  decide +kernel

/-- SETBIAS written again when a queue has room. -/
def held : HeldWrite := { queue := 0, kind := 2, target := 2304, fine := 0, a := 0, b := 0, adv := 0, genReg := none }

/-- What ends each stall: a complete barrier, a freed queue, a new generation, a visible message, credit, room, the Kiln's tick, and a
closing shot that is done; and where each has not come. -/
theorem wit_stall_ends :
    ((settled 0 .reset).bar 0).rounds = []
      ∧ (let s : State := { State.reset with bars := [(0, { rounds := [(5, [(0, 7, 5)])] })] }
         ((settled 0 s).bar 0).rounds = [(5, [(0, 7, 5)])] ∧ ((advanceTo 17 (settled 0 s)).bar 0).rounds = [(5, [(0, 7, 5)])])
      ∧ (let s := seq0 { stall := some (.teqFull held), freedAt := some 9 } (run (ir 0x12))
         Stalled 0 (.teqFull held) s ∧ (s.seq 0).freedAt = some 9 ∧ ((unstall 0 9 s).seq 0).micro.active = false)
      ∧ (let s := seq0 { stall := some (.result 0) } (rv0 (run (ir 0x29)))
         let u := advanceTo 0 s
         Stalled 0 (.result 0) u ∧ brrCompare 0 (fetchWord 0 u) 0 u ≠ .behind
          ∧ trapByRule 0 6 (unstall 0 0 (ruleShadow 0 6 (upcOf 0x29 3) 0 true [] u)) = true)
      ∧ (let u := advanceTo 0 (seq0 { stall := some (.result 1) } (rv0 (run (ir 0x29))))
         Stalled 0 (.result 1) u ∧ brrCompare 0 (fetchWord 0 u) 1 u = .behind)
      ∧ (let it : Item := { bytes := [1, 2, 3, 4], visible := 16 }
         let s := seq0 { stall := some .msg } { run (ir 0x51 (0x9800 * 2 ^ 32)) with queues := [(0x9800, { items := [it] })] }
         (s.queue 0x9800).items = [it] ∧ msgTaker 0x9800 (advanceTo 16 s) = some 0 ∧ Stalled 0 .msg (advanceTo 16 s)
          ∧ headVisible 0x9800 16 (advanceTo 16 s) = some it)
      ∧ (let s := { run 0 with queues := [(0x9800, { items := [{ bytes := [] }] })] }
         (s.queue 0x9800).items ≠ [] ∧ msgTaker 0x9800 (advanceTo 0 s) = none)
      ∧ Stalled 0 .credit (seq0 { stall := some .credit } .reset)
      ∧ Stalled 0 .ring (seq0 { stall := some .ring, rings := [0x4000] } .reset)
      ∧ Stalled 0 (.kiln 10 0) (advanceTo 10 (seq0 { stall := some (.kiln 10 0) } .reset))
      ∧ (let s := seq0 { closing := [3] } .reset; ((s.seq 0).closing.find? fun n => shotDone 0 n s) = some 3)
      ∧ ((State.reset.seq 0).closing.find? fun n => shotDone 0 n .reset) = none ∧ (State.reset.seq 0).stall = none := by
  refine ⟨?_, ?_, ?_, ?_, ?_, ?_, ?_, ?_, ?_, ?_, ?_, ?_, ?_⟩ <;> decide +kernel

/-- An opcode of no image, a fetch from beyond address 8,191, a routine that a patch wrote, and a calibration request outside a shot. -/
theorem wit_traps :
    (let s := run (ir 0x03); let u := atIssue 0 s
     atBoundary 0 u = true ∧ (u.seq 0).pcOver = false ∧ byRule 0 3 u = false ∧ opIll 0 3 u = true)
      ∧ (let s := seq0 { pcOver := true } (run (ir 0)); atBoundary 0 (atIssue 0 s) = true ∧ ((atIssue 0 s).seq 0).pcOver = true)
      ∧ (let s := { run (ir 0) with tuns := [(0, { factory := true, written := [(0, 1)] })] }
         let s := s.setByte (recipeAddr 0 0 + 7) 0
         let u := atIssue 0 s
         atBoundary 0 u = true ∧ (u.seq 0).pcOver = false ∧ byRule 0 0 u = false ∧ opIll 0 0 u = false)
      ∧ (let s := seq0 { micro := { active := true, upc := 0x3000 } } (run (ir 0))
         let u := atIssue 0 s
         seqState 0 u = stRunning ∧ (u.seq 0).abort = none ∧ (u.seq 0).micro.active = true)
      ∧ seqState 0 (atIssue 0 .reset) ≠ stRunning ∧ (let u := atIssue 0 (run (ir 0)); byRule 0 0 u = true ∧ (u.seq 0).abort = none)
      ∧ (let s := seq0 { calReq := [7] } (run (ir 0))
         let u := atIssue 0 s
         let v := ruleShadow 0 7 0 0 (u.seq 0).micro.stale [] (setSeqState 0 stTrapped u)
         (u.seq 0).calReq = [7] ∧ (u.seq 0).shotOpen = false ∧ atBoundary 0 u = true
          ∧ trapByRule 0 7 v = true ∧ trapByRule 0 7 { v with tuns := [(0, { factory := true, written := [(0x107, 1)] })] } = false)
      ∧ (State.reset.seq 0).calReq = [] := by decide +kernel

/-- Stalls of microwords: WRES, a queue full again, its wait, a wait for credit; a loaded routine of RESULT_READY. -/
theorem wit_micro_stalls :
    (let s := seq0 { stall := some (.micro 0x2E 0), micro := { active := true } } (rv0 (run (ir 0x29 (2 ^ 20))))
     let u := advanceTo 0 s
     Stalled 0 (.micro 0x2E 0) u ∧ brrCompare 0 (fetchWord 0 u) 0 u ≠ .behind ∧ (u.seq 0).micro.trap = none)
      ∧ (let s := seq0 { stall := some (.micro 0x2E 1), micro := { active := true, trap := some 6 } } (rv0 (run (ir 0x29 (2 ^ 20))))
         let u := resultReady 0 256 (advanceTo 256 s)
         Stalled 0 (.micro 0x2E 1) (advanceTo 0 s) ∧ brrCompare 0 (fetchWord 0 s) 1 (advanceTo 0 s) = .behind
          ∧ (s.seq 0).micro.trap.isSome = true ∧ bits (fetchWord 0 s) 20 6 = 1 ∧ Stalled 0 (.micro 0x2E 1) u)
      ∧ (let s := { seq0 { stall := some (.result 0) } (rv0 (run (ir 0x29))) with tuns := [(0, { factory := true, written := [(0x106, 1)] })] }
         trapByRule 0 6 (unstall 0 0 (ruleShadow 0 6 (upcOf 0x29 3) 0 true [] (advanceTo 0 s))) = false
          ∧ brrCompare 0 (fetchWord 0 s) 0 (advanceTo 0 s) ≠ .behind)
      ∧ (let s := seq0 { stall := some (.teqFull held), freedAt := some 9, micro := { active := true } } (run (ir 0x12))
         Stalled 0 (.teqFull held) s ∧ ((unstall 0 9 s).seq 0).micro.active = true)
      ∧ Stalled 0 (.micro 0x3E 0) (seq0 { stall := some (.micro 0x3E 0), freedAt := some 9 } .reset)
      ∧ Stalled 0 (.micro 0x3F 0) (seq0 { stall := some (.micro 0x3F 0) } .reset)
      ∧ (let s := seq0 { abort := some ⟨.fault, 1, 0, 8, false⟩ } (run 0)
         ((atIssue 0 s).seq 0).abort.any (!·.loaded) = true) := by
  decide +kernel

/-- Sequencer 0 that START accepts. -/
def startable : State :=
  (((State.reset.setB GLB_STATUS_READY true).setB (SEQ_CTRL_EN 0) true).setB (TUN_CTRL_EN 0) true).setB
    (TUN_STATUS_RCP_LOADED 0) true

/-- START and GROUP_START accepted, refused and late; STOP in every state; EN, TUN_EN and QM_BAR_CFG at rest and in use. -/
theorem wit_control :
    Privileged sup startable ∧ startOk 0 startable = true ∧ startLate 0 startable.now startable = false ∧ startOk 0 .reset = false
      ∧ startLate 0 0 (startable.setB (SEQ_CTRL_START_MODE 0) true) = true
      ∧ (∀ j, j < 8 → (1 : BitVec 8).toNat.testBit j = true → startOk (8 * 0 + j) startable = true
          ∧ startLate (8 * 0 + j) startable.now startable = false)
      ∧ ((128 : BitVec 8).toNat.testBit 7 = true ∧ startOk (8 * 0 + 7) startable = false)
      ∧ seqState 0 (run 0) = stRunning ∧ ((run 0).seq 0).stall = none
      ∧ (let s := seq0 { stall := some .angle } (State.reset.set (SEQ_STATUS_STATE 0) stStalled)
         seqState 0 s = stStalled ∧ (s.seq 0).stall.isSome = true ∧ (s.seq 0).abort = none)
      ∧ (let s := State.reset.set (SEQ_STATUS_STATE 0) stTrapped; seqState 0 s = stTrapped ∧ (s.seq 0).stall = none)
      ∧ seqState 0 (State.reset.set (SEQ_STATUS_STATE 0) stHalted) = stHalted
      ∧ seqState 0 (State.reset.set (SEQ_STATUS_STATE 0) stFaulted) = stFaulted
      ∧ seqState 511 .reset = stIdle ∧ seqState 511 .reset ≠ stHalted ∧ seqState 511 .reset ≠ stFaulted
      ∧ (∀ j, j < 8 → seqState (8 * 63 + j) .reset = stIdle)
      ∧ (let s := (run 0).setB (TUN_CTRL_EN 0) true; s.on (TUN_CTRL_EN 0) = true ∧ seqState (8 * 0 + 0) s ≠ stIdle)
      ∧ (State.reset.bar 255).arrivals = [] ∧ (State.reset.bar 255).rounds = [] := by
  refine ⟨rfl, ?_⟩; decide +kernel

/-- A requester that is not privileged, on a privileged command. -/
theorem wit_unprivileged : isPriv host .reset = false ∧ WritesPrivileged host (.start host 0) ∧ isPriv sup .reset = true :=
  ⟨by decide, rfl, rfl⟩

/-! ### Firing, decision, readout, banks and ports: witnesses -/

/-- A head entry of each kind, which is still there when its turn comes, and one of another kind. -/
theorem wit_heads : ∀ kind, kind < 7 →
    let e : Entry := { tick := 60, fine := 31, kind := kind, seq := 0, target := 0, shot := 0, a := 0, b := 0 }
    let s := seq0 { teqs := [(31, [e])] } .reset
    teq 0 31 s = [e] ∧ teq 0 31 (runTo (keyOf 60 (rankEntry 0 31 kind)) s) = [e] ∧ headKind 0 31 s ≠ some (kind + 1)
      ∧ headKind 0 30 s ≠ some kind := by decide +kernel

/-- Decision window 63 with d, nothing else. -/
def dec63 (d : Decision) : State := { State.reset with decs := [(63, d)] }

theorem wit_decision :
    (State.reset.dec 63).defer = none ∧ ((dec63 { defer := some 8 }).dec 63).defer = some 8
      ∧ (State.reset.dec 63).start = none
      ∧ (let s := dec63 { start := some 1, tmo := 1 }; (s.dec 63).start = some 1 ∧ (s.dec 63).tmo ≠ 0)
      ∧ (State.reset.dec 63).rounds = []
      ∧ (let r : Round := { at_ := 5, gen := 0, fail := 0, bits := 1 }; let s := dec63 { rounds := [r] }
         (s.dec 63).rounds = [r] ∧ ((runTo (keyOf (r.at_ + 32) (20000 + 63)) s).dec 63).rounds = [r])
      ∧ decRefused 63 .reset = false ∧ decRefused 63 (State.reset.set (DEC_WIN_CFG_NBITS 63) 0) = true
      ∧ baseFits 63 0 .reset = true ∧ baseFits 63 (2 ^ 19 - 1) .reset = false := by decide +kernel

/-- A window of channel 1023 of 4 samples. -/
def win : Window := { fire := 0, w0 := 0, e := 100, start := 0, len := 1, shift := 0, dset := [], freq := 0, phase := 0, px := false,
                      seq := 0, shot := 0, slot := 0, gen := 0 }

theorem wit_readout :
    (State.reset.lau 1023).windows = [] ∧ State.reset.recs = []
      ∧ (let s := { State.reset with laus := [(1023, { windows := [win] })] }
         (s.lau 1023).windows = [win] ∧ ((advanceTo 180 s).lau 1023).windows = [win])
      ∧ (let r : Rec := ⟨0, 0, 0, 0, 0, 0, 0, 0, 0, 8, true, 0, 0⟩; let s : State := { State.reset with recs := [r] }
         s.recs = [r] ∧ (runTo (keyOf 16 rankRecord) s).recs = [r])
      ∧ lauRefused 1023 (State.reset.set (LAU_FRAMES_RFRAME 1023) 40960) = true ∧ lauRefused 1023 .reset = false := by
  decide +kernel

/-- A bank operation of RFI 31 and of the descriptors, pending for the present tick, or for one that a stopped Timeline does not reach. -/
theorem wit_banks :
    (State.reset.rfi 31).bank = none ∧ State.reset.wft.bank = none
      ∧ (∀ c : Bool, let b : BankOp := { copy := c, at_ := 0, mask := 1 }
          let s : State := { State.reset with rfis := [(31, { bank := some b })], wft := { bank := some b } }
          (s.rfi 31).bank = some b ∧ b.copy = c ∧ s.wft.bank = some b ∧ b.at_ ≤ (runTo (keyOf b.at_ 0) s).now
            ∧ ((runTo (keyOf b.at_ 0) s).rfi 31).bank = some b ∧ (runTo (keyOf b.at_ 0) s).wft.bank = some b)
      ∧ (runTo (keyOf 16 0) State.reset).now < 16
      ∧ wftAccepts (State.reset.setB WFT_CTRL_EN true) = true ∧ wftAccepts .reset = false
      ∧ (7 : BitVec 4) ≠ 0xF := by decide +kernel

/-- The Timeline counts. -/
def counting (s : State) : State := { s with tl := { s.tl with counting := true } }

/-- RFO port 287: an enable that is accepted, refused, pending and due. -/
theorem wit_rfo :
    rfoRefused 287 (State.reset.set (RFO_STATUS_CELLS_OK 287) 1) = false
      ∧ rfoRefused 287 (State.reset.setB (RFO_STATUS_PARKED 287) true) = true
      ∧ (State.reset.rfo 287).pend.min? = none
      ∧ (let s := { State.reset with rfos := [(287, { pend := [64] })] }
         (s.rfo 287).pend.min? = some 64 ∧ (runTo (keyOf 64 0) s).now < 64
          ∧ 64 ≤ (runTo (keyOf 64 0) (counting s)).now ∧ ((runTo (keyOf 64 0) (counting s)).rfo 287).pend.contains 64 = true) := by
  decide +kernel

/-- Z port 767. -/
def z767 (z : Zp) (s : State := .reset) : State := { s with zps := [(767, z)] }

theorem wit_z :
    Privileged sup .reset ∧ (State.reset.zp 767).stream = none
      ∧ (let s := z767 { stream := some 3 }
         let u := advanceTo (cycleTick 3) (counting s)
         (s.zp 767).stream = some 3 ∧ (advanceTo (cycleTick 3) s).now < cycleTick 3 ∧ cycleTick 3 ≤ u.now ∧ (u.zp 767).stream = some 3)
      ∧ (nextSample 767 0 .reset).1 = none
      ∧ (let q := State.reset.get (ZP_STREAM_Q_QUEUE 767)
         (nextSample 767 0 { State.reset with queues := [(q, { items := [{ bytes := [1, 0, 0, 0] }] })] }).1 = some 1)
      ∧ windowTick 767 .reset = none
      ∧ (let s := z767 { segs := [⟨0, 0, ⟨0, 1⟩, ⟨0, 1⟩⟩] } (State.reset.set (ZP_STATUS_PEND_RANGE 767) 0)
         windowTick 767 s = some 0 ∧ 0 ≤ (runTo (keyOf 0 0) s).now ∧ windowTick 767 (runTo (keyOf 0 0) s) = some 0)
      ∧ (State.reset.zp 767).window = none
      ∧ (let w : ZWindow := { opened := 0, ends := 40, range := 0 }; let s := z767 { window := some w }
         let u := runTo (keyOf 40 0) (counting s)
         (s.zp 767).window = some w ∧ (runTo (keyOf 40 0) s).now < 40 ∧ 40 ≤ u.now ∧ (u.zp 767).window = some w)
      ∧ (State.reset.zp 767).park = none
      ∧ (let k : ZPark := { from_ := 0, range := 2, open_ := none, ix := ⟨0, 1⟩, ends := 9 }; let s := z767 { park := some k }
         let u := advanceTo 9 (counting s)
         (s.zp 767).park = some k ∧ (advanceTo 9 s).now < 9 ∧ 9 ≤ u.now ∧ (u.zp 767).park = some k)
      ∧ (State.reset.zp 767).segs = []
      ∧ (let g : Seg := ⟨0, 1, ⟨0, 1⟩, ⟨0, 1⟩⟩; let s := z767 { segs := [g] } (State.reset.setB (ZP_STATUS_RAMPING 767) true)
         let u := runTo (keyOf 1 0) (counting s)
         (s.zp 767).segs = [g] ∧ (runTo (keyOf 1 0) s).now < 1 ∧ 1 ≤ u.now ∧ (u.zp 767).segs = [g]) := by
  refine ⟨rfl, ?_⟩; decide +kernel

/-! ### Analysis engines, Tap units and links: witnesses -/

/-- Engine 7 RUNNING with w at its program counter. -/
def eng (w : Nat) (e : Engine := {}) : State :=
  { (State.reset.wr (engProgAddr 7 0) 4 w).set (ANA_STATUS_STATE 7) anRunning with anas := [(7, e)] }

/-- The conditions of `AnaIssues`, as they are computed. -/
def anaB (a op : Nat) (s : State) : Bool :=
  anaState a s == anRunning && !engIrqDue a s && bits (engFetch a s) 26 6 == op && (!isBranchOp op || !branchMisplaced a s)

theorem anaIssues {a op : Nat} {s : State} (h : anaB a op s = true) : AnaIssues a op s := by
  simp only [anaB, Bool.and_eq_true, beq_iff_eq, Bool.not_eq_true', Bool.or_eq_true] at h
  refine ⟨h.1.1.1, h.1.1.2, h.1.2, fun hb => ?_⟩
  rcases h.2 with h' | h'
  · rw [hb] at h'; cases h'
  · exact h'

/-- The opcodes of R291. -/
def anaOps : List Nat :=
  [0x00, 0x01, 0x02, 0x03, 0x05, 0x08, 0x09, 0x0A, 0x0B, 0x0C, 0x0D, 0x0E, 0x0F, 0x10, 0x11, 0x12, 0x13, 0x14, 0x15, 0x16, 0x17,
   0x18, 0x19, 0x1B] ++ [0x20, 0x21, 0x22, 0x23, 0x24, 0x25, 0x26, 0x27, 0x28, 0x29, 0x2A]

/-- Each of them can issue. -/
theorem wit_ana_issues : ∀ op ∈ anaOps, AnaIssues 7 op (eng (op * 2 ^ 26)) := by
  have h : anaOps.all (fun op => anaB 7 op (eng (op * 2 ^ 26))) = true := by decide +kernel
  exact fun op ho => anaIssues (List.all_eq_true.mp h op ho)

/-- An engine that is IDLE, one with an interrupt due, and one at another word. -/
theorem wit_ana_rests :
    anaState 7 .reset ≠ anRunning ∧ engIrqDue 7 ((eng 0 { irq := 16 }).set (ANA_CFG_IRQ_EN 7) 16) = true
      ∧ bits (engFetch 7 (eng (0x3F * 2 ^ 26))) 26 6 ≠ 0x10 := by decide +kernel

/-- The field values at which the clauses on one opcode part. -/
theorem wit_ana_fields :
    (let w := engFetch 7 (eng (0x03 * 2 ^ 26 + 2 ^ 21 + 2 * 2 ^ 14)); bits w 21 2 = 1 ∧ bits w 14 2 = 2)
      ∧ (let w := engFetch 7 (eng (0x03 * 2 ^ 26 + 2 ^ 22)); 1 < bits w 21 2 ∧ bits w 14 2 < 2)
      ∧ sgn 5 (bits 15 0 5) = 15 ∧ sgn 5 (bits 16 0 5) = -16 ∧ sgn 6 (bits 31 0 6) = 31 ∧ sgn 6 (bits 32 0 6) = -32
      ∧ (∀ sel, sel < 4 → bits (engFetch 7 (eng (0x18 * 2 ^ 26 + sel * 2 ^ 17))) 17 2 = sel)
      ∧ leadExp ((engBank 7 (eng 0 { main := { sum := [2 ^ 46 - 1, 0] } })).getS 0) = 0
      ∧ leadExp ((engBank 7 (eng 0 { main := { sum := [2 ^ 46, 0] } })).getS 0) = -1
      ∧ engCond {} 0 = some true ∧ engCond {} 1 = some false ∧ engCond {} 8 = some false ∧ engCond {} 9 = none
      ∧ bits (engFetch 7 (eng (0x23 * 2 ^ 26 + 2 ^ 14))) 14 12 = 1 ∧ bits (engFetch 7 (eng (0x23 * 2 ^ 26))) 14 12 = 0
      ∧ ({} : EngBank).loops.length < 4 := by decide +kernel

/-- The faults of the flow: a fifth loop, a ninth call, RET without a call, RTI in the main bank, a COND of none, each branch in a
slot, an undefined opcode, LEN = 0 and an RP that does not fit. -/
theorem wit_ana_faults :
    (let s := eng (0x23 * 2 ^ 26 + 2 ^ 14) { main := { loops := List.replicate 4 (.loop 1 2 3) } }
     anaB 7 0x23 s = true ∧ 4 ≤ (engBank 7 s).loops.length)
      ∧ (let s := eng (0x21 * 2 ^ 26) { calls := List.replicate 8 3 }; anaB 7 0x21 s = true ∧ 8 ≤ (s.ana 7).calls.length)
      ∧ (let s := eng (0x21 * 2 ^ 26) { calls := List.replicate 7 3 }; anaB 7 0x21 s = true ∧ (s.ana 7).calls.length < 8)
      ∧ (let s := eng (0x22 * 2 ^ 26) { calls := [3] }; anaB 7 0x22 s = true ∧ (s.ana 7).calls = [3])
      ∧ ((eng (0x22 * 2 ^ 26)).ana 7).calls = [] ∧ engShadow 7 (eng (0x24 * 2 ^ 26)) = false
      ∧ (let s := (eng (0x24 * 2 ^ 26)).setB (ANA_STATUS_SHADOW 7) true; anaB 7 0x24 s = true ∧ engShadow 7 s = true)
      ∧ (∀ op ∈ [0x20, 0x21], let s := eng (op * 2 ^ 26 + 9 * 2 ^ 22); anaB 7 op s = true
          ∧ engCond (engBank 7 s) (bits (engFetch 7 s) 22 4) = none)
      ∧ (∀ op ∈ [0x20, 0x21, 0x22, 0x24], let s := eng (op * 2 ^ 26) { slots := 1 }
         anaState 7 s = anRunning ∧ engIrqDue 7 s = false ∧ bits (engFetch 7 s) 26 6 = op ∧ branchMisplaced 7 s = true)
      ∧ engIllegal (engFetch 7 (eng (0x3F * 2 ^ 26))) = true ∧ engIllegal (engFetch 7 (eng 0)) = false
      ∧ bits (engFetch 7 (eng (0x27 * 2 ^ 26))) 0 16 = 0
      ∧ (∀ j ∈ [0, 1], let s := eng (0x29 * 2 ^ 26 + 1 + 2 * j) { main := { v := [1, 0, 0, 0, 0, 0, 0, 0] } }
         anaB 7 0x29 s = true ∧ rpFits 7 j 1 s = false ∧ rpFits 7 j 0 s = true) := by decide +kernel

/-- EN that is accepted or refused; an interrupt that is due; a timer; buffers in each state of their stream; a SEND; the timer of an
IOWR ahead and past. -/
theorem wit_ana_block :
    engRefused 7 .reset = false ∧ engRefused 7 (State.reset.set (ANA_IN_BUF_BASE 7 0) 0xFFFF |>.set (ANA_IN_BUF_LEN 7 0) 2) = true
      ∧ (State.reset.ana 7).timer = none ∧ ((eng 0 { timer := some 9 }).ana 7).timer = some 9
      ∧ engInOn 7 1 .reset = false
      ∧ (∀ mode ∈ [1, 2], ∀ len ∈ [1, 2], let it : Item := { bytes := [0, 0, 0, 0] }
         let s := (((eng 0).set (ANA_IN_CFG_MODE 7 0) mode).set (ANA_IN_CFG_QUEUE 7 0) 0x9800).set (ANA_IN_BUF_LEN 7 0) len
         let u := { s with queues := [(0x9800, { items := [it] })] }
         let n := (convWords (u.get (ANA_IN_CFG_CONV 7 0)) 0x9800 it).1.length
         engInOn 7 0 u = true ∧ nextBuffer 0x9800 u = some it ∧ anaState 7 u = anRunning
          ∧ anaState 7 (u.set (ANA_STATUS_STATE 7) anIdle) = anIdle
          ∧ (len = 1 → u.get (ANA_IN_BUF_LEN 7 0) - 1 < n)
          ∧ (len = 2 → n ≤ u.get (ANA_IN_BUF_LEN 7 0) - 1
            ∧ (u.get (ANA_IN_WP 7 0) + 2 ^ 24 - u.get (ANA_IN_RP 7 0)) % 2 ^ 24 + n + 1 ≤ u.get (ANA_IN_BUF_LEN 7 0)
            ∧ u.get (ANA_IN_BUF_LEN 7 0) < ((u.set (ANA_IN_WP 7 0) 1).get (ANA_IN_WP 7 0) + 2 ^ 24 - u.get (ANA_IN_RP 7 0)) % 2 ^ 24 + n + 1))
      ∧ (State.reset.ana 7).sends = [] ∧ ((eng 0 { sends := [(0, 1)] }).ana 7).sends = [(0, 1)]
      ∧ (let s := (eng (0x27 * 2 ^ 26 + 0xFFFF)).setB (QM_Q_CTRL_Q_EN (State.reset.get (ANA_OUT_CFG_OUT_QUEUE 7))) true
         bits (engFetch 7 s) 0 16 = 0xFFFF ∧ s.full (s.get (ANA_OUT_CFG_OUT_QUEUE 7)) = false
          ∧ s.on (QM_Q_CTRL_Q_EN (s.get (ANA_OUT_CFG_OUT_QUEUE 7))) = true)
      ∧ (eng 0).on (QM_Q_CTRL_Q_EN ((eng 0).get (ANA_OUT_CFG_OUT_QUEUE 7))) = false
      ∧ (∀ io ∈ [4, 6, 7, 9, 63], bits (engFetch 7 (eng (0x29 * 2 ^ 26 + io))) 0 6 = io)
      ∧ sgn 48 (wrap 48 ((1 : Int) - 0)) = 1 ∧ sgn 48 (wrap 48 ((0 : Int) - 0)) ≤ 0 := by decide +kernel

theorem wit_ana_add :
    let s := eng (0x10 * 2 ^ 26 + 7 * 2 ^ 23)
    anaB 7 0x10 s = true ∧ (s.ana 7).flight = [] ∧ (s.ana 7).slots = 0 ∧ (engBank 7 s).loops = [] ∧ s.get (ANA_PC 7) < 0x3FFF
      ∧ (engBank 7 s).v.length = 8 := by decide +kernel

/-- Tap unit 31. -/
def tap31 (t : Tap) (st : Nat) : State := { State.reset.set (TAP_STATUS_STATE 31) st with taps := [(31, t)] }
/-- A capture of 32 samples. -/
def cap : Capture := ⟨0, 0, 0, 0, 0, 0, 8, 32, 0, 0, 0, 0, 0, 0, false, 0⟩

theorem wit_tap :
    tapEnRefused 31 .reset = true
      ∧ tapEnRefused 31 ((State.reset.set (TAP_QUEUE 31) 0x93FF).set (TAP_REGION_BASE 31) 0x4000 |>.set (TAP_REGION_SIZE 31) 1) = false
      ∧ (State.reset.setB (TAP_CTRL_EN 31) true).on (TAP_CTRL_EN 31) = true
      ∧ tapState 31 (tap31 {} tapIdle) = tapIdle ∧ tapState 31 (tap31 {} tapDone) = tapDone
      ∧ tapState 31 (tap31 {} tapArmed) ≠ tapIdle ∧ tapState 31 (tap31 {} tapArmed) ≠ tapDone
      ∧ (let s := tap31 { cap := some cap } tapCapturing; tapLag 31 s = 0 ∧ (s.tap 31).waiting = [] ∧ tapState 31 s = tapCapturing)
      ∧ (let s := tap31 {} tapArmed; tapLag 31 s = 0 ∧ (s.tap 31).waiting = [] ∧ tapState 31 s ≠ tapCapturing)
      ∧ ((tapSettle 31 (tap31 {} tapArmed)).tap 31).cap = none
      ∧ (let s := tapSettle 31 (tap31 { cap := some cap } tapCapturing)
         (s.tap 31).cap = some cap ∧ ((advanceTo (ceilDiv cap.ends 32) s).tap 31).cap = some cap)
      ∧ (let v := tapDeliver 31 cap none (fun _ => none) (tap31 { cap := some cap, disarm := true } tapCapturing)
         (v.tap 31).disarm = true)
      ∧ (let v := tapDeliver 31 cap none (fun _ => none) (tap31 { cap := some cap } tapCapturing)
         (v.tap 31).disarm = false ∧ tapNseg 31 v ≤ v.get (TAP_SEG_DONE 31))
      ∧ (let v := tapDeliver 31 cap none (fun _ => none) ((tap31 { cap := some cap } tapCapturing).set (TAP_CFG_NSEG 31) 2)
         (v.tap 31).disarm = false ∧ v.get (TAP_SEG_DONE 31) < tapNseg 31 v)
      ∧ (let s := tap31 { rearmAt := 40 } tapRearm; tapState 31 s = tapRearm ∧ (s.tap 31).rearmAt = 40)
      ∧ (let s := tap31 {} tapWaitRoom; tapState 31 s = tapWaitRoom ∧ tapSlotFree 31 s = true) := by decide +kernel

/-- Link 28 in a state. -/
def lk (st : Nat) (l : Link := {}) : State := { State.reset.set (FLV_STATUS_STATE 28) st with links := [(28, l)] }

theorem wit_links :
    Privileged sup .reset ∧ linkRefused 28 .reset = false
      ∧ linkState 28 (State.reset.setB (FLV_CTRL_EN 28) true) = lkDisabled
      ∧ linkRefused 28 (State.reset.set (FLV_CFG_WIDTH 28) 3) = true
      ∧ (∀ st ∈ [lkDetect, lkTrain, lkLock, lkCaps, lkActive, lkEidle], linkState 28 (lk st) = st ∧ LinkNot 28 st .reset)
      ∧ (let u := (lk lkCaps).set (FLV_STATUS_PEER_DEV 28) 63; (0 : BitVec 2).toNat = u.get (FLV_CFG_WIDTH 28)
          ∧ u.on (FLV_CFG_PEER_CHK 28) = false ∧ (2 : BitVec 2).toNat ≠ u.get (FLV_CFG_WIDTH 28))
      ∧ ((lk lkEidle { exitAt := some 5 }).link 28).exitAt = some 5 := by
  refine ⟨rfl, ?_⟩; decide +kernel

/-- A flit with no slot and a right CRC. -/
def goodFlit : BitVec 512 :=
  1775337070278886853071777898663604283415671230089902587667895040033677912449617100079947202316264942683391408913438061891741840350522929185816696

/-- The flit, and the same with a bit of its sync byte cleared, on an ACTIVE link and on one that left ACTIVE. -/
theorem wit_flits :
    flitOk goodFlit.toNat = true ∧ flitOk (goodFlit.toNat - 8) = false ∧ linkState 28 (lk lkActive) = lkActive
      ∧ LinkNot 28 lkActive (lk lkLock { flushTo := 1 }) ∧ (lk lkLock { flushTo := 1 }).now < ((lk lkLock { flushTo := 1 }).link 28).flushTo
      ∧ 0 < ((lk lkActive { owed := 1 }).link 28).owed ∧ (lk lkActive).get (FLV_CFG2_TIME_PERIOD 28) ≠ 0
      ∧ (let s := (State.reset.setB (FLV_LANE_TEST_CHK 31) true).set (FLV_LANE_TEST_PATTERN 31) 1
         s.on (FLV_LANE_TEST_CHK 31) = true ∧ s.get (FLV_LANE_TEST_PATTERN 31) ≠ 0 ∧ s.on (FLV_LANE_STATUS_PRBS_LOCK 31) = false
          ∧ (s.setB (FLV_LANE_STATUS_PRBS_LOCK 31) true).on (FLV_LANE_STATUS_PRBS_LOCK 31) = true) := by decide +kernel

/-! ### Network time, Ethernet, trigger bus and pins: witnesses -/

/-- Network time runs. -/
def nt : State := State.reset.setB NT_CTRL_EN true
/-- A frame of 60 bytes with an Ethertype. -/
def frame (hi lo : Byte) (rest : List Byte) : List Byte := List.replicate 12 0 ++ [hi, lo] ++ rest ++ List.replicate (46 - rest.length) 0

theorem wit_nt :
    nt.on NT_CTRL_EN = true
      ∧ (let x := pairLow (reqId sup) 0x20014 NT_INC nt
         x.2.on NT_CTRL_EN = true ∧ 1998 * 2 ^ 32 ≤ 1000 * (bits 2 0 8 * 2 ^ 32 + x.1 % 2 ^ 32)
          ∧ 1000 * (bits 2 0 8 * 2 ^ 32 + x.1 % 2 ^ 32) ≤ 2002 * 2 ^ 32)
      ∧ nt.on NT_STATUS_STEP_PENDING = false ∧ (nt.setB NT_STATUS_STEP_PENDING true).on NT_STATUS_STEP_PENDING = true
      ∧ (counting nt).tl.counting = true := by decide +kernel

/-- Port 1 up, with a receive queue, an empty timed queue and a frame to send. -/
def eth : State := (State.reset.setB (ETH_STATUS_LINK 1) true).setB (QM_Q_CTRL_Q_EN (ethQueue 1 3)) true
/-- A transmit buffer of LEN n and LAUNCH t. -/
def txBuf (n t : Nat) : List Byte := toBytes 2 n ++ [0, 0] ++ toBytes 4 t ++ List.replicate 8 0 ++ List.replicate 60 0
/-- The buffer in transmit queue k of port 1. -/
def withTx (k : Nat) (b : List Byte) (s : State) : State := { s with queues := [(ethQueue 1 k, { items := [{ bytes := b }] })] }

theorem wit_eth :
    eth.on (ETH_STATUS_LINK 1) = true ∧ (frame 0x12 0x34 []).length = 60 ∧ isPause (frame 0x12 0x34 []) = false
      ∧ State.reset.on (ETH_STATUS_LINK 1) = false ∧ (frame 0x12 0x34 []).tail.length < 60
      ∧ isMgmt 1 (frame 0x12 0x34 []) (eth.inc (ETH_RX_FRAMES 1)) = false ∧ isMgmt 1 (frame 0x12 0x34 []) eth = false
      ∧ (let x := rxStamp 1 (eth.inc (ETH_RX_FRAMES 1))
         x.2.on (QM_Q_CTRL_Q_EN (ethQueue 1 3)) = true ∧ x.2.full (ethQueue 1 3) = false)
      ∧ (List.replicate 9212 (0 : Byte)).length ≤ 9212 ∧ 9212 < (List.replicate 9213 (0 : Byte)).length
      ∧ (let s := withTx 0 (txBuf 60 0) eth
         ethHead (ethQueue 1 0) s = some (txBuf 60 0) ∧ txLenOk (txBuf 60 0) = true ∧ ethBlocked 1 (txBuf 60 0) s = false)
      ∧ ethHead (ethQueue 1 0) eth = none ∧ ethHead (ethQueue 1 1) eth = none
      ∧ txLenOk (txBuf 59 0) = false ∧ txLenOk (txBuf 9213 0) = false ∧ txLenOk (txBuf 9212 0) = true
      ∧ (let s := withTx 1 (txBuf 60 0) eth; ethHead (ethQueue 1 1) s = some (txBuf 60 0) ∧ launchIn (txBuf 60 0) s = 0)
      ∧ launchIn (txBuf 60 (2 ^ 32 - 1)) eth < 0 ∧ 0 < launchIn (txBuf 60 1) eth
      ∧ timedDue 1 (advanceTo (State.reset).now .reset) = none
      ∧ timedDue 1 (advanceTo 0 (withTx 1 (txBuf 60 1) (counting eth))) = some (4 * ceilDiv (2 ^ 32) (eth.get NT_INC))
      ∧ State.reset.on (ETH_STATUS_LINK 0) = !true ∧ eth.on (ETH_STATUS_LINK 1) = !false := by and_intros <;> decide +kernel

theorem wit_mgmt :
    (let f := toBytesBe 6 (station 1 eth) ++ List.replicate 6 2 ++ [0x88, 0xB5] ++ [1, 12] ++ List.replicate 44 0
     let u := { eth with host := { eth.host with ryvexUp := true } }.inc (ETH_RX_FRAMES 1)
     60 ≤ f.length ∧ isMgmt 1 f u = true ∧ isMgmt 1 f eth = true ∧ isPause f = false ∧ u.host.ryvexUp = true ∧ bodyOk (f.drop (typeOffset f + 2)) = true
      ∧ relayed (f.drop (typeOffset f + 2)) u = false) := by decide +kernel

/-- n bits of v from bit lo of a trigger-bus frame on, the most significant first (R33). -/
def busField (lo n v : Nat) : Nat := (List.range n).foldl (fun x i => x + (if v.testBit (n - 1 - i) then 2 ^ (lo + i) else 0)) 0

/-- The trigger-bus frame of the layout of R33: START, TYPE, BCAST, ADDR, PAYLOAD, CRC. -/
def busF (type bcast addr payload : Nat) : BitVec 84 :=
  let f := 1 + busField 1 4 type + bcast * 2 ^ 5 + busField 6 6 addr + busField 12 64 payload
  BitVec.ofNat 84 (f + busField 76 8 (crc8 f 1 75 0))

/-- A follower; a master that is aligned. -/
def follower : State := (State.reset.setB TL_CTRL_EN true).set TL_CFG_ROLE 2
def master : State := ((State.reset.setB TL_CTRL_EN true).set TL_CFG_ROLE 1).setB TL_STATUS_ALIGNED true

theorem wit_bus :
    Privileged sup master ∧ masterReady master = true ∧ masterReady .reset = false
      ∧ master.now + 64 ≤ (master.set TL_SYNC_AT 64).get TL_SYNC_AT ∧ master.get TL_SYNC_AT < master.now + 64
      ∧ master.on TL_CTRL_EN = true ∧ master.tl.counting = false ∧ master.tl.echo = none
      ∧ (let s := counting (master.setB TL_CFG_AUTO_CHECK true)
         s.tl.counting = true ∧ masterReady s = true ∧ s.on TL_CFG_AUTO_CHECK = true) := by
  refine ⟨rfl, ?_⟩; decide +kernel

/-- A frame that arrives in error, one of another type, one for another device, and a good one. -/
def busClauses (up : Bool) (type other : Nat) (f : BitVec 84) (s : State) : Bool :=
  let hears (f : BitVec 84) (type : Nat) := !frError f.toNat up && frType f.toNat == type
    && (up || frBcast f.toNat || frAddr f.toNat == myDev (busAt 0 s))
  f.toNat.testBit 0 && busListens up s && hears f type && !hears f other && frError (f.toNat + 2 ^ 83) up

theorem wit_bus_frames :
    busClauses false 3 4 (busF 3 0 0 63) follower ∧ busClauses true 4 3 (busF 4 0 63 0) master
      ∧ busClauses false 5 1 (busF 5 0 0 (2 ^ 63 - 1)) follower ∧ busClauses false 1 2 (busF 1 1 0 (2 ^ 64 - 1)) follower
      ∧ busClauses false 2 1 (busF 2 1 0 0) follower ∧ busListens true follower = false ∧ busListens false .reset = false
      ∧ (busF 3 0 1 63).toNat.testBit 0 = true ∧ frAddr (busF 3 0 1 63).toNat ≠ myDev (busAt 0 follower)
      ∧ frBcast (busF 3 0 1 63).toNat = false := by decide +kernel

/-- An exchange of the master with device 1 is under way. -/
def echoing (n : Nat) : State := counting { master with tl := { master.tl with echo := some ⟨[1], n, 0, []⟩ } }

theorem wit_bus_clauses :
    (frPayload (busF 5 0 0 (2 ^ 63 - 1)).toNat).testBit 63 = false
      ∧ (frPayload (busF 5 0 0 (2 ^ 63)).toNat).testBit 63 = true
      ∧ (let v := fireSource 33 0 0 (follower.setB TL_STATUS_DELAY_VALID true)
         v.on TL_STATUS_DELAY_VALID = true ∧ tlActive v = false)
      ∧ tlActive (fireSource 33 0 0 ((follower.setB TL_STATUS_DELAY_VALID true).set (TAP_STATUS_STATE 0) tapArmed)) = true
      ∧ (fireSource 33 0 0 follower).on TL_STATUS_DELAY_VALID = false
      ∧ (echoing 63).tl.echo = some ⟨[1], 63, 0, []⟩ := by decide +kernel

theorem wit_echo :
    (echoing 63).tl.echo = some ⟨[1], 63, 0, []⟩
      ∧ frAddr (busF 4 0 1 63).toNat = 1 ∧ frPayload (busF 4 0 1 63).toNat % 256 = 63
      ∧ ((busAt 0 (echoing 63)).tl.echo.map (·.exchange) = some 63) ∧ ((busAt 0 (echoing 0)).tl.echo.map (·.exchange) = some 0)
      ∧ ((runTo (keyOf 16808 rankEcho) (echoing 63)).tl.echo.map (·.exchange) = some 63) := by
  decide +kernel

/-- Input pins that take an edge or not, output pins that are TIMED or not, with a pulse armed. -/
theorem wit_pins :
    (let s := (follower.set (TL_PIN_CFG_DIR 21) 0).set (TL_PIN_CFG_EDGE 21) 1
     pinAccepts 21 (b2n false) s = true ∧ pinAccepts 21 (b2n true) s = false)
      ∧ (21 : BitVec 5).toNat < 22 ∧ ¬ (22 : BitVec 5).toNat < 22
      ∧ (let s := (follower.set (TL_PIN_CFG_DIR 21) 1).set (TL_PIN_CFG_OUT_SRC 21) 1
         pinTimed 21 (s.set (TL_PIN_AT 21) 32) = true ∧ s.now + 32 ≤ (32 : BitVec 64).toNat ∧ (31 : BitVec 64).toNat < s.now + 32
          ∧ (let u := counting { s with tl := { s.tl with pins := [(21, { armed := some 40 })] } }
             (u.pin 21).armed = some 40 ∧ pinTimed 21 (advanceTo 40 u) = true))
      ∧ (let u : State := { follower with tl := { follower.tl with pins := [(21, { armed := some 40 })] } }
         (u.pin 21).armed = some 40 ∧ pinTimed 21 (advanceTo 40 u) = false)
      ∧ pinTimed 21 (follower.set (TL_PIN_AT 21) 32) = false ∧ (follower.pin 21).armed = none
      ∧ follower.tl.counting = false ∧ (counting follower).tl.counting = true := by decide +kernel

/-- A tracker that is off, fed by a sensor, by an index, by quadrature. -/
theorem wit_angle :
    caOn follower = false ∧ caOn .reset = false ∧ (follower.set TL_CA_CFG_MODE 3).get TL_CA_CFG_MODE = 3
      ∧ (let s := follower.set TL_CA_CFG_MODE 1; caOn s = true ∧ s.get TL_CA_CFG_MODE ≠ 3 ∧ ¬ s.get TL_CA_CFG_MODE = 2
          ∧ (advanceTo 0 s).tl.angle.started = false)
      ∧ (let s := counting ((follower.set TL_CA_CFG_MODE 1).set TL_CA_PERIOD (2 ^ 40))
         let u := { s with tl := { s.tl with angle := { started := true, pSet := true } } }
         caOn u = true ∧ (advanceTo 20000 u).tl.angle = u.tl.angle
          ∧ 8 * 19999 * 32 - u.tl.angle.tIdx < 20000 * 256 ∧ 20000 * 256 ≤ 8 * 20000 * 32 - u.tl.angle.tIdx)
      ∧ (let s := follower.set TL_CA_CFG_MODE 2; caOn s = true ∧ s.get TL_CA_CFG_MODE = 2) := by and_intros <;> decide +kernel

/-- A tracker whose next index may be missed. -/
def missing (s : State) : State :=
  let s := follower.tl.angle |> fun a => { s with tl := { s.tl with angle := { a with started := true, pSet := true } } }
  (s.setB TL_CTRL_EN true).set TL_CA_CFG_MODE 1

theorem wit_miss :
    caOn (missing .reset) = true ∧ (missing .reset).tl.angle.started = true ∧ (missing .reset).tl.angle.pSet = true
      ∧ (let s := missing .reset; (runTo (keyOf 1 rankMiss) s).now = 0 ∧ caMissAt s = some 1)
      ∧ (let s := missing (counting .reset)
         max s.now (caMissTick s) = 1 ∧ (runTo (keyOf 1 rankMiss) s).now = 1 ∧ caMissAt (runTo (keyOf 1 rankMiss) s) = some 1)
      ∧ (let s := missing (counting (State.reset.later 1 (.cfg TL_CA_CFG_MODE 0 none)))
         max s.now (caMissTick s) = 1 ∧ caMissAt (runTo (keyOf 1 rankMiss) s) = none) := by and_intros <;> decide +kernel

/-- A window that a count step enters, one that the running angle enters, and one not entered. -/
theorem wit_window :
    (let s := ((follower.set TL_CA_CFG_MODE 1).setB TL_CA_STATUS_LOCKED true).set (TL_CA_WIN_HI 7) 1
     let u := { s with tl := { s.tl with angle := { changed := 0, was := 5 } } }
     let v := advanceTo 0 u
     caOn u = true ∧ angleValid v = true ∧ inWindow v 7 (angleAt v v.now) = true ∧ v.tl.angle.changed = v.now
      ∧ inWindow v 7 v.tl.angle.was = false)
      ∧ (let s := ((follower.set TL_CA_CFG_MODE 1).setB TL_CA_STATUS_LOCKED true).set (TL_CA_WIN_LO 7) 1
         let u := advanceTo 512 { s.set TL_CA_PERIOD (2 ^ 33) with tl :=
           { s.tl with counting := true, angle := { started := true, pSet := true } } }
         u.now = 512 ∧ u.tl.angle.changed ≠ u.now ∧ inWindow u 7 (angleAt u 512) = true ∧ inWindow u 7 (angleAt u 511) = false) := by and_intros <;> decide +kernel

/-! ### Host interface and mailboxes: witnesses -/

/-- A host whose RID the link accepts as privileged, and a state that accepts it. -/
def priv : Req := ⟨0, 7, false, .bar0⟩
def withRid : State := (State.reset.set HOST_SEC_RID_RID 7).setB HOST_SEC_RID_VALID true

theorem wit_host :
    Privileged priv withRid ∧ withRid.host.secWritten = false
      ∧ ({ withRid with host := { withRid.host with secWritten := true } } : State).host.secWritten = true
      ∧ withRid.on GLB_LOCK_PART_LOCK = false ∧ (withRid.setB GLB_LOCK_PART_LOCK true).on GLB_LOCK_PART_LOCK = true
      ∧ priv.space = .bar0 ∧ ({ priv with space := .bar2 } : Req).space ≠ .bar0 ∧ ({ priv with space := .config } : Req).space ≠ .bar0
      ∧ (msixVectors 1).1 ≤ 512 / 16 ∧ ¬ (msixVectors 1).1 ≤ 511 / 16 ∧ 95 < (msixVectors 0).1 ∧ 31 < (msixVectors 1).1
      ∧ qmSel (reqId priv) withRid < 0x4000
      ∧ 0x4000 ≤ qmSel (reqId priv) { withRid with host := { withRid.host with qmSel := [(reqId priv, 0x4000)] } } := by
  unfold Privileged; decide +kernel

/-- Mailbox 4 holds a command of a session with a role, next in doorbell order. -/
def mbx (op role : Nat) (p : List Byte) (s : State) : State :=
  let s := s.setBytes (mbBase 4) (toBytes 2 op ++ [0, 0, 1, 0, 1, 0] ++ toBytes 2 p.length ++ [0, 0, 0, 0, 0, 0] ++ p)
  let s := s.setMbx 4 { s.mbx 4 with session := some ⟨1, role, 0, 0, .host 0, [], []⟩ }
  { s with host := { s.host with ryvexUp := true, posted := [4] } }.set (MBX_DB_STATE 4) mbPosted

/-- No bytes move through DMA. -/
def noDma : Dma := ⟨[], none, []⟩

/-- The command in mailbox 4 passes its checks, and the condition holds of it, of the state it meets and of whether a tile it names is
held. -/
def passesB (c : Spec) (size : Cmd → State → Nat) (cond : Cmd → State → Bool) (s : State) : Bool :=
  match admitted c 4 noDma s with
  | .error _ => false
  | .ok (role, v) =>
    match layout 4 role c noDma (cmdPayload 4 v) (cmdFlags 4 v) with
    | .error _ => false
    | .ok (x, _) => isNext 4 c.op s && (turnedAway c 4 noDma size s).isNone && cond x v

/-- The command in mailbox 4 is taken, and the condition holds of it and of the state it runs from. -/
def takesB (c : Spec) (size : Cmd → State → Nat) (cond : Cmd → State → Bool) (s : State) : Bool :=
  passesB c size (fun x v => namedTiles c.op x.ps &&& heldTiles 4 v == 0
    && cond x { v with host := { v.host with waits := v.host.waits.filter (· != 4) } }) s

/-- Some command meets the hypotheses of a clause about a mailbox command. -/
def Met (c : Spec) (size : Cmd → State → Nat) (cond : Cmd → State → Bool) (s : State) : Prop :=
  ∃ x ds u, Takes c 4 noDma size x ds s u ∧ cond x u = true

theorem passes_of_passesB {c : Spec} {size : Cmd → State → Nat} {cond : Cmd → State → Bool} {s : State}
    (h : passesB c size cond s = true) : ∃ x ds v, Passes c 4 noDma size x ds s v ∧ cond x v = true := by
  unfold passesB at h
  split at h
  · cases h
  · rename_i role v ha
    split at h
    · cases h
    · rename_i x ds hl
      simp only [Bool.and_eq_true, Option.isNone_iff_eq_none] at h
      exact ⟨x, ds, v, ⟨h.1.1, h.1.2, role, ha, hl⟩, h.2⟩

theorem met_of_takesB {c : Spec} {size : Cmd → State → Nat} {cond : Cmd → State → Bool} {s : State}
    (h : takesB c size cond s = true) : Met c size cond s := by
  obtain ⟨x, ds, v, hp, hc⟩ := passes_of_passesB h
  simp only [Bool.and_eq_true, beq_iff_eq] at hc
  exact ⟨x, ds, _, ⟨v, hp, hc.1, rfl⟩, hc.2⟩

/-- A command without conditions on its operands is met. -/
abbrev always : Cmd → State → Bool := fun _ _ => true

/-- The Cellar is not warm-inhibited; the keys of the operator and the owner are there. -/
def cellar : State :=
  let s := (State.reset.setB KILN_STATUS_CEL_INHIBIT false).set SEC_STATUS_LIFECYCLE 1
  { s with cel := { s.cel with roles := [(0, ⟨List.replicate 32 1, List.replicate 16 2, 10000⟩), (1, ⟨List.replicate 32 3, List.replicate 16 4, 10000⟩)] } }
/-- A nonce for role 1 in mailbox 4. -/
def nonced : State := cellar.setMbx 4 { cellar.mbx 4 with nonce := some ⟨List.replicate 32 9, 1, 0⟩ }

theorem wit_doorbell :
    4 ≤ (4 : Fin 16).val ∧ mbState 4 State.reset ≠ mbPosted ∧ mbState 4 State.reset ≠ mbBusy ∧ mbState 4 (mbx 1 0 [] cellar) = mbPosted
      ∧ ((mbx 1 0 [] cellar).mbx 4).session = some ⟨1, 0, 0, 0, .host 0, [], []⟩
      ∧ ((State.reset.setMbx 4 { lockEnd := some 7 }).mbx 4).lockEnd = some 7 := by decide +kernel

theorem wit_get_info : Met (coreSpec 0x0001) (fun _ _ => 32) always (mbx 0x0001 0 [] cellar) := met_of_takesB (by decide +kernel)
theorem wit_get_nonce : Met (coreSpec 0x0002) (fun _ _ => 52)
    (fun x u => le x.ps 0 1 == 1 && le x.ps 1 3 == 0 && !lockedOut 4 u && (roleKey 1 u).isSome
      && (let n := freeBytes 32 u
          roleKey 1 (n.2.setMbx 4 { n.2.mbx 4 with nonce := some ⟨n.1, 1, n.2.now⟩ }) == roleKey 1 u))
    (mbx 0x0002 0 [1, 0, 0, 0] cellar) := met_of_takesB (by decide +kernel)
theorem wit_open_session : Met (coreSpec 0x0003) (fun _ _ => 4)
    (fun x u => le x.ps 0 1 == 1 && le x.ps 1 3 == 0 && !lockedOut 4 u && (nonceFor 4 1 u).isSome
      && (let v := u.setMbx 4 { u.mbx 4 with nonce := none }; (roleKey 1 v).isSome && roleOpen 1 v))
    (mbx 0x0003 0 (1 :: List.replicate 35 0) nonced) := met_of_takesB (by decide +kernel)
theorem wit_close_session : Met (coreSpec 0x0004) noSize always (mbx 0x0004 1 [] cellar) := met_of_takesB (by decide +kernel)
theorem wit_set_key : Met (coreSpec 0x0005) noSize
    (fun x u => le x.ps 0 1 == 0 && x.role == 1 && le x.ps 1 3 == 0 && decide (10000 ≤ le x.ps 52 4) && cellarWarm u)
    (mbx 0x0005 1 (List.replicate 52 0 ++ toBytes 4 10000) cellar) := met_of_takesB (by decide +kernel)
theorem wit_echo_cmd : Met (coreSpec 0x0010) (fun c _ => c.ps.length) always (mbx 0x0010 3 [1, 2, 3] cellar) :=
  met_of_takesB (by decide +kernel)
theorem wit_set_rid : Met (coreSpec 0x0504) noSize
    (fun x u => le x.ps 2 1 == 0 && le x.ps 3 1 == 0 && !u.host.secWritten) (mbx 0x0504 1 [7, 0, 0, 0] cellar) :=
  met_of_takesB (by decide +kernel)
theorem wit_store_rid : Met (coreSpec 0x0504) noSize
    (fun x u => le x.ps 2 1 == 1 && le x.ps 3 1 == 0 && !u.host.secWritten && cellarWarm u) (mbx 0x0504 1 [7, 0, 1, 0] cellar) :=
  met_of_takesB (by decide +kernel)

/-- A command that writes the Cellar, while the Cellar is inhibited. -/
def inhibited : State := mbx 0x0005 1 (List.replicate 52 0 ++ toBytes 4 10000) (cellar.setB KILN_STATUS_CEL_INHIBIT true)

/-- The command goes on with its write queued. -/
def queuedB (s : State) : Bool :=
  match cellarCommand 4 noDma { s with cel := { s.cel with late := true } } with
  | .next t => t.on CEL_STATUS_WRITE_FAIL
  | _ => false

theorem wit_cellar_timeout :
    isNext 4 (cmdOp 4 inhibited) inhibited = true ∧ cellarWarm inhibited = false ∧ queuedB inhibited = true
      ∧ cellarWarm cellar = true ∧ isNext 4 (cmdOp 4 cellar) cellar = false
      ∧ cellarWarm (cellar.setB KILN_STATUS_CEL_INHIBIT true) = false := by decide +kernel

/-- Every opcode of a mailbox command. -/
def mbxOps : List Nat :=
  [0x0001, 0x0002, 0x0003, 0x0004, 0x0005, 0x0010, 0x0100, 0x0101, 0x0102, 0x0103, 0x0104, 0x0105, 0x0106, 0x0107, 0x0200, 0x0201,
   0x0202, 0x0300, 0x0301, 0x0302, 0x0400, 0x0401, 0x0500, 0x0501, 0x0502, 0x0503, 0x0504]
  ++ [0x0600, 0x0601, 0x0602, 0x0603, 0x0604, 0x0605, 0x0606, 0x0607, 0x0700, 0x0701, 0x0702, 0x0703, 0x0704, 0x0705, 0x0706, 0x0707,
   0x0708, 0x0709, 0x070A, 0x0800, 0x0801, 0x0802, 0x0803]

/-- The same command with a reserved bit of its header set. -/
def reserved (s : State) : State := s.setBytes (mbBase 4 + 3) [0x80]

/-- A command of each row that is next and fails a check, and one that is not next. -/
theorem wit_turned_away : ∀ op ∈ mbxOps,
    isNext 4 op (reserved (mbx op 9 [] cellar)) = true
      ∧ (turnedAway (specOf op) 4 noDma noSize (reserved (mbx op 9 [] cellar))).isSome = true ∧ isNext 4 op cellar = false := by
  decide +kernel

/-- The status with which an ECHO ends that fails checks 1 to 6, in their order. -/
theorem wit_checks :
    (let away := fun (size : Nat) (s : State) =>
        (turnedAway (coreSpec 0x0010) 4 noDma (fun _ _ => size) s).map (·.1)
     let s := mbx 0x0010 3 [1] cellar
     let x := s.mbx 4
     let e : Session := ⟨1, 3, 0, 0, .host 0, [], []⟩
     away 4080 s = none ∧ away 4081 s = some stBadLength ∧ away 0 (reserved s) = some stBadParam
      ∧ away 0 (s.setMbx 4 { x with session := none }) = some stNoSession
      ∧ away 0 (s.setMbx 4 { x with session := some { e with seq := 1 } }) = some stBadSeq
      ∧ away 0 (s.setMbx 4 { x with session := some { e with role := 9 } }) = some stRoleDenied
      ∧ away 0 (s.setMbx 4 { x with origin := .frame 0 5, session := some { e with origin := .frame 0 6 } }) = some stNoSession
      ∧ turnedAway (coreSpec 0x0010) 4 noDma (fun _ _ => 1) s = none) := by decide +kernel

theorem wit_mailbox_clauses : Privileged sup cellar ∧ (cellar.mbx 4).session = none ∧ (cellar.mbx 4).lockEnd = none := by
  unfold Privileged; decide +kernel

/-- A command that waits in BUSY has passed checks 3 to 5; one whose session is another station's, one with a wrong TAG, and one with
a wrong SEQ have not. -/
theorem wit_admitted :
    (let s := mbx 0x0010 3 [1] cellar
     let x := s.mbx 4
     let e : Session := ⟨1, 3, 0, 0, .host 0, [], []⟩
     let role := fun (s : State) => match admitted (coreSpec 0x0010) 4 noDma s with
      | .ok (r, _) => r
      | .error (st, _) => st
     role { s.setMbx 4 { x with role := 2, session := none } with host := { s.host with waits := [4] } } = 2
      ∧ role (s.setMbx 4 { x with origin := .frame 0 5, session := some { e with origin := .frame 0 6 } }) = stNoSession
      ∧ role (s.setMbx 4 { x with origin := .frame 0 5, tag := [1], session := some { e with origin := .frame 0 5 } }) = stBadTag
      ∧ role (s.setMbx 4 { x with session := some { e with seq := 1 } }) = stBadSeq ∧ role s = 3) := by
  and_intros <;> decide +kernel

/-! ### Load, telemetry, export and fence commands: witnesses -/

/-- Zeros. -/
abbrev z (n : Nat) : List Byte := List.replicate n 0

theorem wit_load_program : Met (coreSpec 0x0100) noSize
    (fun x u => hostPath u && le x.ps 0 2 == 511 && le x.ps 2 2 == 0 && decide (le x.ps 4 4 + le x.ps 8 4 ≤ 8192) && seqState 511 u == stIdle)
    (mbx 0x0100 0 ([255, 1, 0, 0] ++ toBytes 4 8191 ++ toBytes 4 1 ++ List.replicate 8 5) (cellar.setB HOST_STATUS_LINK_UP true)) :=
  met_of_takesB (by decide +kernel)
theorem wit_load_paths : hostPath .reset = false ∧ hostPath (cellar.setB HOST_STATUS_LINK_UP true) = true := by decide +kernel
theorem wit_load_samples : Met (coreSpec 0x0101) noSize
    (fun x _ => le x.ps 0 2 == 63 && le x.ps 2 2 == 0 && decide (le x.ps 4 4 + le x.ps 8 4 ≤ 262144))
    (mbx 0x0101 0 ([63, 0, 0, 0] ++ toBytes 4 262143 ++ toBytes 4 1 ++ List.replicate 4 5) cellar) := met_of_takesB (by decide +kernel)
theorem wit_load_descriptors : Met (coreSpec 0x0102) noSize (fun x _ => decide (le x.ps 0 4 + le x.ps 4 4 ≤ 131072))
    (mbx 0x0102 0 (toBytes 4 131071 ++ toBytes 4 1 ++ List.replicate 16 5) cellar) := met_of_takesB (by decide +kernel)
theorem wit_load_kernel : Met (coreSpec 0x0103) noSize
    (fun x _ => decide (le x.ps 0 2 < 1024) && le x.ps 2 2 == 0 && decide (le x.ps 4 4 < 0x2200)
      && decide (le x.ps 4 4 + le x.ps 8 4 ≤ 0x2200))
    (mbx 0x0103 0 ([255, 3, 0, 0] ++ toBytes 4 0x21FF ++ toBytes 4 1 ++ [5]) cellar) := met_of_takesB (by decide +kernel)
theorem wit_load_decision : Met (coreSpec 0x0104) noSize (fun x _ => decide (le x.ps 0 4 + le x.ps 4 4 ≤ 524288))
    (mbx 0x0104 0 (toBytes 4 524287 ++ toBytes 4 1 ++ List.replicate 4 5) cellar) := met_of_takesB (by decide +kernel)
theorem wit_load_lau : Met (coreSpec 0x0105) noSize
    (fun x _ => le x.ps 0 1 == 7 && le x.ps 2 2 == 0 && le x.ps 1 1 == 0 && decide (le x.ps 4 4 + le x.ps 8 4 ≤ 65536))
    (mbx 0x0105 0 ([7, 0, 0, 0] ++ toBytes 4 65535 ++ toBytes 4 1 ++ List.replicate 4 5) cellar) := met_of_takesB (by decide +kernel)
theorem wit_load_programs : Met (coreSpec 0x0105) noSize
    (fun x u => le x.ps 0 1 == 7 && le x.ps 2 2 == 0 && le x.ps 1 1 == 1 && decide (le x.ps 4 4 + le x.ps 8 4 ≤ 16384)
      && !u.on (ANA_CTRL_EN 7))
    (mbx 0x0105 0 ([7, 1, 0, 0] ++ toBytes 4 16383 ++ toBytes 4 1 ++ List.replicate 4 5) cellar) := met_of_takesB (by decide +kernel)
theorem wit_load_recipe : Met (coreSpec 0x0106) (fun _ _ => 128) (fun x _ => !x.short) (mbx 0x0106 0 (z 8) cellar) :=
  met_of_takesB (by decide +kernel)
/-- A container of kind RCPI without records. -/
def emptyRecipe : List Byte := toBytes 4 (magicOf 0) ++ [1, 0, 0x80, 0] ++ z (0x80 + 96 - 8)
theorem wit_store_recipe : Met (coreSpec 0x0107) noSize
    (fun x u => !x.short && (recipeRecords x.data).isSome && cnKind x.data != 2
      && decide (recipeBytes (keepRecipe x.data u) ≤ 0x200000) && cellarWarm u)
    (mbx 0x0107 1 emptyRecipe cellar) := met_of_takesB (by decide +kernel)

theorem wit_reg_read : Met (coreSpec 0x0200) (fun c _ => 4 * le c.ps 0 4) (fun x _ => le x.ps 0 4 == 1)
    (mbx 0x0200 0 ([1, 0, 0, 0] ++ z 4) cellar) := met_of_takesB (by decide +kernel)
theorem wit_reg_write : Met (coreSpec 0x0201) noSize (fun x _ => le x.ps 0 4 == 1 && x.role != 0)
    (mbx 0x0201 1 ([1, 0, 0, 0] ++ z 8) cellar) := met_of_takesB (by decide +kernel)
theorem wit_commit_crc : Met (coreSpec 0x0202) (fun c _ => 4 * le c.ps 0 4)
    (fun x _ => le x.ps 0 4 == 1 && ((listed x 4 0).filterMap commitBlock).length == 1)
    (mbx 0x0202 1 ([1, 0, 0, 0] ++ toBytes 4 0x100028) cellar) := met_of_takesB (by decide +kernel)
theorem wit_snapshot : Met (coreSpec 0x0300) (fun c _ => snapshotLength (le c.ps 0 4) (le c.ps 4 4))
    (fun x _ => le x.ps 0 4 == 31 && le x.ps 4 4 == 1) (mbx 0x0300 0 (toBytes 4 31 ++ toBytes 4 1 ++ [0, 0x98]) cellar) :=
  met_of_takesB (by decide +kernel)
theorem wit_pool_audit : Met (coreSpec 0x0301) (fun _ _ => 16) always (mbx 0x0301 0 [] cellar) := met_of_takesB (by decide +kernel)
theorem wit_seq_state : Met (coreSpec 0x0302) (fun _ _ => 140)
    (fun x u => le x.ps 0 2 == 3 && le x.ps 2 2 == 0 && decide (2 ≤ seqState 3 u))
    (mbx 0x0302 0 [3, 0, 0, 0] (cellar.set (SEQ_STATUS_STATE 3) 2)) := met_of_takesB (by decide +kernel)
theorem wit_export_bind : Met (coreSpec 0x0400) noSize
    (fun x u => exportable (le x.ps 0 2) && le x.ps 2 2 == 1007 && powerIn 4 16 (le x.ps 4 4) && powerIn 12 20 (le x.ps 8 4)
      && !exported (le x.ps 0 2) u && u.exportOf 1007 == none)
    (mbx 0x0400 0 ([0, 0x40] ++ toBytes 2 1007 ++ toBytes 4 65536 ++ toBytes 4 4096 ++ z 8) cellar) := met_of_takesB (by decide +kernel)
theorem wit_export_unbind : Met (coreSpec 0x0401) noSize
    (fun x u => exportable (le x.ps 0 2) && le x.ps 2 2 == 0 && exported (le x.ps 0 2) u)
    (mbx 0x0401 0 [0, 0x40, 0, 0] { cellar with exports := [(0, { queue := 0x4000, slots := 16, bytes := 4096, addr := 0 })] }) :=
  met_of_takesB (by decide +kernel)
theorem wit_park : Met (coreSpec 0x0500) noSize (fun x _ => portsOk (portItems x))
    (mbx 0x0500 0 ([2, 0, 0, 0] ++ [0, 0, 31, 1] ++ [1, 0, 255, 2]) cellar) := met_of_takesB (by decide +kernel)
theorem wit_release : Met (coreSpec 0x0501) noSize (fun x _ => portsOk (portItems x))
    (mbx 0x0501 0 ([2, 0, 0, 0] ++ [0, 0, 31, 1] ++ [1, 0, 255, 2]) cellar) := met_of_takesB (by decide +kernel)

/-- Tile 7 has its supplies; the same tile fenced by a command. -/
def tile7 : State := { cellar with host := { cellar.host with powered := [7] } }
def fenced7 : State := { (tile7.set GLB_STATUS_FENCED 0x80) with fences := [(7, 1)] }

theorem wit_fence : Met (coreSpec 0x0502) noSize
    (fun x u => le x.ps 0 1 == 7 && le x.ps 1 3 == 0 && !fenced 7 u && tilePowered 7 u)
    (mbx 0x0502 1 [7, 0, 0, 0] tile7) := met_of_takesB (by decide +kernel)
theorem wit_unfence : Met (coreSpec 0x0503) noSize
    (fun x u => le x.ps 0 1 == 7 && le x.ps 1 3 == 0 && !fenceStands 7 false u) (mbx 0x0503 1 [7, 0, 0, 0] fenced7) :=
  met_of_takesB (by decide +kernel)
/-- The same commands while a command with an earlier doorbell waits for tile 7, or one that names it is running. -/
def held7 (s : State) : State :=
  { ((s.setMbx 12 { tile := some 7 }).set (MBX_DB_STATE 12) mbBusy) with host := { s.host with waits := [5] } }

theorem wit_held :
    passesB (coreSpec 0x0502) noSize (fun x v => namedTiles 0x0502 x.ps &&& heldTiles 4 v != 0) (held7 (mbx 0x0502 1 [7, 0, 0, 0] tile7))
      ∧ passesB (coreSpec 0x0503) noSize (fun x v => namedTiles 0x0503 x.ps &&& heldTiles 4 v != 0)
          (held7 (mbx 0x0503 1 [7, 0, 0, 0] fenced7)) := by decide +kernel

theorem wit_unfence_waiters :
    fenceWaiters (le (cmdPayload 4 (mbx 0x0503 1 [7, 0, 0, 0] fenced7)) 0 1) (mbx 0x0503 1 [7, 0, 0, 0] fenced7) = [] := by
  decide +kernel
theorem wit_unfence_waiting :
    (let s := mbx 0x0503 1 [7, 0, 0, 0] ((fenced7.setMbx 12 { tile := some 7 }).set (MBX_DB_STATE 12) mbBusy)
     fenceWaiters (le (cmdPayload 4 s) 0 1) s ≠ []) := by decide +kernel
theorem wit_fence_off : fenced 7 fenced7 = true ∧ fenceCause 7 fenced7 = 1 ∧ tilePowered 7 fenced7 = true := by decide +kernel

/-- A tile whose ports have all reached their Park values; one with no step of a Park ahead, one with its next step at tick 5. -/
theorem wit_parked :
    parkedAll 7 ((tileZps 7).foldl (fun s z => s.setB (ZP_STATUS_PARK_DONE z) true) fenced7) = true ∧ parkedAll 7 fenced7 = false
      ∧ nextParkStep 7 fenced7 = none ∧ nextParkStep 7 (fenced7.later 5 (.zParkDone 767 0)) = some 5 := by decide +kernel

/-- An exported queue with a buffer, and exports enabled. -/
def exporting : State :=
  { ((cellar.setB HOST_CTRL_EN true).setB HOST_STATUS_LINK_UP true) with
    exports := [(0, { queue := 0x4000, slots := 16, bytes := 4096, addr := 0 })], queues := [(0x4000, { items := [{ bytes := [1] }] })] }
theorem wit_export_slot :
    exporting.exportOf 0 = some { queue := 0x4000, slots := 16, bytes := 4096, addr := 0 }
      ∧ exportHead 0x4000 exporting = some { bytes := [1] } ∧ exporting.on HOST_CTRL_EN = true
      ∧ exporting.on HOST_STATUS_LINK_UP = true ∧ State.reset.on HOST_STATUS_LINK_UP = false ∧ State.reset.on HOST_CTRL_EN = false
      ∧ (let s := { exporting with exports := [(1007, { queue := 0x4000, slots := 16, bytes := 4096, addr := 0 })], queues := [] }
         s.exportOf (1007 : Fin 1008).val = some { queue := 0x4000, slots := 16, bytes := 4096, addr := 0 } ∧ exportHead 0x4000 s = none)
      ∧ State.reset.exportOf (1007 : Fin 1008).val = none := by decide +kernel

/-! ### Excise and security: witnesses -/

/-- A CQ-256-M whose island runs, with one log entry; the same with the lifecycle state l. -/
def island : State :=
  let s := (cellar.setB GLB_REV_VARIANT true).setB EXC_STATUS_ISLAND_UP true
  { s with exc := { s.exc with up := true, cur := { s.exc.cur with log := [⟨0, 0, 0, 0, 1, 255, 1, 0, z 20⟩] } } }
def cycleOf (l : Nat) : State := island.set SEC_STATUS_LIFECYCLE l

theorem wit_exc_report : Met (exciseSpec 0x0600) (fun c _ => 0xC0 + 72 * popcount 16 (le c.ps 0 2) + 96)
    (fun x u => le x.ps 2 2 == 0 && islandUp u && !u.exc.cur.log.isEmpty) (mbx 0x0600 0 ([255, 255] ++ z 34) island) :=
  met_of_takesB (by decide +kernel)
theorem wit_exc_log_read : Met (exciseSpec 0x0601) (fun c s => 64 * (logEntries (le c.ps 0 8) (le c.ps 8 4) s).length)
    (fun x u => le x.ps 8 4 == 60 && islandUp u) (mbx 0x0601 0 (z 8 ++ [60, 0, 0, 0]) island) := met_of_takesB (by decide +kernel)
theorem wit_exc_voucher : Met (exciseSpec 0x0602) noSize (fun _ u => islandUp u && metered u && cellarWarm u)
    (mbx 0x0602 0 (z 160) island) := met_of_takesB (by decide +kernel)
theorem wit_exc_voucher_s : Met (exciseSpec 0x0602) noSize (fun _ u => islandUp u && !metered u)
    (mbx 0x0602 0 (z 160) (island.setB GLB_REV_VARIANT false)) := met_of_takesB (by decide +kernel)
theorem wit_exc_enforce : Met (exciseSpec 0x0603) noSize
    (fun x u => le x.ps 2 1 == 1 && le x.ps 3 1 == 0 && islandUp u && metered u) (mbx 0x0603 1 [0, 128, 1, 0] island) :=
  met_of_takesB (by decide +kernel)
theorem wit_exc_key : Met (exciseSpec 0x0604) noSize
    (fun x u => le x.ps 0 1 == 3 && le x.ps 1 3 == 0 && le x.ps 101 3 == 0 && islandUp u && metered u && cellarWarm u)
    (mbx 0x0604 1 ([3, 0, 0, 0] ++ List.replicate 97 4 ++ z 3) island) := met_of_takesB (by decide +kernel)
theorem wit_exc_update : Met (exciseSpec 0x0605) noSize (fun x u => !x.short && islandUp u && cellarWarm u)
    (mbx 0x0605 2 (z 4) island) := met_of_takesB (by decide +kernel)
/-- A command that passes with room for a response of one size passes with room for a smaller one. -/
theorem met_of_size {c : Spec} {size size' : Cmd → State → Nat} {cond : Cmd → State → Bool} {s : State}
    (hs : ∀ x u, size' x u ≤ size x u) (h : Met c size cond s) : Met c size' cond s := by
  obtain ⟨x, ds, u, ⟨v, ⟨h1, h2, h3⟩, h4⟩, hc⟩ := h
  refine ⟨x, ds, u, ⟨v, ⟨h1, ?_, h3⟩, h4⟩, hc⟩
  obtain ⟨role, ha, hl⟩ := h3
  have hs := hs x v
  unfold turnedAway at h2 ⊢
  simp only [ha, hl] at h2 ⊢
  by_cases hr : (if dmaTotal ds true = 0 then 4080 else dmaTotal ds true) < size x v
  · simp [hr] at h2
  · simp only [hr, if_false] at h2
    rw [if_neg (by omega)]
    exact h2

theorem wit_exc_cert : Met (exciseSpec 0x0607) (fun _ _ => 4 + 272 * (Config.reportIssuers.val + 1)) (fun _ u => islandUp u)
    (mbx 0x0607 0 [] island) :=
  met_of_size (size := fun _ _ => 820) (fun _ _ => by have h := Config.reportIssuers.isLt; omega) (met_of_takesB (by decide +kernel))

theorem wit_exc_seal : Met (exciseSpec 0x0606) noSize (fun _ u => islandUp u && metered u && cellarWarm u)
    (mbx 0x0606 2 (z 144) island) := met_of_takesB (by decide +kernel)

theorem wit_exc_events :
    island.exc.up = true ∧ island.exc.cur.log = [⟨0, 0, 0, 0, 1, 255, 1, 0, z 20⟩] ∧ State.reset.exc.cur.log = []
      ∧ lastLimit .reset = none
      ∧ (let s : State := { island with exc := { island.exc with parts := [(15, { enforced := true, limitAt := 5 })] } }
         lastLimit s = some 5 ∧ (s.part 15).enforced = true) ∧ 7 < 8 := by decide +kernel

theorem wit_own : Met (secSpec 0x0700) noSize
    (fun x u => le x.ps 97 3 == 0 && decide (10000 ≤ le x.ps 148 4) && lifecycle u == 0 && cellarWarm u)
    (mbx 0x0700 0 (z 148 ++ toBytes 4 10000) (cycleOf 0)) := met_of_takesB (by decide +kernel)
theorem wit_add_key : Met (secSpec 0x0701) noSize (fun x u => !slotDenied x && slotParams x && cellarWarm u)
    (mbx 0x0701 1 (1 :: z 275) (cycleOf 1)) := met_of_takesB (by decide +kernel)
theorem wit_revoke_key : Met (secSpec 0x0702) noSize
    (fun x u => !slotDenied x && slotParams x && u.on (SEC_SLOT_VALID (slotOf x)) && cellarWarm u)
    (mbx 0x0702 1 [1, 3, 0, 0] ((cycleOf 1).setB (SEC_SLOT_VALID 7) true)) := met_of_takesB (by decide +kernel)
theorem wit_set_field : Met (secSpec 0x0703) noSize (fun _ u => lifecycle u == 1 && cellarWarm u) (mbx 0x0703 1 [] (cycleOf 1)) :=
  met_of_takesB (by decide +kernel)
theorem wit_rma : Met (secSpec 0x0704) noSize (fun _ u => lifecycle u == 2 && cellarWarm u) (mbx 0x0704 1 (z 96) (cycleOf 2)) :=
  met_of_takesB (by decide +kernel)
theorem wit_load_fw :
    Met { secSpec 0x0705 with sess := !(mbx 0x0705 1 (z 4) (cycleOf 1)).host.recovery } noSize (fun x u => !x.short && cellarWarm u)
      (mbx 0x0705 1 (z 4) (cycleOf 1)) := met_of_takesB (by decide +kernel)
theorem wit_load_fw_recovery :
    let s := mbx 0x0705 1 (z 4) { cycleOf 1 with host := { (cycleOf 1).host with recovery := true } }
    Met { secSpec 0x0705 with sess := !s.host.recovery } noSize (fun x u => !x.short && cellarWarm u) s :=
  met_of_takesB (by decide +kernel)
theorem wit_rollback : Met (secSpec 0x0706) (fun _ _ => 4) (fun _ u => cellarWarm u) (mbx 0x0706 1 [] (cycleOf 1)) :=
  met_of_takesB (by decide +kernel)
theorem wit_challenge : Met (secSpec 0x0707) (fun _ _ => 32) always (mbx 0x0707 3 [] (cycleOf 1)) := met_of_takesB (by decide +kernel)
theorem wit_debug_open : Met (secSpec 0x0708) noSize
    (fun x u => le x.ps 0 1 == x.role && le x.ps 1 3 == 0 && (u.mbx 4).challenge == some (z 32, 0)
      && decide ((u.setMbx 4 { u.mbx 4 with challenge := none }).now ≤ 120000000000))
    (mbx 0x0708 3 (3 :: z 99) ((cycleOf 1).setMbx 4 { challenge := some (z 32, 0) })) := met_of_takesB (by decide +kernel)
theorem wit_park_write : Met (secSpec 0x0709) noSize
    (fun x u => le x.ps 0 1 == 1 && le x.ps 1 1 == 0 && le x.ps 6 2 == 0
      && decide (le x.ps 2 2 + (parkEntries x).length ≤ (if le x.ps 0 1 = 0 then 288 else 768))
      && !(parkEntries x).any (parkReserved (le x.ps 0 1)) && cellarWarm u)
    (mbx 0x0709 1 ([1, 0] ++ toBytes 2 767 ++ [1, 0, 0, 0] ++ z 8) (cycleOf 1)) := met_of_takesB (by decide +kernel)

/-- PARK_READ's response goes out through a descriptor of 8,192 bytes. -/
def parkReading : State :=
  let s := mbx 0x070A 0 ([1, 0, 0, 0] ++ z 8 ++ toBytes 4 8192 ++ [1, 0, 0, 0]) (cycleOf 1)
  let s := s.setBytes (mbBase 4 + 2) [1, 0]
  { s with host := { s.host with master := [0] } }

theorem wit_park_read : Met (secSpec 0x070A) (fun _ _ => 7312) always parkReading := met_of_takesB (by decide +kernel)

/-! ### Calibration, monitors and Kiln: witnesses -/

theorem wit_cal_run : Met (calSpec 0x0800) noSize
    (fun x u => le x.ps 1 1 == 1 && le x.ps 2 2 == 0 && !(maskTiles (le x.ps 0 1)).any (fun a => fenced a u))
    (mbx 0x0800 0 [255, 1, 0, 0] cellar) := met_of_takesB (by decide +kernel)
theorem wit_cal_cancel : Met (calSpec 0x0801) noSize (fun x _ => le x.ps 1 3 == 0) (mbx 0x0801 0 [255, 0, 0, 0] cellar) :=
  met_of_takesB (by decide +kernel)
theorem wit_cal_store : Met (calSpec 0x0802) noSize (fun x u => le x.ps 1 3 == 0 && cellarWarm u)
    (mbx 0x0802 1 [255, 0, 0, 0] cellar) := met_of_takesB (by decide +kernel)
theorem wit_mon_diag : Met (calSpec 0x0803) (fun _ _ => 8)
    (fun x u => le x.ps 0 1 == 7 && decide (le x.ps 1 1 ≤ 63) && le x.ps 2 2 == 0 && inputListed (le x.ps 0 1) (le x.ps 1 1)
      && !fenced 7 u) (mbx 0x0803 0 [7, 0, 0, 0] cellar) := met_of_takesB (by decide +kernel)

/-- Calibration runs on its triggers; tile 3 in an acquired run. -/
def cal : State := (((cellar.setB CAL_CTRL_EN true).setB (CAL_CFG_AUTO_T 3) true).setB (CAL_CFG_AUTO_P 3) true).setB (KILN_TILE_TEMP_VALID 3) true
def running3 (step : Option CalStep) : State := (cal.set (CAL_STATE_STATE 3) 2).setCal 3 { cal.cal 3 with step := step }

theorem wit_cal :
    cal.on CAL_CTRL_EN = true ∧ cal.on (CAL_CFG_AUTO_T 3) = true ∧ cal.on (KILN_TILE_TEMP_VALID 3) = true
      ∧ (let s := cal.set (KILN_TILE_TEMP_T 3) 1600; max 1 (s.get (CAL_CFG_CAL_DT 3)) < absI (s.getI (KILN_TILE_TEMP_T 3) - s.getI (CAL_T_REF 3)))
      ∧ cal.on (CAL_CFG_AUTO_P 3) = true ∧ (cal.set (CAL_PERIOD 3) 1).get (CAL_PERIOD 3) ≠ 0
      ∧ ((cal.set (CAL_PERIOD 3) 1).cal 3).fired ≠ some ((cal.set (CAL_PERIOD 3) 1).cal 3).lastEnd
      ∧ (cal.set (CAL_STATE_STATE 3) 1).get (CAL_STATE_STATE 3) = 1 := by decide +kernel

theorem wit_cal_steps :
    (let s := (running3 none).setCal 3 { (running3 none).cal 3 with now_ := true }
     s.get (CAL_STATE_STATE 3) ≠ 0 ∧ (s.cal 3).step = none ∧ calFirst 3 (s.cal 3).next s ≠ 46
      ∧ calWhen 3 (stepTicks (calFirst 3 (s.cal 3).next s)) s = some s.now)
      ∧ ((running3 (some ⟨5, 0, []⟩)).cal 3).step = some ⟨5, 0, []⟩ ∧ cal.get (CAL_STATE_STATE 3) = 0
      ∧ (let e : Entry := { tick := 60, fine := 0, kind := 0, seq := 0, target := 8 * 36 * 3, shot := 0, a := 0, b := 0 }
         let s := { running3 none with seqs := [(0, { teqs := [(0, [e])] })] }
         s.get (CAL_STATE_STATE 3) ≠ 0 ∧ (s.cal 3).step = none
          ∧ calWhen 3 (stepTicks (calFirst 3 (s.cal 3).next s)) s = none) := by decide +kernel

/-- The monitors and the bridges convert; entry 0 of converter 2 is on a period, and entry 1 waits. -/
def mon : State :=
  let s := ((cellar.setB MON_CTRL_EN true).set (MON_SEQ_TRIG 2 0) 1).set (MON_SEQ_DELAY 2 0) 4000
  s.setMon 2 { s.mon 2 with waiting := [(1, 0)] }

theorem wit_mon :
    mon.on MON_CTRL_EN = true ∧ monFires 2 0 mon = some 0 ∧ monNext 2 mon = some (1, 0, slotAt 2 0)
      ∧ monFires 2 0 (mon.setMon 2 { done := [(0, 0)] }) = some 4000
      ∧ monFires 9 7 mon = none ∧ monNext 9 mon = none ∧ State.reset.on MON_CTRL_EN = false
      ∧ (mon.setB (BRG_CTRL_EN 7) true).on (BRG_CTRL_EN 7) = true ∧ mon.on (BRG_CTRL_EN 7) = false
      ∧ (mon.set (BRG_CFG_I_MIN 7) 1).get (BRG_CFG_I_MIN 7) = 1 := by decide +kernel

/-- A conversion that has begun, one that begins as time passes, and one that waits for a Timeline that stands. -/
theorem wit_mon_begun :
    (mon.mon 2).begun = [] ∧ monNext 2 mon ≠ none
      ∧ (let u := runTo (keyOf (slotAt 2 0) (rankStart + 1)) (counting mon); (u.mon 2).begun.map (·.entry) = [0])
      ∧ ((runTo (keyOf (slotAt 2 0) (rankStart + 1)) mon).mon 2).begun = []
      ∧ ((mon.setMon 2 { begun := [⟨3, 0, 2000, 63⟩] }).mon 2).begun = [⟨3, 0, 2000, 63⟩]
      ∧ (mon.mon 9).begun = [] ∧ monNext 9 mon = none := by decide +kernel

/-- The device out of reset. -/
def awake : State := { cellar with host := { cellar.host with porst := false, ryvexUp := true, refPresent := true } }

theorem wit_kiln :
    kilnClocked (counting awake) = true ∧ kilnClocked awake = false ∧ kilnClocked .reset = false
      ∧ ({ awake with host := { awake.host with kilnUp := true } } : State).host.kilnUp = true
      ∧ faulty 48 awake = false ∧ (awake.set KILN_STATUS_LEVEL 2).get KILN_STATUS_LEVEL ≠ 0
      ∧ (decide ((-1 : BitVec 16).toInt < awake.getI (KILN_RAIL_LIM_LO 23)) || decide (awake.getI (KILN_RAIL_LIM_HI 23) < (-1 : BitVec 16).toInt)) = true
      ∧ (let l := (awake.getI (KILN_RAIL_LIM_LO 23)).toNat
         (decide ((BitVec.ofNat 16 l).toInt < awake.getI (KILN_RAIL_LIM_LO 23)) || decide (awake.getI (KILN_RAIL_LIM_HI 23) < (BitVec.ofNat 16 l).toInt)) = false)
      ∧ awake.on (KILN_RAIL_OUT 23) = false ∧ (awake.setB (KILN_RAIL_OUT 23) true).on (KILN_RAIL_OUT 23) = true
      ∧ awake.kiln.railOut.contains 23 = false := by decide +kernel

theorem wit_start :
    State.reset.host.porst = true ∧ awake.host.porst = false
      ∧ (let s := { awake with host := { awake.host with powered := [7], held := [7] } }
         tilePowered 7 s = true ∧ s.host.held.contains (7 : Fin 8).val = true)
      ∧ tilePowered 7 awake = false ∧ awake.host.ryvexUp = true ∧ awake.host.started = false ∧ awake.host.refPresent = true
      ∧ awake.on TL_STATUS_PLL_LOCKED = false ∧ (awake.setB TL_STATUS_PLL_LOCKED true).on TL_STATUS_PLL_LOCKED = true
      ∧ State.reset.exc.up = true ∧ (counting { awake with host := { awake.host with ryvexUp := false } }).host.ryvexUp = false
      ∧ ({ awake with host := { awake.host with started := true, ryvexUp := false, refPresent := false } } : State).host.started = true := by
  decide +kernel

/-! ### The whole block: witnesses -/

theorem wit_idle :
    (counting .reset).pending = [] ∧ (counting .reset).tl.counting = true ∧ State.reset.tl.counting = false
      ∧ (nextEv (counting .reset)).all (fun x => decide (keyOf ((counting .reset).now + 1) 1 ≤ x.1)) = true
      ∧ (counting .reset).lanes = [] ∧ samplesQuiet (counting .reset).now (counting .reset) = true := by decide +kernel

theorem wit_inv : Inv State.reset := ⟨⟨rfl, rfl⟩, ⟨by decide, by decide⟩, ⟨⟨by decide, fun _ => rfl⟩, ⟨by decide, fun _ => rfl⟩⟩⟩

theorem wit_step : ∃ t, step State.reset = .next t := ⟨_, rfl⟩

theorem wit_accounts :
    ({ begun := 7, balance := 3, loaded := 7, uncharged := 3 } : Account).Balanced
      ∧ ({ begun := 7, uncharged := 7 } : Account).Balanced ∧ ({ lBegun := 5 } : Account).lBegun = ({ begun := 5 } : Part).begun := by
  refine ⟨rfl, rfl, rfl⟩

theorem wit_faults :
    isPriv host .reset = false ∧ WritesPrivileged host (.tlLoad host) ∧ WritesPrivileged host (.mbxRing host 12)
      ∧ (0x3 : BitVec 4) ≠ 0xF ∧ pf0Offset host 0x100000 = some 0x100000
      ∧ (let a := 0x100C00; pf0Offset host a = some a ∧ windowAddr (a - a % 4) .reset = none ∧ regPlace (a - a % 4) = none)
      ∧ State.reset.on HOST_STATUS_ACCESS_FAULT = false := by
  refine ⟨by decide +kernel, rfl, ⟨rfl, by decide⟩, by decide, by decide +kernel, by decide +kernel, by decide +kernel⟩

/-- SETBIAS of Z port 767's lane on queue 0, with the cursor at tick t. -/
def bias (t : Nat) : State := bound .zb 2304 768 t (run (ir 0x12 (3071 * 2 ^ 36)))

/-- What the entry checks of SETBIAS look at, in their order: first at the start of the writing cycle, then at its end. -/
def checks (s : State) : List Bool :=
  let n := arg 0 s 36 12 50 12
  let x := inTicks 0 4 s
  let tw := beginTick 0 s + 6
  let u := advanceTo tw x
  let tick := u.get (SEQ_CURSOR 0)
  [checkWrite 0 2 n 0 tw x == .full 0, boundQueue 0 .zb n u == some 0, decide (16 ≤ (teq 0 0 u).length),
    (teq 0 0 u).getLast?.any (fun e => tick < e.tick), decide (tw + 2 ^ 39 ≤ tick), decide (tick < tw + minLead 0 .zb n),
    targetFenced .zb n u, targetPart .zb n u != seqPart 0 u]

/-- An entry at tick 60. -/
def entry60 : Entry := { tick := 60, fine := 0, kind := 2, seq := 0, target := 3071, shot := 0, a := 0, b := 0 }

theorem wit_entry_checks :
    Issues 0 0x12 (bias 70) ∧ targetOk .zb (arg 0 (bias 70) 36 12 50 12) = true
      ∧ (let s := run (ir 0x12 (3071 * 2 ^ 36))
         let x := inTicks 0 4 s
         boundQueue 0 .zb (arg 0 s 36 12 50 12) (advanceTo 6 x) = none ∧ checkWrite 0 2 (arg 0 s 36 12 50 12) 0 6 x = .fault 0x04 false)
      ∧ checks (bias 70) = [false, true, false, false, false, false, false, false]
      ∧ checks (seq0 { teqs := [(0, List.replicate 16 entry60)] } (bias 70)) = [true, true, true, false, false, false, false, false]
      ∧ checks (seq0 { teqs := [(0, List.replicate 15 entry60)] } (bias 70)) = [false, true, false, false, false, false, false, false]
      ∧ checks (seq0 { teqs := [(0, [entry60])] } (bias 59)) = [false, true, false, true, false, true, false, false]
      ∧ checks (seq0 { teqs := [(0, [entry60])] } (bias 60)) = [false, true, false, false, false, true, false, false]
      ∧ checks (bias (2 ^ 39 + 6)) = [false, true, false, false, true, false, false, false]
      ∧ checks (bias (2 ^ 39 + 5)) = [false, true, false, false, false, false, false, false]
      ∧ checks (bias 69) = [false, true, false, false, false, true, false, false]
      ∧ checks ((bias 70).set GLB_STATUS_FENCED 0x80) = [false, true, false, false, false, false, true, false]
      ∧ checks ((bias 70).set (GLB_PART_ZP 95) (2 ^ 28)) = [false, true, false, false, false, false, false, true] := by
  refine ⟨issues (by decide +kernel), ?_⟩
  decide +kernel

/-- SIGNAL and WAITMSG on queue 0x9800 that holds a message visible at tick 100. -/
def messages (op : Nat) : State :=
  { (run (ir op (0x9800 * 2 ^ 32))).setB (QM_Q_CTRL_Q_EN 0x9800) true with
    queues := [(0x9800, { items := [{ bytes := [1, 0, 0, 0], visible := 100 }] })] }

theorem wit_messages :
    Issues 0 0x50 (messages 0x50) ∧ Issues 0 0x51 (messages 0x51)
      ∧ (let s := messages 0x50
         let u := inTicks 0 6 s
         wordBits 0 s 32 16 = 0x9800 ∧ u.owner 0x9800 = seqPart 0 u ∧ proxyOf 0x9800 u = none ∧ u.on (QM_Q_CTRL_Q_EN 0x9800) = true
          ∧ u.full 0x9800 = false ∧ (u.queue 0x9800).items.Pairwise (fun x y => x.visible ≤ y.visible))
      ∧ (let s := messages 0x51
         let arm := inTicks 0 4 s
         arm.owner 0x9800 = seqPart 0 arm ∧ ∀ it ∈ (arm.queue 0x9800).items, beginTick 0 s + 4 < it.visible) := by
  refine ⟨issues (by decide +kernel), issues (by decide +kernel), ?_⟩
  decide +kernel

theorem wit_descriptors :
    State.reset.full 0x9800 = false ∧ State.reset.get QM_POOL_ALLOC + State.reset.get QM_POOL_FREE = 1048576
      ∧ (let s := (messages 0x50).set QM_POOL_ALLOC 1 |>.set QM_POOL_FREE 1048575
         (s.queue 0x9800).items = [{ bytes := [1, 0, 0, 0], visible := 100 }] ∧ 0 < s.get QM_POOL_ALLOC
          ∧ s.get QM_POOL_ALLOC + s.get QM_POOL_FREE = 1048576)
      ∧ (State.reset.queue 0x9800).items = [] ∧ State.reset.mem = [] := by decide +kernel

/-- An owner routine of sequencer 0 at a micro-address, with w there. -/
def routine (upc w : Nat) : State :=
  seq0 { micro := { active := true, upc := upc } } ((run (ir 0xEF)).wr (recipeAddr 0 upc) 8 w)

/-- What a microword meets: RUNNING and no abort, its UCOND, its closure to owners, its mark, its LAST and COMMIT. -/
def micro (upc w : Nat) : List Bool :=
  let s1 := atIssue 0 (routine upc w)
  let mw := microword 0 upc s1
  let u := advanceTo (if uAtStart (uopOf mw) then (s1.seq 0).readyAt else (s1.seq 0).readyAt + 2) s1
  [seqState 0 s1 == stRunning && (s1.seq 0).abort == none && (s1.seq 0).micro.active && (u.seq 0).micro.active
      && (u.seq 0).micro.upc == upc && (u.seq 0).abort == none,
    uCond (u.seq 0) (fetchWord 0 u) (bits mw 36 4), uClosed (uopOf mw), uMarkedC (uopOf mw), uLast mw, uCommit mw]

theorem wit_micro :
    micro 0x3000 (0xF * 2 ^ 36) = [true, false, false, false, false, false]
      ∧ micro 0x3FFE (0xF * 2 ^ 36) = [true, false, false, false, false, false]
      ∧ micro 0x3FFF (0xF * 2 ^ 36 + 2 ^ 34) = [true, false, false, false, true, false]
      ∧ micro 0x3000 (0x01 * 2 ^ 58) = [true, true, true, false, false, false]
      ∧ micro 0x3000 (0x18 * 2 ^ 58) = [true, true, false, true, false, false]
      ∧ micro 0x3000 0 = [true, true, false, false, false, false]
      ∧ (let u := advanceTo 2 (atIssue 0 (routine 0x3000 0))
         uSources 0 0 2 u = some (0, 0) ∧ (match uExec 0 0 (fetchWord 0 u) 0 2 0 0 u with
          | .done v => (v.seq 0).micro.upc == 0x3000 && (v.seq 0).micro.active
          | _ => false) = true) := by
  refine ⟨?_, ?_, ?_, ?_, ?_, ?_, ?_⟩
  all_goals decide +kernel

/-- A CQ-256-S, and an account of it without a voucher. -/
theorem wit_uncharged :
    metered (island.setB GLB_REV_VARIANT false) = false ∧ islandUp (island.setB GLB_REV_VARIANT false) = true
      ∧ (let a : Account := { begun := 7, uncharged := 7 }; a.Balanced ∧ a.loaded = 0 ∧ a.balance = 0) :=
  ⟨by decide +kernel, by decide +kernel, rfl, rfl, rfl⟩

/-! ### Results that the spec works out -/

/-- R52's example: the cursor goes to the start of window 2. -/
theorem test_align_angle :
    (let s := ((((State.reset.set TL_CA_CFG_MODE 1).set TL_CA_PERIOD (256 * 1425000000)).set (TL_CA_WIN_LO 2) 40960).set (TL_CA_WIN_HI 2) 57344)
     let s := { s with tl := { s.tl with angle := { s.tl.angle with tIdx := 256 * 10000000000, pSet := true } } }
     angleAt s 10500000000 = 22995 ∧ alignTick s 2 10500000000 = 10890625000 ∧ alignTick s 2 11246874999 = 11246874999
      ∧ inWindow s 2 (angleAt s 11246875000) = false) := by decide +kernel

/-- The probe port of feedline 3: RFO_CFG(35) reads 0x0000_0A74; a requester that is not privileged reads 0 there. -/
theorem test_rfo_cfg :
    (let s := (State.reset.set (RFO_CFG_CENTRE_N 35) 116).set (RFO_CFG_RANGE 35) 2
     (readRequest sup 0x208C04 [15] s).1 = [0xA74] ∧ (readRequest host 0x208C04 [15] s).1 = [0]) := by decide +kernel

/-- Qubit 27's readout: state 0, LOWCONF, no LEAK, exponent 5. -/
theorem test_discriminate :
    discriminate [0x411, 60000000, 182000000, 2 ^ 32 - 41000000, 0x1000 + 36 * 2 ^ 16, 118000000, 63000000, 0x1000, 96000000, 124000000, 0x1000]
        150000000 8000000 = (0, true, false)
      ∧ recExp 150000000 8000000 = 5 := by decide +kernel

/-- Account 2 of the worked example charges two shots and then counts an uncharged one. -/
theorem test_charge :
    (let a : Account := { begun := 500, loaded := 502, balance := 2 }
     (a.charge 2).balance = 0 ∧ (a.charge 2).begun = 502 ∧ (a.charge 3).uncharged = 1 ∧ (a.charge 3).Balanced) := by
  refine ⟨by decide, by decide, by decide, by unfold Account.Balanced; decide⟩

/-- A RAW10 record of 32,768 samples takes a slot of 41,024 bytes. -/
theorem test_tap_slot : tapSlotBytes 3 (State.reset.set (TAP_LEN 3) 32768) = 41024 := by decide +kernel

/-- The registers' addresses that the spec works out, and an access to each of two resources of a block. -/
theorem test_addresses :
    (SEQ_CTRL_EN 3).dword = 0x101C00 ∧ (SEQ_CTRL_EN 64).dword = 0x121000 ∧ (RFI_CTRL_EN 3).dword = 0x2C3000
      ∧ (DEC_WIN_CTRL_EN 0).dword = 0x324000 ∧ (ANA_CTRL_EN 2).dword = 0x348000 ∧ (SEQ_CURSOR 3).dword = 0x101C10 := by decide

/-- The refused request of the host chapter: entry 0 of the log reads 0x017D_0101, and the privileged field keeps its value. -/
theorem test_access_fault :
    (let r : Req := ⟨1, 0x101, false, .bar0⟩
     let s := (State.reset.setB (SEQ_CTRL_EN 3) true)
     match exec (.registerWrite r 0x101C00 [(0xF, 0x81)]) s with
     | .next t => ((readRequest sup (HOST_AF_INFO_RID 0).dword [15] t).1, t.get HOST_AF_COUNT, t.on (SEQ_CTRL_ON_ABORT 3))
     | _ => ([], 0, true)) = ([0x17D0101], 1, false) := by decide +kernel

/-- NT_INC of the servo's example: 2.000005 ns from the next cycle on. -/
theorem test_nt_inc :
    (match exec (.registerWrite sup 0x20010 [(0xF, 21475), (0xF, 2)]) (counting nt) with
     | .next t => (advanceTo 4 t).get NT_INC
     | _ => 0) = 2 * 2 ^ 32 + 21475 := by decide +kernel

/-- FIPS 180-4's example: the SHA-384 digest of "abc". -/
theorem test_sha384 :
    sha384 [0x61, 0x62, 0x63] = toBytesBe 48
      0xcb00753f45a35e8bb5a03d699ac65007272c32ab0eded1631a8b605a43ff5bed8086072ba1e7cc2358baeca134c825a7 := by decide +kernel

/-! ### Witnesses of clauses on routines, lines and waits -/

/-- WRES that finds its result, inside a trap routine and in another, and one that resolves at its timeout; a stalled sequencer, a
loaded abort routine, and one that the machine runs. -/
theorem wit_routines :
    (let s := seq0 { stall := some (.micro 0x2E 0), micro := { active := true, trap := some 6 } } (rv0 (run (ir 0x29 (2 ^ 20))))
     let u := advanceTo 0 s
     Stalled 0 (.micro 0x2E 0) u ∧ brrCompare 0 (fetchWord 0 u) 0 u ≠ .behind ∧ (u.seq 0).micro.trap.isSome = true)
      ∧ (let s := seq0 { stall := some (.micro 0x2E 0), micro := { active := true, trap := some 6 } } (rv0 (run (ir 0x29 (63 * 2 ^ 20))))
         let u := resultReady 0 (256 * 63) (advanceTo (256 * 63) s)
         Stalled 0 (.micro 0x2E 0) s ∧ bits (fetchWord 0 s) 20 6 = 63 ∧ (u.seq 0).stall = none)
      ∧ ((atIssue 0 (seq0 { stall := some .angle } (run 0))).seq 0).stall.isSome = true
      ∧ (let q := (atIssue 0 (seq0 { abort := some ⟨.fault, 1, 0, 8, true⟩, micro := { active := true } } (run 0))).seq 0
         (q.abort.any fun a => !a.loaded) = false ∧ q.stall = none ∧ q.micro.active = true)
      ∧ seqState 0 (atIssue 0 .reset) ≠ stRunning ∧ ((atIssue 0 .reset).seq 0).micro.active = false
      ∧ (((atIssue 0 (routine 0x3000 0)).seq 0).stall = none) := by
  and_intros <;> decide +kernel

/-- The line of a flit: its 8 blocks with their sync headers. -/
def lineOf (f : Nat) : BitVec 528 := BitVec.ofNat 528 ((flitBlocks f).zipIdx.foldl (fun n b => n + (b.1.sync + 4 * b.1.payload) * 2 ^ (66 * b.2)) 0)

/-- A good flit on a line, to a link that is ACTIVE, one that rests, and one of neither state. -/
theorem wit_lines :
    rxFlit (lineOf goodFlit.toNat).toNat = goodFlit.toNat ∧ flitOk (rxFlit (lineOf goodFlit.toNat).toNat) = true
      ∧ flitOk (rxFlit 0) = false ∧ linkState 28 (lk lkActive) = lkActive ∧ linkState 28 (lk lkEidle) = lkEidle
      ∧ linkState 28 (flitDiscard 28 (flitConsume 28 (countSync 28 0 (lk lkEidle)))) = lkEidle
      ∧ ((flitDiscard 28 (flitConsume 28 (countSync 28 0 (lk lkEidle)))).link 28).exitAt = none
      ∧ LinkNot 28 lkActive (lk lkLock) ∧ LinkNot 28 lkEidle (lk lkLock) := by decide +kernel

end Sys2Proof.Tests
end

section
/-! PROOFS. Messages become visible in order (R94): what an event, an append, SIGNAL and WAITMSG do to the queues. -/

namespace Sys2Proof.Machine

/-! ### The items that an event leaves in the queues (R480)

The fault log's copy goes to queue 0xFFFF, so an event only adds to the end of that queue. -/

/-- From s to t, queue 0xFFFF keeps its items at its head, and every other queue stays as it is. -/
def QueuesLogged (s t : State) : Prop :=
  (∀ q, q ≠ 0xFFFF → t.queue q = s.queue q) ∧ (s.queue 0xFFFF).items <+: (t.queue 0xFFFF).items

theorem QueuesLogged.refl (s : State) : QueuesLogged s s := ⟨fun _ _ => rfl, List.prefix_rfl⟩

theorem QueuesLogged.trans {a b c : State} (h : QueuesLogged a b) (k : QueuesLogged b c) : QueuesLogged a c :=
  ⟨fun q hq => (k.1 q hq).trans (h.1 q hq), h.2.trans k.2⟩

theorem QueuesLogged.ite {a s t : State} {c : Prop} [Decidable c] (h : QueuesLogged a s) (k : QueuesLogged a t) :
    QueuesLogged a (if c then s else t) := by
  split
  · exact h
  · exact k

/-- An update of anything but the queues. -/
theorem QueuesLogged.of_queues_eq {a s t : State} (h : QueuesLogged a s) (e : t.queues = s.queues) : QueuesLogged a t := by
  unfold QueuesLogged State.queue at *
  rwa [e]

/-- An update of queue 0xFFFF that keeps its items at the head. -/
theorem QueuesLogged.setQueue {a s : State} (h : QueuesLogged a s) {x : Queue} (hx : (s.queue 0xFFFF).items <+: x.items) :
    QueuesLogged a (s.setQueue 0xFFFF x) :=
  h.trans ⟨fun _ hq => State.queue_setQueue_ne s x hq, by rwa [State.queue_setQueue_same]⟩

/-- Every queue's items stay at its head. -/
theorem QueuesLogged.items_prefix {s t : State} (h : QueuesLogged s t) (q : Nat) : (s.queue q).items <+: (t.queue q).items := by
  by_cases hq : q = 0xFFFF
  · subst hq; exact h.2
  · exact h.1 q hq ▸ List.prefix_rfl

@[simp] theorem State.pend_queues (s : State) (n : Nat) : (s.pend n).queues = s.queues := by
  unfold State.pend State.sendVector
  dsimp only
  repeat' split
  all_goals rfl

@[simp] theorem State.logEntry_queues (s : State) (n c : Nat) : (s.logEntry n c).1.queues = s.queues := by
  unfold State.logEntry
  dsimp only
  split <;> rfl

/-- The queue that takes an item. -/
theorem State.appendRaw_queue_same (s : State) (q : Nat) (it : Item) : (s.appendRaw q it).queue q =
    { s.queue q with items := (s.queue q).items ++ [it], entered := (s.queue q).entered + it.records } := by
  simp [State.appendRaw, State.showQueue, State.inc, State.setB]

/-- The queues beside it. -/
theorem State.appendRaw_queue_ne (s : State) {q j : Nat} (it : Item) (h : j ≠ q) : (s.appendRaw q it).queue j = s.queue j := by
  simp [State.appendRaw, State.showQueue, State.inc, State.setB, State.queue_setQueue_ne _ _ h]

theorem QueuesLogged.appendRaw {a s : State} (h : QueuesLogged a s) (it : Item) : QueuesLogged a (s.appendRaw 0xFFFF it) :=
  h.trans ⟨fun _ hq => State.appendRaw_queue_ne s it hq, by simp [State.appendRaw_queue_same]⟩

theorem QueuesLogged.set {a s : State} (h : QueuesLogged a s) (f : Fld) (v : Nat) : QueuesLogged a (s.set f v) :=
  h.of_queues_eq rfl

theorem QueuesLogged.setB {a s : State} (h : QueuesLogged a s) (f : Fld) (b : Bool) : QueuesLogged a (s.setB f b) := h.set f _

theorem QueuesLogged.host {a s : State} (h : QueuesLogged a s) (x : HostIf) : QueuesLogged a { s with host := x } :=
  h.of_queues_eq rfl

theorem QueuesLogged.countDrop {a s : State} (h : QueuesLogged a s) (n : Nat) : QueuesLogged a (s.countDrop 0xFFFF n) := by
  have counted := h.setQueue (x := { s.queue 0xFFFF with
    entered := (s.queue 0xFFFF).entered + n, dropped := (s.queue 0xFFFF).dropped + n }) List.prefix_rfl
  exact counted.set _ _

theorem QueuesLogged.eventN {a s : State} (h : QueuesLogged a s) (fuel n c : Nat) :
    QueuesLogged a (State.eventN fuel s n c) := by
  induction fuel generalizing s n c with
  | zero => exact h.of_queues_eq (State.pend_queues s n)
  | succ fuel ih =>
    have pended := h.of_queues_eq (State.pend_queues s n)
    have logged := pended.of_queues_eq (State.logEntry_queues (s.pend n) n c)
    have noted {p : Prop} [Decidable p] {x : HostIf} := (ih (logged.host x) 17 0).ite (c := p) logged
    have report {t : State} {f : Fld} {n : Nat} {p : Prop} [Decidable p] (ht : QueuesLogged a t) :
        QueuesLogged a (if p then if t.on f then t else State.eventN fuel (t.setB f true) n 0 else t) :=
      (ht.ite (ih (ht.setB f true) n 0)).ite ht
    unfold State.eventN
    refine pended.ite ?_
    dsimp only
    split
    · exact noted
    · refine QueuesLogged.ite (report (noted.countDrop 1)) (QueuesLogged.ite (ih ?_ 764 0) ?_) <;>
        exact report (report (noted.appendRaw _))

theorem QueuesLogged.event {a s : State} (h : QueuesLogged a s) (n c : Nat) : QueuesLogged a (s.event n c) := h.eventN 6 n c

theorem QueuesLogged.flag {a s : State} (h : QueuesLogged a s) (f : Fld) (n : Nat) : QueuesLogged a (s.flag f n) :=
  ((h.setB f true).event n 0).ite (h.setB f true)

/-! ### Appending (R92) -/

/-- An append adds the item and raises events. -/
theorem State.append_queuesLogged (s : State) (q : Nat) (it : Item) : QueuesLogged (s.appendRaw q it) (s.append q it) := by
  have flagged {t : State} {f : Fld} {n : Nat} {p : Prop} [Decidable p] (ht : QueuesLogged (s.appendRaw q it) t) :
      QueuesLogged (s.appendRaw q it) (if p then t.flag f n else t) := (ht.flag f n).ite ht
  unfold State.append
  refine QueuesLogged.ite (QueuesLogged.event ?_ 764 0) ?_ <;>
    exact flagged (flagged (QueuesLogged.refl _))

theorem State.append_items_prefix (s : State) (q : Nat) (it : Item) :
    (s.queue q).items ++ [it] <+: ((s.append q it).queue q).items := by
  simpa [State.appendRaw_queue_same] using (s.append_queuesLogged q it).items_prefix q

theorem State.append_items (s : State) {q : Nat} (it : Item) (hq : q ≠ 0xFFFF) :
    ((s.append q it).queue q).items = (s.queue q).items ++ [it] := by
  rw [(s.append_queuesLogged q it).1 q hq, State.appendRaw_queue_same]

/-! ### Visibility along a queue (R94) -/

/-- Visibility never falls along these items. -/
abbrev VisibleInOrder (items : List Item) : Prop := items.Pairwise fun x y => x.visible ≤ y.visible

/-- The visibility of the last item, 0 where there is none. -/
abbrev lastVisible (items : List Item) : Nat := (items.getLast?.map (·.visible)).getD 0

theorem lastVisible_cons_cons (x y : Item) (items : List Item) : lastVisible (x :: y :: items) = lastVisible (y :: items) := by
  rw [lastVisible, List.getLast?_cons_cons]

/-- Where visibility never falls, the last item's is the greatest. -/
theorem VisibleInOrder.le_last {items : List Item} (h : VisibleInOrder items) {x : Item} (hx : x ∈ items) :
    x.visible ≤ lastVisible items := by
  induction items generalizing x with
  | nil => exact absurd hx List.not_mem_nil
  | cons y ys ih =>
    obtain ⟨hy, hys⟩ := List.pairwise_cons.1 h
    cases ys with
    | nil => rw [List.mem_singleton.1 hx]; exact Nat.le_refl _
    | cons z zs =>
      rw [lastVisible_cons_cons]
      rcases List.mem_cons.1 hx with rfl | hx
      · exact Nat.le_trans (hy z List.mem_cons_self) (ih hys List.mem_cons_self)
      · exact ih hys hx

theorem VisibleInOrder.foldl_max {items : List Item} (h : VisibleInOrder items) (m : Nat) :
    items.foldl (fun m it => max m it.visible) m = max m (lastVisible items) := by
  induction items generalizing m with
  | nil => exact (Nat.max_zero m).symm
  | cons x xs ih =>
    obtain ⟨hx, hxs⟩ := List.pairwise_cons.1 h
    rw [List.foldl_cons, ih hxs]
    cases xs with
    | nil => simp only [lastVisible, List.getLast?_nil, List.getLast?_singleton, Option.map_none, Option.map_some,
        Option.getD_none, Option.getD_some, Nat.max_zero]
    | cons y ys =>
      have : x.visible ≤ lastVisible (y :: ys) :=
        Nat.le_trans (hx y List.mem_cons_self) (VisibleInOrder.le_last hxs List.mem_cons_self)
      rw [lastVisible_cons_cons, Nat.max_assoc, Nat.max_eq_right this]

/-- The tick at which a message becomes visible: 16 ticks after it is appended, or with the message ahead of it. -/
theorem visibleAt_eq (q t : Nat) {s : State} (h : VisibleInOrder (s.queue q).items) :
    visibleAt q t s = max (t + 16) (lastVisible (s.queue q).items) :=
  h.foldl_max _

/-- A message that becomes visible no earlier than the last one joins the order. -/
theorem VisibleInOrder.concat {items : List Item} (h : VisibleInOrder items) {it : Item}
    (hit : lastVisible items ≤ it.visible) : VisibleInOrder (items ++ [it]) := by
  refine List.pairwise_append.2 ⟨h, List.pairwise_singleton _ _, fun x hx y hy => ?_⟩
  rw [List.mem_singleton.1 hy]
  exact Nat.le_trans (h.le_last hx) hit

/-- A queue whose messages all become visible later shows none. -/
theorem headVisible_eq_none {q t : Nat} {s : State} (h : ∀ it ∈ (s.queue q).items, t < it.visible) :
    headVisible q t s = none := by
  unfold headVisible
  split
  · next it rest e => exact if_neg (Nat.not_le.2 (h it (by simp [e])))
  · rfl

/-! ### SIGNAL and WAITMSG (R125) -/

/-- A retirement leaves every queue. -/
@[simp] theorem retire_queue (k t : Nat) (s : State) (q : Nat) : (retire k t s).queue q = s.queue q := rfl

/-- A change of a sequencer leaves every queue. -/
@[simp] theorem State.queue_modSeq (s : State) (k : Nat) (f : Seq → Seq) (q : Nat) : (s.modSeq k f).queue q = s.queue q := rfl

/-- What an instruction that issues does is its row's body, from the tick and the state in which it begins. -/
theorem instr_of_issues {k op : Nat} {s : State} (h : Issues k op s) (body : Nat → Nat → State → State) :
    instr op k s body = body (issued k s) (beginTick k s) (atBegin k s) := by
  obtain ⟨boundary, inStore, opcode, image, cond⟩ := h
  rw [instr_runs body rfl boundary inStore opcode image cond, atBegin, opcode]
  rfl

/-- A queue for messages that the sequencer's partition owns takes its messages. -/
theorem queueFault_eq_none {k q : Nat} {s : State} (hq : 0x9800 ≤ q) (ho : s.owner q = seqPart k s) :
    queueFault k q s = none := by
  simp [queueFault, Nat.not_lt.2 hq, ho]

/-- Message v as SIGNAL appends it at tick t. -/
abbrev signalItem (q v t : Nat) (s : State) : Item := { bytes := toBytes 4 v, visible := visibleAt q t s }

/-- SIGNAL to an enabled queue with room, of its own partition and without a proxy, appends the message and clears Z. -/
theorem signalAt_appends {k q : Nat} {s : State} (v t : Nat) (drop : Bool) (hq : 0x9800 ≤ q) (ho : s.owner q = seqPart k s)
    (hp : proxyOf q s = none) (hen : s.on (QM_Q_CTRL_Q_EN q) = true) (hf : s.full q = false) :
    signalAt k q v t drop s = (none, (s.append q (signalItem q v t s)).modSeq k fun x => { x with z := false }) := by
  have sent : signal q v t s = (true, s.append q (signalItem q v t s)) := by simp [signal, hp, hen, hf]
  simp [signalAt, queueFault_eq_none hq ho, sent]

/-- The value that the SIGNAL which sequencer k issues sends: its immediate, or the register it names. -/
abbrev signalValue (k : Nat) (s : State) : Nat :=
  if wordBit k s 49 then greg k (wordBits k s 0 4) (atBegin k s) else wordBits k s 0 32

/-- The next state of a SIGNAL whose message is appended. -/
theorem exec_signal_appends {k : Fin 512} {s : State} (h : Issues k 0x50 s) {q : Nat} (e : wordBits k s 32 16 = q)
    (hq : 0x9800 ≤ q) (ho : (inTicks k 6 s).owner q = seqPart k (inTicks k 6 s)) (hp : proxyOf q (inTicks k 6 s) = none)
    (hen : (inTicks k 6 s).on (QM_Q_CTRL_Q_EN q) = true) (hf : (inTicks k 6 s).full q = false) :
    exec (.signal k) s = .next (retire k (beginTick k s + 6)
      (((inTicks k 6 s).append q (signalItem q (signalValue k s) (beginTick k s + 6) (inTicks k 6 s))).modSeq k
        fun x => { x with z := false })) := by
  subst e
  show Host.Outcome.next (instr 0x50 k.val s (signalInstr k.val)) = _
  rw [instr_of_issues h]
  unfold signalInstr
  dsimp only
  rw [← inTicks, signalAt_appends _ _ _ hq ho hp hen hf]
  rfl

/-- The next state of a WAITMSG that finds no visible message. -/
theorem exec_waitmsg_stalls {k : Fin 512} {s : State} (h : Issues k 0x51 s) {q : Nat} (e : wordBits k s 32 16 = q)
    (hq : 0x9800 ≤ q) (ho : (inTicks k 4 s).owner q = seqPart k (inTicks k 4 s))
    (hv : headVisible q (beginTick k s + 4) (inTicks k 4 s) = none) :
    exec (.waitmsg k) s = .next (stallSeq k .msg (beginTick k s + 4) (inTicks k 4 s)) := by
  subst e
  show Host.Outcome.next (instr 0x51 k.val s (waitmsg k.val)) = _
  rw [instr_of_issues h]
  unfold waitmsg
  dsimp only
  rw [← inTicks, queueFault_eq_none hq ho]
  dsimp only
  rw [hv]

/-- Settles O55: an append keeps the queue and puts its message behind the last, and the greatest visibility of a queue in order
is the last message's. -/
theorem messagesBecomeVisibleInOrder : Obligations.MessagesBecomeVisibleInOrder := by
  unfold Obligations.MessagesBecomeVisibleInOrder
  constructor
  · intro k s issues q v t u old hq owned direct enabled room ordered
    have visible := visibleAt_eq q t ordered
    refine ⟨_, signalItem q v t u, exec_signal_appends issues rfl hq owned direct enabled room, ?_, ?_, rfl, visible, ?_⟩
    · rw [retire_queue, State.queue_modSeq]
      exact u.append_items_prefix q _
    · intro hne
      rw [retire_queue, State.queue_modSeq]
      exact u.append_items _ hne
    · exact VisibleInOrder.concat ordered (Nat.le_trans (Nat.le_max_right _ _) (Nat.le_of_eq visible.symm))
  · intro k s issues q arm hq owned later
    exact exec_waitmsg_stalls issues rfl hq owned (headVisible_eq_none later)

end Sys2Proof.Machine
end

section
/-! PROOFS. The frame of a step of one sequencer: updates of that sequencer and of the registers named, in any order. -/

namespace OnlySeq
open Sys2Proof Sys2Proof.Machine

variable {k : Nat} {regs : List Fld} {u s t : State}

protected theorem refl (k : Nat) (regs : List Fld) (u : State) : OnlySeq k regs u u :=
  ⟨rfl, fun _ _ => rfl, fun _ _ => rfl, fun _ => rfl⟩

protected theorem trans (h : OnlySeq k regs u s) (h' : OnlySeq k regs s t) : OnlySeq k regs u t := by
  obtain ⟨units, seqs, fields, bytes⟩ := h
  obtain ⟨units', seqs', fields', bytes'⟩ := h'
  exact ⟨units'.trans (by rw [units]), fun j hj => (seqs' j hj).trans (seqs j hj), fun f hf => (fields' f hf).trans (fields f hf),
    fun a => (bytes' a).trans (bytes a)⟩

protected theorem modSeq (h : OnlySeq k regs u s) (f : Seq → Seq) : OnlySeq k regs u (s.modSeq k f) :=
  h.trans ⟨rfl, fun _ hj => State.seq_modSeq_ne s f hj, fun _ _ => rfl, fun _ => rfl⟩

protected theorem set (h : OnlySeq k regs u s) {f : Fld} (hf : f ∈ regs) (v : Nat) : OnlySeq k regs u (s.set f v) :=
  h.trans ⟨rfl, fun _ _ => rfl, fun _ hg => State.get_set_ne s v fun e => hg (e ▸ List.mem_map_of_mem hf), fun _ => rfl⟩

protected theorem setPc (h : OnlySeq k regs u s) (hpc : SEQ_PC k ∈ regs) (pc : Nat) : OnlySeq k regs u (setPc k pc s) :=
  (h.modSeq _).set hpc pc

protected theorem retire (h : OnlySeq k regs u s) (hpc : SEQ_PC k ∈ regs) (te : Nat) : OnlySeq k regs u (retire k te s) :=
  (h.modSeq _).setPc hpc _

protected theorem retireTo (h : OnlySeq k regs u s) (hpc : SEQ_PC k ∈ regs) (pc te : Nat) :
    OnlySeq k regs u (retireTo k pc te s) :=
  (h.modSeq _).setPc hpc pc

end OnlySeq
end

section
/-! PROOFS. How the timing and control-flow instructions end: in a retirement, or in a transfer of control (R113, R116, R117). -/

namespace Sys2Proof.Machine

/-! ### Retirements and transfers -/

/-- A retirement after a change f of the sequencer that leaves its loop stack and program counter. -/
theorem retires_of_seq {k te : Nat} {f : Seq → Seq} {u s : State} (seq : s.seq k = f (u.seq k))
    (stack : (s.seq k).stack = (u.seq k).stack) (pc : pcOf k s = pcOf k u) : Retires k te f u (retire k te s) := by
  constructor
  · rw [retire_seq_same, pc, stack, seq]
  · rw [retire_pc, pc, stack]

/-- Sequencer k after a transfer of control. -/
theorem retireTo_seq_same (k pc te : Nat) (s : State) :
    (retireTo k pc te s).seq k = { s.seq k with readyAt := te, lastPc := pcOf k s, pcOver := decide (pc ≥ 8192) } := by
  simp [retireTo, setPc]

/-- The program counter after a transfer of control. -/
theorem retireTo_pc (k pc te : Nat) (s : State) : (retireTo k pc te s).get (SEQ_PC k) = pc % 2 ^ 13 :=
  State.get_set_same _ _ pc

/-- A transfer of control after a change f of the sequencer that gives it the stack st. -/
theorem retireTo_jumps {k : Nat} {st : List StackItem} {u : State} (f : Seq → Seq) (hf : f (u.seq k) = { u.seq k with stack := st })
    (pc te : Nat) : Jumps k pc te st u (retireTo k pc te (u.modSeq k f)) := by
  have at_ : pcOf k (u.modSeq k f) = pcOf k u := pcOf_modSeq u k f (by rw [hf])
  refine ⟨retireTo_pc k pc te _, ?_, ((OnlySeq.refl k _ u).modSeq f).retireTo (List.mem_singleton_self _) pc te⟩
  rw [retireTo_seq_same, State.seq_modSeq_same, at_, hf]

/-- A transfer of control that leaves the stack. -/
theorem retireTo_jumps_same (k pc te : Nat) (u : State) : Jumps k pc te (u.seq k).stack u (retireTo k pc te u) :=
  ⟨retireTo_pc k pc te u, retireTo_seq_same k pc te u, (OnlySeq.refl k _ u).retireTo (List.mem_singleton_self _) pc te⟩

/-- A transfer of control that pushes an entry. -/
theorem retireTo_pushItem_jumps (k pc te : Nat) (it : StackItem) (u : State) :
    Jumps k pc te (it :: (u.seq k).stack) u (retireTo k pc te (pushItem k it u)) :=
  retireTo_jumps _ rfl pc te

/-- A pushed loop whose END lies elsewhere leaves the retirement to go on at the next address. -/
theorem retire_pushItem_jumps {k first last count : Nat} {u : State} (te : Nat) (h : last ≠ pcOf k u) :
    Jumps k (pcOf k u + 1) te (.loop first last count :: (u.seq k).stack) u
      (retire k te (pushItem k (.loop first last count) u)) := by
  have at_ : pcOf k (pushItem k (.loop first last count) u) = pcOf k u := pcOf_modSeq u k _ rfl
  have seq : (pushItem k (.loop first last count) u).seq k
      = { u.seq k with stack := .loop first last count :: (u.seq k).stack } := State.seq_modSeq_same u k _
  have next : loopNext (pcOf k u) (.loop first last count :: (u.seq k).stack)
      = (.loop first last count :: (u.seq k).stack, pcOf k u + 1) := by simp [loopNext, h]
  refine ⟨?_, ?_, ((OnlySeq.refl k _ u).modSeq _).retire (List.mem_singleton_self _) te⟩
  · rw [retire_pc, at_, seq, next]
  · rw [retire_seq_same, at_, seq, next]

/-! ### The next states of the instructions that issue -/

/-- The next state of a NOP. -/
theorem exec_nop {k : Fin 512} {s : State} (h : Issues k 0x00 s) :
    exec (.nop k) s = .next (retire k (beginTick k s + 2) (inTicks k 2 s)) :=
  congrArg _ (instr_of_issues h fun _ => nopInstr k)

/-- The next state of a BR. -/
theorem exec_br {k : Fin 512} {s : State} (h : Issues k 0x28 s) :
    exec (.br k) s = .next (branchTo k (branchTarget k (issued k s) (inTicks k 4 s)) (beginTick k s + 4) (inTicks k 4 s)) :=
  congrArg _ (instr_of_issues h (brInstr k))

/-- The next state of a CALL. -/
theorem exec_call {k : Fin 512} {s : State} (h : Issues k 0x2B s) :
    let u := inTicks k 4 s
    exec (.call k) s = .next (
      if (u.seq k).stack.length ≥ 16 then seqFault k 0x23 0x2B 2 (beginTick k s + 4) u
      else retireTo k (branchTarget k (issued k s) u) (beginTick k s + 4) (pushItem k (.call (pcOf k u + 1)) u)) :=
  congrArg _ (instr_of_issues h (callInstr k))

/-- The next state of a RET with a CALL entry on its stack. -/
theorem exec_ret_of_some {k : Fin 512} {s : State} (h : Issues k 0x2C s) {ret : Nat} {st : List StackItem}
    (call : popCall ((inTicks k 4 s).seq k).stack = some (ret, st)) :
    exec (.ret k) s = .next (retireTo k ret (beginTick k s + 4) ((inTicks k 4 s).modSeq k fun q => { q with stack := st })) := by
  refine congrArg _ ((instr_of_issues h fun _ => retInstr k).trans ?_)
  unfold retInstr
  dsimp only
  rw [← inTicks, call]

/-- The next state of a RET without a CALL entry on its stack. -/
theorem exec_ret_of_none {k : Fin 512} {s : State} (h : Issues k 0x2C s) (call : popCall ((inTicks k 4 s).seq k).stack = none) :
    exec (.ret k) s = .next (seqFault k 0x24 0x2C 2 (beginTick k s + 4) (inTicks k 4 s)) := by
  refine congrArg _ ((instr_of_issues h fun _ => retInstr k).trans ?_)
  unfold retInstr
  dsimp only
  rw [← inTicks, call]

/-- The COUNT of the LOOP that sequencer k issues: its immediate, or the register it names. -/
abbrev loopCount (k : Nat) (s : State) : Nat :=
  if wordBit k s 49 then greg k (wordBits k s 24 4) (inTicks k 4 s) % 2 ^ 24 else wordBits k s 24 24

/-- The next state of a LOOP. -/
theorem exec_loop {k : Fin 512} {s : State} (h : Issues k 0x2A s) :
    let u := inTicks k 4 s
    exec (.loop k) s = .next (
      if wordBits k s 0 13 < pcOf k u + 1 then seqFault k badOperand 0x2A 2 (beginTick k s + 4) u
      else if loopCount k s = 0 then retireTo k (wordBits k s 0 13 + 1) (beginTick k s + 4) u
      else if (u.seq k).stack.length ≥ 16 then seqFault k 0x23 0x2A 2 (beginTick k s + 4) u
      else retire k (beginTick k s + 4) (pushItem k (.loop (pcOf k u + 1) (wordBits k s 0 13) (loopCount k s)) u)) := by
  intro u
  show Host.Outcome.next (instr 0x2A k.val s (loopInstr k.val)) = _
  rw [instr_of_issues h]
  unfold loopInstr
  dsimp only
  rw [← inTicks]
  rfl

/-- Settles O5: every clause is the next state of its instruction, which a transfer of control or a retirement ends. -/
theorem controlFlowMovesThePcAndStack : Obligations.ControlFlowMovesThePcAndStack := by
  unfold Obligations.ControlFlowMovesThePcAndStack
  refine ⟨?br, ?call, ?ret, ?loop, ?loopBehind, ?nop, ?loopEnd, ?otherTop, ?callFull, ?retEmpty⟩
  case br => exact fun k s issues => ⟨_, exec_br issues, retireTo_jumps _ rfl _ _⟩
  case call =>
    intro k s issues u room
    exact ⟨_, (exec_call issues).trans (by rw [if_neg (Nat.not_le.2 room)]), retireTo_pushItem_jumps ..⟩
  case ret => exact fun k s ret st issues call => ⟨_, exec_ret_of_some issues call, retireTo_jumps _ rfl _ _⟩
  case loop =>
    intro k s issues u last count pc ahead
    have ends : ¬ last < pc + 1 := Nat.not_lt.2 ahead
    refine ⟨fun none => ⟨_, (exec_loop issues).trans ?_, retireTo_jumps_same ..⟩,
      fun some room => ⟨_, (exec_loop issues).trans ?_, retire_pushItem_jumps _ (Nat.ne_of_gt ahead)⟩,
      fun some full => (exec_loop issues).trans ?_⟩
    · rw [if_neg ends, if_pos none]
    · rw [if_neg ends, if_neg some, if_neg (Nat.not_le.2 room)]
    · rw [if_neg ends, if_neg some, if_pos full]
  case loopBehind => exact fun k s issues behind => (exec_loop issues).trans (by rw [if_pos (Nat.lt_succ_of_le behind), badOperand])
  case nop =>
    exact fun k s issues => ⟨_, exec_nop issues, retires_of_seq rfl rfl rfl,
      (OnlySeq.refl k _ _).retire (List.mem_singleton_self _) _⟩
  case loopEnd => exact fun pc first last n st => rfl
  case otherTop => exact fun pc ret st => ⟨rfl, rfl⟩
  case callFull => exact fun k s issues full => (exec_call issues).trans (by rw [if_pos full])
  case retEmpty => exact fun k s issues call => exec_ret_of_none issues call

end Sys2Proof.Machine
end

section
/-! PROOFS. Where WAIT and WAITUNTIL leave the cursor, and where SHOT_T0 comes from (R113). -/

namespace Sys2Proof.Machine

/-! ### The cursor -/

/-- The time cursor and the program counter are different fields. -/
theorem cursor_ne_pc (k : Nat) : (SEQ_CURSOR k).key ≠ (SEQ_PC k).key := by
  simp only [SEQ_CURSOR, SEQ_PC]
  omega

/-- A retirement after a move of the cursor, in a machine s that differs from u in a change f of the sequencer alone. -/
theorem retire_set_cursor {k : Nat} {f : Seq → Seq} {u s : State} (te v : Nat) (frame : OnlySeq k [SEQ_PC k, SEQ_CURSOR k] u s)
    (seq : s.seq k = f (u.seq k)) (stack : (f (u.seq k)).stack = (u.seq k).stack) (pc : pcOf k s = pcOf k u) :
    let t := retire k te (s.set (SEQ_CURSOR k) v)
    t.get (SEQ_CURSOR k) = v % 2 ^ 64 ∧ Retires k te f u t ∧ OnlySeq k [SEQ_PC k, SEQ_CURSOR k] u t := by
  have moved : pcOf k (s.set (SEQ_CURSOR k) v) = pcOf k u := (pcOf_set s k v (cursor_ne_pc k)).trans pc
  refine ⟨?_, retires_of_seq seq ((congrArg Seq.stack seq).trans stack) moved, (frame.set (by simp) v).retire (by simp) te⟩
  exact (retire_get k te _ (cursor_ne_pc k)).trans (State.get_set_same s _ v)

/-! ### The target of WAITUNTIL -/

/-- The ways in which MODE and the operands of WAITUNTIL give its target. -/
theorem waitTarget_eq_some {k w x : Nat} {s : State}
    (h : (bits w 46 2 = 0 ∧ bits w 32 4 % 2 = 0 ∧ x = greg k (bits w 32 4) s + 2 ^ 32 * greg k (bits w 32 4 + 1) s)
      ∨ (bits w 46 2 = 1 ∧ x = (s.seq k).shotT0 + bits w 0 32)
      ∨ (bits w 46 2 = 2 ∧ x = (s.seq k).shotT0 + greg k (bits w 32 4) s)) :
    waitTarget k w s = some x := by
  unfold waitTarget
  obtain ⟨mode, even, rfl⟩ | ⟨mode, rfl⟩ | ⟨mode, rfl⟩ := h
  · simp [mode, even, gpair, Nat.mul_comm]
  · simp [mode]
  · simp [mode]

/-- The reserved MODE and an odd pair give WAITUNTIL no target. -/
theorem waitTarget_eq_none {k w : Nat} {s : State} (h : bits w 46 2 = 3 ∨ (bits w 46 2 = 0 ∧ bits w 32 4 % 2 = 1)) :
    waitTarget k w s = none := by
  unfold waitTarget
  obtain mode | ⟨mode, odd⟩ := h
  · simp [mode]
  · simp [mode, odd]

/-! ### The next states of WAIT and WAITUNTIL -/

/-- The next state of a WAIT. -/
theorem exec_wait {k : Fin 512} {s : State} (h : Issues k 0x08 s) :
    let u := inTicks k 2 s
    exec (.wait k) s = .next (retire k (beginTick k s + 2) (advCursor k
      (if wordBit k s 49 then greg k (wordBits k s 32 4) u else wordBits k s 0 32) u)) :=
  congrArg _ (instr_of_issues h (wait k))

/-- The next state of a WAITUNTIL with a target. -/
theorem exec_waituntil_of_some {k : Fin 512} {s : State} (h : Issues k 0x09 s) {x : Nat}
    (target : waitTarget k (issued k s) (inTicks k 4 s) = some x) :
    let u := inTicks k 4 s
    exec (.waituntil k) s = .next (retire k (beginTick k s + 4)
      (raiseCursor k x (u.modSeq k fun q => { q with c := decide (x < cursor k u) }))) := by
  refine congrArg _ ((instr_of_issues h (waituntil k)).trans ?_)
  unfold waituntil
  dsimp only
  rw [← inTicks, target]

/-- The next state of a WAITUNTIL without a target. -/
theorem exec_waituntil_of_none {k : Fin 512} {s : State} (h : Issues k 0x09 s)
    (target : waitTarget k (issued k s) (inTicks k 4 s) = none) :
    exec (.waituntil k) s = .next (seqFault k 0x20 0x09 2 (beginTick k s + 4) (inTicks k 4 s)) := by
  refine congrArg _ ((instr_of_issues h (waituntil k)).trans ?_)
  unfold waituntil
  dsimp only
  rw [← inTicks, target, badOperand]

/-! ### SHOT_BEGIN and START -/

/-- A Kiln that makes no shot wait leaves the check to the ring's (R439). -/
theorem kilnCheck_of_kilnWait {u : State} (k t : Nat) (h : kilnWait u = 0) : kilnCheck k t u = ringCheck k t u := by
  unfold kilnWait at h
  unfold kilnCheck
  dsimp only at h ⊢
  split
  · rfl
  · rw [if_neg ‹_›] at h
    split at h
    · rw [if_pos ‹_›, if_pos h]
    · rw [if_neg ‹_›, if_pos h]

/-- A shot of image 2.4's routine whose checks have passed begins two cycles later (R126). -/
theorem shotPass_of_inactive {k : Nat} (t : Nat) {v : State} (h : (v.seq k).micro.active = false) :
    shotPass k t v = retire k (t + 4) (openShot k (t + 4) (advanceTo (t + 4) v)) := by
  rw [shotPass, h, if_neg Bool.false_ne_true]

/-- A reservation leaves every sequencer. -/
@[simp] theorem meterReserve_seq (n : Nat) (s : State) (j : Nat) : (meterReserve n s).seq j = s.seq j := rfl

/-- The machine u after check 5 of sequencer k has passed: enforcement reserves the shot (R397). -/
def afterCredit (k : Nat) (u : State) : State :=
  if (u.part (seqPart k u)).enforced then meterReserve (seqPart k u) (u.modSeq k fun q => { q with reserved := true }) else u

/-- A passed check 5 leaves the sequencer's micro-state. -/
theorem afterCredit_micro (k : Nat) (u : State) : ((afterCredit k u).seq k).micro = (u.seq k).micro := by
  unfold afterCredit
  split
  · rw [meterReserve_seq, State.seq_modSeq_same]
  · rfl

/-- The checks 2 to 5 of SHOT_BEGIN pass when nothing stops or holds the shot (R126). -/
theorem shotChecks_passes {k t : Nat} {u : State} (stop : (u.seq k).stopNext = false) (kiln : kilnWait u = 0)
    (ring : ringHeld k u = false) (credit : creditHolds k (seqPart k u) t u = false) :
    shotChecks k t u = shotPass k t (afterCredit k u) := by
  have passed : creditCheck k t u = shotPass k t (afterCredit k u) := by
    unfold creditCheck
    dsimp only
    rw [credit, if_neg Bool.false_ne_true, ← afterCredit]
  rw [shotChecks, stop, if_neg Bool.false_ne_true, kilnCheck_of_kilnWait k t kiln, ringCheck, ring, if_neg Bool.false_ne_true,
    passed]

/-- A shot that begins is open, and its SHOT_T0 is the cursor (R113). -/
theorem openShot_shotT0 (k t : Nat) (s : State) :
    ((openShot k t s).seq k).shotT0 = cursor k (openShot k t s) ∧ ((openShot k t s).seq k).shotOpen = true := by
  unfold openShot
  dsimp only
  rw [State.seq_modSeq_same]
  exact ⟨rfl, rfl⟩

/-- The next state of a SHOT_BEGIN outside a shot. -/
theorem exec_shotBegin_of_closed {k : Fin 512} {s : State} (h : Issues k 0x48 s) (closed : ((inTicks k 4 s).seq k).shotOpen = false) :
    exec (.shotBegin k) s = .next (shotChecks k (beginTick k s + 4) (inTicks k 4 s)) := by
  refine congrArg _ ((instr_of_issues h fun _ => shotBegin k).trans ?_)
  unfold shotBegin
  dsimp only
  rw [← inTicks, closed, if_neg Bool.false_ne_true]

/-- A retirement of SHOT_BEGIN leaves SHOT_T0 at the cursor and the shot open (R113). -/
theorem retire_openShot (k t : Nat) (s : State) :
    let x := retire k t (openShot k t s)
    (x.seq k).shotT0 = x.get (SEQ_CURSOR k) ∧ (x.seq k).shotOpen = true ∧ (x.seq k).readyAt = t := by
  obtain ⟨t0, isOpen⟩ := openShot_shotT0 k t s
  dsimp only
  rw [retire_seq_same, retire_get _ _ _ (cursor_ne_pc k)]
  exact ⟨t0, isOpen, rfl⟩

/-- A move of a sequencer to a state leaves what every sequencer holds. -/
theorem setSeqState_seq (k st j : Nat) (s : State) (hk : k < 512) : (setSeqState k st s).seq j = s.seq j := by
  unfold setSeqState
  split
  · rfl
  · exact State.event_seq _ (by omega) 0 j

/-- A move of a sequencer to a state leaves its cursor. -/
theorem setSeqState_cursor (k st : Nat) (s : State) (hk : k < 512) : (setSeqState k st s).get (SEQ_CURSOR k) = s.get (SEQ_CURSOR k) := by
  unfold setSeqState
  split
  · rfl
  · rw [State.event_get _ (by omega), State.get_set_ne]
    · simp only [SEQ_CURSOR, SEQ_STATUS_STATE]
      omega
    · simp only [UnitKey, SEQ_CURSOR]
      omega

/-- A started sequencer's SHOT_T0 is its cursor (R113). -/
theorem startSeq_shotT0 {k : Nat} (hk : k < 512) (t : Nat) (s : State) :
    ((startSeq k t s).seq k).shotT0 = (startSeq k t s).get (SEQ_CURSOR k) := by
  unfold startSeq
  dsimp only
  rw [setSeqState_seq _ _ _ _ hk, setSeqState_cursor _ _ _ hk, State.get_set_same]
  simp [setPc, SEQ_CURSOR]

/-- The next state of a START that its checks allow. -/
theorem exec_start_of_ok {r : Req} {k : Fin 512} {s : State} (priv : Privileged r s) (ok : startOk k s = true)
    (late : startLate k s.now s = false) : exec (.start r k) s = .next (startSeq k s.now s) := by
  show execStart r k s = _
  simp only [execStart, privileged, if_pos priv, ok, late, Bool.not_true, Bool.false_eq_true, if_false]

/-- Settles O53: WAIT and WAITUNTIL move the cursor and retire, and SHOT_BEGIN and START note the cursor they leave. -/
theorem waitsMoveTheCursorToTheirTarget : Obligations.WaitsMoveTheCursorToTheirTarget := by
  unfold Obligations.WaitsMoveTheCursorToTheirTarget
  refine ⟨?wait, ?waituntil, ?noTarget, ?shotBegin, ?start⟩
  case wait =>
    exact fun k s issues => ⟨_, exec_wait issues, retire_set_cursor _ _ (.refl k _ _) rfl rfl rfl⟩
  case waituntil =>
    intro k s x issues u g target
    exact ⟨_, exec_waituntil_of_some issues (waitTarget_eq_some target),
      retire_set_cursor _ _ ((OnlySeq.refl k _ u).modSeq _) (State.seq_modSeq_same u k _) rfl (pcOf_modSeq u k _ rfl)⟩
  case noTarget => exact fun k s issues bad => exec_waituntil_of_none issues (waitTarget_eq_none bad)
  case shotBegin =>
    intro k s issues u word closed stop kiln ring credit
    refine ⟨_, ?_, retire_openShot k (beginTick k s + 8) (advanceTo (beginTick k s + 8) (afterCredit k u))⟩
    rw [exec_shotBegin_of_closed issues closed, shotChecks_passes stop kiln ring credit,
      shotPass_of_inactive _ ((congrArg Micro.active (afterCredit_micro k u)).trans word)]
  case start => exact fun r k s priv ok late => ⟨_, exec_start_of_ok priv ok late, startSeq_shotT0 k.isLt _ _⟩

end Sys2Proof.Machine
end

section
/-! PROOFS. The exponent that LEAD and NORM write and the sum that NORM leaves (R289): a sum needs some number of bits below its
sign, a shift by e adds e to that number, and the exponent is the shift that makes it 46. -/

namespace Sys2Proof.Machine

/-! ### Sums that fit in a number of bits -/

theorem intTwoPow_pos (p : Nat) : (0 : Int) < 2 ^ p := Int.pow_pos (by decide)

theorem intTwoPow_le {p q : Nat} (pq : p ≤ q) : (2 : Int) ^ p ≤ 2 ^ q := by
  exact_mod_cast Nat.pow_le_pow_right (by decide : 2 > 0) pq

/-- Bits p and above of x are copies of its sign. -/
def FitsBits (p : Nat) (x : Int) : Prop := -2 ^ p ≤ x ∧ x < 2 ^ p

theorem FitsBits.mono {p q : Nat} {x : Int} (pq : p ≤ q) (h : FitsBits p x) : FitsBits q x := by
  obtain ⟨lo, hi⟩ := h
  have le := intTwoPow_le pq
  exact ⟨by omega, by omega⟩

/-- The bits that copy the sign are all 0 or all 1. -/
theorem FitsBits.ediv_eq {p : Nat} {x : Int} (h : FitsBits p x) : x / 2 ^ p = if x < 0 then -1 else 0 := by
  obtain ⟨lo, hi⟩ := h
  split
  case isTrue neg => exact (Int.ediv_eq_iff_of_pos (intTwoPow_pos p)).2 ⟨by omega, by omega⟩
  case isFalse nonneg => exact Int.ediv_eq_zero_of_lt (by omega) hi

/-- Every bit from bit p on is the sign bit. -/
theorem FitsBits.bit_eq {p i j : Nat} {x : Int} (h : FitsBits p x) (pi : p ≤ i) (pj : p ≤ j) :
    x / 2 ^ i % 2 = x / 2 ^ j % 2 := by
  rw [(h.mono pi).ediv_eq, (h.mono pj).ediv_eq]

/-- The highest bit that is needed differs from the sign bit. -/
theorem FitsBits.bit_ne {p i : Nat} {x : Int} (h : FitsBits (p + 1) x) (low : ¬ FitsBits p x) (pi : p < i) :
    x / 2 ^ p % 2 ≠ x / 2 ^ i % 2 := by
  have sign := (h.mono pi).ediv_eq
  obtain ⟨lo, hi⟩ := h
  rw [Int.pow_succ] at lo hi
  unfold FitsBits at low
  rw [sign]
  split
  case isTrue neg =>
    have top : x / 2 ^ p = -2 := (Int.ediv_eq_iff_of_pos (intTwoPow_pos p)).2 ⟨by omega, by omega⟩
    rw [top]
    decide
  case isFalse nonneg =>
    have top : x / 2 ^ p = 1 := (Int.ediv_eq_iff_of_pos (intTwoPow_pos p)).2 ⟨by omega, by omega⟩
    rw [top]
    decide

/-- The sum x shifted by e: left, or arithmetically right when e is negative. -/
def shiftSum (x e : Int) : Int := if 0 ≤ e then x * 2 ^ e.toNat else x / (2 ^ (-e).toNat : Nat)

/-- A shift by e takes the multiples of 2^q to those of 2^(q + e). -/
theorem le_shiftSum_iff {p q : Nat} {e : Int} (pq : (p : Int) = q + e) (c x : Int) :
    c * 2 ^ p ≤ shiftSum x e ↔ c * 2 ^ q ≤ x := by
  unfold shiftSum
  split
  case isTrue left =>
    obtain rfl : p = q + e.toNat := by omega
    rw [Int.pow_add, ← Int.mul_assoc]
    exact Int.mul_le_mul_iff_of_pos_right (intTwoPow_pos _)
  case isFalse right =>
    obtain rfl : q = p + (-e).toNat := by omega
    rw [Int.natCast_pow, Int.pow_add, ← Int.mul_assoc]
    exact Int.le_ediv_iff_mul_le (intTwoPow_pos _)

/-- A shift by e adds e to the bits that a sum needs. -/
theorem fitsBits_shiftSum_iff {p q : Nat} {e : Int} (pq : (p : Int) = q + e) (x : Int) :
    FitsBits p (shiftSum x e) ↔ FitsBits q x := by
  have lo := le_shiftSum_iff pq (-1) x
  have hi := le_shiftSum_iff pq 1 x
  unfold FitsBits
  omega

/-! ### The leading bits -/

/-- A sum without its sign, the number whose highest bit leadBits looks for. -/
def leadMag (x : Int) : Nat := if x ≥ 0 then x.toNat else (-x - 1).toNat

theorem leadMag_lt_iff (p : Nat) (x : Int) : leadMag x < 2 ^ p ↔ FitsBits p x := by
  have cast : ((2 ^ p : Nat) : Int) = 2 ^ p := Int.natCast_pow 2 p
  unfold leadMag FitsBits
  split <;> omega

/-- leadBits is the first k at which 54 - k bits are too few, and 55 when there is none. -/
theorem leadBits_eq (x : Int) :
    leadBits x = ((List.range 56).find? fun k => decide (leadMag x ≥ 2 ^ (54 - k)) && decide (k ≤ 54)).getD 55 := rfl

/-- What leadBits counts: the sum fits below its leading bits, and in no fewer bits. -/
theorem leadBits_spec {x : Int} (h : FitsBits 55 x) :
    leadBits x ≤ 55 ∧ FitsBits (55 - leadBits x) x ∧ (leadBits x < 55 → ¬ FitsBits (54 - leadBits x) x) := by
  simp only [← leadMag_lt_iff] at h ⊢
  rw [leadBits_eq]
  cases found : (List.range 56).find? _ with
  | none =>
    have zero : leadMag x = 0 := by simpa using List.find?_range_eq_none.1 found 54 (by decide)
    simp [zero]
  | some k =>
    obtain ⟨enough, -, before⟩ := List.find?_range_eq_some.1 found
    simp only [Bool.and_eq_true, decide_eq_true_eq] at enough
    obtain ⟨enough, bound⟩ := enough
    refine ⟨Nat.le_succ_of_le bound, ?_, fun _ => Nat.not_lt.2 enough⟩
    cases k with
    | zero => exact h
    | succ j =>
      have tooFew := before j (by omega)
      simp only [Bool.not_eq_true', Bool.and_eq_false_iff, decide_eq_false_iff_not, Nat.not_le] at tooFew
      simpa [show 55 - (j + 1) = 54 - j by omega, show ¬ 54 < j by omega] using tooFew

theorem leadExp_add_nine (x : Int) : (leadExp x + 9).toNat = leadBits x := by
  unfold leadExp
  omega

/-- A sum of 0 gives 46 (R289). -/
theorem leadExp_zero : leadExp 0 = 46 := by decide

/-- The exponent is between -9 and 46 (R289). -/
theorem leadExp_bounds {x : Int} (h : FitsBits 55 x) : leadExp x ≤ 46 ∧ -9 ≤ leadExp x := by
  obtain ⟨most, -, -⟩ := leadBits_spec h
  unfold leadExp
  omega

/-- The bits that leadBits counts equal bit 55. -/
theorem leadBits_bits_eq {x : Int} (h : FitsBits 55 x) (i : Nat) (lead : 55 - leadBits x ≤ i) :
    x / 2 ^ i % 2 = x / 2 ^ 55 % 2 := by
  obtain ⟨-, fits, -⟩ := leadBits_spec h
  exact fits.bit_eq lead (by omega)

/-- The bit below those that leadBits counts differs from bit 55. -/
theorem leadBits_bit_ne {x : Int} (h : FitsBits 55 x) (stops : leadBits x < 55) :
    x / 2 ^ (54 - leadBits x) % 2 ≠ x / 2 ^ 55 % 2 := by
  obtain ⟨-, fits, low⟩ := leadBits_spec h
  rw [show 55 - leadBits x = 54 - leadBits x + 1 by omega] at fits
  exact fits.bit_ne (low stops) (by omega)

/-! ### The normalised sum -/

/-- NORM leaves a sum of exactly 46 bits below its sign: bits 55 to 46 are equal and bit 45 differs. -/
theorem normSum_fits {x : Int} (h : FitsBits 55 x) (nonzero : x ≠ 0) :
    FitsBits 46 (shiftSum x (leadExp x)) ∧ ¬ FitsBits 45 (shiftSum x (leadExp x)) := by
  obtain ⟨most, fits, low⟩ := leadBits_spec h
  refine ⟨(fitsBits_shiftSum_iff (by unfold leadExp; omega) x).2 fits, ?_⟩
  by_cases stops : leadBits x < 55
  · exact mt (fitsBits_shiftSum_iff (by unfold leadExp; omega) x).1 (low stops)
  · have all : leadBits x = 55 := by omega
    obtain rfl : x = -1 := by
      rw [all] at fits
      obtain ⟨lo, hi⟩ := fits
      omega
    rw [leadExp, all]
    unfold FitsBits
    decide

/-- A sum of exactly 46 bits below its sign lies between 2^45 and 2^46 in magnitude. -/
theorem range_of_fits {y : Int} (fits : FitsBits 46 y) (low : ¬ FitsBits 45 y) :
    (2 ^ 45 ≤ y ∧ y < 2 ^ 46) ∨ (-2 ^ 46 ≤ y ∧ y < -2 ^ 45) := by
  unfold FitsBits at fits low
  omega

/-- STS with K = 0 stores a normalised sum as a fraction of magnitude 0.5 to 1.0, in units of 2^-23 (R288, R289). -/
theorem stsValue_magnitude {y : Int} (range : (2 ^ 45 ≤ y ∧ y < 2 ^ 46) ∨ (-2 ^ 46 ≤ y ∧ y < -2 ^ 45)) :
    2 ^ 22 ≤ absI (stsValue y 0) ∧ absI (stsValue y 0) ≤ 2 ^ 23 := by
  have stored : stsValue y 0 = (y + 2 ^ 22) / 2 ^ 23 := rfl
  rw [stored, absI]
  omega

/-! ### The instructions -/

/-- What an instruction of an analysis engine does whose effect is always defined. -/
theorem anaDoes_of_ok {op a : Nat} {s t : State} {flow : EngFlow} {f : Nat → State → Except Nat (State × EngFlow)}
    (effect : f (engFetch a s) s = .ok (t, flow)) : AnaDoes a op s flow t (.next (engIssue op a s f)) := by
  rintro ⟨running, noInterrupt, opcode, placed⟩
  rw [engIssue_ok running noInterrupt opcode placed effect]

/-- Settles O58: the leading bits are those a sum does not need, and the shift by e leaves a sum of exactly 46 bits. -/
theorem leadAndNormNormaliseTheSum : Obligations.LeadAndNormNormaliseTheSum := by
  unfold Obligations.LeadAndNormNormaliseTheSum
  refine ⟨?sum, ?instructions⟩
  case sum =>
    intro x lo hi e n y
    have fits : FitsBits 55 x := ⟨lo, hi⟩
    have count : n = leadBits x := leadExp_add_nine x
    have range (nonzero : x ≠ 0) := range_of_fits (normSum_fits fits nonzero).1 (normSum_fits fits nonzero).2
    obtain ⟨most, least⟩ := leadExp_bounds fits
    rw [count]
    exact ⟨most, least, (leadBits_spec fits).1, fun i lead _ => leadBits_bits_eq fits i lead, leadBits_bit_ne fits,
      fun zero => (congrArg leadExp zero).trans leadExp_zero, range, fun nonzero => stsValue_magnitude (range nonzero)⟩
  case instructions => exact fun a s => ⟨anaDoes_of_ok rfl, anaDoes_of_ok rfl⟩

end Sys2Proof.Machine
end

section
/-! PROOFS. Every command answers a next state and keeps what no command may undo (Evolves), one arm for each row of the opcode
table, from the lemmas of the files Laws/Ev*.lean. -/

namespace Sys2Proof.Machine

/-- What each command's own lemma says of its arm of exec. -/
theorem exec_answers (s : State) : ∀ c : Instr, Answers s (exec c s)
  -- StartCmds.lean
  | .porstRelease dev => execPorstRelease_evolves dev s
  | .porstAssert => execPorstAssert_evolves s
  | .pgLost r => execPgLost_evolves r s
  | .tileRailsGood a => execTileRailsGood_evolves a s
  | .parkApplied a => execParkApplied_evolves a s
  | .boot => execBoot_evolves s
  | .startupReady => execStartupReady_evolves s
  | .refLost => execRefLost_evolves s
  | .refOk => execRefOk_evolves s
  | .pllLocked => execPllLocked_evolves s
  | .pllUnlocked => execPllUnlocked_evolves s
  | .watchdog => execWatchdog_evolves s
  | .ryvexUp => execRyvexUp_evolves s
  | .parkLogicLost a => execParkLogicLost_evolves a s
  | .ledgerBreak counter word => execLedgerBreak_evolves counter word s
  -- Timeline.lean
  | .tlLoad r => execTlLoad_evolves r s
  | .sendSync r => execSendSync_evolves r s
  | .sendCheck r => execSendCheck_evolves r s
  | .autoSyncCheck => execAutoSyncCheck_evolves s
  | .echoStart r => execEchoStart_evolves r s
  | .echoReqRx f stamp => execEchoReqRx_evolves f stamp s
  | .echoRspRx f stamp => execEchoRspRx_evolves f stamp s
  | .echoTimeout => execEchoTimeout_evolves s
  | .delaySetRx f stamp => execDelaySetRx_evolves f stamp s
  | .syncRx f stamp => execSyncRx_evolves f stamp s
  | .syncCheckRx f stamp => execSyncCheckRx_evolves f stamp s
  | .tlCapture => execTlCapture_evolves s
  | .pairCaptured => execPairCaptured_evolves s
  | .trigEdge n falling stamp => execTrigEdge_evolves n falling stamp s
  | .tlPinPop pin => execTlPinPop_evolves pin s
  | .pinArm n at_ => execPinArm_evolves n at_ s
  | .pinPulse n => execPinPulse_evolves n s
  | .caIndex stamp => execCaIndex_evolves stamp s
  | .caMissedIndex => execCaMissedIndex_evolves s
  | .caQuadEdge aLeads stamp => execCaQuadEdge_evolves aLeads stamp s
  | .caWindowEntry k at_ => execCaWindowEntry_evolves k at_ s
  -- SeqControl.lean
  | .start r k => execStart_evolves r k s
  | .groupStart r t mask => execGroupStart_evolves r t mask s
  | .stop r k => execStop_evolves r k s
  | .stopAtShot r k => execStopAtShot_evolves r k s
  | .clear r k => execClear_evolves r k s
  | .slackReset k => execSlackReset_evolves k s
  | .seqEnWrite r k on => execSeqEnWrite_evolves r k on s
  | .tunEnWrite r t on => execTunEnWrite_evolves r t on s
  -- FlowInstrs.lean
  | .nop k => execNop_evolves k s
  | .halt k => execHalt_evolves k s
  | .yieldCal k => execYieldCal_evolves k s
  | .wait k => execWait_evolves k s
  | .waituntil k => execWaituntil_evolves k s
  | .alignAngle k => execAlignAngle_evolves k s
  | .angleUnlocked k => execAngleUnlocked_evolves k s
  | .waittrig k => execWaittrig_evolves k s
  | .trigTimeout k => execTrigTimeout_evolves k s
  | .sync k => execSync_evolves k s
  -- SeqControl.lean
  | .barrierRelease b => execBarrierRelease_evolves b s
  | .barrierTimeout b => execBarrierTimeout_evolves b s
  | .qmBarCfgWrite r b v => execQmBarCfgWrite_evolves r b v s
  -- EntryInstrs.lean
  | .play k => execPlay_evolves k s
  -- MicroInstrs.lean
  | .teqFullStallEnd k => execTeqFullStallEnd_evolves k s
  -- EntryInstrs.lean
  | .playz k => execPlayz_evolves k s
  | .setbias k => execSetbias_evolves k s
  | .rampbias k => execRampbias_evolves k s
  | .fset k => execFset_evolves k s
  | .fshift k => execFshift_evolves k s
  | .freset k => execFreset_evolves k s
  | .pframe k => execPframe_evolves k s
  | .measure k => execMeasure_evolves k s
  | .acq k => execAcq_evolves k s
  -- FlowInstrs.lean
  | .br k => execBr_evolves k s
  | .brr k => execBrr_evolves k s
  -- MicroInstrs.lean
  | .resultReady k => execResultReady_evolves k s
  | .resultTimeout k => execResultTimeout_evolves k s
  -- FlowInstrs.lean
  | .loop k => execLoop_evolves k s
  | .call k => execCall_evolves k s
  | .ret k => execRet_evolves k s
  -- DataInstrs.lean
  | .ld k => execLd_evolves k s
  | .st k => execSt_evolves k s
  | .add k => execAdd_evolves k s
  | .sub k => execSub_evolves k s
  | .and k => execAnd_evolves k s
  | .or k => execOr_evolves k s
  | .xor k => execXor_evolves k s
  | .shl k => execShl_evolves k s
  | .shr k => execShr_evolves k s
  | .asr k => execAsr_evolves k s
  | .mov k => execMov_evolves k s
  | .cmp k => execCmp_evolves k s
  | .mul k => execMul_evolves k s
  -- ShotInstrs.lean
  | .shotBegin k => execShotBegin_evolves k s
  | .creditStallEnd k => execCreditStallEnd_evolves k s
  | .ringStallEnd k => execRingStallEnd_evolves k s
  | .kilnSkipEnd k => execKilnSkipEnd_evolves k s
  | .shotEnd k => execShotEnd_evolves k s
  | .shotClosed k => execShotClosed_evolves k s
  | .signal k => execSignal_evolves k s
  | .msgVisible q => execMsgVisible_evolves q s
  | .waitmsg k => execWaitmsg_evolves k s
  | .msgTimeout k => execMsgTimeout_evolves k s
  -- MicroInstrs.lean
  | .illegal k => execIllegal_evolves k s
  | .ownerExtension k => execOwnerExtension_evolves k s
  | .calRequest k => execCalRequest_evolves k s
  -- Fires.lean
  | .pulseFire k j => execPulseFire_evolves k j s
  | .zpulseFire k j => execZpulseFire_evolves k j s
  | .biasSetFire k j => execBiasSetFire_evolves k j s
  | .biasRampFire k j => execBiasRampFire_evolves k j s
  | .frameFire k j => execFrameFire_evolves k j s
  | .measureFire k j => execMeasureFire_evolves k j s
  | .acqFire k j => execAcqFire_evolves k j s
  -- ReadoutCmds.lean
  | .windowRecord c xs overs n => execWindowRecord_evolves c xs overs n s
  | .resultWrite => execResultWrite_evolves s
  -- DecisionCmds.lean
  | .roundDeferredEval d => execRoundDeferredEval_evolves d s
  | .roundTimeout d => execRoundTimeout_evolves d s
  | .roundAction d => execRoundAction_evolves d s
  | .decWinEnable r d on => execDecWinEnable_evolves r d on s
  | .decBaseWrite r d v => execDecBaseWrite_evolves r d v s
  | .decTableWrite r x be v => execDecTableWrite_evolves r x be v s
  -- TableCmds.lean
  | .frameTableWrite r f dw be v => execFrameTableWrite_evolves r f dw be v s
  | .wftSwap => execWftSwap_evolves s
  | .wftSwapNow => execWftSwapNow_evolves s
  | .wftSwapApply => execWftSwapApply_evolves s
  | .wftCopy => execWftCopy_evolves s
  | .wftCopyDone => execWftCopyDone_evolves s
  -- PortCmds.lean
  | .rfoEnable r p => execRfoEnable_evolves r p s
  | .rfoEnabled p => execRfoEnabled_evolves p s
  | .rfoDisable r p => execRfoDisable_evolves r p s
  | .rfoMute p on => execRfoMute_evolves p on s
  | .rfoDriverFault p => execRfoDriverFault_evolves p s
  | .driverFaultRetest zf p found => execDriverFaultRetest_evolves zf p found s
  | .rfoParkClear p => execRfoParkClear_evolves p s
  | .shaperReset p => execShaperReset_evolves p s
  | .zpEnable r z => execZpEnable_evolves r z s
  | .zpDisable r z => execZpDisable_evolves r z s
  | .zbStreamSample z => execZbStreamSample_evolves z s
  | .transferWindowOpen z => execTransferWindowOpen_evolves z s
  | .transferWindowEnd z => execTransferWindowEnd_evolves z s
  | .zbReadback z m => execZbReadback_evolves z m s
  | .zbCompliance z => execZbCompliance_evolves z s
  | .zfDriverFault z => execZfDriverFault_evolves z s
  | .parkDone z => execParkDone_evolves z s
  | .zParkClear z => execZParkClear_evolves z s
  | .readbackFaultClear z => execReadbackFaultClear_evolves z s
  -- ReadoutCmds.lean
  | .rfiEnable r unit => execRfiEnable_evolves r unit s
  | .rfiDisable r unit => execRfiDisable_evolves r unit s
  | .kswap unit => execKswap_evolves unit s
  | .kswapNow unit => execKswapNow_evolves unit s
  | .kswapApply unit => execKswapApply_evolves unit s
  | .kcopy unit => execKcopy_evolves unit s
  | .kcopyDone unit => execKcopyDone_evolves unit s
  | .lauEnable r c on => execLauEnable_evolves r c on s
  -- EngineInstrs.lean
  | .anaEnable r a => execAnaEnable_evolves r a s
  | .anaDisable r a => execAnaDisable_evolves r a s
  | .anaDoorbell a => execAnaDoorbell_evolves a s
  | .anaInterrupt a => execAnaInterrupt_evolves a s
  | .anaInCopy a j => execAnaInCopy_evolves a j s
  | .anaTimer a => execAnaTimer_evolves a s
  | .anaSendDone a => execAnaSendDone_evolves a s
  | .anaNop a => execAnaNop_evolves a s
  | .anaLd a => execAnaLd_evolves a s
  | .anaSt a => execAnaSt_evolves a s
  | .anaLdd a => execAnaLdd_evolves a s
  | .anaSts a => execAnaSts_evolves a s
  | .anaMul a => execAnaMul_evolves a s
  | .anaMac a => execAnaMac_evolves a s
  | .anaMsb a => execAnaMsb_evolves a s
  | .anaAdds a => execAnaAdds_evolves a s
  | .anaClrs a => execAnaClrs_evolves a s
  | .anaShs a => execAnaShs_evolves a s
  | .anaNorm a => execAnaNorm_evolves a s
  | .anaLead a => execAnaLead_evolves a s
  | .anaAdd a => execAnaAdd_evolves a s
  | .anaSub a => execAnaSub_evolves a s
  | .anaAnd a => execAnaAnd_evolves a s
  | .anaOr a => execAnaOr_evolves a s
  | .anaXor a => execAnaXor_evolves a s
  | .anaShf a => execAnaShf_evolves a s
  | .anaLdi a => execAnaLdi_evolves a s
  | .anaLdih a => execAnaLdih_evolves a s
  | .anaSetau a => execAnaSetau_evolves a s
  | .anaAbs a => execAnaAbs_evolves a s
  | .anaCmp a => execAnaCmp_evolves a s
  | .anaBr a => execAnaBr_evolves a s
  | .anaCall a => execAnaCall_evolves a s
  | .anaRet a => execAnaRet_evolves a s
  | .anaLooph a => execAnaLooph_evolves a s
  | .anaRti a => execAnaRti_evolves a s
  | .anaWait a => execAnaWait_evolves a s
  | .anaHflag a => execAnaHflag_evolves a s
  | .anaSend a => execAnaSend_evolves a s
  | .anaIord a => execAnaIord_evolves a s
  | .anaIowr a => execAnaIowr_evolves a s
  | .anaHalt a => execAnaHalt_evolves a s
  | .anaIllegal a => execAnaIllegal_evolves a s
  -- TapCmds.lean
  | .tapEnable r unit => execTapEnable_evolves r unit s
  | .tapDisable r unit => execTapDisable_evolves r unit s
  | .tapArm unit => execTapArm_evolves unit s
  | .tapDisarm unit => execTapDisarm_evolves unit s
  | .tapSegmentEnd unit xs => execTapSegmentEnd_evolves unit xs s
  | .tapRearmEnd unit => execTapRearmEnd_evolves unit s
  | .tapSlotFree unit => execTapSlotFree_evolves unit s
  -- FlavasCmds.lean
  | .flvEnable r n => execFlvEnable_evolves r n s
  | .flvDisable r n => execFlvDisable_evolves r n s
  | .flvDetect n found => execFlvDetect_evolves n found s
  | .flvTrained n => execFlvTrained_evolves n s
  | .flvTrainTimeout n => execFlvTrainTimeout_evolves n s
  | .flvLocked n => execFlvLocked_evolves n s
  | .flvLockTimeout n => execFlvLockTimeout_evolves n s
  | .flvCaps n peer width depth => execFlvCaps_evolves n peer width depth s
  | .flvCapsTimeout n => execFlvCapsTimeout_evolves n s
  -- FlitCmds.lean
  | .flitRx n f => execFlitRx_evolves n f s
  -- FlavasCmds.lean
  | .creditFlit n => execCreditFlit_evolves n s
  | .timeExchange n => execTimeExchange_evolves n s
  | .flvLockLost n k => execFlvLockLost_evolves n k s
  | .flvRetrain r n => execFlvRetrain_evolves r n s
  | .idleReq r n => execIdleReq_evolves r n s
  | .eidleEntry n received => execEidleEntry_evolves n received s
  | .eidleExit n => execEidleExit_evolves n s
  | .prbsInject r l => execPrbsInject_evolves r l s
  -- HostCmds.lean
  | .ntIncWrite r hi => execNtIncWrite_evolves r hi s
  -- NetTime.lean
  | .ntStep r => execNtStep_evolves r s
  | .ntLoad r => execNtLoad_evolves r s
  | .ntWrap => execNtWrap_evolves s
  -- EtherCmds.lean
  | .ethRxFrame e f fcs => execEthRxFrame_evolves e f fcs s
  | .mgmtFrame e f => execMgmtFrame_evolves e f s
  | .ethTx e bufs => execEthTx_evolves e bufs s
  | .ethTimedLaunch e bufs => execEthTimedLaunch_evolves e bufs s
  | .ethLink e up => execEthLink_evolves e up s
  -- HostCmds.lean
  | .registerWrite r addr xs => execRegisterWrite_evolves r addr xs s
  | .loRead r addr bes => execLoRead_evolves r addr bes s
  | .secRidWrite r rid => execSecRidWrite_evolves r rid s
  | .partLock r => execPartLock_evolves r s
  | .vecLock r => execVecLock_evolves r s
  | .partWrite r m j v => execPartWrite_evolves r m j v s
  | .queueReset r => execQueueReset_evolves r s
  | .cfgCrcCommit r b => execCfgCrcCommit_evolves r b s
  | .crcPass b => execCrcPass_evolves b s
  | .flr fn => execFlr_evolves fn s
  -- SessionCmds.lean
  | .mbxRing r m => execMbxRing_evolves r m s
  | .sessionTimeout m => execSessionTimeout_evolves m s
  | .lockoutExpiry m => execLockoutExpiry_evolves m s
  | .getInfo m dma => execGetInfo_evolves m dma s
  | .getNonce m dma => execGetNonce_evolves m dma s
  | .openSession m dma => execOpenSession_evolves m dma s
  | .closeSession m dma => execCloseSession_evolves m dma s
  | .setKey m dma => execSetKey_evolves m dma s
  | .echo m dma => execEcho_evolves m dma s
  -- LoadCmds.lean
  | .loadProgram m dma => execLoadProgram_evolves m dma s
  | .loadSamples m dma => execLoadSamples_evolves m dma s
  | .loadDescriptors m dma => execLoadDescriptors_evolves m dma s
  | .loadKernel m dma => execLoadKernel_evolves m dma s
  | .loadDecision m dma => execLoadDecision_evolves m dma s
  | .loadAnalysis m dma => execLoadAnalysis_evolves m dma s
  | .loadRecipe m dma => execLoadRecipe_evolves m dma s
  | .storeRecipe m dma => execStoreRecipe_evolves m dma s
  -- TelemetryCmds.lean
  | .regRead m dma => execRegRead_evolves m dma s
  | .regWrite m dma => execRegWrite_evolves m dma s
  | .commitCrc m dma => execCommitCrc_evolves m dma s
  | .snapshot m dma => execSnapshot_evolves m dma s
  | .poolAudit m dma => execPoolAudit_evolves m dma s
  | .seqState m dma => execSeqState_evolves m dma s
  -- ExportCmds.lean
  | .exportBind m dma => execExportBind_evolves m dma s
  | .exportUnbind m dma => execExportUnbind_evolves m dma s
  | .exportSlotWrite k cons => execExportSlotWrite_evolves k cons s
  -- FenceCmds.lean
  | .park m dma => execPark_evolves m dma s
  | .release m dma => execRelease_evolves m dma s
  | .fence m dma => execFence_evolves m dma s
  | .fencePowerOff a => execFencePowerOff_evolves a s
  | .unfence m dma rails stands => execUnfence_evolves m dma rails stands s
  -- SessionCmds.lean
  | .setSecRid m dma => execSetSecRid_evolves m dma s
  | .cellarTimeout m => execCellarTimeout_evolves m s
  -- ExciseCmds.lean
  | .excReport m dma => execExcReport_evolves m dma s
  | .excLogRead m dma => execExcLogRead_evolves m dma s
  | .excLoadVoucher m dma => execExcLoadVoucher_evolves m dma s
  | .excEnforce m dma => execExcEnforce_evolves m dma s
  | .excSetVoucherKey m dma => execExcSetVoucherKey_evolves m dma s
  | .excUpdate m dma => execExcUpdate_evolves m dma s
  | .excSeal m dma => execExcSeal_evolves m dma s
  | .excGetCert m dma => execExcGetCert_evolves m dma s
  | .exciseFeed => execExciseFeed_evolves s
  | .limitFeed => execLimitFeed_evolves s
  | .limitStale => execLimitStale_evolves s
  | .islandCommit => execIslandCommit_evolves s
  | .vddExcFail done => execVddExcFail_evolves done s
  | .islandRestart => execIslandRestart_evolves s
  | .excViewRefresh => execExcViewRefresh_evolves s
  -- SecurityCmds.lean
  | .secTakeOwnership m dma => execSecTakeOwnership_evolves m dma s
  | .secAddKey m dma => execSecAddKey_evolves m dma s
  | .secRevokeKey m dma => execSecRevokeKey_evolves m dma s
  | .secSetField m dma => execSecSetField_evolves m dma s
  | .secRma m dma => execSecRma_evolves m dma s
  | .secLoadFw m dma => execSecLoadFw_evolves m dma s
  | .secSetRollback m dma => execSecSetRollback_evolves m dma s
  | .secDebugChallenge m dma => execSecDebugChallenge_evolves m dma s
  | .secDebugOpen m dma => execSecDebugOpen_evolves m dma s
  | .parkWrite m dma => execParkWrite_evolves m dma s
  | .parkRead m dma => execParkRead_evolves m dma s
  -- CalCmds.lean
  | .calRun m dma => execCalRun_evolves m dma s
  | .calCancel m dma => execCalCancel_evolves m dma s
  | .calStore m dma => execCalStore_evolves m dma s
  -- MonCmds.lean
  | .monDiag m dma m1 m2 i1 i2 => execMonDiag_evolves m dma m1 m2 i1 i2 s
  -- CalCmds.lean
  | .calTempCheck a => execCalTempCheck_evolves a s
  | .calPeriodTrigger a => execCalPeriodTrigger_evolves a s
  | .calStepStart a => execCalStepStart_evolves a s
  | .calStepEnd a sel bad res => execCalStepEnd_evolves a sel bad res s
  | .calStepTimeout a => execCalStepTimeout_evolves a s
  | .calStale a => execCalStale_evolves a s
  -- MonCmds.lean
  | .monSeqFire x j => execMonSeqFire_evolves x j s
  | .monConversion x code => execMonConversion_evolves x code s
  | .brgConversion n code => execBrgConversion_evolves n code s
  | .brgExcCheck n current => execBrgExcCheck_evolves n current s
  -- KilnCmds.lean
  | .kilnTempRead n r => execKilnTempRead_evolves n r s
  | .kilnLevelStep => execKilnLevelStep_evolves s
  | .kilnRailRead r mv => execKilnRailRead_evolves r mv s
  | .kilnProcRead k mhz => execKilnProcRead_evolves k mhz s
  -- StartCmds.lean
  | .hostLinkChange up speed width => execHostLinkChange_evolves up speed width s
  | .railEnableTimeout tile => execRailEnableTimeout_evolves tile s
  -- ExciseCmds.lean
  | .vddExcReturn => execVddExcReturn_evolves s
  -- KilnCmds.lean
  | .kilnReadingStale n => execKilnReadingStale_evolves n s
  -- FlavasCmds.lean
  | .prbsLock l => execPrbsLock_evolves l s
  | .prbsLoss l errors => execPrbsLoss_evolves l errors s
  -- PortCmds.lean
  | .biasRampEnd z => execBiasRampEnd_evolves z s

/-- What a command keeps, of the state that it answers. -/
theorem exec_evolves {c : Instr} {s t : State} (h : exec c s = .next t) : Evolves s t := by
  obtain ⟨u, answered, ev⟩ := exec_answers s c
  rw [h] at answered
  cases answered
  exact ev

end Sys2Proof.Machine
end

section
/-! PROOFS. What a mailbox command does once it is taken: it passes the checks of R377 and R379, has its effect, and is answered. -/

namespace Sys2Proof.Machine

/-- A check that is passed: its condition is false, and the checks behind it are passed. -/
theorem of_ite_some_eq_none {α : Type} {p : Prop} [Decidable p] {a : α} {o : Option α}
    (h : (if p then some a else o) = none) : ¬ p ∧ o = none := by
  by_cases holds : p
  · rw [if_pos holds] at h
    cases h
  · rw [if_neg holds] at h
    exact ⟨holds, h⟩

section
variable {c : Spec} {m : Nat} {dma : Dma} {size : Cmd → State → Nat} {x : Cmd} {ds : List DmaDesc} {s u : State}
  {role : Nat}

/-- A command that is next and admitted goes on with the checks that follow (R377). -/
theorem takeCommand_of_admitted (next : isNext m c.op s = true) (ok : admitted c m dma s = .ok (role, u))
    (k : Cmd → List DmaDesc → State → State) : takeCommand c m dma size k s = goOn c m role dma size k u := by
  unfold takeCommand
  unfold admitted at ok
  simp only [next, Bool.not_true, Bool.false_eq_true, if_false]
  generalize dma.ecc.foldl (fun s e => cellarError e s) s = t at ok ⊢
  by_cases waiting : t.host.waits.contains m = true
  · rw [if_pos waiting] at ok ⊢
    cases ok
    rfl
  · rw [if_neg waiting] at ok ⊢
    cases station : stationOk m c t with
    | false => simp [station] at ok
    | true =>
      cases tag : tagOk m c t with
      | false => simp [station, tag] at ok
      | true =>
        simp only [station, tag, Bool.true_eq_false, Bool.not_true, Bool.false_eq_true, if_false] at ok ⊢
        generalize accept m c t = accepted at ok ⊢
        obtain ⟨_ | _, _⟩ := accepted <;> cases ok
        rfl

/-- A command that is not turned away, and that names no held tile, runs, and no longer waits (R376, R379). -/
theorem goOn_of_not_turnedAway (ok : admitted c m dma s = .ok (role, u))
    (laid : layout m role c dma (cmdPayload m u) (cmdFlags m u) = .ok (x, ds)) (stays : turnedAway c m dma size s = none)
    (free : namedTiles c.op x.ps &&& heldTiles m u = 0) (k : Cmd → List DmaDesc → State → State) :
    goOn c m role dma size k u = k x ds { u with host := { u.host with waits := u.host.waits.filter (· != m) } } := by
  simp only [turnedAway, ok, laid] at stays
  obtain ⟨room, stays⟩ := of_ite_some_eq_none stays
  obtain ⟨header, stays⟩ := of_ite_some_eq_none stays
  obtain ⟨master, -⟩ := of_ite_some_eq_none stays
  have fits : ¬ ((dmaTotal ds true = 0 ∧ 4080 < size x u) ∨ (dmaTotal ds true ≠ 0 ∧ dmaTotal ds true < size x u)) := by
    split at room <;> omega
  have mastered : ¬ (!ds.isEmpty && !busMaster (dmaFn m u) u) = true := by
    simpa [List.isEmpty_iff] using master
  unfold goOn
  simp only [laid]
  rw [if_neg fits, if_neg header, if_neg mastered, if_neg (not_not_intro free)]

/-- A command that is taken has its effect in the state that the checks leave, and its answer goes out (R376, R377). -/
theorem runCommand_of_takes (taken : Takes c m dma size x ds s u) (act : Cmd → State → Reply × State) :
    runCommand c m dma act s size = answer m ds dma (act x u).1 (act x u).2 := by
  obtain ⟨v, ⟨next, stays, role, ok, laid⟩, free, rfl⟩ := taken
  exact (takeCommand_of_admitted next ok _).trans (goOn_of_not_turnedAway ok laid stays free _)

end

end Sys2Proof.Machine
end

section
/-! PROOFS. The accounts of the Excise Meter (R396): charges one shot at a time, feeds, and vouchers on the CQ-256-S. -/

namespace Sys2Proof.Machine

/-- A charge of no shot changes no account. -/
theorem Account.charge_zero (a : Account) : a.charge 0 = a := by
  simp only [Account.charge, Nat.zero_sub, Nat.sub_zero, Nat.add_zero]

/-- A charge of k + 1 shots charges k, and then one: a credit while the k have left one, else the shot is uncharged. -/
theorem Account.charge_succ (a : Account) (k : Nat) : a.charge (k + 1) = chargeOne (a.charge k) := by
  unfold chargeOne
  split
  case isTrue credit =>
    simp only [Account.charge] at credit ⊢
    congr 1
    omega
  case isFalse spent =>
    simp only [Account.charge] at spent ⊢
    congr 1 <;> omega

/-- A feed that brings no new shot of its epoch takes no credit. -/
theorem Account.feed_balance_of_same (a : Account) (p : Part) (aborted : Nat) (same : p.begun = a.lBegun) :
    (a.feed p aborted true).balance = a.balance := by
  simp [Account.feed, Account.charge, same]

/-- After every command every account of a sound island is balanced. -/
theorem account_balanced_of_exec {c : Instr} {s t : State} (sound : s.exc.Sound) (h : exec c s = .next t) (n : Nat) :
    (t.account n).Balanced := State.account_balanced ((exec_evolves h).exc.sound sound) n

/-- A CQ-256-S whose island is up refuses every voucher that it takes: NOT_AVAILABLE, and only the answer goes out (R396). -/
theorem exec_excLoadVoucher_of_not_metered {m : Fin 16} {dma : Dma} {x : Cmd} {ds : List DmaDesc} {s u : State}
    (taken : Takes (exciseSpec 0x0602) m dma noSize x ds s u) (up : islandUp u = true) (plain : metered u = false) :
    exec (.excLoadVoucher m dma) s = .next (answer m ds dma ⟨stNotAvailable, []⟩ u) := by
  change execExcLoadVoucher m dma s = _
  unfold execExcLoadVoucher
  rw [runCommand_of_takes taken]
  simp [up, plain, refuse]

/-- Settles O49: a charge adds one shot at a time, aborts do not enter it, and no command unbalances an account. -/
theorem chargesKeepTheAccountsBalanced : Obligations.ChargesKeepTheAccountsBalanced := by
  unfold Obligations.ChargesKeepTheAccountsBalanced
  refine ⟨Account.charge_zero, Account.charge_succ, ?abort, ?unchanged, ?balanced, ?voucher, ?uncharged⟩
  case abort => exact fun a p x y same => ⟨rfl, rfl⟩
  case unchanged =>
    rintro a p x same begun rfl
    exact a.feed_balance_of_same p x begun
  case balanced => exact fun c s t n sound h => account_balanced_of_exec sound h n
  case voucher => exact fun m dma x ds s u => exec_excLoadVoucher_of_not_metered
  case uncharged =>
    intro a balanced loaded balance
    unfold Account.Balanced at balanced
    omega

end Sys2Proof.Machine
end

section
/-! PROOFS. Steps: the command at the front of the queue, an empty queue, the state after reset, and what every step keeps. -/

namespace Sys2Proof.Machine

/-! ### The invariant -/

/-- What a command keeps carries the invariant over. -/
theorem Inv.of_evolves {s t : State} (inv : Inv s) (ev : Evolves s t) : Inv t :=
  ⟨ev.canonical inv.canonical, ev.host.bounded inv.host, ev.exc.sound inv.exc⟩

/-- The invariant does not look at the commands that wait. -/
theorem Inv.with_pending {s : State} (inv : Inv s) (cs : List Instr) : Inv { s with pending := cs } :=
  ⟨inv.canonical, inv.host, inv.exc⟩

/-- A step from a state with commands runs the first of them. -/
theorem step_of_pending {s : State} {c : Instr} {rest : List Instr} (h : s.pending = c :: rest) :
    step s = exec c { s with pending := rest } := by
  rw [step, h]

/-- A step from a state without commands lets one tick pass. -/
theorem step_of_empty {s : State} (h : s.pending = []) : step s = .next (tick s) := by
  rw [step, h]

/-- Settles O47: a command and a tick keep what the invariant says. -/
theorem everyStepKeepsTheInvariant : Obligations.EveryStepKeepsTheInvariant := by
  intro s t inv h
  cases pending : s.pending with
  | nil =>
    rw [step_of_empty pending] at h
    cases h
    exact inv.of_evolves (tick_evolves (.refl s))
  | cons c rest =>
    rw [step_of_pending pending] at h
    exact (inv.with_pending rest).of_evolves (exec_evolves h)

/-- Settles O48, by what each command's own lemma says of its arm of exec. -/
theorem everyCommandGoesOnAndKeepsTheRecords : Obligations.EveryCommandGoesOnAndKeepsTheRecords :=
  fun c s => exec_answers s c

/-- Settles O46: at reset the tables are empty, and so are the logs and the accounts. -/
theorem resetHasTheInvariant : Obligations.ResetHasTheInvariant where
  canonical := State.reset_canonical
  host := ⟨Nat.zero_le _, Nat.zero_le _⟩
  exc := ⟨⟨Nat.zero_le _, fun _ => rfl⟩, ⟨Nat.zero_le _, fun _ => rfl⟩⟩

/-- Settles O43. -/
theorem queueFrontIsExecuted : Obligations.QueueFrontIsExecuted :=
  fun _ _ _ => step_of_pending rfl

/-! ### An empty queue -/

/-- A Timeline that does not count stays where it is (R27). -/
theorem advanceTo_of_not_counting {s : State} (h : s.tl.counting = false) (t : Nat) : advanceTo t s = s := by
  rw [advanceTo, runTo, h, if_neg Bool.false_ne_true]

/-- The place of rank 1 at a tick is at that tick. -/
theorem keyOf_div (t : Nat) : keyOf t 1 / 65536 = t := by
  unfold keyOf
  omega

/-- Where no waiting effect comes before a place in the order, time passes to its tick. -/
theorem runEvs_of_later {fuel key : Nat} {s : State} (h : ∀ k e, nextEv s = some (k, e) → key ≤ k) :
    runEvs fuel key s = passTo (key / 65536) s := by
  cases fuel with
  | zero => rfl
  | succ fuel =>
    unfold runEvs
    cases next : nextEv s with
    | none => rfl
    | some x => exact if_neg (Nat.not_lt.2 (h x.1 x.2 next))

/-- A Timeline that counts, with no effect waiting for a tick up to t, just passes to t. -/
theorem advanceTo_of_later {t : Nat} {s : State} (counts : s.tl.counting = true)
    (h : ∀ k e, nextEv s = some (k, e) → keyOf t 1 ≤ k) : advanceTo t s = passTo t s := by
  rw [advanceTo, runTo, if_pos counts, runEvs_of_later h, keyOf_div]

/-- Where nothing plays, a tick forms no sample. -/
theorem runSamples_of_quiet {t : Nat} {s : State} (n : Nat) (h : samplesQuiet t s = true) : runSamples n t s = s := by
  cases n with
  | zero => rfl
  | succ n => rw [runSamples, if_pos h]

/-- Where no lane plays, no pulse ends. -/
theorem dropEnded_of_no_lanes {t : Nat} {s : State} (h : s.lanes = []) : dropEnded t s = s := by
  rw [dropEnded, h, List.foldl_nil]

/-- One more tick counted ends at most one cycle of network time. -/
theorem State.upOf_succ_div (s : State) (t : Nat) : s.upOf (t + 1) / 4 ≤ s.upOf t / 4 + 1 := by
  unfold State.upOf
  omega

/-- Network time over one tick: NT_INC, when a cycle of 4 ticks ends with it (R342). -/
theorem ntTime_succ (t : Nat) (s : State) :
    ntTime t (t + 1) s = if s.upOf t / 4 < s.upOf (t + 1) / 4 then setNt (s.get NT_NOW + s.get NT_INC : Nat) s else s := by
  have most := s.upOf_succ_div t
  unfold ntTime ntCycles
  dsimp only
  split
  · rw [if_neg (by omega)]
  · rw [if_pos (by omega), show s.upOf (t + 1) / 4 - s.upOf t / 4 = 1 by omega, Nat.mul_one]

/-- One tick in which nothing plays and nothing waits. -/
theorem passTo_succ_of_quiet {s : State} (lanes : s.lanes = []) (quiet : samplesQuiet s.now s = true) :
    passTo (s.now + 1) s = ntTime s.now (s.now + 1) (s.set TL_NOW (s.now + 1)) := by
  unfold passTo
  dsimp only
  rw [if_neg (by omega), runSamples_of_quiet _ quiet, dropEnded_of_no_lanes lanes]

/-- Settles O44: a quiet tick passes by the branch of each operation that finds nothing to do. -/
theorem emptyQueueLetsOneTickPass : Obligations.EmptyQueueLetsOneTickPass := by
  refine ⟨fun s empty => step_of_empty empty, ?stays, ?counts⟩
  case stays =>
    intro s empty stands
    rw [step_of_empty empty, tick, advanceTo_of_not_counting stands]
  case counts =>
    intro s empty counts later lanes quiet
    rw [step_of_empty empty, tick, advanceTo_of_later counts later, passTo_succ_of_quiet lanes quiet, ntTime_succ]
    rfl

/-! ### Reset -/

/-- At reset a field reads as its reset value. -/
theorem State.get_reset (f : Fld) : State.reset.get f = f.reset % 2 ^ f.width :=
  congrArg (· % 2 ^ f.width) (Nat.zero_xor f.reset)

/-- A run of bytes all ones spells the greatest number of its size. -/
theorem ofBytes_replicate_ones (n : Nat) : ofBytes (List.replicate n (0xFF : Byte)) = 256 ^ n - 1 := by
  induction n with
  | zero => rfl
  | succ n ih =>
    have := Nat.one_le_pow n 256 (by omega)
    rw [List.replicate_succ, ofBytes, ih, Nat.pow_succ, show (0xFF : Byte).toNat = 255 from rfl]
    omega

/-- At reset every word of an instruction store is all ones (R62). -/
theorem fetchWord_reset {k : Nat} (hk : k < 512) : fetchWord k State.reset = 2 ^ 64 - 1 := by
  have pc : State.reset.get (SEQ_PC k) = 0 := State.get_reset _
  have ones : State.reset.getBytes (instrStoreBase + 0x10000 * k + 8 * 0) 8 = List.replicate 8 0xFF := by
    refine List.eq_replicate_iff.2 ⟨by simp [State.getBytes], fun b hb => ?_⟩
    obtain ⟨i, hi, rfl⟩ := List.mem_map.1 hb
    rw [List.mem_range] at hi
    show memDefault _ = _
    rw [memDefault, if_pos]
    unfold instrStoreBase
    omega
  rw [fetchWord, State.rd, pc, ones, ofBytes_replicate_ones, show 256 ^ 8 = 2 ^ 64 from rfl]

/-- Settles O45: every table is empty at reset, so each field reads as its reset value. -/
theorem resetValuesFollowTheSpec : Obligations.ResetValuesFollowTheSpec := by
  have reads := State.get_reset
  exact ⟨rfl, rfl, reads _, rfl, fun k hk => ⟨reads _, reads _, reads _, reads _, rfl, fetchWord_reset hk⟩, reads _, reads _,
    fun q _ => ⟨rfl, reads _⟩, fun c _ => reads _, fun m _ => reads _, fun a _ => reads _, fun i _ => reads _,
    fun n _ => reads _, reads _, reads _, reads _, reads _, rfl⟩

end Sys2Proof.Machine
end

section
/-! PROOFS. Registers and memories read as they were last written (R62, R359). -/

namespace Sys2Proof.Machine

/-! ### Runs of bytes -/

/-- Bytes written from address a on leave every other byte. -/
theorem State.byte_setBytes_ne (bs : List Byte) {s : State} {a x : Nat} (h : x < a ∨ a + bs.length ≤ x) :
    (s.setBytes a bs).byte x = s.byte x := by
  induction bs generalizing s a with
  | nil => rfl
  | cons b bs ih =>
    rw [List.length_cons] at h
    rw [State.setBytes, ih (by omega), State.byte_setByte_ne s b (by omega)]

/-- Bytes written read back. -/
theorem State.byte_setBytes (bs : List Byte) {s : State} {a i : Nat} (h : i < bs.length) :
    (s.setBytes a bs).byte (a + i) = bs[i] := by
  induction bs generalizing s a i with
  | nil => exact absurd h (Nat.not_lt_zero i)
  | cons b bs ih =>
    rw [State.setBytes]
    cases i with
    | zero => rw [State.byte_setBytes_ne bs (.inl (by omega)), Nat.add_zero, State.byte_setByte_same]; rfl
    | succ i =>
      rw [← Nat.add_assoc, Nat.add_right_comm]
      exact ih (Nat.lt_of_succ_lt_succ h)

/-- A run of bytes reads back whole. -/
theorem State.getBytes_setBytes (s : State) (a : Nat) (bs : List Byte) : (s.setBytes a bs).getBytes a bs.length = bs := by
  refine List.ext_getElem (by simp [State.getBytes]) fun i _ hi => ?_
  simp only [State.getBytes, List.getElem_map, List.getElem_range, State.byte_setBytes bs hi]

/-- Writing bytes leaves every register. -/
@[simp] theorem State.get_setBytes (bs : List Byte) (s : State) (a : Nat) (f : Fld) : (s.setBytes a bs).get f = s.get f := by
  induction bs generalizing s a with
  | nil => rfl
  | cons b bs ih => exact ih _ _

/-! ### Little-endian numbers -/

@[simp] theorem toBytes_length (n v : Nat) : (toBytes n v).length = n := by
  induction n generalizing v with
  | zero => rfl
  | succ n ih => rw [toBytes, List.length_cons, ih]

/-- Byte i of a little-endian number. -/
theorem toBytes_getElem {n v i : Nat} (h : i < (toBytes n v).length) : (toBytes n v)[i] = BitVec.ofNat 8 (v / 256 ^ i) := by
  induction n generalizing v i with
  | zero => exact absurd h (Nat.not_lt_zero i)
  | succ n ih =>
    cases i with
    | zero => simp [toBytes]
    | succ i => simp only [toBytes, List.getElem_cons_succ, ih, Nat.div_div_eq_div_mul, Nat.pow_succ']

/-- The bytes of a number spell it modulo its size. -/
theorem ofBytes_toBytes (n v : Nat) : ofBytes (toBytes n v) = v % 256 ^ n := by
  induction n generalizing v with
  | zero => rw [toBytes, ofBytes, Nat.pow_zero, Nat.mod_one]
  | succ n ih =>
    rw [toBytes, ofBytes, ih, BitVec.toNat_ofNat, show 256 ^ (n + 1) = 256 * 256 ^ n from Nat.pow_succ', Nat.mod_mul]

/-- A little-endian number reads back modulo its size. -/
theorem State.rd_wr (s : State) (a n v : Nat) : (s.wr a n v).rd a n = v % 256 ^ n := by
  have whole := s.getBytes_setBytes a (toBytes n v)
  rw [toBytes_length] at whole
  rw [State.rd, State.wr, whole, ofBytes_toBytes]

/-- Settles O57. -/
theorem registersAndMemoriesReadAsWritten : Obligations.RegistersAndMemoriesReadAsWritten := by
  refine ⟨State.get_set_same, fun s f v g h => s.get_set_ne v h, State.byte_set, State.getBytes_setBytes,
    fun s a bs x h => State.byte_setBytes_ne bs h, fun s a bs f => State.get_setBytes bs s a f, State.rd_wr, ?unlisted⟩
  case unlisted =>
    intro s a empty
    rw [State.byte, empty, Memory.read]

end Sys2Proof.Machine
end

section
/-! PROOFS. The data instructions (R123, R124): ALU results and flags as bit vectors, MUL, LD and ST, and the frame of each. -/

namespace Sys2Proof.Machine

/-! ### Results as bit vectors -/

/-- The signed value of a bit vector's number is its own. -/
theorem sgn_toNat {w : Nat} (x : BitVec w) : sgn w x.toNat = x.toInt := by
  cases w with
  | zero => simp [sgn, BitVec.of_length_zero (x := x)]
  | succ w =>
    simp only [sgn, BitVec.toInt_eq_toNat_cond, Nat.mod_eq_of_lt x.isLt, Nat.add_sub_cancel]
    congr 1
    exact propext ⟨fun _ => by omega, fun _ => by omega⟩

/-- The two's complement of an integer is that of its bit vector. -/
theorem wrap_eq_toNat_ofInt (w : Nat) (i : Int) : wrap w i = (BitVec.ofInt w i).toNat :=
  (BitVec.toNat_ofInt i).symm

section
variable (a b : BitVec 32)

theorem addOut_res : (addOut 32 a.toNat b.toNat).res = (a + b).toNat := rfl

/-- The sum of two signed words differs from the signed sum exactly on overflow. -/
theorem addOut_v : (addOut 32 a.toNat b.toNat).v = some (BitVec.saddOverflow a b) := by
  have differ : (a.toInt + b.toInt ≠ (a + b).toInt) ↔ BitVec.saddOverflow a b = true := by
    have := a.isLt
    have := b.isLt
    simp only [BitVec.saddOverflow, BitVec.toInt_eq_toNat_cond, BitVec.toNat_add, Bool.or_eq_true, decide_eq_true_eq]
    omega
  simp only [addOut, ← BitVec.toNat_add, sgn_toNat, differ, Bool.decide_eq_true]

theorem subOut_res : (subOut 32 a.toNat b.toNat).res = (a - b).toNat := by
  have := b.isLt
  simp only [subOut, BitVec.toNat_sub]
  congr 1
  omega

theorem subOut_v : (subOut 32 a.toNat b.toNat).v = some (BitVec.ssubOverflow a b) := by
  have differ : (a.toInt - b.toInt ≠ (a - b).toInt) ↔ BitVec.ssubOverflow a b = true := by
    have := a.isLt
    have := b.isLt
    simp only [BitVec.ssubOverflow, BitVec.toInt_eq_toNat_cond, BitVec.toNat_sub, Bool.or_eq_true, decide_eq_true_eq]
    omega
  have res := subOut_res a b
  simp only [subOut] at res ⊢
  rw [res]
  simp only [sgn_toNat, differ, Bool.decide_eq_true]

theorem shlOut_res (n : Nat) : (shlOut 32 a.toNat n).res = (a <<< n).toNat := by
  rw [shlOut, BitVec.toNat_shiftLeft, Nat.shiftLeft_eq]

theorem shrOut_res (n : Nat) : (shrOut a.toNat n).res = (a >>> n).toNat := by
  rw [shrOut, BitVec.toNat_ushiftRight, Nat.shiftRight_eq_div_pow]

theorem asrOut_res (n : Nat) : (asrOut 32 a.toNat n).res = (a.sshiftRight n).toNat := by
  rw [asrOut, wrap_eq_toNat_ofInt, sgn_toNat, BitVec.sshiftRight, Int.shiftRight_eq_div_pow]

end

/-- Saturation to 32 bits changes just the integers that do not fit. -/
theorem decide_satI_ne (p : Int) : decide (satI 32 p ≠ p) = !(decide (-2 ^ 31 ≤ p) && decide (p < 2 ^ 31)) := by
  rw [← Bool.decide_and, ← decide_not, decide_eq_decide]
  simp only [satI, clampI]
  split
  · omega
  · split <;> omega

/-! ### Operands -/

/-- A program register holds 32 bits. -/
theorem greg_lt (k n : Nat) (s : State) : greg k n s < 2 ^ 32 := State.get_lt s _

/-- A field of a word holds no more than its width. -/
theorem bits_lt (w lo n : Nat) : bits w lo n < 2 ^ n := Nat.mod_lt _ (Nat.two_pow_pos n)

theorem toNat_aluA (k : Nat) (s u : State) : (aluA k s u).toNat = greg k (wordBits k s 40 4) u := by
  rw [aluA, BitVec.toNat_ofNat, Nat.mod_eq_of_lt (greg_lt ..)]

theorem toNat_aluB (k : Nat) (s u : State) :
    (aluB k s u).toNat = if wordBit k s 39 then wordBits k s 0 32 else greg k (wordBits k s 32 4) u := by
  rw [aluB, BitVec.toNat_ofNat, Nat.mod_eq_of_lt]
  split
  · exact bits_lt ..
  · exact greg_lt ..

/-! ### What an ALU instruction leaves -/

/-- The ALU operation on the words that sequencer k issues. -/
theorem alu_eq (op k : Nat) (s u : State) :
    alu op k (issued k s) u =
      let o := aluOut op (aluA k s u).toNat (aluB k s u).toNat
      if op = 9 then setFlags k o u else setGreg k (wordBits k s 44 4) o.res (setFlags k o u) := by
  rw [toNat_aluA, toNat_aluB]
  rfl

/-- Setting the flags changes the flags of that sequencer alone. -/
theorem setFlags_eq (k : Nat) (o : AluOut) (s : State) : setFlags k o s =
    s.modSeq k fun q => { q with z := o.res == 0, n := o.res.testBit 31, c := o.c.getD q.c, v := o.v.getD q.v } := rfl

/-- A one-cycle ALU instruction that issues runs its body in that cycle. -/
theorem aluInstr_of_issues {op : Nat} {k : Fin 512} {s : State} (h : Issues k (0x38 + op) s) :
    aluInstr op k s = retire k (beginTick k s + 2) (alu op k (issued k s) (inTicks k 2 s)) :=
  instr_of_issues h (aluBody op k)

/-- An operation of result r and flags C and V leaves them, and nothing else but the program counter (R123). -/
theorem aluInstr_leaves {op : Nat} {k : Fin 512} {s : State} {r : BitVec 32} {c v : Bool} {o : AluOut}
    (h : Issues k (0x38 + op) s) (out : aluOut op (aluA k s (inTicks k 2 s)).toNat (aluB k s (inTicks k 2 s)).toNat = o)
    (res : o.res = r.toNat) (hc : o.c.getD ((inTicks k 2 s).seq k).c = c) (hv : o.v.getD ((inTicks k 2 s).seq k).v = v) :
    AluLeaves k s (decide (op ≠ 9)) r c v (.next (aluInstr op k s)) := by
  have zero : (r.toNat == 0) = (r == 0) := by
    rw [Bool.eq_iff_iff, beq_iff_eq, beq_iff_eq, ← BitVec.toNat_inj, show (0 : BitVec 32).toNat = 0 from rfl]
  have sign : r.toNat.testBit 31 = r.msb := (BitVec.msb_eq_getLsbD_last r).symm
  generalize hu : inTicks k 2 s = u at *
  have flags : (setFlags k o u).seq k = (fun q => { q with z := r == 0, n := r.msb, c := c, v := v }) (u.seq k) := by
    rw [setFlags_eq, State.seq_modSeq_same, res, zero, sign, hc, hv]
  have frame := (OnlySeq.refl k (SEQ_PC k :: if decide (op ≠ 9) then [SEQ_GREG_G k (wordBits k s 44 4)] else []) u).modSeq
    fun q => { q with z := o.res == 0, n := o.res.testBit 31, c := o.c.getD q.c, v := o.v.getD q.v }
  rw [← setFlags_eq k o u] at frame
  refine ⟨_, rfl, ?_⟩
  rw [hu, aluInstr_of_issues h, hu, alu_eq, out]
  dsimp only
  by_cases cmp : op = 9
  · rw [if_pos cmp]
    refine ⟨retires_of_seq flags (congrArg (·.stack) flags) ?_, fun writes => ?_, frame.retire List.mem_cons_self _⟩
    · exact pcOf_modSeq u k _ rfl
    · exact absurd cmp (of_decide_eq_true writes)
  · have index : wordBits k s 44 4 % 16 = wordBits k s 44 4 := Nat.mod_eq_of_lt (bits_lt ..)
    rw [if_neg cmp, setGreg, index]
    have other := greg_ne_pc k k _ (bits_lt (issued k s) 44 4)
    refine ⟨retires_of_seq flags (congrArg (·.stack) flags) ?_, fun _ => ?_, (frame.set ?_ _).retire List.mem_cons_self _⟩
    · rw [pcOf_set _ _ _ other]
      exact pcOf_modSeq u k _ rfl
    · rw [greg, index, retire_get _ _ _ other, State.get_set_same, res]
      exact Nat.mod_eq_of_lt r.isLt
    · rw [decide_eq_true cmp]
      exact List.mem_cons_of_mem _ List.mem_cons_self

/-- Settles O2: each operation of R123 on the numbers of two words is that of the bit vectors. -/
theorem aluInstructionsComputeBitVectors : Obligations.AluInstructionsComputeBitVectors := by
  intro k s a b q
  refine ⟨?add, ?sub, ?and, ?or, ?xor, ?mov, ?cmp⟩
  case add => exact fun h => aluInstr_leaves (op := 0) h rfl (addOut_res a b) rfl (by rw [aluOut, addOut_v, Option.getD_some])
  case sub => exact fun h => aluInstr_leaves (op := 1) h rfl (subOut_res a b) rfl (by rw [aluOut, subOut_v, Option.getD_some])
  case and => exact fun h => aluInstr_leaves (op := 2) h rfl (BitVec.toNat_and a b).symm rfl rfl
  case or => exact fun h => aluInstr_leaves (op := 3) h rfl (BitVec.toNat_or a b).symm rfl rfl
  case xor => exact fun h => aluInstr_leaves (op := 4) h rfl (BitVec.toNat_xor a b).symm rfl rfl
  case mov => exact fun h => aluInstr_leaves (op := 8) h rfl rfl rfl rfl
  case cmp => exact fun h => aluInstr_leaves (op := 9) h rfl (subOut_res a b) rfl (by rw [aluOut, subOut_v, Option.getD_some])

/-- Settles O3: each shift of a word's number is that of the bit vector. -/
theorem shiftInstructionsKeepV : Obligations.ShiftInstructionsKeepV := by
  intro k s a n q
  refine ⟨?shl, ?shr, ?asr⟩
  case shl => exact fun h => aluInstr_leaves (op := 5) h rfl (shlOut_res a n) rfl rfl
  case shr => exact fun h => aluInstr_leaves (op := 6) h rfl (shrOut_res a n) rfl rfl
  case asr => exact fun h => aluInstr_leaves (op := 7) h rfl (asrOut_res a n) rfl rfl

/-! ### MUL, LD and ST -/

/-- The next state of a MUL. -/
theorem exec_mul {k : Fin 512} {s : State} (h : Issues k 0x42 s) :
    let tau := tauRequest k (beginTick k s + 2) (inTicks k 2 s)
    let te := beginTick k s + 10 + 2 * tau.1
    exec (.mul k) s = .next (retire k te (alu 10 k (issued k s) (advanceTo te tau.2))) :=
  congrArg _ (instr_of_issues h (mul k))

/-- The next state of an LD. -/
theorem exec_ld {k : Fin 512} {s : State} (h : Issues k 0x30 s) :
    exec (.ld k) s = .next (load k (issued k s) (beginTick k s) (atBegin k s)) := by
  show execLd k s = _
  rw [execLd, instr_of_issues h]

/-- The next state of an ST. -/
theorem exec_st {k : Fin 512} {s : State} (h : Issues k 0x31 s) :
    exec (.st k) s = .next (store k (issued k s) (beginTick k s) (atBegin k s)) := by
  show execSt k s = _
  rw [execSt, instr_of_issues h]

/-- An address outside the table of R124 has no word. -/
theorem dataWord_eq_none {k a t : Nat} {s : State} (h : (0x4100 ≤ a ∧ a < 0x40000) ∨ 0x80000 ≤ a) : dataWord k a t s = none := by
  unfold dataWord
  repeat rw [if_neg (by omega)]

/-- Bytes written leave everything but the memory. -/
theorem State.setBytes_units (bs : List Byte) (s : State) (a : Nat) : s.setBytes a bs = { s with mem := (s.setBytes a bs).mem } := by
  induction bs generalizing s a with
  | nil => rfl
  | cons b bs ih => exact ih (s.setByte a b) (a + 1)

/-- A stored number leaves everything but the memory. -/
theorem State.wr_units (s : State) (a n v : Nat) : s.wr a n v = { s with mem := (s.wr a n v).mem } := s.setBytes_units _ a

/-- Byte i of a stored number. -/
theorem State.byte_wr (s : State) (a : Nat) {n i : Nat} (v : Nat) (h : i < n) :
    (s.wr a n v).byte (a + i) = BitVec.ofNat 8 (v / 256 ^ i) := by
  have hi : i < (toBytes n v).length := by rwa [toBytes_length]
  rw [State.wr, State.byte_setBytes _ hi, toBytes_getElem]

/-- A byte beside a stored number. -/
theorem State.byte_wr_ne (s : State) {a n x : Nat} (v : Nat) (h : x < a ∨ a + n ≤ x) : (s.wr a n v).byte x = s.byte x :=
  State.byte_setBytes_ne _ (by rwa [toBytes_length])

/-- A retirement after a store of n bytes. -/
theorem retire_wr (k te x n v : Nat) (u : State) :
    let t := retire k te (u.wr x n v)
    Retires k te id u t ∧ t = { u with regs := t.regs, seqs := t.seqs, mem := t.mem }
      ∧ (∀ j, j ≠ k → t.seq j = u.seq j) ∧ (∀ f : Fld, f.key ≠ (SEQ_PC k).key → t.get f = u.get f)
      ∧ (∀ i, i < n → t.byte (x + i) = BitVec.ofNat 8 (v / 256 ^ i))
      ∧ (∀ y, y < x ∨ x + n ≤ y → t.byte y = u.byte y) := by
  have seq (j : Nat) : (u.wr x n v).seq j = u.seq j := by rw [State.wr_units]; rfl
  have reg (f : Fld) : (u.wr x n v).get f = u.get f := State.get_setBytes _ u x f
  intro t
  refine ⟨retires_of_seq (seq k) (congrArg Seq.stack (seq k)) ?_, ?_, fun j hj => (retire_seq_ne te _ hj).trans (seq j),
    fun f hf => (retire_get k te _ hf).trans (reg f), fun i hi => u.byte_wr x v hi, fun y hy => u.byte_wr_ne v hy⟩
  · rw [pcOf, pcOf, reg, seq]
  · change retire k te (u.wr x n v) = { u with
      regs := (retire k te (u.wr x n v)).regs, seqs := (retire k te (u.wr x n v)).seqs, mem := (u.wr x n v).mem }
    obtain ⟨m, units⟩ : ∃ m, u.wr x n v = { u with mem := m } := ⟨_, u.wr_units x n v⟩
    rw [units]
    rfl

/-- Settles O4. -/
theorem mulLdStFollowTheirTables : Obligations.MulLdStFollowTheirTables := by
  refine ⟨?mul, ?ld, ?ldBad, ?st, ?stBad⟩
  case mul =>
    intro k s h tau te u p
    rw [exec_mul h, alu_eq, if_neg (by decide), setFlags_eq, show aluOut 10 _ _ = mulOut _ _ from rfl]
    simp only [mulOut, Option.getD_some, Option.getD_none, decide_satI_ne]
    rfl
  case ld =>
    intro k s v h a n t word
    rw [exec_ld h, load]
    rw [← inTicks, word]
  case ldBad =>
    intro k s h a bad
    rw [exec_ld h, load]
    rw [dataWord_eq_none bad, if_neg (by omega)]
    rfl
  case st =>
    intro k s h a u x v inRange
    refine ⟨_, (exec_st h).trans ?_, retire_wr k (beginTick k s + 4) x 4 v u⟩
    rw [store]
    rw [if_pos inRange]
    rfl
  case stBad =>
    intro k s h a bad
    rw [exec_st h, store]
    rw [if_neg (by omega)]
    rfl

end Sys2Proof.Machine
end

section
/-! PROOFS. The next states of the instructions that move the cursor, branch on a result, wait, open and close shots, and send
messages (R113 to R127). -/

namespace Sys2Proof.Machine

/-! ### Branches that a Boolean decides -/

section
variable {α : Type} {b : Bool} {x y : α}

theorem ite_of_true (h : b = true) : (if b then x else y) = x := if_pos h

theorem ite_of_false (h : b = false) : (if b then x else y) = y := if_neg (Bool.eq_false_iff.1 h)

theorem ite_not_of_true (h : b = true) : (if !b then x else y) = y := ite_of_false (congrArg not h)

theorem ite_not_of_false (h : b = false) : (if !b then x else y) = x := ite_of_true (congrArg not h)

end

/-- A row's instruction that issues runs its body, from the tick and the state in which it begins. -/
theorem next_of_issues {k op : Nat} {s : State} (h : Issues k op s) (body : Nat → Nat → State → State) :
    (.next (instr op k s body) : Ans) = .next (body (issued k s) (beginTick k s) (atBegin k s)) :=
  congrArg _ (instr_of_issues h body)

/-! ### HALT and YIELD_CAL (R115, R118) -/

/-- The next state of a HALT. -/
theorem exec_halt {k : Fin 512} {s : State} (h : Issues k 0x01 s) :
    exec (.halt k) s = .next (haltInstr k (beginTick k s) (atBegin k s)) := next_of_issues h fun _ => haltInstr k

/-- The next state of a YIELD_CAL. -/
theorem exec_yieldCal {k : Fin 512} {s : State} (h : Issues k 0x02 s) :
    exec (.yieldCal k) s = .next (yieldCal k (issued k s) (beginTick k s) (atBegin k s)) := next_of_issues h (yieldCal k)

/-- Settles O1: each clause is the next state of its instruction. -/
theorem timingInstructionsMoveTheCursor : Obligations.TimingInstructionsMoveTheCursor :=
  ⟨fun _ _ issues => exec_nop issues, fun _ _ issues => exec_wait issues,
    fun _ _ _ issues target => exec_waituntil_of_some issues target,
    fun _ _ issues none => exec_waituntil_of_none issues none, fun _ _ issues => exec_halt issues,
    fun _ _ issues => exec_yieldCal issues⟩

/-! ### BRR (R119 to R122) -/

/-- The next state of a BRR. -/
theorem exec_brr {k : Fin 512} {s : State} (h : Issues k 0x29 s) :
    exec (.brr k) s = .next (brr k (issued k s) (beginTick k s) (atBegin k s)) := next_of_issues h (brr k)

section
variable {k w t : Nat} {s : State}

/-- A BRR whose INDEX lies outside its source faults in its second cycle. -/
theorem brr_of_not_ok (bad : brrOk w = false) : brr k w t s = seqFault k 0x20 0x29 2 (t + 4) s := by
  rw [brr, ite_not_of_false bad, badOperand]

/-- The machine as a BRR that begins at tick t arms: RESGEN holds the expected generation. -/
abbrev brrArmed (k w t : Nat) (s : State) : State :=
  modMicro k (fun m => { m with resgen := brrExpected k w (advanceTo (t + 4) s) }) (advanceTo (t + 4) s)

/-- A BRR that finds its source behind the expected generation stalls as it arms. -/
theorem brr_of_behind (ok : brrOk w = true)
    (finds : brrCompare k w (brrExpected k w (advanceTo (t + 4) s)) (brrArmed k w t s) = .behind) :
    brr k w t s = stallSeq k (.result (brrExpected k w (advanceTo (t + 4) s))) (t + 4) (brrArmed k w t s) := by
  rw [brr, ite_not_of_true ok]
  simp only [finds]

/-- A BRR that finds its source not behind goes on to its last two cycles. -/
theorem brr_of_not_behind {o : BrrOutcome} (ok : brrOk w = true)
    (finds : brrCompare k w (brrExpected k w (advanceTo (t + 4) s)) (brrArmed k w t s) = o) (ne : o ≠ .behind) :
    brr k w t s = brrFinish k w o (t + 4) (brrArmed k w t s) := by
  rw [brr, ite_not_of_true ok]
  dsimp only
  rw [finds]
  cases o with
  | behind => exact absurd rfl ne
  | _ => rfl

/-- The machine at the end of a BRR whose last two cycles begin at tick t: RESVAL holds what it found. -/
abbrev brrEnded (k w : Nat) (o : BrrOutcome) (t : Nat) (s : State) : State :=
  advanceTo (t + 4) (modMicro k (fun m => { m with resval := resvalOf k w o s }) s)

/-- A resolved BRR clears V and jumps, faults or falls through. -/
theorem brrFinish_resolve : brrFinish k w .resolve t s =
    let e := brrEnded k w .resolve t s
    let u := e.modSeq k fun q => { q with v := false }
    if (brrTaken k w s).1 then
      if 8191 < (brrTaken k w s).2 then seqFault k 0x22 0x29 4 (t + 4) e
      else catchUp k (bits w 13 7) (t + 4) (w.testBit 51) (branchTo k (brrTaken k w s).2 (t + 4) u)
    else catchUp k (bits w 13 7) (t + 4) (w.testBit 51) (retire k (t + 4) u) := rfl

/-- A BRR whose source is stale or invalid falls through with V set, or faults. -/
theorem brrFinish_fails {o : BrrOutcome} (fails : o = .stale ∨ o = .invalid) : brrFinish k w o t s =
    let e := brrEnded k w o t s
    if w.testBit 49 then catchUp k (bits w 13 7) (t + 4) (w.testBit 51) (retire k (t + 4) (e.modSeq k fun q => { q with v := true }))
    else seqFault k o.code 0x29 4 (t + 4) e := by
  obtain rfl | rfl := fails <;> rfl

end

/-- Settles O6: what the comparison finds decides whether BRR stalls, and else how its last two cycles end. -/
theorem brrResolvesStallsOrFails : Obligations.BrrResolvesStallsOrFails := by
  intro k s issues w arm g te a taken e lead u flagged
  rw [exec_brr issues]
  refine ⟨fun bad => congrArg _ (brr_of_not_ok bad), fun ok => ⟨?jump, ?range, ?fall, ?stall, ?flag, ?stale, ?invalid⟩⟩
  case jump =>
    intro finds jumps inStore
    rw [brr_of_not_behind ok finds (by decide), brrFinish_resolve]
    exact congrArg _ ((if_pos jumps).trans (if_neg (Nat.not_lt.2 inStore)))
  case range =>
    intro finds jumps beyond
    rw [brr_of_not_behind ok finds (by decide), brrFinish_resolve]
    exact congrArg _ ((if_pos jumps).trans (if_pos beyond))
  case fall =>
    intro finds falls
    rw [brr_of_not_behind ok finds (by decide), brrFinish_resolve]
    exact congrArg _ (ite_of_false falls)
  case stall => exact fun finds => congrArg _ (brr_of_behind ok finds)
  case flag =>
    intro o fails finds onFlag
    rw [brr_of_not_behind ok finds (by obtain rfl | rfl := fails <;> decide), brrFinish_fails fails]
    exact congrArg _ (if_pos onFlag)
  case stale =>
    intro finds onFault
    rw [brr_of_not_behind ok finds (by decide), brrFinish_fails (.inl rfl)]
    exact congrArg _ (ite_of_false onFault)
  case invalid =>
    intro finds onFault
    rw [brr_of_not_behind ok finds (by decide), brrFinish_fails (.inr rfl)]
    exact congrArg _ (ite_of_false onFault)

/-! ### ALIGN_ANGLE, WAITTRIG, SYNC and WAITMSG (R52, R53, R82, R114, R125) -/

/-- The next state of an ALIGN_ANGLE. -/
theorem exec_alignAngle {k : Fin 512} {s : State} (h : Issues k 0x0A s) :
    exec (.alignAngle k) s = .next (alignAngle k (issued k s) (beginTick k s) (atBegin k s)) := next_of_issues h (alignAngle k)

/-- The next state of a WAITTRIG. -/
theorem exec_waittrig {k : Fin 512} {s : State} (h : Issues k 0x0B s) :
    exec (.waittrig k) s = .next (waittrig k (issued k s) (beginTick k s) (atBegin k s)) := next_of_issues h (waittrig k)

/-- The next state of a SYNC. -/
theorem exec_sync {k : Fin 512} {s : State} (h : Issues k 0x0C s) :
    exec (.sync k) s = .next (syncInstr k (issued k s) (beginTick k s) (atBegin k s)) := next_of_issues h (syncInstr k)

/-- The next state of a WAITMSG. -/
theorem exec_waitmsg {k : Fin 512} {s : State} (h : Issues k 0x51 s) :
    exec (.waitmsg k) s = .next (waitmsg k (issued k s) (beginTick k s) (atBegin k s)) := next_of_issues h (waitmsg k)

/-- A queue number below those for messages is no queue of a message. -/
theorem queueFault_of_low {k q : Nat} {s : State} (low : q < 0x9800) : queueFault k q s = some 0x2B := by
  rw [queueFault, if_pos low]

/-- Another partition's queue takes no message of the sequencer. -/
theorem queueFault_of_foreign {k q : Nat} {s : State} (hq : 0x9800 ≤ q) (foreign : s.owner q ≠ seqPart k s) :
    queueFault k q s = some 0x05 := by
  rw [queueFault, if_neg (Nat.not_lt.2 hq), if_pos foreign]

section
variable {k w t : Nat} {s : State}

/-- A WAITMSG on a queue that it may not wait on faults in its second cycle. -/
theorem waitmsg_of_queueFault {c : Nat} (faults : queueFault k (bits w 32 16) (advanceTo (t + 4) s) = some c) :
    waitmsg k w t s = seqFault k c 0x51 2 (t + 4) (advanceTo (t + 4) s) := by
  simp only [waitmsg, faults]

/-- A WAITMSG that finds a visible message takes it. -/
theorem waitmsg_of_visible {it : Item} (own : queueFault k (bits w 32 16) (advanceTo (t + 4) s) = none)
    (visible : headVisible (bits w 32 16) (t + 4) (advanceTo (t + 4) s) = some it) :
    waitmsg k w t s = takeMsg k w (t + 4) it (advanceTo (t + 4) s) := by
  simp only [waitmsg, own, visible]

/-- A WAITMSG that finds no visible message stalls. -/
theorem waitmsg_of_none (own : queueFault k (bits w 32 16) (advanceTo (t + 4) s) = none)
    (none : headVisible (bits w 32 16) (t + 4) (advanceTo (t + 4) s) = none) :
    waitmsg k w t s = stallSeq k .msg (t + 4) (advanceTo (t + 4) s) := by
  simp only [waitmsg, own, none]

end

/-- Settles O7: the tests of each instruction in their order. -/
theorem waitingInstructionsArmOrTake : Obligations.WaitingInstructionsArmOrTake := by
  refine ⟨?align, ?trig, ?sync, ?msg⟩
  case align =>
    intro k s issues arm u aligned
    rw [exec_alignAngle issues, alignAngle]
    exact ⟨fun empty => congrArg _ (if_pos empty),
      fun window locked => congrArg _ ((ite_of_false window).trans (ite_not_of_true locked)),
      fun window lost => congrArg _ ((ite_of_false window).trans (ite_not_of_false lost))⟩
  case trig =>
    intro k s issues arm
    rw [exec_waittrig issues, waittrig]
    exact ⟨fun ok => congrArg _ (if_pos ok), fun bad => congrArg _ (ite_of_false bad)⟩
  case sync =>
    intro k s issues b arm
    rw [exec_sync issues, syncInstr]
    exact ⟨fun own enabled => congrArg _ ((if_neg (not_not_intro own)).trans (ite_not_of_true enabled)),
      fun foreign => congrArg _ (if_pos foreign),
      fun own disabled => congrArg _ ((if_neg (not_not_intro own)).trans (ite_not_of_false disabled))⟩
  case msg =>
    intro k s issues q arm u
    rw [exec_waitmsg issues]
    exact ⟨fun low => congrArg _ (waitmsg_of_queueFault (queueFault_of_low low)),
      fun hq foreign => congrArg _ (waitmsg_of_queueFault (queueFault_of_foreign hq foreign)),
      fun hq own => ⟨fun it visible => congrArg _ (waitmsg_of_visible (queueFault_eq_none hq own) visible),
        fun none => congrArg _ (waitmsg_of_none (queueFault_eq_none hq own) none)⟩⟩

/-! ### Shots (R126, R127, R397, R439) -/

/-- The next state of a SHOT_BEGIN. -/
theorem exec_shotBegin {k : Fin 512} {s : State} (h : Issues k 0x48 s) :
    exec (.shotBegin k) s = .next (shotBegin k (beginTick k s) (atBegin k s)) := next_of_issues h fun _ => shotBegin k

/-- The next state of a SHOT_END. -/
theorem exec_shotEnd {k : Fin 512} {s : State} (h : Issues k 0x49 s) :
    exec (.shotEnd k) s = .next (shotEnd k (beginTick k s) (atBegin k s)) := next_of_issues h fun _ => shotEnd k

section
variable {k t : Nat} {u : State}

/-- A pending STOP_AT_SHOT halts the sequencer at check 2 (R65). -/
theorem shotChecks_of_stopNext (stop : (u.seq k).stopNext = true) : shotChecks k t u = setSeqState k stHalted
    (u.modSeq k fun q => { q with stopNext := false, readyAt := t + 2, micro := { q.micro with active := false, commits := 0 } }) :=
  if_pos stop

/-- Without a pending STOP_AT_SHOT the checks go on with the Kiln's. -/
theorem shotChecks_of_going (going : (u.seq k).stopNext = false) : shotChecks k t u = kilnCheck k t u :=
  ite_of_false going

/-- The Kiln's level makes the shot wait (R439). -/
theorem kilnCheck_waits (waits : kilnWait u ≠ 0) : kilnCheck k t u =
    stallSeq k (.kiln (t + kilnWait u) (if u.on KILN_CFG_THR_MODE then kilnWait u else 0)) t u := by
  unfold kilnWait at waits ⊢
  unfold kilnCheck
  dsimp only at waits ⊢
  by_cases level : u.get KILN_STATUS_LEVEL = 0
  · exact absurd (if_pos level) waits
  · simp only [if_neg level] at waits ⊢
    by_cases mode : u.on KILN_CFG_THR_MODE = true
    · simp only [if_pos mode] at waits ⊢
      rw [if_neg waits]
    · simp only [if_neg mode] at waits ⊢
      rw [if_neg waits]

/-- A full ring that backpressures holds the shot (R93). -/
theorem ringCheck_of_held (held : ringHeld k u = true) : ringCheck k t u = stallSeq k .ring t u := if_pos held

/-- A ring with room leaves the check to the credit's. -/
theorem ringCheck_of_room (room : ringHeld k u = false) : ringCheck k t u = creditCheck k t u :=
  ite_of_false room

/-- A LIMIT without a shot left holds a SHOT_BEGIN of image 2.4 whose trap is image 2.4's own (R397, R143). -/
theorem creditCheck_of_held (word : (u.seq k).micro.active = false) (held : creditHolds k (seqPart k u) t u = true)
    (rule : trapByRule k 5 (ruleShadow k 5 (upcOf 0x48 3) t true [] u) = true) :
    creditCheck k t u = stallSeq k .credit t (ruleShadow k 5 (upcOf 0x48 3) t true [] u) := by
  unfold creditCheck
  simp only [held, word, rule, if_true, Bool.false_eq_true, false_and, if_false]

end

/-- SHOT_BEGIN's checks in their order, and SHOT_END. -/
theorem shotsAreChecked : ShotsAreChecked := by
  refine ⟨?begins, ?ends⟩
  case begins =>
    intro k s issues t u p v e p' x y z ready
    rw [exec_shotBegin issues]
    have closed (h : (u.seq k).shotOpen = false) : shotBegin k (beginTick k s) (atBegin k s) = shotChecks k t u := ite_of_false h
    have going (h : (u.seq k).shotOpen = false) (h' : (u.seq k).stopNext = false) :
        shotBegin k (beginTick k s) (atBegin k s) = kilnCheck k t u := (closed h).trans (shotChecks_of_going h')
    refine ⟨fun nested => congrArg _ (if_pos nested),
      fun shut stop => congrArg _ ((closed shut).trans (shotChecks_of_stopNext stop)),
      fun shut goes waits => congrArg _ ((going shut goes).trans (kilnCheck_waits waits)),
      fun shut goes kiln held => congrArg _ ?_, fun word shut goes kiln room held rule => congrArg _ ?_,
      fun idle shut goes kiln room passes => congrArg _ ?_⟩
    · rw [going shut goes, kilnCheck_of_kilnWait k t kiln, ringCheck_of_held held]
    · rw [going shut goes, kilnCheck_of_kilnWait k t kiln, ringCheck_of_room room, creditCheck_of_held word held rule]
    · rw [closed shut, shotChecks_passes goes kiln room passes]
      exact shotPass_of_inactive t idle
  case ends =>
    intro k s issues u
    exact exec_shotEnd issues

/-! ### SIGNAL (R125, R327) -/

/-- The next state of a SIGNAL. -/
theorem exec_signal {k : Fin 512} {s : State} (h : Issues k 0x50 s) :
    exec (.signal k) s = .next (signalInstr k (issued k s) (beginTick k s) (atBegin k s)) := next_of_issues h (signalInstr k)

/-- A SIGNAL ends with what sending its message gives: a retirement, or a fault in its third cycle. -/
theorem signalInstr_of_signalAt {k w t : Nat} {s v : State} {c : Option Nat}
    (sends : signalAt k (bits w 32 16) (if flagBit w 49 then greg k (bits w 0 4) s else bits w 0 32) (t + 6) (flagBit w 48)
      (advanceTo (t + 6) s) = (c, v)) :
    signalInstr k w t s = match c with
      | none => retire k (t + 6) v
      | some c => seqFault k c 0x50 3 (t + 6) v := by
  simp only [signalInstr, sends]
  cases c <;> rfl

section
variable {k q v t p : Nat} {drop : Bool} {u : State}

/-- A queue that may not take the sequencer's message faults. -/
theorem signalAt_of_queueFault {c : Nat} (faults : queueFault k q u = some c) : signalAt k q v t drop u = (some c, u) := by
  rw [signalAt, faults]

/-- A message that is delivered clears Z. -/
theorem signalAt_of_sent {w : State} (own : queueFault k q u = none) (sent : signal q v t u = (true, w)) :
    signalAt k q v t drop u = (none, w.modSeq k fun x => { x with z := false }) := by
  simp only [signalAt, own, sent, if_true]

/-- A message that is not delivered is counted with DROP = 1, and sets Z, or else faults with MSG_FULL. -/
theorem signalAt_of_not_sent {w : State} (own : queueFault k q u = none) (sent : signal q v t u = (false, w)) :
    signalAt k q v t drop u =
      if drop then (none, (w.countDrop q 1).modSeq k fun x => { x with z := true }) else (some 0x2A, w) := by
  simp only [signalAt, own, sent, Bool.false_eq_true, if_false]

/-- A message to a proxy goes to its link. -/
theorem signal_of_proxy (proxy : proxyOf q u = some p) : signal q v t u =
    (true, txIngress (triggerMsg (u.get (FLV_PROXY_DST_DEV p)) (u.get (FLV_PROXY_DST_RQUEUE p)) v t u) u) := by
  rw [signal, proxy]

/-- An enabled queue with room takes the message. -/
theorem signal_of_room (direct : proxyOf q u = none) (room : ¬(u.on (QM_Q_CTRL_Q_EN q) = false ∨ u.full q = true)) :
    signal q v t u = (true, u.append q { bytes := toBytes 4 v, visible := visibleAt q t u }) := by
  obtain ⟨enabled, room⟩ := not_or.1 room
  simp only [signal, direct, eq_true_of_ne_false enabled, eq_false_of_ne_true room, Bool.not_true,
    Bool.false_eq_true, if_false]

/-- A queue that is full or not enabled takes no message; a full one notes an empty pool. -/
theorem signal_of_no_room (direct : proxyOf q u = none) (full : u.on (QM_Q_CTRL_Q_EN q) = false ∨ u.full q = true) :
    signal q v t u = (false, if u.on (QM_Q_CTRL_Q_EN q) then u.noteEmpty q else u) := by
  cases enabled : u.on (QM_Q_CTRL_Q_EN q) with
  | false => simp [signal, direct, enabled]
  | true =>
    have full : u.full q = true := full.resolve_left (by rw [enabled]; decide)
    simp [signal, direct, enabled, full]

end

/-- SIGNAL's queue and what becomes of its message. -/
theorem signalDelivers : SignalDelivers := by
  intro k s issues q v t u full u'
  rw [exec_signal issues]
  refine ⟨fun low => ?_, fun hq foreign => ?_, fun hq own p proxy => ?_, fun hq own direct room => ?_,
    fun hq own direct isFull => ⟨fun drops => ?_, fun faults => ?_⟩⟩
  · exact congrArg _ (signalInstr_of_signalAt (signalAt_of_queueFault (queueFault_of_low low)))
  · exact congrArg _ (signalInstr_of_signalAt (signalAt_of_queueFault (queueFault_of_foreign hq foreign)))
  · exact congrArg _ (signalInstr_of_signalAt (signalAt_of_sent (queueFault_eq_none hq own) (signal_of_proxy proxy)))
  · exact congrArg _ (signalInstr_of_signalAt (signalAt_of_sent (queueFault_eq_none hq own) (signal_of_room direct room)))
  · exact congrArg _ (signalInstr_of_signalAt
      ((signalAt_of_not_sent (queueFault_eq_none hq own) (signal_of_no_room direct isFull)).trans (if_pos drops)))
  · exact congrArg _ (signalInstr_of_signalAt
      ((signalAt_of_not_sent (queueFault_eq_none hq own) (signal_of_no_room direct isFull)).trans (ite_of_false faults)))

/-- Settles O8. -/
theorem shotsAndMessagesAreCounted : Obligations.ShotsAndMessagesAreCounted := ⟨shotsAreChecked, signalDelivers⟩

end Sys2Proof.Machine
end

section
/-! PROOFS. The write of a timed event entry: its checks, its end, and the instructions that make it (R68 to R80, R102, R108 to
R112). -/

namespace Sys2Proof.Machine

/-! ### How a write ends -/

section
variable {k op cyc t j : Nat} {w : HeldWrite} {s : State}

/-- A write that finds its queue full as its cycle begins takes the trap TEQ_FULL there (R69). -/
theorem writeEntry_of_full (full : checkWrite k w.kind w.target w.fine (t + 2) (advanceTo t s) = .full j) :
    writeEntry k op cyc w t s = teqFullTrap k op w j t (advanceTo t s) := by
  simp only [writeEntry, tryWrite, full]

/-- Where the queue has room as the writing cycle begins, the checks at the end of the cycle decide. -/
theorem tryWrite_of_room (room : ∀ i, checkWrite k w.kind w.target w.fine (t + 2) (advanceTo t s) ≠ .full i) :
    tryWrite k w t s =
      let u := advanceTo (t + 2) (advanceTo t s)
      match checkWrite k w.kind w.target w.fine (t + 2) u with
      | .full j => .full j u
      | .fault code reached => .fault code (if reached then noteSlack k (t + 2) u else u)
      | .ok j => .written (advCursor k (advOf w u) (putEntry k w j (noteSlack k (t + 2) u))) := by
  unfold tryWrite
  dsimp only
  split
  · exact absurd ‹_› (room _)
  · rfl

/-- A write that finds its queue full as its cycle ends takes the trap TEQ_FULL. -/
theorem writeEntry_of_full_late (room : ∀ i, checkWrite k w.kind w.target w.fine (t + 2) (advanceTo t s) ≠ .full i)
    (full : checkWrite k w.kind w.target w.fine (t + 2) (advanceTo (t + 2) (advanceTo t s)) = .full j) :
    writeEntry k op cyc w t s = teqFullTrap k op w j t (advanceTo (t + 2) (advanceTo t s)) := by
  simp only [writeEntry, tryWrite_of_room room, full]

/-- A write that fails a check faults; one that has reached the check of R75 notes its slack. -/
theorem writeEntry_of_fault {code : Nat} {reached : Bool}
    (room : ∀ i, checkWrite k w.kind w.target w.fine (t + 2) (advanceTo t s) ≠ .full i)
    (fault : checkWrite k w.kind w.target w.fine (t + 2) (advanceTo (t + 2) (advanceTo t s)) = .fault code reached) :
    writeEntry k op cyc w t s = seqFault k code op cyc (t + 2)
      (if reached then noteSlack k (t + 2) (advanceTo (t + 2) (advanceTo t s)) else advanceTo (t + 2) (advanceTo t s)) := by
  simp only [writeEntry, tryWrite_of_room room, fault]

/-- A write that passes its checks is made, and its instruction retires. -/
theorem writeEntry_of_ok (room : ∀ i, checkWrite k w.kind w.target w.fine (t + 2) (advanceTo t s) ≠ .full i)
    (ok : checkWrite k w.kind w.target w.fine (t + 2) (advanceTo (t + 2) (advanceTo t s)) = .ok j) :
    writeEntry k op cyc w t s =
      let u := advanceTo (t + 2) (advanceTo t s)
      retire k (t + 2) (advCursor k (advOf w u) (putEntry k w j (noteSlack k (t + 2) u))) := by
  simp only [writeEntry, tryWrite_of_room room, ok]

end

/-! ### The instructions that write an entry -/

/-- An entry write that its instruction ends with is made in that cycle. -/
theorem writes_writeEntry (k op cyc t : Nat) (w : HeldWrite) (s : State) : Writes k t s w (.next (writeEntry k op cyc w t s)) :=
  fun _ room ok => congrArg _ (writeEntry_of_ok room ok)

/-- An entry writer of n cycles writes in its last cycle, or faults in the one before. -/
theorem writesInClass_entryInstr {k op n : Nat} {s : State} (ok : Bool) (w : HeldWrite) (cycles : cyclesOf op = n) :
    WritesInClass k op n s ok w (.next (entryInstr op k (beginTick k s) ok w (atBegin k s))) := by
  subst cycles
  constructor
  · rintro rfl
    exact writes_writeEntry _ _ _ _ _ _
  · rintro rfl
    rfl

section
variable {k : Fin 512} {s : State}

/-- The next state of a PLAY. -/
theorem exec_play (h : Issues k 0x10 s) : exec (.play k) s = .next (play k (issued k s) (beginTick k s) (atBegin k s)) :=
  next_of_issues h (play k)

/-- The next state of a PLAYZ. -/
theorem exec_playz (h : Issues k 0x11 s) : exec (.playz k) s = .next (playz k (issued k s) (beginTick k s) (atBegin k s)) :=
  next_of_issues h (playz k)

/-- The next state of a SETBIAS. -/
theorem exec_setbias (h : Issues k 0x12 s) : exec (.setbias k) s = .next (setbias k (issued k s) (beginTick k s) (atBegin k s)) :=
  next_of_issues h (setbias k)

/-- The next state of a RAMPBIAS. -/
theorem exec_rampbias (h : Issues k 0x13 s) :
    exec (.rampbias k) s = .next (rampbias k (issued k s) (beginTick k s) (atBegin k s)) := next_of_issues h (rampbias k)

/-- The next state of an FSET. -/
theorem exec_fset (h : Issues k 0x18 s) : exec (.fset k) s = .next (fset k (issued k s) (beginTick k s) (atBegin k s)) :=
  next_of_issues h (fset k)

/-- The next state of an FSHIFT. -/
theorem exec_fshift (h : Issues k 0x19 s) : exec (.fshift k) s = .next (fshift k (issued k s) (beginTick k s) (atBegin k s)) :=
  next_of_issues h (fshift k)

/-- The next state of an FRESET. -/
theorem exec_freset (h : Issues k 0x1A s) : exec (.freset k) s = .next (freset k (issued k s) (beginTick k s) (atBegin k s)) :=
  next_of_issues h (freset k)

/-- The next state of a PFRAME. -/
theorem exec_pframe (h : Issues k 0x1B s) : exec (.pframe k) s = .next (pframe k (issued k s) (beginTick k s) (atBegin k s)) :=
  next_of_issues h (pframe k)

/-- The next state of a MEASURE. -/
theorem exec_measure (h : Issues k 0x20 s) : exec (.measure k) s = .next (measure k (issued k s) (beginTick k s) (atBegin k s)) :=
  next_of_issues h (measure k)

/-- The next state of an ACQ. -/
theorem exec_acq (h : Issues k 0x21 s) : exec (.acq k) s = .next (acq k (issued k s) (beginTick k s) (atBegin k s)) :=
  next_of_issues h (acq k)

end

/-- Settles O9: PLAY's faults in the order of its cycles, and each other instruction as the entry writer that it is. -/
theorem entryInstructionsWriteTheirEntry : Obligations.EntryInstructionsWriteTheirEntry := by
  intro k s lane desc adv frame g tau t pair b hw
  refine ⟨?play, ?playz, ?setbias, ?rampbias, ?fset, ?fshift, ?freset, ?pframe, ?measure, ?acq⟩
  case play =>
    intro issues
    rw [exec_play issues]
    refine ⟨fun odd => congrArg _ (if_pos odd), fun even beyond => congrArg _ ((if_neg even).trans (if_pos beyond)),
      fun even inside wide => congrArg _ (((if_neg even).trans (if_neg (Nat.not_lt.2 inside))).trans (if_pos wide)),
      fun even inside fits => ?_⟩
    have body : play k (issued k s) (beginTick k s) (atBegin k s) = writeEntry k 0x10 6 hw (t + 10) (playStaged k hw tau.2) :=
      ((if_neg even).trans (if_neg (Nat.not_lt.2 inside))).trans (if_neg (Nat.not_lt.2 fits))
    rw [body]
    exact writes_writeEntry _ _ _ _ _ _
  case playz => exact fun issues => exec_playz issues ▸ writesInClass_entryInstr _ _ rfl
  case setbias => exact fun issues => exec_setbias issues ▸ writesInClass_entryInstr _ _ rfl
  case rampbias => exact fun issues => exec_rampbias issues ▸ writesInClass_entryInstr _ _ rfl
  case fset => exact fun issues => exec_fset issues ▸ writesInClass_entryInstr _ _ rfl
  case fshift => exact fun issues => exec_fshift issues ▸ writesInClass_entryInstr (true && _) _ rfl
  case freset => exact fun issues => exec_freset issues ▸ writesInClass_entryInstr (true && _) _ rfl
  case pframe => exact fun issues => exec_pframe issues ▸ writesInClass_entryInstr (true && _) _ rfl
  case measure => exact fun issues => exec_measure issues ▸ writesInClass_entryInstr _ _ rfl
  case acq => exact fun issues => exec_acq issues ▸ writesInClass_entryInstr _ _ rfl

/-! ### SETBIAS -/

/-- The write that a SETBIAS makes (R109). -/
abbrev biasWrite (k : Nat) (s : State) : HeldWrite :=
  plainWrite 2 (arg k s 36 12 50 12) (arg k s 0 24 49 24 + wordBits k s 34 2 * 2 ^ 24) 0

/-- A SETBIAS with its operand in its class writes in its third cycle. -/
theorem exec_setbias_of_ok {k : Fin 512} {s : State} (h : Issues k 0x12 s) (ok : targetOk .zb (arg k s 36 12 50 12) = true) :
    exec (.setbias k) s = .next (writeEntry k 0x12 3 (biasWrite k s) (beginTick k s + 4) (atBegin k s)) :=
  (exec_setbias h).trans (congrArg _ (if_pos ok))

/-- Noting slack leaves every other register. -/
theorem noteSlack_get (k tw : Nat) (s : State) {f : Fld} (h : f.key ≠ (SEQ_SLACK_MIN k).key) :
    (noteSlack k tw s).get f = s.get f := by
  unfold noteSlack
  dsimp only
  split
  · exact State.get_set_ne _ _ h
  · rfl

/-- Noting slack changes registers alone. -/
theorem noteSlack_units (k tw : Nat) (s : State) : noteSlack k tw s = { s with regs := (noteSlack k tw s).regs } := by
  unfold noteSlack
  dsimp only
  split <;> rfl

/-- Another queue of the sequencer after one is replaced. -/
theorem teq_setTeq_ne (k : Nat) {i j : Nat} (es : List Entry) (s : State) (h : i ≠ j) : teq k i (setTeq k j es s) = teq k i s := by
  simp [teq, setTeq, State.setB, Tab.get_put_ne _ _ _ h]

/-- A queue of the sequencer after it is replaced. -/
theorem teq_setTeq_same (k j : Nat) (es : List Entry) (s : State) : teq k j (setTeq k j es s) = es := by
  simp [teq, setTeq, State.setB]

/-- Another sequencer after a queue is replaced. -/
theorem seq_setTeq_ne (k j : Nat) {i : Nat} (es : List Entry) (s : State) (h : i ≠ k) : (setTeq k j es s).seq i = s.seq i := by
  simp [setTeq, State.setB, State.seq_modSeq_ne _ _ h]

/-- The queue that a target binds to is one of the sequencer's 32. -/
theorem boundQueue_lt {k n j : Nat} {c : Target} {s : State} (h : boundQueue k c n s = some j) : j < 32 :=
  List.mem_range.1 (List.mem_of_find?_eq_some h)

/-- Replacing a queue leaves the cursor. -/
theorem cursor_setTeq {k j : Nat} (hj : j < 32) (es : List Entry) (s : State) :
    cursor k (setTeq k j es s) = cursor k s := by
  unfold cursor setTeq State.setB
  dsimp only
  rw [State.get_set_ne, State.get_set_ne, State.get_set_ne, State.get_modSeq] <;>
    simp only [SEQ_CURSOR, SEQ_TEQ_STATUS_ENTRIES, QM_Q_STATUS_COUNT, QM_Q_STATUS_FULL] <;> omega

/-- The entry of a write that is neither staged nor a MEASURE, as it joins its queue in the machine s (R111). -/
def entryOf (k : Nat) (w : HeldWrite) (s : State) : Entry :=
  { tick := cursor k s, fine := w.fine, kind := w.kind, seq := k, target := w.target, shot := s.get (SEQ_SHOT k),
    a := w.a, b := w.b &&& kindMaskB w.kind w.a }

/-- A write that is neither staged nor a MEASURE joins the end of its queue, which counts it. -/
theorem putEntry_of_plain {k j : Nat} {w : HeldWrite} (s : State) (staged : w.staged = none) (kind : w.kind ≠ 4) :
    putEntry k w j s = setTeq k j (teq k j s ++ [entryOf k w s])
      (s.setQueue (32 * k + j) { s.queue (32 * k + j) with entered := (s.queue (32 * k + j)).entered + 1 }) := by
  have shot : s.get (SEQ_SHOT k) - s.get (SEQ_SHOT k) % 65536 + s.get (SEQ_SHOT k) % 65536 = s.get (SEQ_SHOT k) := by omega
  unfold putEntry
  simp only [staged, Option.getD_none, if_neg kind, shot]
  rfl

/-- The machine u after SETBIAS's write into queue j has passed its checks. -/
abbrev biasWritten (k j : Nat) (s u : State) : State :=
  let tw := beginTick k s + 6
  retire k tw (advCursor k 0 (putEntry k (biasWrite k s) j (noteSlack k tw u)))

/-- A SETBIAS whose checks pass makes its write. -/
theorem exec_setbias_of_passed {k : Fin 512} {s : State} {j : Nat} (h : Issues k 0x12 s)
    (ok : targetOk .zb (arg k s 36 12 50 12) = true)
    (room : ∀ i, checkWrite k 2 (arg k s 36 12 50 12) 0 (beginTick k s + 6) (inTicks k 4 s) ≠ .full i)
    (passed : checkWrite k 2 (arg k s 36 12 50 12) 0 (beginTick k s + 6) (advanceTo (beginTick k s + 6) (inTicks k 4 s)) = .ok j) :
    exec (.setbias k) s = .next (biasWritten k j s (advanceTo (beginTick k s + 6) (inTicks k 4 s))) :=
  (exec_setbias_of_ok h ok).trans (congrArg _ (writeEntry_of_ok (w := biasWrite k s) room passed))

/-- A retirement leaves the queues of the sequencer. -/
theorem teq_retire (k i t : Nat) (s : State) : teq k i (retire k t s) = teq k i s := by
  rw [teq, retire_seq_same, teq]

/-- An advance of the cursor leaves every sequencer's queues. -/
theorem teq_advCursor (k i n : Nat) (s : State) : teq k i (advCursor k n s) = teq k i s := rfl

/-- An advance of the cursor by no tick leaves it. -/
theorem get_advCursor_zero (k : Nat) (s : State) : (advCursor k 0 s).get (SEQ_CURSOR k) = s.get (SEQ_CURSOR k) := by
  rw [advCursor, State.get_set_same, Nat.add_zero]
  exact Nat.mod_eq_of_lt (State.get_lt s _)

/-- What a write that joins its queue leaves: its entry stands at the end of that queue, and nothing beside registers, that
sequencer and the queue's count has changed. -/
theorem joined_leaves {k j : Nat} (hj : j < 32) (te : Nat) (u : State) (r : Tab Nat) (x : Queue) (e : Entry)
    (cur : ({ u with regs := r } : State).get (SEQ_CURSOR k) = u.get (SEQ_CURSOR k)) :
    let v : State := { u with regs := r }
    let t := retire k te (advCursor k 0 (setTeq k j (teq k j v ++ [e]) (v.setQueue (32 * k + j) x)))
    teq k j t = teq k j u ++ [e]
      ∧ (∀ i, i ≠ j → teq k i t = teq k i u) ∧ (∀ i, i ≠ k → t.seq i = u.seq i)
      ∧ t.get (SEQ_CURSOR k) = u.get (SEQ_CURSOR k)
      ∧ t = { u with regs := t.regs, seqs := t.seqs, queues := t.queues } := by
  refine ⟨?_, fun i hi => ?_, fun i hi => ?_, ?_, rfl⟩
  · rw [teq_retire, teq_advCursor, teq_setTeq_same]
    rfl
  · rw [teq_retire, teq_advCursor, teq_setTeq_ne k _ _ hi]
    rfl
  · rw [retire_seq_ne _ _ hi, advCursor, State.set_seq, seq_setTeq_ne k j _ _ hi]
    rfl
  · rw [retire_get _ _ _ (cursor_ne_pc k), get_advCursor_zero]
    exact (cursor_setTeq hj _ _).trans cur

/-- What SETBIAS's write leaves. -/
theorem biasWritten_leaves {k j : Nat} (hj : j < 32) (s u : State) :
    let t := biasWritten k j s u
    teq k j t = teq k j u ++ [biasEntry k s u]
      ∧ (∀ i, i ≠ j → teq k i t = teq k i u) ∧ (∀ i, i ≠ k → t.seq i = u.seq i)
      ∧ t.get (SEQ_CURSOR k) = u.get (SEQ_CURSOR k)
      ∧ t = { u with regs := t.regs, seqs := t.seqs, queues := t.queues } := by
  have cur : (noteSlack k (beginTick k s + 6) u).get (SEQ_CURSOR k) = u.get (SEQ_CURSOR k) :=
    noteSlack_get _ _ _ (by simp only [SEQ_CURSOR, SEQ_SLACK_MIN]; omega)
  have shot : (noteSlack k (beginTick k s + 6) u).get (SEQ_SHOT k) = u.get (SEQ_SHOT k) :=
    noteSlack_get _ _ _ (by simp only [SEQ_SHOT, SEQ_SLACK_MIN]; omega)
  have entry : entryOf k (biasWrite k s) (noteSlack k (beginTick k s + 6) u) = biasEntry k s u := by
    simp only [entryOf, cursor, cur, shot, biasWrite, plainWrite, Nat.zero_and]
    rfl
  unfold biasWritten
  dsimp only
  rw [putEntry_of_plain _ rfl (show (2 : Nat) ≠ 4 by decide), entry]
  obtain ⟨r, noted⟩ : ∃ r, noteSlack k (beginTick k s + 6) u = { u with regs := r } := ⟨_, noteSlack_units ..⟩
  rw [noted] at cur ⊢
  exact joined_leaves hj _ u r _ _ cur

/-! ### The checks of a SETBIAS's write (R102) -/

section
variable {k n tw j : Nat} {s : State}

/-- A target that no queue binds fails the check of R68. -/
theorem checkWrite_of_unbound (bound : boundQueue k .zb n s = none) : checkWrite k 2 n 0 tw s = .fault 0x04 false := by
  simp only [checkWrite, kindTarget, bound]

/-- The checks that follow once the target binds to queue j. -/
theorem checkWrite_of_bound (bound : boundQueue k .zb n s = some j) : checkWrite k 2 n 0 tw s =
    if (teq k j s).length ≥ 16 then .full j
    else if outOfOrder (teq k j s) (cursor k s) 0 then .fault 0x03 false
    else if cursor k s ≥ tw + 2 ^ 39 then .fault 0x02 false
    else if cursor k s < tw + minLead k .zb n then .fault 0x01 true
    else if targetFenced .zb n s then .fault 0x06 true
    else if targetOk .zb n = false ∨ targetPart .zb n s ≠ seqPart k s then .fault 0x05 true
    else .ok j := by
  simp only [checkWrite, kindTarget, bound]

/-- A write that passes its checks binds to its queue. -/
theorem boundQueue_of_checkWrite_ok (h : checkWrite k 2 n 0 tw s = .ok j) : boundQueue k .zb n s = some j := by
  cases bound : boundQueue k .zb n s with
  | none =>
    rw [checkWrite_of_unbound bound] at h
    cases h
  | some i =>
    rw [checkWrite_of_bound bound] at h
    repeat' split at h
    all_goals cases h
    rfl

end

/-- Settles O10. -/
theorem acceptedEntryJoinsItsQueueAlone : Obligations.AcceptedEntryJoinsItsQueueAlone := by
  intro k s j issues ok u room passed
  have hj := boundQueue_lt (boundQueue_of_checkWrite_ok passed)
  obtain ⟨joined, others, seqs, cur, units⟩ := biasWritten_leaves hj s u
  exact ⟨_, exec_setbias_of_passed issues ok room passed, joined, others, seqs, cur, fun a => by rw [units]; rfl, units⟩

/-- The minimum lead is at most 64 ticks (R74). -/
theorem minLead_le (k : Nat) (c : Target) (n : Nat) : minLead k c n ≤ 64 := by
  unfold minLead
  split
  · omega
  · split <;> omega

/-- An entry before the last of its queue is out of order (R70). -/
theorem outOfOrder_of_before {es : List Entry} {e : Entry} {tick : Nat} (last : es.getLast? = some e)
    (before : tick < e.tick ∨ (tick = e.tick ∧ 0 < e.fine)) : outOfOrder es tick 0 = true := by
  simp only [outOfOrder, last, Bool.or_eq_true, Bool.and_eq_true, decide_eq_true_eq, beq_iff_eq]
  exact before

/-- An entry behind the last of its queue is in order. -/
theorem outOfOrder_of_behind {es : List Entry} {tick : Nat}
    (behind : ∀ e, es.getLast? = some e → e.tick < tick ∨ (e.tick = tick ∧ e.fine = 0)) : outOfOrder es tick 0 = false := by
  unfold outOfOrder
  split
  · rfl
  · next e last =>
    have := behind e last
    simp only [Bool.or_eq_false_iff, Bool.and_eq_false_iff, decide_eq_false_iff_not, beq_eq_false_iff_ne]
    omega

/-- A SETBIAS whose write fails a check at the end of its cycle faults there. -/
theorem exec_setbias_of_fault {k : Fin 512} {s : State} {code : Nat} {reached : Bool} (h : Issues k 0x12 s)
    (ok : targetOk .zb (arg k s 36 12 50 12) = true)
    (room : ∀ i, checkWrite k 2 (arg k s 36 12 50 12) 0 (beginTick k s + 6) (inTicks k 4 s) ≠ .full i)
    (fault : checkWrite k 2 (arg k s 36 12 50 12) 0 (beginTick k s + 6) (advanceTo (beginTick k s + 6) (inTicks k 4 s))
      = .fault code reached) :
    let u := advanceTo (beginTick k s + 6) (inTicks k 4 s)
    exec (.setbias k) s
      = .next (seqFault k code 0x12 3 (beginTick k s + 6) (if reached then noteSlack k (beginTick k s + 6) u else u)) :=
  (exec_setbias_of_ok h ok).trans (congrArg _ (writeEntry_of_fault (w := biasWrite k s) room fault))

/-- Settles O54: each clause by the first check that its write fails. -/
theorem entriesAreCheckedBeforeTheyAreWritten : Obligations.EntriesAreCheckedBeforeTheyAreWritten := by
  intro k s issues ok n w x tw u tick fault
  refine ⟨fun j full => (exec_setbias_of_ok issues ok).trans (congrArg _ (writeEntry_of_full (w := w) full)),
    fun j bound many => (checkWrite_of_bound bound).trans (if_pos many),
    fun room => ⟨fun unbound => exec_setbias_of_fault (reached := false) issues ok room (checkWrite_of_unbound unbound),
      fun j bound => ?_⟩⟩
  have decides := checkWrite_of_bound (tw := tw) bound
  rw [show cursor k u = tick from rfl] at decides
  refine ⟨fun many => ?full, fun few e last before => ?order, fun few ordered => ?_⟩
  case full =>
    rw [if_pos many] at decides
    exact (exec_setbias_of_ok issues ok).trans (congrArg _ (writeEntry_of_full_late (w := w) room decides))
  case order =>
    rw [if_neg (Nat.not_le.2 few), if_pos (outOfOrder_of_before last before)] at decides
    exact exec_setbias_of_fault (reached := false) issues ok room decides
  have lead := minLead_le k .zb n
  rw [if_neg (Nat.not_le.2 few), ite_of_false (outOfOrder_of_behind ordered)] at decides
  refine ⟨fun far => ?_, fun near => ?_, fun late near fenced => ?_, fun late near free foreign => ?_,
    fun late near free own => ?_⟩
  · rw [if_pos far] at decides
    exact exec_setbias_of_fault (reached := false) issues ok room decides
  · rw [if_neg (show ¬tw + 2 ^ 39 ≤ tick by omega), if_pos near] at decides
    exact exec_setbias_of_fault (reached := true) issues ok room decides
  all_goals rw [if_neg (Nat.not_le.2 near), if_neg (Nat.not_lt.2 late)] at decides
  · rw [if_pos fenced] at decides
    exact exec_setbias_of_fault (reached := true) issues ok room decides
  · rw [ite_of_false free, if_pos (.inr foreign)] at decides
    exact exec_setbias_of_fault (reached := true) issues ok room decides
  · rw [ite_of_false free, if_neg (not_or_intro (by rw [ok]; decide) (not_not_intro own))] at decides
    exact ⟨_, exec_setbias_of_passed issues ok room decides, (biasWritten_leaves (boundQueue_lt bound) s u).1⟩

end Sys2Proof.Machine
end

section
/-! PROOFS. What an event leaves and what it keeps: registers, queues, pending bits and the descriptor pool (R22, R91, R92, R369,
R480). -/

namespace Sys2Proof.Machine

/-! ### One induction over the chain of events -/

/-- What holds once an event's pending bit is set, and what every further step keeps, the event keeps: pending bits, the log's entry,
the copy in queue 0xFFFF, and the flags of the pool. -/
theorem State.eventN_induct {P : State → Prop} (pend : ∀ s n, n < 1024 → P s → P (s.pend n))
    (log : ∀ s n c, P s → P (s.logEntry n c).1) (lost : ∀ s, P s → P { s with host := { s.host with logLost := true } })
    (drop : ∀ s, P s → P (s.countDrop 0xFFFF 1)) (append : ∀ s it, s.full 0xFFFF = false → P s → P (s.appendRaw 0xFFFF it))
    (flag : ∀ s f, f = QM_STATUS_POOL_EMPTY ∨ f = QM_STATUS_POOL_LOW → P s → P (s.setB f true))
    (fuel : Nat) {s : State} {n : Nat} (c : Nat) (h : P (s.pend n)) : P (State.eventN fuel s n c) := by
  have ite {p : Prop} [Decidable p] {x y : State} (hx : P x) (hy : P y) : P (if p then x else y) := by
    split
    · exact hx
    · exact hy
  induction fuel generalizing s n c with
  | zero => exact h
  | succ fuel ih =>
    have up {x : State} {f : Fld} {m : Nat} (hf : f = QM_STATUS_POOL_EMPTY ∨ f = QM_STATUS_POOL_LOW) (hm : m < 1024) (hx : P x) :
        P (if x.on f then x else State.eventN fuel (x.setB f true) m 0) :=
      ite hx (ih 0 (pend _ m hm (flag x f hf hx)))
    unfold State.eventN
    refine ite h ?_
    have logged := log (s.pend n) n c h
    generalize State.logEntry (s.pend n) n c = p at logged
    obtain ⟨x, isLost⟩ := p
    have noted := ite (p := isLost && !x.host.logLost && x.on GLB_STATUS_READY) (ih 0 (pend _ 17 (by decide) (lost x logged))) logged
    dsimp only
    generalize (if isLost && !x.host.logLost && x.on GLB_STATUS_READY then
        State.eventN fuel { x with host := { x.host with logLost := true } } 17 0 else x) = y at noted ⊢
    split
    · exact noted
    · split
      · exact ite (up (.inl rfl) (by decide) (drop y noted)) (drop y noted)
      · next room =>
        have room : y.full 0xFFFF = false := eq_false_of_ne_true fun full => room (by rw [full, Bool.true_or])
        have joined := append y { bytes := (‹FaultLog›).bytes } room noted
        have told := ite (p := (y.appendRaw 0xFFFF { bytes := (‹FaultLog›).bytes }).poolEmpty = true)
          (up (m := 761) (.inl rfl) (by decide) joined) joined
        refine ite (ih 0 (pend _ 764 (by decide) ?_)) ?_ <;> exact ite (up (.inr rfl) (by decide) told) told

/-! ### Taking and giving back a descriptor -/

/-- The registers that taking or giving back a descriptor of queue q changes. -/
def PoolKey (q x : Nat) : Prop :=
  x = QM_POOL_FREE.key ∨ x = QM_POOL_ALLOC.key ∨ ((QM_PART_USED 0).key ≤ x ∧ x < (QM_PART_USED 16).key)
    ∨ x = (QM_Q_STATUS_COUNT q).key ∨ x = (QM_Q_STATUS_FULL q).key

/-- The owner of a queue is one of 16 partitions. -/
theorem State.owner_lt (s : State) (q : Nat) : s.owner q < 16 := State.get_lt s _

/-- A partition's count of descriptors stands among the 16. -/
theorem poolKey_used (s : State) (q j : Nat) : PoolKey j (QM_PART_USED (s.owner q)).key := by
  have := s.owner_lt q
  refine .inr (.inr (.inl ?_))
  simp only [QM_PART_USED]
  omega

/-- Every other register after a descriptor is taken. -/
theorem State.appendRaw_get (s : State) (q : Nat) (it : Item) {f : Fld} (hf : ¬ PoolKey q f.key) :
    (s.appendRaw q it).get f = s.get f := by
  have ne {g : Fld} (hg : PoolKey q g.key) : f.key ≠ g.key := fun e => hf (e ▸ hg)
  unfold State.appendRaw State.showQueue State.inc State.setB
  dsimp only
  rw [State.get_set_ne _ _ (ne (.inr (.inr (.inr (.inr rfl))))), State.get_set_ne _ _ (ne (.inr (.inr (.inr (.inl rfl))))),
    State.get_set_ne _ _ (ne (poolKey_used _ q q)), State.get_set_ne _ _ (ne (.inr (.inl rfl))),
    State.get_set_ne _ _ (ne (.inl rfl))]
  rfl

/-- The registers of the pool and of the partitions' counts are different fields. -/
theorem pool_ne_used (s : State) (q : Nat) :
    QM_POOL_FREE.key ≠ (QM_PART_USED (s.owner q)).key ∧ QM_POOL_ALLOC.key ≠ (QM_PART_USED (s.owner q)).key := by
  have := s.owner_lt q
  simp only [QM_POOL_FREE, QM_POOL_ALLOC, QM_PART_USED]
  omega

/-- The registers of the pool and of a queue's status are different fields. -/
theorem pool_ne_status (q : Nat) :
    QM_POOL_FREE.key ≠ (QM_Q_STATUS_COUNT q).key ∧ QM_POOL_FREE.key ≠ (QM_Q_STATUS_FULL q).key
      ∧ QM_POOL_ALLOC.key ≠ (QM_Q_STATUS_COUNT q).key ∧ QM_POOL_ALLOC.key ≠ (QM_Q_STATUS_FULL q).key := by
  simp only [QM_POOL_FREE, QM_POOL_ALLOC, QM_Q_STATUS_COUNT, QM_Q_STATUS_FULL]
  omega

theorem State.showQueue_free (s : State) (q : Nat) : (s.showQueue q).get QM_POOL_FREE = s.get QM_POOL_FREE := by
  obtain ⟨count, full, -⟩ := pool_ne_status q
  rw [State.showQueue, State.setB, State.get_set_ne _ _ full, State.get_set_ne _ _ count]

theorem State.showQueue_alloc (s : State) (q : Nat) : (s.showQueue q).get QM_POOL_ALLOC = s.get QM_POOL_ALLOC := by
  obtain ⟨-, -, count, full⟩ := pool_ne_status q
  rw [State.showQueue, State.setB, State.get_set_ne _ _ full, State.get_set_ne _ _ count]

/-- The two registers of the pool are different fields. -/
theorem free_ne_alloc : QM_POOL_FREE.key ≠ QM_POOL_ALLOC.key := by decide

/-- The free descriptors after one is taken. -/
theorem State.appendRaw_free (s : State) (q : Nat) (it : Item) :
    (s.appendRaw q it).get QM_POOL_FREE = (s.get QM_POOL_FREE - 1) % 2 ^ 21 := by
  unfold State.appendRaw State.inc
  dsimp only
  rw [State.showQueue_free, State.get_set_ne _ _ (pool_ne_used _ q).1, State.get_set_ne _ _ free_ne_alloc, State.get_set_same]
  rfl

/-- The descriptors in queues after one is taken. -/
theorem State.appendRaw_alloc (s : State) (q : Nat) (it : Item) :
    (s.appendRaw q it).get QM_POOL_ALLOC = (s.get QM_POOL_ALLOC + 1) % 2 ^ 21 := by
  unfold State.appendRaw State.inc
  dsimp only
  rw [State.showQueue_alloc, State.get_set_ne _ _ (pool_ne_used _ q).2, State.get_set_same,
    State.get_set_ne _ _ free_ne_alloc.symm]
  rfl

/-- Every descriptor is free or in a queue (R22). -/
def PoolWhole (s : State) : Prop := s.get QM_POOL_ALLOC + s.get QM_POOL_FREE = 1048576

/-- Taking a descriptor that is free keeps the pool whole, and one more is in a queue. -/
theorem PoolWhole.appendRaw {s : State} (whole : PoolWhole s) (q : Nat) (it : Item) (room : s.get QM_POOL_FREE ≠ 0) :
    PoolWhole (s.appendRaw q it) ∧ (s.appendRaw q it).get QM_POOL_ALLOC = s.get QM_POOL_ALLOC + 1 := by
  unfold PoolWhole at *
  rw [State.appendRaw_free, State.appendRaw_alloc]
  omega

/-- A queue with room finds a free descriptor. -/
theorem State.free_ne_zero_of_room {s : State} {q : Nat} (room : s.full q = false) : s.get QM_POOL_FREE ≠ 0 := by
  obtain ⟨-, pool⟩ := Bool.or_eq_false_iff.1 room
  exact beq_eq_false_iff_ne.1 pool

/-! ### What an event leaves -/

/-- The registers that an event may change: the pending bits, and for the copy of the fault log in queue 0xFFFF the counts and flags of
the pool and of that queue. -/
def EventKey (x : Nat) : Prop :=
  ((GLB_EVT_PEND 0).key ≤ x ∧ x < (GLB_EVT_PEND 32).key) ∨ x = QM_STATUS_POOL_LOW.key ∨ x = QM_STATUS_POOL_EMPTY.key
    ∨ PoolKey 0xFFFF x ∨ x = (QM_Q_DROPS 0xFFFF).key

/-- What an event changes and keeps, from s to t: only registers of events and of queue 0xFFFF, that queue, the fault log, the outbox and
the pending vectors change; no pending bit is lost; and a whole pool stays whole and gives nothing back. -/
structure EventOnly (s t : State) : Prop where
  units : t = { s with regs := t.regs, outbox := t.outbox, queues := t.queues, host := t.host }
  host : t.host = { s.host with
    log := t.host.log, logIndex := t.host.logIndex, logOver := t.host.logOver, logHeld := t.host.logHeld,
    logLost := t.host.logLost, pba := t.host.pba }
  queues : ∀ q, q ≠ 0xFFFF → t.queue q = s.queue q
  regs : ∀ f : Fld, ¬ EventKey f.key → t.get f = s.get f
  pends : ∀ n, n < 1024 → s.evtPend n = true → t.evtPend n = true
  pool : PoolWhole s → PoolWhole t ∧ s.get QM_POOL_ALLOC ≤ t.get QM_POOL_ALLOC

namespace EventOnly
variable {a s : State}

protected theorem refl (s : State) : EventOnly s s :=
  ⟨rfl, rfl, fun _ _ => rfl, fun _ _ => rfl, fun _ _ h => h, fun h => ⟨h, Nat.le_refl _⟩⟩

protected theorem trans {t : State} (h : EventOnly a s) (k : EventOnly s t) : EventOnly a t where
  units := by rw [k.units, h.units]
  host := by rw [k.host, h.host]
  queues q hq := (k.queues q hq).trans (h.queues q hq)
  regs f hf := (k.regs f hf).trans (h.regs f hf)
  pends n hn pending := k.pends n hn (h.pends n hn pending)
  pool whole :=
    have ⟨whole, le⟩ := h.pool whole
    have ⟨whole', le'⟩ := k.pool whole
    ⟨whole', Nat.le_trans le le'⟩

/-- An update that leaves registers and queues. -/
theorem of_regs_eq (t : State) (units : t = { s with outbox := t.outbox, host := t.host })
    (host : t.host = { s.host with
      log := t.host.log, logIndex := t.host.logIndex, logOver := t.host.logOver, logHeld := t.host.logHeld,
      logLost := t.host.logLost, pba := t.host.pba }) : EventOnly s t := by
  have get (f : Fld) : t.get f = s.get f := by rw [units]; rfl
  refine ⟨by rw [units], host, fun q _ => by rw [units]; rfl, fun f _ => get f, fun n _ pending => ?_, fun whole => ?_⟩
  · rwa [State.evtPend, get]
  · rw [PoolWhole, get, get]
    exact ⟨whole, Nat.le_refl _⟩

/-- An update of one register of an event that is no register of the pool, and that loses no pending bit. -/
theorem of_set (f : Fld) (v : Nat) (key : EventKey f.key) (free : QM_POOL_FREE.key ≠ f.key) (alloc : QM_POOL_ALLOC.key ≠ f.key)
    (pends : ∀ n, n < 1024 → s.evtPend n = true → (s.set f v).evtPend n = true) : EventOnly s (s.set f v) where
  units := rfl
  host := rfl
  queues _ _ := rfl
  regs g hg := State.get_set_ne s v fun e => hg (e ▸ key)
  pends := pends
  pool whole := by
    rw [PoolWhole, State.get_set_ne s v free, State.get_set_ne s v alloc]
    exact ⟨whole, Nat.le_refl _⟩

end EventOnly

/-- A pending bit after another register is written. -/
theorem State.evtPend_set_ne (s : State) {f : Fld} (v n : Nat) (h : (GLB_EVT_PEND (n / 32)).key ≠ f.key) :
    (s.set f v).evtPend n = s.evtPend n := by
  rw [State.evtPend, State.evtPend, State.get_set_ne s v h]

/-- The registers of pending bits come before those of the Queue Manager. -/
theorem pend_key_lt {n : Nat} (hn : n < 1024) : (GLB_EVT_PEND (n / 32)).key < 30408704 := by
  simp only [GLB_EVT_PEND]
  omega

/-- The pending bits after that of event n is set. -/
theorem State.evtPend_pendBit (s : State) (n m : Nat) :
    (s.set (GLB_EVT_PEND (n / 32)) (s.get (GLB_EVT_PEND (n / 32)) ||| 2 ^ (n % 32))).evtPend m = (s.evtPend m || decide (m = n)) := by
  unfold State.evtPend
  by_cases same : m / 32 = n / 32
  · rw [same, State.get_set_same, show (GLB_EVT_PEND (n / 32)).width = 32 from rfl, Nat.testBit_mod_two_pow, Nat.testBit_or,
      Nat.testBit_two_pow, decide_eq_true (Nat.mod_lt m (by decide)), Bool.true_and]
    congr 1
    rw [decide_eq_decide]
    omega
  · rw [State.get_set_ne _ _ (by simp only [GLB_EVT_PEND]; omega), decide_eq_false (by rintro rfl; exact same rfl), Bool.or_false]

/-- The pending bits after an event has set its own. -/
theorem State.evtPend_pend (s : State) (n m : Nat) : (s.pend n).evtPend m = (s.evtPend m || decide (m = n)) := by
  rw [← State.evtPend_pendBit]
  unfold State.pend State.sendVector
  dsimp only
  split
  · split <;> rfl
  · rfl

namespace EventOnly
variable (s : State)

theorem pend {n : Nat} (hn : n < 1024) : EventOnly s (s.pend n) := by
  have marked : EventOnly s (s.set (GLB_EVT_PEND (n / 32)) (s.get (GLB_EVT_PEND (n / 32)) ||| 2 ^ (n % 32))) := by
    refine of_set _ _ (.inl ?_) ?_ ?_ fun m _ pending => ?_
    · simp only [GLB_EVT_PEND]
      omega
    · simp only [GLB_EVT_PEND, QM_POOL_FREE]
      omega
    · simp only [GLB_EVT_PEND, QM_POOL_ALLOC]
      omega
    · rw [State.evtPend_pendBit, pending, Bool.true_or]
  refine marked.trans ?_
  unfold State.pend State.sendVector
  dsimp only
  split
  · split
    · exact of_regs_eq _ rfl rfl
    · exact of_regs_eq _ rfl rfl
  · exact .refl _

theorem logEntry (n c : Nat) : EventOnly s (s.logEntry n c).1 := by
  unfold State.logEntry
  dsimp only
  split
  · exact of_regs_eq _ rfl rfl
  · exact of_regs_eq _ rfl rfl

theorem setFlag {f : Fld} (hf : f = QM_STATUS_POOL_EMPTY ∨ f = QM_STATUS_POOL_LOW) : EventOnly s (s.setB f true) := by
  have key : 30408704 ≤ f.key := by obtain rfl | rfl := hf <;> decide
  refine of_set _ _ ?_ ?_ ?_ fun n hn pending => ?_
  · obtain rfl | rfl := hf
    · exact .inr (.inr (.inl rfl))
    · exact .inr (.inl rfl)
  · obtain rfl | rfl := hf <;> decide
  · obtain rfl | rfl := hf <;> decide
  · have := pend_key_lt hn
    rwa [State.evtPend_set_ne _ _ _ (by omega)]

theorem countDrop (n : Nat) : EventOnly s (s.countDrop 0xFFFF n) := by
  have counted (x : Queue) : EventOnly s (s.setQueue 0xFFFF x) :=
    ⟨rfl, rfl, fun _ hq => State.queue_setQueue_ne s x hq, fun _ _ => rfl, fun _ _ h => h, fun h => ⟨h, Nat.le_refl _⟩⟩
  refine (counted _).trans (of_set _ _ (.inr (.inr (.inr (.inr rfl)))) (by decide) (by decide) fun n hn pending => ?_)
  have := pend_key_lt hn
  rwa [State.evtPend_set_ne _ _ _ (by simp only [QM_Q_DROPS]; omega)]

theorem appendRaw (it : Item) (room : s.full 0xFFFF = false) : EventOnly s (s.appendRaw 0xFFFF it) where
  units := rfl
  host := rfl
  queues q hq := State.appendRaw_queue_ne s it hq
  regs f hf := State.appendRaw_get s _ it fun key => hf (.inr (.inr (.inr (.inl key))))
  pends n hn pending := by
    have := pend_key_lt hn
    have other : ¬ PoolKey 0xFFFF (GLB_EVT_PEND (n / 32)).key := by
      unfold PoolKey
      simp only [QM_POOL_FREE, QM_POOL_ALLOC, QM_PART_USED, QM_Q_STATUS_COUNT, QM_Q_STATUS_FULL]
      omega
    rwa [State.evtPend, State.appendRaw_get s _ it other]
  pool whole :=
    have ⟨stays, more⟩ := whole.appendRaw 0xFFFF it (State.free_ne_zero_of_room room)
    ⟨stays, by omega⟩

variable {s}

theorem event_of_pend {a : State} {n : Nat} (h : EventOnly a (s.pend n)) (c : Nat) : EventOnly a (s.event n c) :=
  State.eventN_induct (P := EventOnly a) (fun s _ hn h => h.trans (pend s hn)) (fun s n c h => h.trans (logEntry s n c))
    (fun _ h => h.trans (of_regs_eq _ rfl rfl)) (fun s h => h.trans (countDrop s 1))
    (fun s it room h => h.trans (appendRaw s it room)) (fun s _ hf h => h.trans (setFlag s hf)) 6 c h

theorem event {a : State} (h : EventOnly a s) {n : Nat} (hn : n < 1024) (c : Nat := 0) : EventOnly a (s.event n c) :=
  event_of_pend (h.trans (pend s hn)) c

end EventOnly

/-- An event sets its pending bit. -/
theorem State.evtPend_event (s : State) {n : Nat} (hn : n < 1024) (c : Nat) : (s.event n c).evtPend n = true := by
  have set : (s.pend n).evtPend n = true := by rw [State.evtPend_pend, decide_eq_true rfl, Bool.or_true]
  exact (EventOnly.event_of_pend (.refl _) c).pends n hn set

end Sys2Proof.Machine
end

section
/-! PROOFS. Access faults (R358, R368), requesters without privilege (R360, R361), and the descriptors of the queues (R91, R22). -/

namespace OnlyReported
open Sys2Proof Sys2Proof.Machine

/-! ### The report of an access fault -/

/-- What an event leaves, a report of an access fault leaves too. -/
protected theorem of_event {s t : State} (h : EventOnly s t) : OnlyReported s t := by
  refine ⟨h.units, h.host, h.queues, fun f hf => h.regs f fun key => hf ?_⟩
  obtain pend | low | empty | (free | alloc | used | count | full) | drops := key
  · exact .inr (.inr (.inl pend))
  · exact .inr (.inr (.inr (.inl low)))
  · exact .inr (.inr (.inr (.inr (.inl empty))))
  · exact .inr (.inr (.inr (.inr (.inr (.inl free)))))
  · exact .inr (.inr (.inr (.inr (.inr (.inr (.inl alloc))))))
  · exact .inr (.inr (.inr (.inr (.inr (.inr (.inr (.inl used)))))))
  · exact .inr (.inr (.inr (.inr (.inr (.inr (.inr (.inr (.inl count))))))))
  · exact .inr (.inr (.inr (.inr (.inr (.inr (.inr (.inr (.inr (.inl full)))))))))
  · exact .inr (.inr (.inr (.inr (.inr (.inr (.inr (.inr (.inr (.inr drops)))))))))

protected theorem refl (s : State) : OnlyReported s s := .of_event (.refl s)

protected theorem trans {a s t : State} (h : OnlyReported a s) (k : OnlyReported s t) : OnlyReported a t := by
  obtain ⟨units, host, queues, regs⟩ := h
  obtain ⟨units', host', queues', regs'⟩ := k
  exact ⟨by rw [units', units], by rw [host', host], fun q hq => (queues' q hq).trans (queues q hq),
    fun f hf => (regs' f hf).trans (regs f hf)⟩

/-- A report writes a register of the access-fault log. -/
protected theorem set {a s : State} (h : OnlyReported a s) (f : Fld) (v : Nat) (hf : ReportKey f.key) : OnlyReported a (s.set f v) :=
  h.trans ⟨rfl, rfl, fun _ _ => rfl, fun _ hg => State.get_set_ne s v fun e => hg (e ▸ hf)⟩

end OnlyReported

namespace Sys2Proof.Machine

/-- A register of the access-fault log, which follows its count. -/
theorem reportKey_of_log {x : Nat} (h : 1574912 ≤ x ∧ x < 1579008) : ReportKey x := by
  refine .inr (.inl ?_)
  simp only [HOST_AF_COUNT, HOST_AF_ADDR]
  omega

/-- A register that no event writes: those of the access-fault log and of the Timeline. -/
theorem not_eventKey {x : Nat} (h : 4096 ≤ x ∧ x < 30408704) : ¬ EventKey x := by
  unfold EventKey PoolKey
  simp only [GLB_EVT_PEND, QM_STATUS_POOL_LOW, QM_STATUS_POOL_EMPTY, QM_POOL_FREE, QM_POOL_ALLOC, QM_PART_USED,
    QM_Q_STATUS_COUNT, QM_Q_STATUS_FULL, QM_Q_DROPS]
  omega

/-- The entry that a report writes at place e of the access-fault log (R368). -/
def faultEntry (r : Req) (c : AccessCause) (write : Bool) (be addr data e : Nat) (s : State) : State :=
  let s := s.set (HOST_AF_ADDR e) addr
  let s := s.set (HOST_AF_INFO_RID e) r.rid.toNat
  let s := s.set (HOST_AF_INFO_FN e) r.fn.val
  let s := s.setB (HOST_AF_INFO_SUP e) r.sup
  let s := s.setB (HOST_AF_INFO_WRITE e) write
  let s := s.set (HOST_AF_INFO_BE e) be
  let s := s.set (HOST_AF_INFO_CAUSE e) c.code
  let s := s.set (HOST_AF_DATA e) (if write then data else 0)
  s.set (HOST_AF_TICK e) s.now

/-- A report: its entry, the place of the next one, the count, and the flag with its event. -/
theorem accessFault_eq (r : Req) (c : AccessCause) (write : Bool) (be addr data : Nat) (s : State) :
    accessFault r c write be addr data s =
      (((faultEntry r c write be addr data (s.get HOST_AF_WR) s).inc HOST_AF_WR).incSat HOST_AF_COUNT).flag
        HOST_STATUS_ACCESS_FAULT 0 := rfl

section
variable (r : Req) (c : AccessCause) (write : Bool) (be addr data : Nat) {e : Nat} (s : State)

/-- The entry changes the access-fault log alone. -/
theorem faultEntry_onlyReported (he : e < 16) : OnlyReported s (faultEntry r c write be addr data e s) := by
  have key (x : Nat) (h : 1576960 + 128 * e ≤ x ∧ x < 1576960 + 128 * e + 128) : ReportKey x := reportKey_of_log (by omega)
  unfold faultEntry State.setB
  refine OnlyReported.set (.set (.set (.set (.set (.set (.set (.set (.set (.refl s) _ _ ?_) _ _ ?_) _ _ ?_) _ _ ?_) _ _ ?_)
    _ _ ?_) _ _ ?_) _ _ ?_) _ _ ?_ <;> refine key _ ?_
  all_goals
    simp only [HOST_AF_ADDR, HOST_AF_INFO_RID, HOST_AF_INFO_FN, HOST_AF_INFO_SUP, HOST_AF_INFO_WRITE, HOST_AF_INFO_BE,
      HOST_AF_INFO_CAUSE, HOST_AF_DATA, HOST_AF_TICK]
    omega

/-- A register outside the entry's four dwords. -/
theorem faultEntry_get_ne {f : Fld} (h : f.key < 1576960 + 128 * e ∨ 1576960 + 128 * e + 128 ≤ f.key) :
    (faultEntry r c write be addr data e s).get f = s.get f := by
  unfold faultEntry State.setB
  dsimp only
  repeat rw [State.get_set_ne _ _ (by
    simp only [HOST_AF_ADDR, HOST_AF_INFO_RID, HOST_AF_INFO_FN, HOST_AF_INFO_SUP, HOST_AF_INFO_WRITE, HOST_AF_INFO_BE,
      HOST_AF_INFO_CAUSE, HOST_AF_DATA, HOST_AF_TICK]
    omega)]

/-- What the entry's fields hold. -/
theorem faultEntry_fields :
    let t := faultEntry r c write be addr data e s
    t.get (HOST_AF_ADDR e) = addr % 2 ^ 26 ∧ t.get (HOST_AF_INFO_RID e) = r.rid.toNat
      ∧ t.get (HOST_AF_INFO_FN e) = r.fn.val ∧ t.on (HOST_AF_INFO_SUP e) = r.sup ∧ t.on (HOST_AF_INFO_WRITE e) = write
      ∧ t.get (HOST_AF_INFO_BE e) = be % 16 ∧ t.get (HOST_AF_INFO_CAUSE e) = c.code
      ∧ t.get (HOST_AF_DATA e) = (if write then data % 2 ^ 32 else 0) ∧ t.get (HOST_AF_TICK e) = s.now % 2 ^ 32 := by
  have flag (b : Bool) : (b2n b % 2 ^ 1 != 0) = b := by cases b <;> rfl
  unfold faultEntry State.setB
  dsimp only
  have whole : be % 16 = be % 2 ^ 4 := rfl
  rw [whole]
  refine ⟨?_, ?_, ?_, ?_, ?_, ?_, ?_, ?_, ?_⟩
  all_goals
    simp (disch := (simp only [HOST_AF_ADDR, HOST_AF_INFO_RID, HOST_AF_INFO_FN, HOST_AF_INFO_SUP, HOST_AF_INFO_WRITE, HOST_AF_INFO_BE,
      HOST_AF_INFO_CAUSE, HOST_AF_DATA, HOST_AF_TICK, TL_NOW]; omega)) only [State.on, State.now, State.get_set_ne, State.get_set_same,
        -Nat.reducePow]
    simp only [HOST_AF_ADDR, HOST_AF_INFO_RID, HOST_AF_INFO_FN, HOST_AF_INFO_SUP, HOST_AF_INFO_WRITE, HOST_AF_INFO_BE,
      HOST_AF_INFO_CAUSE, HOST_AF_DATA, HOST_AF_TICK, flag, -Nat.reducePow]
  · exact Nat.mod_eq_of_lt r.rid.isLt
  · omega
  · cases c <;> rfl
  · split <;> rfl

/-- The machine as a report has written its entry and counted it, before it sets the flag. -/
abbrev faultLogged (r : Req) (c : AccessCause) (write : Bool) (be addr data : Nat) (s : State) : State :=
  ((faultEntry r c write be addr data (s.get HOST_AF_WR) s).inc HOST_AF_WR).incSat HOST_AF_COUNT

/-- A register of an entry, after the entries have been counted. -/
theorem faultLogged_get_entry {f : Fld} (h : 1576960 ≤ f.key) :
    (faultLogged r c write be addr data s).get f = (faultEntry r c write be addr data (s.get HOST_AF_WR) s).get f := by
  unfold faultLogged State.incSat State.inc
  rw [State.get_set_ne, State.get_set_ne] <;> simp only [HOST_AF_WR, HOST_AF_COUNT] <;> omega

/-- The place of the next entry and the count. -/
theorem faultLogged_count :
    (faultLogged r c write be addr data s).get HOST_AF_WR = (s.get HOST_AF_WR + 1) % 16
      ∧ (faultLogged r c write be addr data s).get HOST_AF_COUNT = min (s.get HOST_AF_COUNT + 1) (2 ^ 32 - 1) := by
  have wr := faultEntry_get_ne r c write be addr data (e := s.get HOST_AF_WR) s (f := HOST_AF_WR)
    (.inl (by simp only [HOST_AF_WR]; omega))
  have count := faultEntry_get_ne r c write be addr data (e := s.get HOST_AF_WR) s (f := HOST_AF_COUNT)
    (.inl (by simp only [HOST_AF_COUNT]; omega))
  have ne : HOST_AF_WR.key ≠ HOST_AF_COUNT.key := by decide
  unfold faultLogged State.incSat State.inc
  rw [State.get_set_ne _ _ ne, State.get_set_same, wr, State.get_set_same, State.get_set_ne _ _ ne.symm, count]
  refine ⟨rfl, ?_⟩
  simp only [satN, HOST_AF_COUNT]
  omega

/-- Counting the entry changes the access-fault log alone. -/
theorem faultLogged_onlyReported : OnlyReported s (faultLogged r c write be addr data s) :=
  ((faultEntry_onlyReported r c write be addr data s (State.get_lt s HOST_AF_WR)).set _ _
    (reportKey_of_log (by decide))).set _ _ (reportKey_of_log (by decide))

/-- The flag and its event leave the access-fault log. -/
theorem accessFault_get {f : Fld} (h : 4096 ≤ f.key ∧ f.key < 30408704) (hf : f.key ≠ HOST_STATUS_ACCESS_FAULT.key) :
    (accessFault r c write be addr data s).get f = (faultLogged r c write be addr data s).get f := by
  have set : ((faultLogged r c write be addr data s).setB HOST_STATUS_ACCESS_FAULT true).get f
      = (faultLogged r c write be addr data s).get f := State.get_set_ne _ _ hf
  rw [accessFault_eq, State.flag, State.stick]
  dsimp only
  split
  · rw [(EventOnly.event (.refl _) (by decide : 0 < 1024)).regs f (not_eventKey h), set]
  · exact set

/-- A report changes the access-fault log, its flag and what its event changes. -/
theorem accessFault_onlyReported : OnlyReported s (accessFault r c write be addr data s) := by
  have flagged := (faultLogged_onlyReported r c write be addr data s).set HOST_STATUS_ACCESS_FAULT 1 (.inl rfl)
  rw [accessFault_eq, State.flag, State.stick]
  dsimp only
  split
  · exact flagged.trans (.of_event (.event (.refl _) (by decide : 0 < 1024)))
  · exact flagged

/-- A report sets the flag, with event 0 when it was clear. -/
theorem accessFault_flag :
    (accessFault r c write be addr data s).on HOST_STATUS_ACCESS_FAULT = true
      ∧ (s.on HOST_STATUS_ACCESS_FAULT = false → (accessFault r c write be addr data s).evtPend 0 = true) := by
  have set := State.on_setB_same (faultLogged r c write be addr data s) HOST_STATUS_ACCESS_FAULT true (by decide)
  have was : (faultLogged r c write be addr data s).on HOST_STATUS_ACCESS_FAULT = s.on HOST_STATUS_ACCESS_FAULT := by
    unfold faultLogged State.on State.incSat State.inc
    rw [State.get_set_ne _ _ (by decide), State.get_set_ne _ _ (by decide),
      faultEntry_get_ne _ _ _ _ _ _ _ (.inl (by simp only [HOST_STATUS_ACCESS_FAULT]; omega))]
  rw [accessFault_eq, State.flag, State.stick, was]
  dsimp only
  cases s.on HOST_STATUS_ACCESS_FAULT with
  | true => exact ⟨set, fun h => absurd h (by decide)⟩
  | false =>
    refine ⟨?_, fun _ => State.evtPend_event _ (by decide) 0⟩
    have kept := (EventOnly.event (.refl ((faultLogged r c write be addr data s).setB HOST_STATUS_ACCESS_FAULT true))
      (by decide : 0 < 1024)).regs HOST_STATUS_ACCESS_FAULT (not_eventKey (by decide))
    show (State.get _ _ != 0) = true
    rw [Bool.not_false, if_pos rfl, kept]
    exact set

end

/-! ### Writes that are refused -/

/-- A write request of one dword through BAR0 writes it. -/
theorem exec_registerWrite_one {r : Req} {addr : BitVec 26} {be : BitVec 4} {v : Dword} {s : State} {a : Nat} (bar0 : r.space = .bar0)
    (maps : pf0Offset r (addr.toNat - addr.toNat % 4) = some a) :
    exec (.registerWrite r addr [(be, v)]) s = .next (writeDword r be.toNat a v.toNat s) := by
  show execRegisterWrite r addr [(be, v)] s = _
  rw [execRegisterWrite, if_pos bar0, writeRequest, maps]
  rfl

/-- Byte enables other than all four. -/
theorem toNat_ne_of_ne {be : BitVec 4} (h : be ≠ 0xF) : be.toNat ≠ 0xF := fun e => h (BitVec.eq_of_toNat_eq e)

/-- Settles O51: a refused write is its report, and a report is one entry, its count, its flag and its event. -/
theorem accessFaultsAreLoggedOnly : Obligations.AccessFaultsAreLoggedOnly := by
  refine ⟨?width, ?unimplemented, ?frame, ?dec, ?report⟩
  case width =>
    intro r addr be v s a bar0 part maps
    rw [exec_registerWrite_one bar0 maps, writeDword, if_pos (toNat_ne_of_ne part)]
  case unimplemented =>
    intro r addr v s a bar0 maps window place
    rw [exec_registerWrite_one bar0 maps, writeDword, if_neg (by decide)]
    simp only [window, place]
    rfl
  case frame =>
    intro r f dw be v s part
    exact ⟨_, congrArg Host.Outcome.next (if_neg (toNat_ne_of_ne part)), accessFault_onlyReported ..⟩
  case dec =>
    intro r x be v s part
    exact ⟨_, congrArg Host.Outcome.next (if_neg part), accessFault_onlyReported ..⟩
  case report =>
    intro r c write be addr data s e t
    have he : e < 16 := State.get_lt s HOST_AF_WR
    have logged (f : Fld) (h : 1576960 ≤ f.key ∧ f.key < 1579008) : t.get f = (faultEntry r c write be addr data e s).get f := by
      rw [accessFault_get r c write be addr data s (by omega) (by simp only [HOST_STATUS_ACCESS_FAULT]; omega),
        faultLogged_get_entry r c write be addr data s h.1]
    have other (f : Fld) (j : Nat) (hj : j < 16) (ne : j ≠ e) (h : 1576960 + 128 * j ≤ f.key ∧ f.key < 1576960 + 128 * j + 128) :
        t.get f = s.get f := (logged f (by omega)).trans (faultEntry_get_ne r c write be addr data s (by omega))
    obtain ⟨addr', rid, fn, sup, wr, be', cause, data', tick⟩ := faultEntry_fields r c write be addr data (e := e) s
    obtain ⟨next, count⟩ := faultLogged_count r c write be addr data s
    obtain ⟨flag, event⟩ := accessFault_flag r c write be addr data s
    refine ⟨accessFault_onlyReported .., (logged _ ?_).trans addr', (logged _ ?_).trans rid, (logged _ ?_).trans fn,
      (congrArg (· != 0) (logged _ ?_)).trans sup, (congrArg (· != 0) (logged _ ?_)).trans wr, (logged _ ?_).trans be',
      (logged _ ?_).trans cause, (logged _ ?_).trans data', (logged _ ?_).trans tick,
      (accessFault_get r c write be addr data s (by decide) (by decide)).trans next,
      (accessFault_get r c write be addr data s (by decide) (by decide)).trans count, flag, event,
      fun j hj ne => ⟨other _ j hj ne ?_, other _ j hj ne ?_, other _ j hj ne ?_⟩⟩
    all_goals
      simp only [HOST_AF_ADDR, HOST_AF_INFO_RID, HOST_AF_INFO_FN, HOST_AF_INFO_SUP, HOST_AF_INFO_WRITE, HOST_AF_INFO_BE,
        HOST_AF_INFO_CAUSE, HOST_AF_DATA, HOST_AF_TICK]
      omega

/-! ### Requesters without privilege (R360, R361) -/

/-- A privileged write by a requester without privilege is its report, or has nothing to report. -/
theorem next_privileged_onlyReported {r : Req} {s : State} (unprivileged : isPriv r s = false) (f : Fld) (v : Nat) (k : State → State) :
    ∃ t, (.next (privileged r f v s k) : Ans) = .next t ∧ OnlyReported s t := by
  refine ⟨_, rfl, ?_⟩
  rw [privileged, ite_of_false unprivileged]
  split
  · exact .refl s
  · exact accessFault_onlyReported ..

/-- A requester is privileged as the Supervisor, or through PF0 with the RID that HOST_SEC_RID holds while it is VALID. -/
theorem isPriv_iff (r : Req) (s : State) : isPriv r s = true ↔ (r.sup = true ∨ (r.fn = 0 ∧ s.on HOST_SEC_RID_VALID = true
    ∧ r.rid.toNat = s.get HOST_SEC_RID_RID)) := by
  simp only [isPriv, Bool.or_eq_true, Bool.and_eq_true, beq_iff_eq, and_assoc]

/-- The high half of NT_INC from a requester without privilege is its report, or has nothing to report. -/
theorem execNtIncWrite_onlyReported {r : Req} {s : State} (unprivileged : isPriv r s = false) (hi : Dword) :
    ∃ t, execNtIncWrite r hi s = .next t ∧ OnlyReported s t := by
  refine ⟨_, rfl, ?_⟩
  rw [ite_of_false unprivileged]
  split
  · exact .refl s
  · exact accessFault_onlyReported ..

/-- Settles O50: every privileged command is a privileged write, whose requester is judged before it has an effect. -/
theorem unprivilegedRequestersChangeNothing : Obligations.UnprivilegedRequestersChangeNothing := by
  refine ⟨isPriv_iff, fun r c s unprivileged writes => ?_⟩
  have refused := @next_privileged_onlyReported r s unprivileged
  cases c
  case ntIncWrite q hi =>
    obtain rfl : q = r := writes
    exact execNtIncWrite_onlyReported unprivileged hi
  case mbxRing q m =>
    obtain ⟨rfl, privilegedBox⟩ : q = r ∧ (m.val < 4 ∨ 12 ≤ m.val) := writes
    show ∃ t, execMbxRing q m s = .next t ∧ _
    rw [execMbxRing, if_pos privilegedBox]
    exact refused _ _ _
  all_goals first
    | (obtain rfl := (writes : _ = r); exact refused _ _ _)
    | exact absurd writes id

end Sys2Proof.Machine
end

section
/-! PROOFS. The commands that start, stop and configure sequencers, Tuns and barriers (R63 to R65, R81, R83, R86, R96), the firing of
an entry (R78), and an instruction whose condition is false (R99, R116). -/

namespace Sys2Proof.Machine

/-! ### Instructions whose condition is false (R99) -/

/-- Each row of a pulse instruction runs a body of its own through `instr`. -/
theorem exec_seqRows : ∀ row ∈ seqRows, ∃ body : Fin 512 → Nat → Nat → State → State,
    ∀ k s, exec (row.2 k) s = .next (instr row.1 k s (body k)) := by
  intro row mem
  simp only [seqRows, List.cons_append, List.nil_append, List.mem_cons, List.not_mem_nil, or_false] at mem
  rcases mem with rfl | rfl | rfl | rfl | rfl | rfl | rfl | rfl | rfl | rfl | rfl | rfl | rfl | rfl | rfl | rfl | rfl | rfl |
    rfl | rfl | rfl | rfl | rfl | rfl | rfl | rfl | rfl | rfl | rfl | rfl | rfl | rfl | rfl | rfl | rfl | rfl | rfl | rfl |
    rfl | rfl <;> exact ⟨_, fun _ _ => rfl⟩

/-- Settles O52: the conditions are those of R99, and `instr_skips` gives the retirement of a row whose condition is false. -/
theorem falseConditionsOnlyRetire : Obligations.FalseConditionsOnlyRetire := by
  unfold Obligations.FalseConditionsOnlyRetire
  constructor
  · intro q
    have ne : ∀ a b : Bool, (a != b) = decide (a ≠ b) := by decide
    exact ⟨rfl, rfl, rfl, rfl, rfl, rfl, rfl, rfl, rfl, rfl, rfl, rfl, ne _ _, rfl, congrArg (q.z || ·) (ne _ _), rfl⟩
  · intro row mem k s u boundary inside opcode rule off x
    obtain ⟨body, runs⟩ := exec_seqRows row mem
    exact ⟨_, (runs k s).trans (congrArg Host.Outcome.next (instr_skips (body k) rfl boundary inside opcode rule off)),
      retires_of_seq rfl rfl rfl, (OnlySeq.refl k _ x).retire (List.mem_singleton_self _) _⟩

/-! ### Sequencers (R63 to R65) -/

/-- What a privileged requester's write does. -/
theorem privileged_of {r : Req} {s : State} (priv : Privileged r s) (f : Fld) (v : Nat) (act : State → State) :
    privileged r f v s act = act s := if_pos priv

/-- A move of a sequencer to a state leaves every other register of the units. -/
theorem setSeqState_get {k : Nat} (hk : k < 512) (st : Nat) (s : State) {f : Fld} (unit : UnitKey f.key)
    (ne : f.key ≠ (SEQ_STATUS_STATE k).key) : (setSeqState k st s).get f = s.get f := by
  unfold setSeqState
  split
  · rfl
  · rw [State.event_get _ (by omega) _ unit, State.get_set_ne _ _ ne]

/-- A move of a sequencer to a state leaves every byte. -/
theorem setSeqState_byte {k : Nat} (hk : k < 512) (st : Nat) (s : State) (a : Nat) : (setSeqState k st s).byte a = s.byte a := by
  unfold setSeqState
  split
  · rfl
  · exact State.event_byte _ (by omega) _ _

/-- A program register is a register of a unit. -/
theorem unitKey_greg {k n : Nat} (hk : k < 512) (hn : n < 16) : UnitKey (SEQ_GREG_G k n).key := by
  simp only [UnitKey, SEQ_GREG_G]
  omega

/-- A program register is not the state of its sequencer. -/
theorem greg_ne_state {k n : Nat} (hn : n < 16) : (SEQ_GREG_G k n).key ≠ (SEQ_STATUS_STATE k).key := by
  simp only [SEQ_GREG_G, SEQ_STATUS_STATE]
  omega

/-- A program register is not the cursor of its sequencer. -/
theorem greg_ne_cursor {k n : Nat} (hn : n < 16) : (SEQ_GREG_G k n).key ≠ (SEQ_CURSOR k).key := by
  simp only [SEQ_GREG_G, SEQ_CURSOR]
  omega

section
variable {k : Nat} (hk : k < 512) (t : Nat) (s : State)
include hk

/-- What a START leaves beside the registers of a sequencer. -/
theorem startSeq_seq : (startSeq k t s).seq k =
    { s.seq k with z := false, n := false, c := false, v := false, stack := [], shotOpen := false,
                   shotT0 := (if s.on (SEQ_CTRL_START_MODE k) then s.get (SEQ_START_AT k) else t + s.get (SEQ_START_LEAD k)) % 2 ^ 64,
                   readyAt := t, stopNext := false, rings := [], stall := none, pause := 0, micro := {}, pcOver := false } := by
  unfold startSeq
  dsimp only
  rw [setSeqState_seq _ _ _ _ hk, State.set_seq, setPc, State.set_seq, State.seq_modSeq_same, State.seq_modSeq_same]
  rfl

/-- A START leaves the other sequencers. -/
theorem startSeq_seq_ne {j : Nat} (ne : j ≠ k) : (startSeq k t s).seq j = s.seq j := by
  unfold startSeq
  dsimp only
  rw [setSeqState_seq _ _ _ _ hk, State.set_seq, setPc, State.set_seq, State.seq_modSeq_ne _ _ ne, State.seq_modSeq_ne _ _ ne]

/-- A START leaves the program counter at 0. -/
theorem startSeq_pc : (startSeq k t s).get (SEQ_PC k) = 0 := by
  unfold startSeq
  dsimp only
  rw [setSeqState_get hk, State.get_set_ne, setPc, State.get_set_same]
  · exact Nat.zero_mod _
  · exact (cursor_ne_pc k).symm
  · simp only [UnitKey, SEQ_PC]; omega
  · simp only [SEQ_PC, SEQ_STATUS_STATE]; omega

/-- A START sets the cursor. -/
theorem startSeq_cursor : (startSeq k t s).get (SEQ_CURSOR k) =
    (if s.on (SEQ_CTRL_START_MODE k) then s.get (SEQ_START_AT k) else t + s.get (SEQ_START_LEAD k)) % 2 ^ 64 := by
  unfold startSeq
  dsimp only
  rw [setSeqState_cursor _ _ _ hk, State.get_set_same]
  rfl

/-- A START leaves the program registers. -/
theorem startSeq_greg {n : Nat} (hn : n < 16) : greg k n (startSeq k t s) = greg k n s := by
  unfold startSeq greg
  dsimp only
  rw [Nat.mod_eq_of_lt hn, setSeqState_get hk _ _ (unitKey_greg hk hn) (greg_ne_state hn), State.get_set_ne _ _ (greg_ne_cursor hn),
    setPc, State.get_set_ne _ _ (greg_ne_pc k k n hn)]
  rfl

/-- A START leaves every byte. -/
theorem startSeq_byte (a : Nat) : (startSeq k t s).byte a = s.byte a := by
  unfold startSeq
  dsimp only
  rw [setSeqState_byte hk]
  rfl

end

/-- Settles O15, with the state that `startSeq` gives. -/
theorem startGivesACleanRunningSequencer : Obligations.StartGivesACleanRunningSequencer := by
  unfold Obligations.StartGivesACleanRunningSequencer
  intro r k s priv ok late
  refine ⟨_, exec_start_of_ok priv ok late, setSeqState_state _ _ _ k.isLt (by decide), startSeq_pc k.isLt _ _,
    startSeq_cursor k.isLt _ _, ?_⟩
  rw [startSeq_seq k.isLt]
  exact ⟨rfl, rfl, rfl, rfl, rfl, rfl, rfl, rfl, rfl, rfl, fun j ne => startSeq_seq_ne k.isLt _ _ ne,
    fun n hn => startSeq_greg k.isLt _ _ hn, startSeq_byte k.isLt _ _⟩

/-! ### START, STOP and the enables (R63 to R65, R81, R83, R86, R96) -/

section
variable {r : Req} {s : State}

/-- The mark of a refused sequencer in a GROUP_START. -/
def groupMark (s : State) (k : Nat) : State :=
  if startOk k s = false then flagged k (SEQ_STATUS_START_REFUSED k) s
  else if startLate k s.now s then flagged k (SEQ_STATUS_START_LATE k) (flagged k (SEQ_STATUS_START_REFUSED k) s) else s

/-- The sequencers that a mask names are those of its set bits. -/
theorem mem_masked (t : Fin 64) (m : BitVec 8) (k : Nat) :
    k ∈ masked t m ↔ ∃ j, j < 8 ∧ m.toNat.testBit j = true ∧ 8 * t.val + j = k := by
  simp only [masked, setBits, List.mem_map, List.mem_filter, List.mem_range, and_assoc]

/-- The next state of a GROUP_START. -/
theorem exec_groupStart (priv : Privileged r s) (t : Fin 64) (m : BitVec 8) : exec (.groupStart r t m) s = .next (
    if (masked t m).all fun k => startOk k s && !startLate k s.now s then (masked t m).foldl (fun s k => startSeq k s.now s) s
    else ((masked t m).foldl groupMark s).flag (TUN_STATUS_GROUP_REFUSED t) (640 + t)) := by
  have mark : groupMark = fun s k => if !startOk k s then refuseStart k s
      else if startLate k s.now s then lateStart k s else s := by
    funext s k
    simp only [groupMark, Bool.not_eq_true']
    rfl
  rw [mark]
  exact congrArg _ (privileged_of priv _ _ _)

/-- Where every masked sequencer can start, GROUP_START starts them all. -/
theorem exec_groupStart_of_all (priv : Privileged r s) {t : Fin 64} {m : BitVec 8}
    (all : ∀ j, j < 8 → m.toNat.testBit j = true → startOk (8 * t + j) s = true ∧ startLate (8 * t + j) s.now s = false) :
    exec (.groupStart r t m) s = .next ((masked t m).foldl (fun s k => startSeq k s.now s) s) := by
  refine (exec_groupStart priv t m).trans (congrArg Host.Outcome.next (if_pos (List.all_eq_true.2 fun k mem => ?_)))
  obtain ⟨j, lt, bit, rfl⟩ := (mem_masked t m k).1 mem
  obtain ⟨ok, late⟩ := all j lt bit
  simp only [ok, late, Bool.not_false, Bool.and_self]

/-- Where one masked sequencer cannot start, GROUP_START starts none. -/
theorem exec_groupStart_of_not (priv : Privileged r s) {t : Fin 64} {m : BitVec 8} {j : Nat} (lt : j < 8)
    (bit : m.toNat.testBit j = true) (bad : startOk (8 * t + j) s = false ∨ startLate (8 * t + j) s.now s = true) :
    exec (.groupStart r t m) s = .next (((masked t m).foldl groupMark s).flag (TUN_STATUS_GROUP_REFUSED t) (640 + t)) := by
  refine (exec_groupStart priv t m).trans (congrArg Host.Outcome.next (if_neg fun all => ?_))
  have one := List.all_eq_true.1 all _ ((mem_masked t m _).2 ⟨j, lt, bit, rfl⟩)
  rcases bad with ok | late
  · simp [ok] at one
  · simp [late] at one

variable {k : Fin 512}

/-- STOP of a sequencer that runs a program. -/
theorem stopSeq_of_runs {k : Nat} (runs : seqState k s = stRunning ∨ seqState k s = stStalled ∨ seqState k s = stTrapped) :
    stopSeq k s = abortDone k (stopRunning k .hostStop s.now s) := (if_pos runs).trans rfl

/-- HOST_STOP of a stalled sequencer traps it at once. -/
theorem stopRunning_of_stalled {k : Nat} (stall : (s.seq k).stall.isSome) (none : (s.seq k).abort = none) :
    stopRunning k .hostStop s.now s =
      abortTrap k .hostStop 0x09 (presentUpc k s) (presentCommits k s) s.now s := by
  simp only [stopRunning, stopTrap, stall, none, Option.isNone_none, Option.isSome_none, true_or, if_true,
    Option.isNone_eq_false_iff.2 stall, Bool.false_eq_true, false_and, and_false, if_false]

/-- STOP of a HALTED or FAULTED sequencer aborts its shots and makes it IDLE. -/
theorem stopSeq_of_rests {k : Nat} (rests : seqState k s = stHalted ∨ seqState k s = stFaulted) :
    stopSeq k s = (let u := abortShots k (inFlight k s) s.now s
      setSeqState k stIdle (if seqState k s = stHalted then u.set (SEQ_FAULT_CODE k) 0x09 else u)) := by
  have stays : ¬(seqState k s = stRunning ∨ seqState k s = stStalled ∨ seqState k s = stTrapped) := by
    rcases rests with e | e <;> rw [e] <;> decide
  exact (if_neg stays).trans (if_pos rests)

/-- STOP leaves an IDLE sequencer. -/
theorem stopSeq_of_idle {k : Nat} (idle : seqState k s = stIdle) : stopSeq k s = s := by
  simp only [stopSeq, idle, stIdle, stRunning, stStalled, stTrapped, stHalted, stFaulted, Nat.reduceEqDiff, or_self, if_false]

/-- What STOP does for a privileged requester. -/
theorem exec_stop (priv : Privileged r s) : exec (.stop r k) s = .next (stopSeq k s) :=
  congrArg Host.Outcome.next (privileged_of priv _ _ _)

/-- CLEAR of a HALTED or FAULTED sequencer leaves it IDLE with no fault, and leaves the rest. -/
theorem clear_frame (hk : k.val < 512) :
    let t := setSeqState k stIdle ((s.set (SEQ_FAULT_CODE k) 0).set (SEQ_FAULT_IADDR k) 0)
    seqState k t = stIdle ∧ t.get (SEQ_FAULT_CODE k) = 0 ∧ t.get (SEQ_FAULT_IADDR k) = 0
      ∧ (∀ j, t.seq j = s.seq j) ∧ (∀ a, t.byte a = s.byte a)
      ∧ (∀ j, j ≠ k.val → j < 512 → seqState j t = seqState j s) := by
  refine ⟨setSeqState_state _ _ _ hk (by decide), ?code, ?iaddr, fun j => setSeqState_seq _ _ j _ hk, setSeqState_byte hk _ _, ?others⟩
  case code =>
    rw [setSeqState_get hk, State.get_set_ne, State.get_set_same, Nat.zero_mod] <;>
      simp only [UnitKey, SEQ_FAULT_CODE, SEQ_FAULT_IADDR, SEQ_STATUS_STATE] <;> omega
  case iaddr =>
    rw [setSeqState_get hk, State.get_set_same, Nat.zero_mod] <;>
      simp only [UnitKey, SEQ_FAULT_IADDR, SEQ_STATUS_STATE] <;> omega
  case others =>
    intro j ne hj
    unfold seqState
    rw [setSeqState_get hk, State.get_set_ne, State.get_set_ne] <;>
      simp only [UnitKey, SEQ_FAULT_CODE, SEQ_FAULT_IADDR, SEQ_STATUS_STATE] <;> omega

/-- CLEAR of a HALTED or FAULTED sequencer. -/
theorem exec_clear_of_rests (priv : Privileged r s) (rests : seqState k s = stHalted ∨ seqState k s = stFaulted) :
    exec (.clear r k) s = .next (setSeqState k stIdle ((s.set (SEQ_FAULT_CODE k) 0).set (SEQ_FAULT_IADDR k) 0)) :=
  congrArg Host.Outcome.next ((privileged_of priv _ _ _).trans (if_pos rests))

/-- A write of SEQ_CTRL.EN is refused for 0 outside IDLE, and else taken. -/
theorem seqEnWrite_eq (k : Nat) (on : Bool) : seqEnWrite k on s =
    if on = false ∧ s.on (SEQ_CTRL_EN k) = true ∧ seqState k s ≠ stIdle then flagged k (SEQ_STATUS_EN_REFUSED k) s
    else s.setB (SEQ_CTRL_EN k) on := by
  simp only [seqEnWrite, Bool.and_eq_true, Bool.not_eq_true', bne_iff_ne, and_assoc]
  rfl

/-- TUN_CTRL.EN takes 0 where it holds 0 or every sequencer is IDLE. -/
theorem tunEnWrite_of_idle {t : Nat} (idle : s.on (TUN_CTRL_EN t) = false ∨ ∀ j, j < 8 → seqState (8 * t + j) s = stIdle) :
    tunEnWrite t false s = s.setB (TUN_CTRL_EN t) false := by
  refine if_neg fun h => ?_
  simp only [Bool.and_eq_true, List.any_eq_true, List.mem_range, bne_iff_ne] at h
  obtain ⟨⟨-, on⟩, j, lt, busy⟩ := h
  rcases idle with off | idle
  · exact absurd (off.symm.trans on) Bool.false_ne_true
  · exact busy (idle j lt)

/-- TUN_CTRL.EN refuses 0 while a sequencer is not IDLE. -/
theorem tunEnWrite_of_busy {t j : Nat} (on : s.on (TUN_CTRL_EN t) = true) (lt : j < 8) (busy : seqState (8 * t + j) s ≠ stIdle) :
    tunEnWrite t false s = s.flag (TUN_STATUS_EN_REFUSED t) (640 + t) := by
  refine if_pos ?_
  simp only [Bool.and_eq_true, List.any_eq_true, List.mem_range, bne_iff_ne]
  exact ⟨⟨rfl, on⟩, j, lt, busy⟩

/-- QM_BAR_CFG is written while nothing waits at the barrier. -/
theorem barCfgWrite_of_empty {b v : Nat} (arrivals : (s.bar b).arrivals = []) (rounds : (s.bar b).rounds = []) :
    barCfgWrite b v s = (s.set (QM_BAR_CFG_COUNT b) v).set (QM_BAR_CFG_TIMEOUT b) (v / 1024) := by
  simp only [barCfgWrite, arrivals, rounds, List.isEmpty_nil, Bool.not_true, Bool.or_self, Bool.false_eq_true, if_false]

/-- A write of QM_BAR_CFG is refused while something waits at the barrier. -/
theorem barCfgWrite_of_waiting {b v : Nat} (waiting : (s.bar b).arrivals ≠ [] ∨ (s.bar b).rounds ≠ []) :
    barCfgWrite b v s = s.flagAlways QM_STATUS_CFG_WHILE_ENABLED 760 := by
  refine if_pos ?_
  simpa only [Bool.or_eq_true, Bool.not_eq_true', List.isEmpty_eq_false_iff] using waiting

end

/-- Settles O14, clause by clause from the equations above. -/
theorem sequencerControlFollowsItsState : Obligations.SequencerControlFollowsItsState := by
  unfold Obligations.SequencerControlFollowsItsState
  refine ⟨?start, ?group, ?groupRefused, ?stop, ?stopStalled, ?stopRests, ?stopIdle, ?stopAtShot, ?clear, ?clearOther, ?slack,
    ?seqEn, ?tunOn, ?tunOff, ?tunBusy, ?bar, ?barBusy⟩
  case start =>
    intro r k s priv
    refine congrArg Host.Outcome.next ((privileged_of priv _ _ _).trans ?_)
    simp only [Bool.not_eq_true']
    rfl
  case group => exact fun r t m s priv all => exec_groupStart_of_all priv all
  case groupRefused => exact fun r t m s j priv lt bit bad => exec_groupStart_of_not priv lt bit bad
  case stop =>
    exact fun r k s priv runs _ => (exec_stop priv).trans (congrArg _ (stopSeq_of_runs (runs.imp_right Or.inr)))
  case stopStalled =>
    intro r k s priv stalled stall none
    rw [exec_stop priv, stopSeq_of_runs (.inr (.inl stalled)), stopRunning_of_stalled stall none]
  case stopRests => exact fun r k s priv rests => (exec_stop priv).trans (congrArg _ (stopSeq_of_rests rests))
  case stopIdle => exact fun r k s priv idle => (exec_stop priv).trans (congrArg _ (stopSeq_of_idle idle))
  case stopAtShot => exact fun r k s priv => congrArg Host.Outcome.next (privileged_of priv _ _ _)
  case clear =>
    intro r k s priv rests
    obtain ⟨idle, code, iaddr, seqs, bytes, others⟩ := clear_frame (s := s) k.isLt
    exact ⟨_, exec_clear_of_rests priv rests, idle, code, iaddr, seqs, bytes, fun j ne _ => others j (Fin.val_ne_of_ne ne) j.isLt⟩
  case clearOther =>
    exact fun r k s priv halted faulted =>
      congrArg Host.Outcome.next ((privileged_of priv _ _ _).trans (if_neg fun h => h.elim halted faulted))
  case slack => exact fun k s => rfl
  case seqEn =>
    exact fun r k on s priv => congrArg Host.Outcome.next ((privileged_of priv _ _ _).trans (seqEnWrite_eq _ _))
  case tunOn => exact fun r t s priv => congrArg Host.Outcome.next (privileged_of priv _ _ _)
  case tunOff =>
    exact fun r t s priv idle => congrArg Host.Outcome.next ((privileged_of priv _ _ _).trans (tunEnWrite_of_idle idle))
  case tunBusy =>
    exact fun r t s j priv on lt busy => congrArg Host.Outcome.next ((privileged_of priv _ _ _).trans (tunEnWrite_of_busy on lt busy))
  case bar =>
    exact fun r b v s priv a b => congrArg Host.Outcome.next ((privileged_of priv _ _ _).trans (barCfgWrite_of_empty a b))
  case barBusy =>
    exact fun r b v s priv waiting => congrArg Host.Outcome.next ((privileged_of priv _ _ _).trans (barCfgWrite_of_waiting waiting))

/-! ### Firing (R78) -/

section
variable {kind k j : Nat} {s : State}

/-- A head of another kind does not fire. -/
theorem fireHead_of_other (other : headKind k j s ≠ some kind) : fireHead kind k j s = s := by
  unfold fireHead
  split
  · rfl
  · next e rest eq =>
    refine if_neg fun same => other ?_
    rw [headKind, eq, ← same]
    rfl

/-- A head of the kind has left by the time of its firing. -/
theorem fireHead_of_gone {e : Entry} {rest : List Entry} (head : teq k j s = e :: rest) (same : e.kind = kind)
    (gone : headKind k j (runTo (keyOf e.tick (rankEntry e.seq j kind)) s) ≠ some kind) :
    fireHead kind k j s = runTo (keyOf e.tick (rankEntry e.seq j kind)) s := by
  simp only [fireHead, head, if_pos same]
  split
  · rfl
  · next e' rest' eq =>
    refine if_neg fun same => gone ?_
    rw [headKind, eq, ← same]
    rfl

/-- A head of the kind fires. -/
theorem fireHead_of_head {e : Entry} {rest : List Entry} (head : teq k j s = e :: rest) (same : e.kind = kind)
    {e' : Entry} {rest' : List Entry} (later : teq k j (runTo (keyOf e.tick (rankEntry e.seq j kind)) s) = e' :: rest')
    (still : e'.kind = kind) :
    fireHead kind k j s = (let v := entryAct e' (popTeq k j e'.tick (runTo (keyOf e.tick (rankEntry e.seq j kind)) s))
      noteEntry e' (entryEnd e' v) v) := by
  simp only [fireHead, fireEntry, head, if_pos same, later, if_pos still]

/-- A command that fires heads of a kind fires them by what entries of that kind do. -/
theorem fires_of_fireHead {effect : Entry → State → State} (act : ∀ e u, e.kind = kind → entryAct e u = effect e u) :
    Fires kind k j effect s (.next (fireHead kind k j s)) := by
  refine ⟨fun other => congrArg _ (fireHead_of_other other), fun e rest head same =>
    ⟨fun gone => ?_, fun e' rest' later still => ?_⟩⟩
  · exact congrArg _ (fireHead_of_gone head same gone)
  · dsimp only
    rw [fireHead_of_head head same later still, act _ _ still]

end

/-- Settles O16: each command is `fireHead` of its kind, and `entryAct` acts by the kind. -/
theorem headEntriesFireByKind : Obligations.HeadEntriesFireByKind := by
  unfold Obligations.HeadEntriesFireByKind
  intro k j s
  refine ⟨fires_of_fireHead ?_, fires_of_fireHead ?_, fires_of_fireHead ?_, fires_of_fireHead ?_, fires_of_fireHead ?_,
    fires_of_fireHead ?_, fires_of_fireHead ?_⟩ <;>
  · intro e u kind
    simp only [entryAct, kind]

end Sys2Proof.Machine
end

section
/-! PROOFS. How the stalls of a sequencer end: by their limits (R53, R85, R114, R121, R125) and by what they wait for (R82, R93, R103,
R121, R125 to R127, R397, R439). -/

namespace Sys2Proof.Machine

/-! ### The codes of stalls (R106) -/

/-- The stalls that show as MSG, TRIG and ANGLE: that of an instruction of image 2.4 or of its microword. -/
theorem Stall.code_iff (c : Stall) :
    (c.code = 3 ↔ c = .msg ∨ ∃ x, c = .micro 0x30 x) ∧ (c.code = 4 ↔ (∃ a b, c = .trig a b) ∨ ∃ x, c = .micro 0x34 x)
      ∧ (c.code = 6 ↔ c = .angle ∨ ∃ x, c = .micro 0x24 x) := by
  cases c with
  | micro uop x =>
    simp only [Stall.code, reduceCtorEq, Stall.micro.injEq, false_or, exists_and_left, exists_eq', and_true, exists_false]
    grind
  | _ => simp [Stall.code]

/-- A sequencer that shows a stall code stalls for a cause with that code. -/
theorem stallCode_eq {k n : Nat} {s : State} (h : stallCode k s = n + 1) : ∃ c, Stalled k c s ∧ c.code = n + 1 := by
  simp only [stallCode] at h
  cases e : (s.seq k).stall with
  | none => simp [e] at h
  | some c => exact ⟨c, e, by simpa [e] using h⟩

/-- A sequencer that stalls shows the code of its cause. -/
theorem stallCode_of {k : Nat} {s : State} {c : Stall} (h : (s.seq k).stall = some c) : stallCode k s = c.code := by
  simp only [stallCode, h, Option.map_some, Option.getD_some]

/-! ### Limits (R53, R85, R114, R121, R125) -/

section
variable (k : Fin 512) (s : State)

/-- What the limit of an ALIGN_ANGLE does. -/
theorem exec_angleUnlocked : exec (.angleUnlocked k) s = .next (if stallCode k s = 6 then
    afterLimit k 0x0B (2000 * s.get TL_CA_ALIGN_TIMEOUT) s else s) := by
  refine congrArg Host.Outcome.next ?_
  by_cases six : stallCode k s = 6
  · rw [if_pos six]
    obtain ⟨c, stall, code⟩ := stallCode_eq six
    obtain rfl | ⟨x, rfl⟩ := c.code_iff.2.2.1 code <;> simp only [stall] <;> rfl
  · rw [if_neg six]
    split
    · exact absurd (stallCode_of ‹_›) six
    · exact absurd (stallCode_of ‹_›) six
    · rfl

/-- What the limit of a WAITTRIG does. -/
theorem exec_trigTimeout : exec (.trigTimeout k) s = .next (if stallCode k s = 4 ∧ bits (fetchWord k s) 0 16 ≠ 0 then
    afterLimit k 0x28 (2000 * bits (fetchWord k s) 0 16) s else s) := by
  have limit : usTimeout k 0x28 (bits (fetchWord k s) 0 16) s =
      if bits (fetchWord k s) 0 16 ≠ 0 then afterLimit k 0x28 (2000 * bits (fetchWord k s) 0 16) s else s := by
    rw [ite_not]
    rfl
  refine congrArg Host.Outcome.next ?_
  by_cases four : stallCode k s = 4
  · obtain ⟨c, stall, code⟩ := stallCode_eq four
    simp only [four, true_and, ← limit]
    obtain ⟨a, b, rfl⟩ | ⟨x, rfl⟩ := c.code_iff.2.1.1 code <;> simp only [stall]
  · rw [if_neg fun h => four h.1]
    split
    · exact absurd (stallCode_of ‹_›) four
    · exact absurd (stallCode_of ‹_›) four
    · rfl

/-- What the limit of a WAITMSG does. -/
theorem exec_msgTimeout : exec (.msgTimeout k) s = .next (if stallCode k s = 3 then msgTimeout k s else s) := by
  refine congrArg Host.Outcome.next ?_
  by_cases three : stallCode k s = 3
  · rw [if_pos three]
    obtain ⟨c, stall, code⟩ := stallCode_eq three
    obtain rfl | ⟨x, rfl⟩ := c.code_iff.1.1 code <;> simp only [stall]
  · rw [if_neg three]
    split
    · exact absurd (stallCode_of ‹_›) three
    · exact absurd (stallCode_of ‹_›) three
    · rfl

variable {k s}

/-- A WAITMSG without a limit, or no WAITMSG, goes on waiting. -/
theorem msgTimeout_of_none (none : stallCode k s ≠ 3 ∨ bits (fetchWord k s) 12 16 = 0) : exec (.msgTimeout k) s = .next s := by
  refine (exec_msgTimeout k s).trans (congrArg _ ?_)
  rcases none with other | zero
  · exact if_neg other
  · refine (ite_congr rfl (fun _ => if_pos (?_ : 2000 * bits (fetchWord k s) 12 16 = 0)) fun _ => rfl).trans (ite_self _)
    rw [zero]

/-- A message visible within the limit ends the WAITMSG that takes it. -/
theorem msgTimeout_of_visible (limit : bits (fetchWord k s) 12 16 ≠ 0) {it : Item}
    (seen : headVisible (bits (fetchWord k s) 32 16) ((s.seq k).since + 2000 * bits (fetchWord k s) 12 16) s = some it)
    (taker : msgTaker (bits (fetchWord k s) 32 16) s = some k.val) :
    msgTimeout k s = msgArrived k (bits (fetchWord k s) 32 16) (max it.visible (s.seq k).since) (advanceTo it.visible s) := by
  have pos : 2000 * bits (fetchWord k s) 12 16 ≠ 0 := by omega
  simp only [msgTimeout, if_neg pos, seen, if_pos taker]

/-- Without a message that this WAITMSG takes within the limit, it faults there. -/
theorem msgTimeout_of_late (limit : bits (fetchWord k s) 12 16 ≠ 0)
    (late : headVisible (bits (fetchWord k s) 32 16) ((s.seq k).since + 2000 * bits (fetchWord k s) 12 16) s = none
      ∨ msgTaker (bits (fetchWord k s) 32 16) s ≠ some k.val) :
    msgTimeout k s = afterLimit k 0x29 (2000 * bits (fetchWord k s) 12 16) s := by
  have pos : 2000 * bits (fetchWord k s) 12 16 ≠ 0 := by omega
  simp only [msgTimeout, if_neg pos]
  split
  · next seen => rw [if_neg (late.resolve_left fun none => by simp [none] at seen)]; rfl
  · rfl

/-- Without a limit, or a stall for a result, the limit of a BRR does nothing. -/
theorem resultTimeout_of_none
    (none : bits (fetchWord k s) 20 6 = 0 ∨ ∀ g, ¬Stalled k (.result g) s ∧ ¬Stalled k (.micro 0x2E g) s) :
    exec (.resultTimeout k) s = .next s := by
  refine congrArg Host.Outcome.next ?_
  rcases none with zero | other
  · exact if_pos (congrArg (256 * ·) zero)
  · refine (ite_congr rfl (fun _ => rfl) fun _ => ?_).trans (ite_self s)
    split
    · exact absurd ‹_› (other _).1
    · exact absurd ‹_› (other _).2
    · rfl

/-- At the limit of a stalled BRR, a result that arrives at the very tick comes first. -/
theorem exec_resultTimeout {g : Nat} (stall : Stalled k (.result g) s) (inactive : (s.seq k).micro.active = false)
    (limit : bits (fetchWord k s) 20 6 ≠ 0) :
    let t := (s.seq k).since + 256 * bits (fetchWord k s) 20 6
    exec (.resultTimeout k) s = .next (resultLate k t (resultReady k t (advanceTo t s))) := by
  have pos : brrTimeout (fetchWord k s) ≠ 0 := fun h => limit ((Nat.mul_eq_zero.1 h).resolve_left (by decide))
  refine congrArg Host.Outcome.next ((if_neg pos).trans ?_)
  simp only [inactive, Bool.false_eq_true, if_false]
  unfold Stalled at stall
  simp only [stall]
  rfl

/-- A BRR that still waits at its limit fails by the timeout. -/
theorem resultLate_of_stalled {t g : Nat} (stall : Stalled k (.result g) s) :
    resultLate k t s = brrFinish k (fetchWord k s) .timeout t (unstall k t s) := by
  unfold Stalled at stall
  simp only [resultLate, stall]

/-- A sequencer that no longer stalls does not fail by the timeout. -/
theorem resultLate_of_going {t : Nat} (going : (s.seq k).stall = none) : resultLate k t s = s := by
  simp only [resultLate, going]

end

/-- Settles O11, clause by clause from the equations above. -/
theorem stallsTimeOutWithTheirCode : Obligations.StallsTimeOutWithTheirCode := by
  unfold Obligations.StallsTimeOutWithTheirCode
  refine ⟨exec_angleUnlocked, exec_trigTimeout, fun k s none => msgTimeout_of_none none, ?msg, fun k s none => resultTimeout_of_none none,
    ?result, fun b s => rfl⟩
  case msg =>
    intro k s three limit
    have go := (exec_msgTimeout k s).trans (congrArg Host.Outcome.next (if_pos three))
    exact ⟨fun it seen taker => go.trans (congrArg _ (msgTimeout_of_visible limit seen taker)),
      fun late => go.trans (congrArg _ (msgTimeout_of_late limit late))⟩
  case result =>
    intro k s g stall inactive limit t u
    exact ⟨fun g' still => (exec_resultTimeout stall inactive limit).trans (congrArg _ (resultLate_of_stalled still)),
      fun going => (exec_resultTimeout stall inactive limit).trans (congrArg _ (resultLate_of_going going))⟩

/-! ### What a stall waits for (R82, R93, R103, R121, R125 to R127, R397, R439) -/

section
variable (b : Fin 256) (s : State)

/-- A barrier with no complete round releases nobody. -/
theorem barrierRelease_of_none (none : ((settled b s).bar b).rounds = []) : exec (.barrierRelease b) s = .next s := by
  show execBarrierRelease b s = _
  simp only [execBarrierRelease, none]

/-- The oldest complete round has gone by the tick of its release. -/
theorem barrierRelease_of_gone {r : Nat × List (Nat × Nat × Nat)} {rs : List (Nat × List (Nat × Nat × Nat))}
    (some : ((settled b s).bar b).rounds = r :: rs)
    (gone : ((advanceTo (r.1 + 12) (settled b s)).bar b).rounds = []) :
    exec (.barrierRelease b) s = .next (advanceTo (r.1 + 12) (settled b s)) := by
  show execBarrierRelease b s = _
  simp only [execBarrierRelease, some, gone]

end

section
variable {k : Fin 512} {s : State}

/-- The head of the queue found full has fired: the write of an instruction is made again. -/
theorem exec_teqFullStallEnd {w : HeldWrite} {t : Nat} (stall : Stalled k (.teqFull w) s) (freed : (s.seq k).freedAt = some t) :
    let e := max t (s.seq k).since
    let u := unstall k e s
    exec (.teqFullStallEnd k) s = .next (if (u.seq k).micro.active then microGo k u
      else writeEntry k (fetchWord k u / 2 ^ 56) (cyclesOf (fetchWord k u / 2 ^ 56)) w e u) := by
  unfold Stalled at stall
  show execTeqFullStallEnd k s = _
  simp only [execTeqFullStallEnd, stall, freed]

/-- Without a fired head the write stays held. -/
theorem teqFullStallEnd_of_held (held : (s.seq k).freedAt = none) : exec (.teqFullStallEnd k) s = .next s := by
  show execTeqFullStallEnd k s = _
  simp only [execTeqFullStallEnd, held]
  split
  · contradiction
  · contradiction
  · rfl

/-- A stalled BRR whose source is still behind stays stalled. -/
theorem resultReady_of_behind {t g : Nat} (stall : Stalled k (.result g) s) (behind : brrCompare k (fetchWord k s) g s = .behind) :
    resultReady k t s = s := by
  unfold Stalled at stall
  simp only [resultReady, stall, if_pos behind]

/-- A stalled BRR whose source is no longer behind takes the trap RESULT_READY. -/
theorem resultReady_of_come {t g : Nat} (stall : Stalled k (.result g) s) (come : brrCompare k (fetchWord k s) g s ≠ .behind) :
    resultReady k t s =
      (let v := unstall k t (ruleShadow k 6 (upcOf 0x29 3) t true [] s)
       if trapByRule k 6 v then brrFinish k (fetchWord k s) (brrCompare k (fetchWord k s) g v) t v
       else resultGo k t (trapBegin k 6 (.result g) t v)) := by
  unfold Stalled at stall
  simp only [resultReady, resultTrap, stall, if_neg come]

/-- A queue without a message lets nobody go on. -/
theorem msgVisible_of_empty {q : BitVec 16} (empty : (s.queue q.toNat).items = []) : exec (.msgVisible q) s = .next s := by
  show execMsgVisible q s = _
  simp only [execMsgVisible, empty]

/-- The head message becomes visible and no sequencer waits for it. -/
theorem msgVisible_of_untaken {q : BitVec 16} {it : Item} {rest : List Item} (head : (s.queue q.toNat).items = it :: rest)
    (untaken : msgTaker q.toNat (advanceTo it.visible s) = none) : exec (.msgVisible q) s = .next (advanceTo it.visible s) := by
  show execMsgVisible q s = _
  simp only [execMsgVisible, head, untaken]

/-- The head message becomes visible, and the sequencer that armed first takes it. -/
theorem msgVisible_of_taken {q : BitVec 16} {it : Item} {rest : List Item} {k : Nat} (head : (s.queue q.toNat).items = it :: rest)
    (taken : msgTaker q.toNat (advanceTo it.visible s) = some k) :
    let u := advanceTo it.visible s
    exec (.msgVisible q) s = .next (msgArrived k q.toNat (max it.visible (u.seq k).since) u) := by
  show execMsgVisible q s = _
  simp only [execMsgVisible, head, taken]

/-- A sequencer that waits for a message takes a visible one. -/
theorem msgArrived_of_visible {k q t : Nat} {m : Item} (stall : Stalled k .msg s) (seen : headVisible q t s = some m) :
    msgArrived k q t s = takeMsg k (fetchWord k s) t m (unstall k t s) := by
  unfold Stalled at stall
  simp only [msgArrived, stall, seen]

/-- Check 5 is made again for a sequencer held by it. -/
theorem exec_creditStallEnd (stall : Stalled k .credit s) :
    let t := max s.now (s.seq k).since
    exec (.creditStallEnd k) s =
      .next (if creditHolds k (seqPart k s) t s then s else shotChecks k t (unstall k t s)) := by
  unfold Stalled at stall
  show execCreditStallEnd k s = _
  simp only [execCreditStallEnd, stall]

/-- A ring with room lets a sequencer held by it go on with check 5. -/
theorem exec_ringStallEnd (stall : Stalled k .ring s) :
    let t := max s.now (s.seq k).since
    let u := advanceTo t s
    exec (.ringStallEnd k) s = .next (if ringHeld k u ∨ (u.seq k).stall ≠ some .ring then u else creditCheck k t (unstall k t u)) := by
  unfold Stalled at stall
  show execRingStallEnd k s = _
  simp only [execRingStallEnd, stall]

/-- The Kiln's wait expires and the sequencer goes on with check 4. -/
theorem exec_kilnSkipEnd {e pause e' p' : Nat} (stall : Stalled k (.kiln e pause) s) (still : Stalled k (.kiln e' p') (advanceTo e s)) :
    let u := advanceTo e s
    let v := u.inc KILN_SKIPPED (kilnSoFar (u.seq k) e)
    exec (.kilnSkipEnd k) s =
      .next (ringCheck k e (unstall k e (v.modSeq k fun q => { q with pause := pause }))) := by
  unfold Stalled at stall still
  have same : ((advanceTo e s).inc KILN_SKIPPED (kilnSoFar ((advanceTo e s).seq k) e)).seq k = (advanceTo e s).seq k := rfl
  show execKilnSkipEnd k s = _
  simp only [execKilnSkipEnd, stall, still]

/-- A sequencer that does not stall is not let go. -/
theorem stallEnds_of_going (going : (s.seq k).stall = none) :
    exec (.creditStallEnd k) s = .next s ∧ exec (.ringStallEnd k) s = .next s ∧ exec (.kilnSkipEnd k) s = .next s := by
  refine ⟨?credit, ?ring, ?kiln⟩
  case credit => show execCreditStallEnd k s = _; simp only [execCreditStallEnd, going]
  case ring => show execRingStallEnd k s = _; simp only [execRingStallEnd, going]
  case kiln => show execKilnSkipEnd k s = _; simp only [execKilnSkipEnd, going]

/-- The oldest closing shot that is done completes. -/
theorem exec_shotClosed : exec (.shotClosed k) s =
    .next (match (s.seq k).closing.find? fun n => shotDone k n s with
      | none => s
      | some n =>
        let u := s.modSeq k fun q => { q with closing := q.closing.filter (· != n) }
        monTrigger 3 k s.now (meterComplete (seqPart k u) s.now u)) := rfl

end

/-- Settles O12, clause by clause from the equations above. -/
theorem stallsEndWithWhatTheyWaitFor : Obligations.StallsEndWithWhatTheyWaitFor := by
  unfold Obligations.StallsEndWithWhatTheyWaitFor
  refine ⟨barrierRelease_of_none, ?barrier, ?full, fun k s held => teqFullStallEnd_of_held held, ?result,
    fun q s empty => msgVisible_of_empty empty, ?message, fun k s stall => exec_creditStallEnd stall,
    fun k s stall => exec_ringStallEnd stall, ?kiln,
    fun k s going => stallEnds_of_going going, ?closed, ?notClosed⟩
  case barrier =>
    intro b s r rs some t u
    refine ⟨barrierRelease_of_gone b s some, fun x rest later => ?_⟩
    show execBarrierRelease b s = _
    simp only [execBarrierRelease, some, u, t] at later ⊢
    simp only [later]
  case full =>
    intro k s w t stall freed u inactive
    exact (exec_teqFullStallEnd stall freed).trans (congrArg Host.Outcome.next (ite_of_false inactive))
  case result =>
    intro k s g t u v stall
    exact ⟨fun behind => congrArg Host.Outcome.next (resultReady_of_behind stall behind),
      fun come rule => congrArg Host.Outcome.next ((resultReady_of_come stall come).trans (if_pos rule))⟩
  case message =>
    intro q s it rest head u
    refine ⟨msgVisible_of_untaken head, ?_⟩
    intro k m taken stall t seen
    exact (msgVisible_of_taken head taken).trans (congrArg Host.Outcome.next (msgArrived_of_visible stall seen))
  case kiln =>
    intro k s e pause stall u v e' p' still
    exact exec_kilnSkipEnd stall still
  case closed =>
    intro k s n done u
    rw [exec_shotClosed, done]
  case notClosed =>
    intro k s none
    rw [exec_shotClosed, none]

end Sys2Proof.Machine
end

section
/-! PROOFS. Traps and routines of microwords: the traps of undefined opcodes and of PC_RANGE, the calibration trap, owner routines, what
follows a microword, and the ends of micro-stalls (R103 to R105, R120, R121, R126, R131, R134, R143 to R147, R158). -/

namespace Sys2Proof.Machine

/-! ### Where a routine runs (R104, R131, R158) -/

section
variable {k : Fin 512} {s : State}

/-- At an instruction boundary the sequencer runs, and neither a routine nor an abort is under way. -/
theorem atBoundary_iff {k : Nat} {u : State} : atBoundary k u = true ↔
    seqState k u = stRunning ∧ (u.seq k).micro.active = false ∧ (u.seq k).abort = none := by
  simp only [atBoundary, Bool.and_eq_true, beq_iff_eq, Bool.not_eq_true', Option.isNone_iff_eq_none, and_assoc]

/-- The trap ILLEGAL, and PC_RANGE before it. -/
theorem exec_illegal : exec (.illegal k) s = .next (
    if atBoundary k (atIssue k s) = false then s
    else if ((atIssue k s).seq k).pcOver then faultAt k 0x22 (Config.bodyUpc 256 1 % 2 ^ 14) 0 (beginTick k s + 2) (atIssue k s)
    else if opIll k (issued k s / 2 ^ 56) (atIssue k s) then
      seqFault k 0x0D (issued k s / 2 ^ 56) 1 (beginTick k s + 2) (atIssue k s)
    else s) := by
  simp only [← Bool.not_eq_true']
  rfl

/-- What an owner's routine does where it is not shut out by an abort of image 2.4 or a stall. -/
theorem exec_ownerExtension (abort : (((atIssue k s).seq k).abort.any fun a => !a.loaded) = false)
    (stall : ((atIssue k s).seq k).stall = none) :
    exec (.ownerExtension k) s = .next (
      let u := atIssue k s
      let op := issued k s / 2 ^ 56
      if (u.seq k).micro.active then microGo k u
      else if seqState k u ≠ stRunning then s
      else if (u.seq k).pcOver then pcRange k (beginTick k s) u
      else if byRule k op u || opIll k op u then s
      else microGo k (microBegin k op (beginTick k s) u)) :=
  congrArg Host.Outcome.next (if_neg fun h => h.elim
    (fun any => Bool.false_ne_true (abort.symm.trans any))
    (fun some => Bool.false_ne_true ((congrArg Option.isSome stall).symm.trans some)))

/-- An abort of image 2.4, or a stall, shuts an owner's routine out. -/
theorem ownerExtension_of_shut (shut : (((atIssue k s).seq k).abort.any fun a => !a.loaded) = true
    ∨ ((atIssue k s).seq k).stall.isSome = true) : exec (.ownerExtension k) s = .next s :=
  congrArg Host.Outcome.next (if_pos shut)

/-- At a boundary no abort of image 2.4 is under way. -/
theorem abort_of_boundary {u : State} (h : atBoundary k u = true) : ((u.seq k).abort.any fun a => !a.loaded) = false := by
  rw [(atBoundary_iff.1 h).2.2]
  rfl

/-- An owner's routine at a boundary: PC_RANGE, or the routine of the opcode unless the opcode is image 2.4's or ILL. -/
theorem ownerExtension_of_boundary (h : atBoundary k (atIssue k s) = true) (stall : ((atIssue k s).seq k).stall = none) :
    exec (.ownerExtension k) s = .next (
      let u := atIssue k s
      let op := issued k s / 2 ^ 56
      if (u.seq k).pcOver then pcRange k (beginTick k s) u
      else if byRule k op u || opIll k op u then s
      else microGo k (microBegin k op (beginTick k s) u)) := by
  obtain ⟨runs, inactive, -⟩ := atBoundary_iff.1 h
  exact (exec_ownerExtension (abort_of_boundary h) stall).trans
    (congrArg Host.Outcome.next ((ite_of_false inactive).trans (if_neg (not_not_intro runs))))

/-- A calibration request that cannot be taken waits. -/
theorem calRequest_of_waits (waits : ((atIssue k s).seq k).calReq = [] ∨ ((atIssue k s).seq k).shotOpen = true
    ∨ atBoundary k (atIssue k s) = false) : exec (.calRequest k) s = .next s := by
  refine congrArg Host.Outcome.next (if_pos ?_)
  rcases waits with none | shot | other
  · exact Bool.or_eq_true_iff.2 (.inl (Bool.or_eq_true_iff.2 (.inl (List.isEmpty_iff.2 none))))
  · exact Bool.or_eq_true_iff.2 (.inl (Bool.or_eq_true_iff.2 (.inr shot)))
  · exact Bool.or_eq_true_iff.2 (.inr (congrArg Bool.not other))

/-- A calibration request outside a shot takes its trap at a boundary. -/
theorem calRequest_of_taken (some : ((atIssue k s).seq k).calReq ≠ []) (closed : ((atIssue k s).seq k).shotOpen = false)
    (h : atBoundary k (atIssue k s) = true) : exec (.calRequest k) s = .next (calTrap k (beginTick k s) (atIssue k s)) := by
  have taken : ¬(((atIssue k s).seq k).calReq.isEmpty || ((atIssue k s).seq k).shotOpen || !atBoundary k (atIssue k s)) = true := by
    simpa [closed, h] using some
  exact congrArg Host.Outcome.next (if_neg taken)

end

/-- Settles O13, clause by clause from the equations above. -/
theorem trapsAndOwnerRoutinesAreTaken : Obligations.TrapsAndOwnerRoutinesAreTaken := by
  unfold Obligations.TrapsAndOwnerRoutinesAreTaken
  refine ⟨fun k s => exec_illegal, fun k s => ⟨?begins, ?goesOn, ?range, ?rests, fun some => ownerExtension_of_shut (.inr some),
    fun any => ownerExtension_of_shut (.inl any)⟩, fun k s => ⟨calRequest_of_waits, ?trap⟩⟩
  case begins =>
    intro h stall inside rule ill
    refine (ownerExtension_of_boundary h stall).trans (congrArg Host.Outcome.next ((ite_of_false inside).trans (if_neg ?_)))
    rw [rule, ill]
    exact Bool.false_ne_true
  case goesOn => exact fun any stall active => (exec_ownerExtension any stall).trans (congrArg Host.Outcome.next (if_pos active))
  case range =>
    exact fun h stall beyond => (ownerExtension_of_boundary h stall).trans (congrArg Host.Outcome.next (if_pos beyond))
  case rests =>
    intro other inactive
    by_cases shut : (((atIssue k s).seq k).abort.any fun a => !a.loaded) = true ∨ ((atIssue k s).seq k).stall.isSome = true
    · exact ownerExtension_of_shut shut
    · obtain ⟨abort, stall⟩ := not_or.1 shut
      exact (exec_ownerExtension (Bool.eq_false_iff.2 abort) (Option.not_isSome_iff_eq_none.1 stall)).trans
        (congrArg Host.Outcome.next ((ite_of_false inactive).trans (if_pos other)))
  case trap =>
    exact fun some closed h rule => (calRequest_of_taken some closed h).trans (congrArg Host.Outcome.next (if_pos rule))

/-! ### What follows a microword (R134, R158) -/

section
variable {k : Nat} {s o : State}

/-- A microword that the routine goes on from is followed by the next. -/
theorem microRun_of_goes {n : Nat} (h : microStep k s = (true, o)) : microRun (n + 1) k s = microRun n k o := by
  simp only [microRun, h, if_true]

/-- A microword that ends the run. -/
theorem microRun_of_stops {n : Nat} (h : microStep k s = (false, o)) : microRun (n + 1) k s = o := by
  simp only [microRun, h, Bool.false_eq_true, if_false]

/-- The machine in which a microword acts: that at the beginning of its cycle or at its end. -/
def microAt (k : Nat) (s : State) : State :=
  advanceTo (if uAtStart (uopOf (microword k (s.seq k).micro.upc s)) then (s.seq k).readyAt else (s.seq k).readyAt + 2) s

/-- A routine under way outside an abort of image 2.4 goes on. -/
theorem micro_goes_on {u : State} (active : (u.seq k).micro.active = true) (going : (u.seq k).abort = none) :
    ¬((!(u.seq k).micro.active) = true ∨ ((u.seq k).abort.any fun a => !a.loaded) = true) := by
  simp [active, going]

/-- A micro-op that its routine may execute. -/
theorem micro_open {upc uop : Nat} (allowed : upc < 0x3000 ∨ uClosed uop = false) :
    ¬(decide (upc ≥ 0x3000) && uClosed uop) = true := by
  rcases allowed with low | opened
  · simp [Nat.not_le.2 low]
  · simp [opened]

variable (active : ((microAt k s).seq k).micro.active = true) (going : ((microAt k s).seq k).abort = none)
include active going

/-- A microword whose condition is false is followed by the next micro-address. -/
theorem microStep_of_skipped {mw : Nat} (word : microword k (s.seq k).micro.upc s = mw)
    (off : uCond ((microAt k s).seq k) (fetchWord k (microAt k s)) (bits mw 36 4) = false) :
    microStep k s = if ((microAt k s).seq k).micro.upc ≥ 0x3FFF then (false, microFault k 0x41 ((s.seq k).readyAt + 2) (microAt k s))
      else (true, microGoto k (((microAt k s).seq k).micro.upc + 1) ((s.seq k).readyAt + 2) (microAt k s)) := by
  subst word
  exact (if_neg (micro_goes_on active going)).trans (ite_not_of_false off)

variable {mw : Nat} (word : microword k (s.seq k).micro.upc s = mw)
  (on : uCond ((microAt k s).seq k) (fetchWord k (microAt k s)) (bits mw 36 4) = true)
include word on

/-- An owner's microword whose micro-op is closed to owners faults. -/
theorem microStep_of_closed (owner : 0x3000 ≤ ((microAt k s).seq k).micro.upc) (closed : uClosed (uopOf mw) = true) :
    microStep k s = (false, microFault k 0x43 ((s.seq k).readyAt + 2) (microAt k s)) := by
  subst word
  exact (if_neg (micro_goes_on active going)).trans
    ((ite_not_of_true on).trans (if_pos (Bool.and_eq_true_iff.2 ⟨decide_eq_true owner, closed⟩)))

variable (allowed : ((microAt k s).seq k).micro.upc < 0x3000 ∨ uClosed (uopOf mw) = false)
include allowed

/-- A marked micro-op without COMMIT faults. -/
theorem microStep_of_uncommitted (marked : uMarkedC (uopOf mw) = true) (uncommitted : uCommit mw = false) :
    microStep k s = (false, microFault k 0x46 ((s.seq k).readyAt + 2) (microAt k s)) := by
  subst word
  exact (if_neg (micro_goes_on active going)).trans ((ite_not_of_true on).trans
    ((if_neg (micro_open allowed)).trans (if_pos (by simp [marked, uncommitted]))))

/-- A microword that completes takes what follows it from `microAfter`. -/
theorem microStep_of_done (commit : uMarkedC (uopOf mw) = true → uCommit mw = true) {a b : Nat} {v : State}
    (sources : uSources k mw ((s.seq k).readyAt + 2) (microAt k s) = some (a, b))
    (done : uExec k mw (fetchWord k (microAt k s)) (s.seq k).readyAt ((s.seq k).readyAt + 2) a b (microAt k s) = .done v) :
    microStep k s = (((microAfter k mw ((v.seq k).readyAt + 2) v).seq k).micro.active, microAfter k mw ((v.seq k).readyAt + 2) v) := by
  subst word
  have committed : ¬(uMarkedC (uopOf (microword k (s.seq k).micro.upc s))
      && !uCommit (microword k (s.seq k).micro.upc s)) = true := by
    simpa using commit
  refine (if_neg (micro_goes_on active going)).trans ((ite_not_of_true on).trans
    ((if_neg (micro_open allowed)).trans ((if_neg committed).trans ?_)))
  rw [microAt] at sources done
  simp only [sources, done]

end

/-- Neither LAST nor COMMIT: a completed microword is followed by the next micro-address. -/
theorem microAfter_of_plain {k w t : Nat} {s : State} (notLast : uLast w = false) (plain : uCommit w = false)
    (inside : (s.seq k).micro.upc < 0x3FFF) : microAfter k w t s = microGoto k ((s.seq k).micro.upc + 1) t s := by
  simp only [microAfter, notLast, plain, Bool.false_eq_true, if_false, ge_iff_le, if_neg (Nat.not_le.2 inside)]

/-- Settles O59: the routine goes on, and its first microword does what the equations above say. -/
theorem microwordsFollowTheirCondition : Obligations.MicrowordsFollowTheirCondition := by
  unfold Obligations.MicrowordsFollowTheirCondition
  intro k s s1 t0 mw u m cond go runs noAbort noStall routine active going
  have starts : ∀ o, microRun 1024 k s1 = o → go o := by
    intro o run
    refine (exec_ownerExtension (congrArg (Option.any fun a => !a.loaded) noAbort) noStall).trans
      (congrArg Host.Outcome.next ((if_pos routine).trans ?_))
    rw [← run]
    rfl
  refine ⟨fun off inside => ?_, fun off last => ?_, fun on owner closed => ?_, fun on allowed marked uncommitted => ?_,
    fun on allowed commit a b v sources done notLast plain same inside still => ?_⟩
  · exact starts _ (microRun_of_goes ((microStep_of_skipped active going rfl off).trans (if_neg (Nat.not_le.2 inside))))
  · exact starts _ (microRun_of_stops ((microStep_of_skipped active going rfl off).trans (if_pos (Nat.le_of_eq last.symm))))
  · exact starts _ (microRun_of_stops (microStep_of_closed active going rfl on owner closed))
  · exact starts _ (microRun_of_stops (microStep_of_uncommitted active going rfl on allowed marked uncommitted))
  · have after := microAfter_of_plain (t := (v.seq k).readyAt + 2) notLast plain (same ▸ inside)
    refine starts _ (microRun_of_goes ((microStep_of_done active going rfl on allowed commit sources done).trans ?_))
    rw [after, same]
    refine Prod.ext ?_ rfl
    simpa [microGoto] using still

end Sys2Proof.Machine
end

section
/-! PROOFS. How the stalls of routines of microwords end, and where loaded trap routines run (R103, R120, R121, R126, R143 to R147). -/

namespace Sys2Proof.Machine

section
variable {k : Fin 512} {s : State}

/-- A microword WRES whose source is still behind stays stalled. -/
theorem resultReady_micro_of_behind {t g : Nat} (stall : Stalled k (.micro 0x2E g) s)
    (behind : brrCompare k (fetchWord k s) g s = .behind) : resultReady k t s = s := by
  unfold Stalled at stall
  simp only [resultReady, stall, if_pos behind]

/-- A microword WRES whose source is no longer behind takes the trap RESULT_READY, and faults inside a trap routine. -/
theorem resultReady_micro_of_come {t g : Nat} (stall : Stalled k (.micro 0x2E g) s)
    (come : brrCompare k (fetchWord k s) g s ≠ .behind) : resultReady k t s =
      (if (s.seq k).micro.trap.isSome then microFault k 0x40 (t + 2) s
       else
        let v := s.modSeq k fun q => { q with shadow := shadowWords k 6 t s }
        if trapByRule k 6 v then
          microGo k (microDone k t (fun m => { m with resval := resvalOf k (fetchWord k v) (brrCompare k (fetchWord k v) g v) v }) v)
        else resultGo k t (trapBegin k 6 .word t v)) := by
  unfold Stalled at stall
  simp only [resultReady, resultTrap, stall, if_neg come]
  rfl

/-- Without a stall for a result, a new generation changes nothing. -/
theorem resultReady_of_other {t : Nat} (other : ∀ g, ¬Stalled k (.result g) s ∧ ¬Stalled k (.micro 0x2E g) s) :
    resultReady k t s = s := by
  unfold resultReady
  dsimp only
  split
  · exact absurd ‹_› (other _).1
  · exact absurd ‹_› (other _).2
  · rfl

/-- At the limit of a stalled WRES, a result that arrives at the very tick comes first. -/
theorem exec_resultTimeout_micro {g : Nat} (stall : Stalled k (.micro 0x2E g) s) (active : (s.seq k).micro.active = true)
    (limit : bits (fetchWord k s) 20 6 ≠ 0) :
    let t := (s.seq k).micro.armed + 256 * bits (fetchWord k s) 20 6
    exec (.resultTimeout k) s = .next (resultLate k t (resultReady k t (advanceTo t s))) := by
  have pos : brrTimeout (fetchWord k s) ≠ 0 := fun h => limit ((Nat.mul_eq_zero.1 h).resolve_left (by decide))
  refine congrArg Host.Outcome.next ((if_neg pos).trans ?_)
  unfold Stalled at stall
  simp only [active, if_true, stall]
  rfl

/-- A WRES that still waits at its limit goes on with a timeout's result. -/
theorem resultLate_micro_of_stalled {t g : Nat} (stall : Stalled k (.micro 0x2E g) s) : resultLate k t s =
    microGo k (microDone k t (fun m => { m with resval := resvalOf k (fetchWord k s) .timeout s }) s) := by
  unfold Stalled at stall
  simp only [resultLate, stall]

/-- A wait micro-op whose cause clears completes, with a UTRET that follows it. -/
theorem waitCleared_eq {k : Nat} (t : Nat) (s : State) : waitCleared k t s = microGo k (
    if (s.seq k).micro.trap.isSome ∧ uTretAt k ((s.seq k).micro.upc + 1) s = true then uReturn k t (unstall k t s)
    else microDone k t (fun m => m) s) := by
  exact (apply_ite (microGo k) _ _ _).symm

/-- The head of the queue that a microword found full has fired. -/
theorem teqFullStallEnd_micro {x t : Nat} (stall : Stalled k (.micro 0x3E x) s) (freed : (s.seq k).freedAt = some t) :
    exec (.teqFullStallEnd k) s = .next (waitCleared k (max t (s.seq k).since) s) := by
  unfold Stalled at stall
  show execTeqFullStallEnd k s = _
  simp only [execTeqFullStallEnd, stall, freed]

/-- A raised LIMIT ends a microword's wait for credit. -/
theorem creditStallEnd_micro {x : Nat} (stall : Stalled k (.micro 0x3F x) s) :
    let t := max s.now (s.seq k).since
    exec (.creditStallEnd k) s = .next (if creditHolds k (seqPart k s) t s then s else waitCleared k t s) := by
  unfold Stalled at stall
  show execCreditStallEnd k s = _
  simp only [execCreditStallEnd, stall]

/-- Check 5 holds the shot of an instruction, and a loaded routine of CREDIT_EXHAUSTED runs. -/
theorem creditCheck_of_loaded {k t : Nat} {s : State} (held : creditHolds k (seqPart k s) t s = true)
    (inactive : (s.seq k).micro.active = false) (loaded : trapByRule k 5 (ruleShadow k 5 (upcOf 0x48 3) t true [] s) = false)
    (still : ((ruleShadow k 5 (upcOf 0x48 3) t true [] s).seq k).micro.active = false) :
    creditCheck k t s = trapBegin k 5 .shot t (ruleShadow k 5 (upcOf 0x48 3) t true [] s) := by
  simp only [creditCheck, held, inactive, loaded, still, Bool.false_eq_true, false_and, if_true, if_false]

end

/-- Settles O60, clause by clause from the equations above. -/
theorem routinesGoOnAfterTheirStalls : Obligations.RoutinesGoOnAfterTheirStalls := by
  unfold Obligations.RoutinesGoOnAfterTheirStalls
  refine ⟨?wres, ?result, ?noResult, ?timeout, ?held, ?full, ?credit, ?shot, ?calibration, ?shut⟩
  case wres =>
    intro k s g t u w v stall
    refine ⟨fun behind => congrArg Host.Outcome.next (resultReady_micro_of_behind stall behind), fun come nested => ?_,
      fun come free => ?_⟩
    · exact congrArg Host.Outcome.next ((resultReady_micro_of_come stall come).trans (if_pos nested))
    · refine congrArg Host.Outcome.next ((resultReady_micro_of_come stall come).trans
        ((if_neg (by simp only [free, Option.isSome_none, Bool.false_eq_true, not_false_eq_true])).trans ?_))
      exact (apply_ite (microGo k) _ _ _).symm
  case result =>
    intro k s g t u v stall come loaded
    exact congrArg Host.Outcome.next ((resultReady_of_come stall come).trans (ite_of_false loaded))
  case noResult =>
    intro k s u other
    exact congrArg Host.Outcome.next (resultReady_of_other other)
  case timeout =>
    intro k s g stall active limit t u
    exact ⟨fun g' still => (exec_resultTimeout_micro stall active limit).trans (congrArg _ (resultLate_micro_of_stalled still)),
      fun gone => (exec_resultTimeout_micro stall active limit).trans (congrArg _ (resultLate_of_going gone))⟩
  case held =>
    intro k s w t stall freed u active
    exact (exec_teqFullStallEnd stall freed).trans (congrArg Host.Outcome.next (if_pos active))
  case full =>
    intro k s x t stall freed m e
    exact (teqFullStallEnd_micro stall freed).trans (congrArg _ (waitCleared_eq _ _))
  case credit =>
    intro k s x stall t m
    exact (creditStallEnd_micro stall).trans (congrArg Host.Outcome.next (ite_congr rfl (fun _ => rfl) fun _ => waitCleared_eq _ _))
  case shot =>
    intro k s issues t u v inactive closed going kiln ring held loaded still
    refine (exec_shotBegin_of_closed issues closed).trans (congrArg Host.Outcome.next ?_)
    rw [shotChecks_of_going going, kilnCheck_of_kilnWait k _ kiln, ringCheck_of_room ring]
    exact creditCheck_of_loaded held inactive loaded still
  case calibration =>
    intro k s t u q v some closed h loaded
    exact (calRequest_of_taken some closed h).trans (congrArg Host.Outcome.next (ite_of_false loaded))
  case shut =>
    intro k s u op shut
    rcases shut with any | stalls | ⟨h, inside, row⟩
    · exact ownerExtension_of_shut (.inl any)
    · exact ownerExtension_of_shut (.inr stalls)
    · by_cases stall : (u.seq k).stall = none
      · refine (ownerExtension_of_boundary h stall).trans (congrArg Host.Outcome.next ((ite_of_false inside).trans (if_pos ?_)))
        exact Bool.or_eq_true_iff.2 row
      · exact ownerExtension_of_shut (.inr (Option.isSome_iff_ne_none.2 stall))

end Sys2Proof.Machine
end

section
/-! PROOFS. The descriptor pool: appends and takes keep allocated + free (R22, R91, R92). -/

namespace Sys2Proof.Machine

/-! ### An append -/

/-- An append takes one descriptor and raises events. -/
theorem State.append_eventOnly (s : State) (q : Nat) (it : Item) : EventOnly (s.appendRaw q it) (s.append q it) := by
  have flag {t : State} {f : Fld} {n : Nat} {p : Prop} [Decidable p] (hf : f = QM_STATUS_POOL_EMPTY ∨ f = QM_STATUS_POOL_LOW)
      (hn : n < 1024) (h : EventOnly (s.appendRaw q it) t) : EventOnly (s.appendRaw q it) (if p then t.flag f n else t) := by
    have set := h.trans (EventOnly.setFlag t hf)
    unfold State.flag State.stick
    dsimp only
    split
    · split
      · exact set.event hn
      · exact set
    · exact h
  have flagged := flag (p := ((s.appendRaw q it).poolEmpty = true)) (.inl rfl) (n := 761) (by decide) (.refl _)
  unfold State.append
  dsimp only
  generalize (if (s.appendRaw q it).poolEmpty = true then (s.appendRaw q it).flag QM_STATUS_POOL_EMPTY 761
    else s.appendRaw q it) = u at flagged ⊢
  have low := flag (p := (u.get QM_POOL_FREE < u.get QM_CTRL_POOL_LOW)) (.inr rfl) (n := 763) (by decide) flagged
  generalize (if u.get QM_POOL_FREE < u.get QM_CTRL_POOL_LOW then u.flag QM_STATUS_POOL_LOW 763 else u) = v at low ⊢
  split
  · exact low.event (by decide)
  · exact low

/-- An append to a queue with room keeps the pool whole and takes a descriptor at least. -/
theorem PoolWhole.append {s : State} (whole : PoolWhole s) {q : Nat} (it : Item) (room : s.full q = false) :
    PoolWhole (s.append q it) ∧ s.get QM_POOL_ALLOC + 1 ≤ (s.append q it).get QM_POOL_ALLOC := by
  obtain ⟨raw, taken⟩ := whole.appendRaw q it (State.free_ne_zero_of_room room)
  obtain ⟨stays, more⟩ := (s.append_eventOnly q it).pool raw
  exact ⟨stays, taken ▸ more⟩

/-! ### A take -/

section
variable (s : State) (q : Nat)

/-- A returned descriptor is free again. -/
theorem State.giveBack_free (n : Nat) : (s.giveBack q n).get QM_POOL_FREE = (s.get QM_POOL_FREE + n) % 2 ^ 21 := by
  unfold State.giveBack State.inc
  dsimp only
  rw [State.get_set_ne _ _ (pool_ne_used _ _).1, State.get_set_ne _ _ free_ne_alloc, State.get_set_same]
  rfl

/-- A returned descriptor is in no queue. -/
theorem State.giveBack_alloc (n : Nat) : (s.giveBack q n).get QM_POOL_ALLOC = (s.get QM_POOL_ALLOC - n) % 2 ^ 21 := by
  unfold State.giveBack State.inc
  dsimp only
  rw [State.get_set_ne _ _ (pool_ne_used _ _).2, State.get_set_same, State.get_set_ne _ _ free_ne_alloc.symm]
  rfl

/-- A take from a queue with items gives its head, with the descriptor returned. -/
theorem State.popHead_of_cons {it : Item} {rest : List Item} (head : (s.queue q).items = it :: rest) : s.popHead q =
    (some it, ((s.setQueue q { s.queue q with
      items := rest, delivered := (s.queue q).delivered + it.records }).giveBack q 1).showQueue q) := by
  unfold State.popHead
  dsimp only
  split
  · next empty => rw [head] at empty; contradiction
  · next head' tail eq =>
    rw [head] at eq
    obtain ⟨rfl, rfl⟩ := List.cons.inj eq
    rfl

/-- A take from an empty queue gives nothing and changes nothing. -/
theorem State.popHead_of_nil (empty : (s.queue q).items = []) : s.popHead q = (none, s) := by
  unfold State.popHead
  dsimp only
  split
  · rfl
  · next eq => rw [empty] at eq; contradiction

/-- A take returns one descriptor of a whole pool. -/
theorem PoolWhole.giveBack {s : State} (whole : PoolWhole s) (q : Nat) (used : 0 < s.get QM_POOL_ALLOC) :
    (s.giveBack q 1).get QM_POOL_ALLOC + 1 = s.get QM_POOL_ALLOC ∧ (s.giveBack q 1).get QM_POOL_FREE = s.get QM_POOL_FREE + 1 := by
  unfold PoolWhole at whole
  rw [State.giveBack_alloc, State.giveBack_free]
  omega

end

/-- Settles O56: `PoolWhole.append` and `PoolWhole.giveBack` count, and the queues are those of R91. -/
theorem descriptorsAreFreeOrQueued : Obligations.DescriptorsAreFreeOrQueued := by
  unfold Obligations.DescriptorsAreFreeOrQueued
  refine ⟨?append, ?take, fun q s empty => s.popHead_of_nil q empty⟩
  case append =>
    intro q it s room whole t
    obtain ⟨stays, taken⟩ := PoolWhole.append whole it room
    exact ⟨stays, s.append_items_prefix q it, fun hq => ⟨s.append_items it hq, taken⟩,
      fun j hj hlog => ((s.append_queuesLogged q it).1 j hlog).trans (s.appendRaw_queue_ne it hj)⟩
  case take =>
    intro q s it rest head used whole t
    let taken := s.setQueue q { s.queue q with items := rest, delivered := (s.queue q).delivered + it.records }
    have pops : s.popHead q = (some it, (taken.giveBack q 1).showQueue q) := s.popHead_of_cons q head
    obtain ⟨alloc, free⟩ := PoolWhole.giveBack (s := taken) whole q used
    simp only [t, pops, State.showQueue_alloc, State.showQueue_free]
    exact ⟨trivial, alloc, free, congrArg Queue.items (State.queue_setQueue_same s q _),
      fun j hj => State.queue_setQueue_ne s _ hj, fun a => rfl⟩

end Sys2Proof.Machine
end

section
/-! PROOFS. The instructions of an analysis engine: their effects, their flow, their faults, and when they do nothing (R286 to R301). -/

namespace Sys2Proof.Machine

/-! ### Issue (R290, R293, R301) -/

section
variable {a op code : Nat} {s : State} {f : Nat → State → Except Nat (State × EngFlow)}

/-- An engine that is not to issue an instruction of the opcode rests. -/
theorem anaRests_issue (a op : Nat) (s : State) (f : Nat → State → Except Nat (State × EngFlow)) :
    AnaRests a op s (.next (engIssue op a s f)) := by
  intro rests
  refine congrArg Host.Outcome.next (if_neg ?_)
  rintro ⟨running, noInterrupt, opcode⟩
  rcases rests with stopped | due | other
  · exact stopped running
  · rw [due] at noInterrupt
    exact Bool.false_ne_true noInterrupt
  · exact other opcode

/-- What an engine's fault leaves (R301, R302). -/
theorem anaFaults_engFault (a code : Nat) (s : State) : AnaFaults a code s (.next (engFault a code s)) :=
  congrArg Host.Outcome.next (engFault_eq a code s)

/-- An instruction that issues and ends in a fault. -/
theorem anaFaults_of_error (issues : AnaIssues a op s) (error : f (engFetch a s) s = .error code) :
    AnaFaults a code s (.next (engIssue op a s f)) := by
  obtain ⟨running, noInterrupt, opcode, placed⟩ := issues
  rw [engIssue_error running noInterrupt opcode placed error]
  exact anaFaults_engFault a code s

/-- A branch that may not stand where it does faults with code 3 (R293). -/
theorem anaMisplaced_issue (branch : isBranchOp op = true) : AnaMisplaced a op s (.next (engIssue op a s f)) := by
  intro running noInterrupt opcode misplaced
  have fault : engIssue op a s f = engFault a 3 s :=
    (if_pos ⟨running, congrArg Bool.not noInterrupt, opcode⟩).trans (if_pos ⟨branch, misplaced⟩)
  rw [fault]
  exact anaFaults_engFault a 3 s

end

/-! ### Words (R289 to R292, R294) -/

/-- An LDD is legal exactly with units as R290 asks. -/
theorem engIllegal_ldd {w : Nat} (op : bits w 26 6 = 3) : engIllegal w = (bits w 21 2 > 1 || bits w 14 2 < 2 : Bool) := by
  simp [engIllegal, op]

/-- Settles O22: each command is an issue whose effect is the one stated. -/
theorem analysisWordInstructionsPutResultsInFlight : Obligations.AnalysisWordInstructionsPutResultsInFlight := by
  unfold Obligations.AnalysisWordInstructionsPutResultsInFlight
  intro a s w b va vb d u x y n sum dif res ovf
  refine ⟨anaDoes_of_ok rfl, anaDoes_of_ok rfl, anaDoes_of_ok rfl, ?ldd, anaDoes_of_ok rfl, anaDoes_of_ok rfl, anaDoes_of_ok rfl,
    anaDoes_of_ok rfl, anaDoes_of_ok rfl, fun left => anaDoes_of_ok ?shfLeft, fun right => anaDoes_of_ok ?shfRight, anaDoes_of_ok rfl,
    anaDoes_of_ok rfl, fun unit => anaDoes_of_ok ?au0, fun unit => anaDoes_of_ok ?au1, fun unit => anaDoes_of_ok ?au2,
    fun unit => anaDoes_of_ok ?au3, anaDoes_of_ok rfl, anaDoes_of_ok rfl, ?lddFaults,
    anaRests_issue _ _ _ _, anaRests_issue _ _ _ _, anaRests_issue _ _ _ _, anaRests_issue _ _ _ _, anaRests_issue _ _ _ _,
    anaRests_issue _ _ _ _, anaRests_issue _ _ _ _, anaRests_issue _ _ _ _, anaRests_issue _ _ _ _, anaRests_issue _ _ _ _,
    anaRests_issue _ _ _ _, anaRests_issue _ _ _ _, anaRests_issue _ _ _ _, anaRests_issue _ _ _ _, anaRests_issue _ _ _ _⟩
  case ldd =>
    intro low high issues
    refine anaDoes_of_ok (if_neg ?_) issues
    rw [engIllegal_ldd issues.2.2.1]
    simp only [Bool.or_eq_true, decide_eq_true_eq, not_or, Nat.not_lt]
    exact ⟨low, high⟩
  case lddFaults =>
    intro issues bad
    refine anaFaults_of_error issues (if_pos ?_)
    rw [engIllegal_ldd issues.2.2.1]
    simpa using bad
  case shfLeft => exact congrArg seqFlow (if_pos left)
  case shfRight => exact congrArg seqFlow (if_neg (Int.not_le.2 right))
  all_goals
    simp only [w] at unit
    simp only [unit]
    rfl

end Sys2Proof.Machine
end

section
/-! PROOFS. The sums, the flow and the outside of an analysis engine (R287 to R303). -/

namespace Sys2Proof.Machine

/-- Settles O23: each command is an issue whose effect is the one stated. -/
theorem analysisSumsSaturateAndScale : Obligations.AnalysisSumsSaturateAndScale := by
  unfold Obligations.AnalysisSumsSaturateAndScale
  intro a s w b k sum p n e res acc v
  refine ⟨anaDoes_of_ok rfl, anaDoes_of_ok rfl, anaDoes_of_ok rfl, anaDoes_of_ok rfl, anaDoes_of_ok rfl, anaDoes_of_ok rfl,
    fun left => anaDoes_of_ok ?shsLeft, fun right => anaDoes_of_ok ?shsRight, fun left => anaDoes_of_ok ?normLeft,
    fun right => anaDoes_of_ok ?normRight, anaDoes_of_ok rfl, anaRests_issue _ _ _ _, anaRests_issue _ _ _ _, anaRests_issue _ _ _ _,
    anaRests_issue _ _ _ _, anaRests_issue _ _ _ _, anaRests_issue _ _ _ _, anaRests_issue _ _ _ _, anaRests_issue _ _ _ _,
    anaRests_issue _ _ _ _⟩
  case shsLeft => exact congrArg (fun i => seqFlow (sumResult a k i s)) (if_pos left)
  case shsRight => exact congrArg (fun i => seqFlow (sumResult a k i s)) (if_neg (Int.not_le.2 right))
  case normLeft => exact congrArg (fun i => seqFlow (engResult a 2 (.sum k) i _)) (if_pos left)
  case normRight => exact congrArg (fun i => seqFlow (engResult a 2 (.sum k) i _)) (if_neg (Int.not_le.2 right))

/-- Settles O24: each command is an issue whose effect, flow or fault is the one stated. -/
theorem analysisFlowAndItsFaults : Obligations.AnalysisFlowAndItsFaults := by
  unfold Obligations.AnalysisFlowAndItsFaults
  intro a s w b calls
  refine ⟨fun c cond => anaDoes_of_ok ?br, fun cond room => anaDoes_of_ok ?call, fun cond => anaDoes_of_ok ?callNot,
    fun ret rest top => anaDoes_of_ok ?ret, fun zero => anaDoes_of_ok (if_pos zero),
    fun some room => anaDoes_of_ok ((if_neg some).trans (if_neg (Nat.not_le.2 room))), fun shadow => anaDoes_of_ok (if_pos shadow),
    anaDoes_of_ok rfl, anaDoes_of_ok rfl, fun issues some full => anaFaults_of_error issues ((if_neg some).trans (if_pos full)),
    fun issues cond full => anaFaults_of_error issues ?callFull, fun issues empty => anaFaults_of_error issues ?retEmpty,
    fun issues main => anaFaults_of_error issues (ite_of_false main), fun issues cond => anaFaults_of_error issues ?brNone,
    fun issues cond => anaFaults_of_error issues ?callNone, anaMisplaced_issue rfl, anaMisplaced_issue rfl, anaMisplaced_issue rfl,
    anaMisplaced_issue rfl, ?illegal, ?legal, anaRests_issue _ _ _ _, anaRests_issue _ _ _ _, anaRests_issue _ _ _ _,
    anaRests_issue _ _ _ _, anaRests_issue _ _ _ _, anaRests_issue _ _ _ _, anaRests_issue _ _ _ _⟩
  case illegal =>
    intro running noInterrupt illegal
    rw [show exec (.anaIllegal a) s = .next (engFault a 1 s) from
      congrArg Host.Outcome.next (if_pos ⟨running, congrArg Bool.not noInterrupt, illegal⟩)]
    exact anaFaults_engFault a 1 s
  case legal =>
    intro rests
    refine congrArg Host.Outcome.next (if_neg ?_)
    rintro ⟨running, noInterrupt, illegal⟩
    rcases rests with stopped | due | legal
    · exact stopped running
    · rw [due] at noInterrupt
      exact Bool.false_ne_true noInterrupt
    · exact Bool.false_ne_true (legal.symm.trans illegal)
  case ret => simp only [show (s.ana a).calls = ret :: rest from top]
  case retEmpty => simp only [show (s.ana a).calls = [] from empty]
  all_goals simp only [w, b] at cond
  case br =>
    simp only [cond]
    rfl
  case call => simpa only [cond] using if_neg (Nat.not_le.2 room)
  case callFull => simpa only [cond] using if_pos full
  all_goals simp only [cond]

/-! ### What is outside the engine (R295, R297 to R300, R302, R303) -/

section
variable {a : Fin 8} {s : State}

/-- An engine without an armed timer raises nothing. -/
theorem anaTimer_of_none (none : (s.ana a).timer = none) : exec (.anaTimer a) s = .next s := by
  show execAnaTimer a s = _
  simp only [execAnaTimer, none]

/-- An armed timer is reached and raises its source. -/
theorem anaTimer_of_some {v : Nat} (armed : (s.ana a).timer = some v) :
    let ahead := sgn 48 (wrap 48 ((v : Int) - s.now))
    let u := if 0 < ahead then advanceTo (s.now + ahead.toNat) s else s
    exec (.anaTimer a) s = .next (engRaise a 3 u.now (u.modAna a fun e => { e with timer := none })) := by
  show execAnaTimer a s = _
  simp only [execAnaTimer, armed]

/-- An engine without a SEND under way completes none. -/
theorem anaSendDone_of_none (none : (s.ana a).sends = []) : exec (.anaSendDone a) s = .next s := by
  show execAnaSendDone a s = _
  simp only [execAnaSendDone, none]

/-- The oldest SEND completes where the output queue has room. -/
theorem anaSendDone_of_some {p len : Nat} {rest : List (Nat × Nat)} (oldest : (s.ana a).sends = (p, len) :: rest) :
    let out := s.get (ANA_OUT_CFG_OUT_QUEUE a)
    let t := s.append out { bytes := (List.range len).flatMap fun k => s.getBytes (engDataAddr a (p + k)) 4, records := 1 }
    exec (.anaSendDone a) s = .next (if s.full out then s.noteEmpty out
      else engRaise a 2 t.now (t.modAna a fun e => { e with sends := rest })) := by
  show execAnaSendDone a s = _
  simp only [execAnaSendDone, oldest]

variable {j : Fin 2}

/-- An input stream that is off, or finds no buffer, copies nothing. -/
theorem anaInCopy_of_none (none : engInOn a j s = false ∨ nextBuffer (s.get (ANA_IN_CFG_QUEUE a j)) s = none) :
    exec (.anaInCopy a j) s = .next s := by
  refine congrArg Host.Outcome.next ?_
  rcases none with off | none
  · exact ite_not_of_false off
  · simp only [none, ite_self]

variable {it : Item} (on : engInOn a j s = true) (next : nextBuffer (s.get (ANA_IN_CFG_QUEUE a j)) s = some it)
include on next

/-- An engine that does not run passes a buffer in TEE and leaves it in CONSUME. -/
theorem anaInCopy_of_asleep (asleep : ¬(anaState a s = anRunning ∨ anaState a s = anWaiting)) :
    exec (.anaInCopy a j) s = .next (if s.get (ANA_IN_CFG_MODE a j) == 1 then
      (teeNext (s.get (ANA_IN_CFG_QUEUE a j)) s).incSat (ANA_IN_SKIPS a) else s) := by
  refine congrArg Host.Outcome.next ((ite_not_of_true on).trans ?_)
  simp only [next]
  exact if_pos (not_or.1 asleep)

variable (awake : anaState a s = anRunning ∨ anaState a s = anWaiting)
include awake

/-- A buffer that no state of its region would hold is passed or dropped, and counted. -/
theorem anaInCopy_of_long
    (long : s.get (ANA_IN_BUF_LEN a j) - 1 <
      (convWords (s.get (ANA_IN_CFG_CONV a j)) (s.get (ANA_IN_CFG_QUEUE a j)) it).1.length) :
    exec (.anaInCopy a j) s = .next (((if s.get (ANA_IN_CFG_MODE a j) == 1 then teeNext (s.get (ANA_IN_CFG_QUEUE a j)) s
      else consumeNext (s.get (ANA_IN_CFG_QUEUE a j)) it true s).incSat (ANA_IN_SKIPS a)).flag (ANA_STATUS_IN_SKIP a) (801 + 2 * a)) := by
  refine congrArg Host.Outcome.next ((ite_not_of_true on).trans ?_)
  simp only [next]
  exact (if_neg fun asleep => awake.elim asleep.1 asleep.2).trans (if_pos long)

variable (fits : (convWords (s.get (ANA_IN_CFG_CONV a j)) (s.get (ANA_IN_CFG_QUEUE a j)) it).1.length ≤
  s.get (ANA_IN_BUF_LEN a j) - 1)
include fits

/-- A buffer that fits is copied where its region has room for it now, and waits otherwise. -/
theorem anaInCopy_of_fits :
    let q := s.get (ANA_IN_CFG_QUEUE a j)
    let len := s.get (ANA_IN_BUF_LEN a j)
    let wp := s.get (ANA_IN_WP a j)
    let c := convWords (s.get (ANA_IN_CFG_CONV a j)) q it
    let n := c.1.length
    let t := (putCircular a (s.get (ANA_IN_BUF_BASE a j)) len wp (inHeader q c.2 n it :: c.1) s).set (ANA_IN_WP a j) (wp + n + 1)
    let u := if s.get (ANA_IN_CFG_MODE a j) == 1 then teeNext q t else consumeNext q it false t
    exec (.anaInCopy a j) s = .next (if (wp + 2 ^ 24 - s.get (ANA_IN_RP a j)) % 2 ^ 24 + n + 1 > len then s
      else engRaise a j u.now u) := by
  refine congrArg Host.Outcome.next ((ite_not_of_true on).trans ?_)
  simp only [next]
  exact (if_neg fun asleep => awake.elim asleep.1 asleep.2).trans (if_neg (Nat.not_lt.2 fits))

end

/-- Settles O25: the commands from outside by their equations, and the instructions as issues. -/
theorem analysisEnginesMeetTheBlock : Obligations.AnalysisEnginesMeetTheBlock := by
  unfold Obligations.AnalysisEnginesMeetTheBlock
  intro a s w out vd
  refine ⟨?enable, ?refused, fun r priv => congrArg Host.Outcome.next (privileged_of priv _ _ _), rfl, rfl, anaTimer_of_none,
    fun v armed => anaTimer_of_some armed, fun j => ?copy, anaSendDone_of_none, fun p len rest oldest => anaSendDone_of_some oldest,
    anaDoes_of_ok rfl, fun some room on => anaDoes_of_ok ?send, fun some held => anaDoes_of_ok ?stall, fun io => anaDoes_of_ok ?clock,
    fun io => anaDoes_of_ok ?read, fun io fits => anaDoes_of_ok ?rp0, fun io fits => anaDoes_of_ok ?rp1,
    fun issues io beyond => anaFaults_of_error issues ?rp0Over, fun issues io beyond => anaFaults_of_error issues ?rp1Over,
    fun issues zero => anaFaults_of_error issues (if_pos zero),
      fun io => ⟨fun soon => anaDoes_of_ok ?arm, fun late => anaDoes_of_ok ?late⟩,
    fun io => anaDoes_of_ok ?other, fun io => anaDoes_of_ok ?low, fun io => anaDoes_of_ok ?clear, anaRests_issue _ _ _ _,
    anaRests_issue _ _ _ _, anaRests_issue _ _ _ _, anaRests_issue _ _ _ _⟩
  case enable =>
    exact fun r priv ok => congrArg Host.Outcome.next ((privileged_of priv _ _ _).trans (ite_of_false ok))
  case refused => exact fun r priv bad => congrArg Host.Outcome.next ((privileged_of priv _ _ _).trans (if_pos bad))
  case copy =>
    refine ⟨anaInCopy_of_none, fun it on next => ⟨anaInCopy_of_asleep on next, anaInCopy_of_long on next, ?_, ?_⟩⟩
    · exact fun awake fits full => (anaInCopy_of_fits on next awake fits).trans (congrArg Host.Outcome.next (if_pos full))
    · exact fun awake fits room => (anaInCopy_of_fits on next awake fits).trans (congrArg Host.Outcome.next (if_neg (Nat.not_lt.2 room)))
  case send =>
    refine (if_neg some).trans (if_neg ?_)
    rw [show s.full (s.get (ANA_OUT_CFG_OUT_QUEUE a)) = false from room,
      show s.on (QM_Q_CTRL_Q_EN (s.get (ANA_OUT_CFG_OUT_QUEUE a))) = true from on]
    exact Bool.false_ne_true
  case stall =>
    refine (if_neg some).trans (if_pos (Bool.or_eq_true_iff.2 (held.imp_right fun off => ?_)))
    exact congrArg Bool.not off
  case read =>
    refine congrArg seqFlow ?_
    simp only [w] at io ⊢
    generalize bits (engFetch a s) 0 6 = i at io ⊢
    rw [if_neg io]
    match i, io with
    | 0, _ | 1, _ | 2, _ | 3, _ | 5, _ | 6, _ | 7, _ | 8, _ => rfl
    | n + 9, _ => rfl
  case other =>
    simp only [w] at io
    generalize bits (engFetch a s) 0 6 = i at io ⊢
    simp only [List.mem_cons, List.not_mem_nil, or_false, not_or] at io
    obtain ⟨rp0, rp1, low, high, irq⟩ := io
    split
    · contradiction
    · contradiction
    · contradiction
    · contradiction
    · contradiction
    · rfl
  all_goals simp only [w] at io; simp only [io]
  case clock => rfl
  case rp0 | rp1 => exact if_pos fits
  case rp0Over | rp1Over => exact ite_of_false beyond
  case arm => exact if_neg soon
  case late => exact if_pos late
  case low | clear => rfl

end Sys2Proof.Machine
end

section
/-! PROOFS. What an ADD of an analysis engine has done when its cycle ends (R286, R287, R291, R292). -/

namespace Sys2Proof.Machine

/-! ### Signed words -/

/-- A number in the range of w bits is what its two's complement reads as. -/
theorem sgn_wrap {w : Nat} {i : Int} (lo : -(2 ^ w : Nat) ≤ i) (hi : i < (2 ^ w : Nat)) : sgn (w + 1) (wrap (w + 1) i) = i := by
  have double : ((2 ^ (w + 1) : Nat) : Int) = 2 * (2 ^ w : Nat) := by rw [Nat.pow_succ]; omega
  have pos : (0 : Int) < (2 ^ (w + 1) : Nat) := by exact_mod_cast Nat.two_pow_pos (w + 1)
  have nonneg := Int.emod_nonneg i (Int.ne_of_gt pos)
  have below := Int.emod_lt_of_pos i pos
  have cast : ((wrap (w + 1) i : Nat) : Int) = i % (2 ^ (w + 1) : Nat) := Int.toNat_of_nonneg nonneg
  have whole : wrap (w + 1) i % 2 ^ (w + 1) = wrap (w + 1) i := Nat.mod_eq_of_lt (by omega)
  unfold sgn
  simp only [whole, Nat.add_sub_cancel]
  by_cases neg : i < 0
  · have shifted : i % (2 ^ (w + 1) : Nat) = i + (2 ^ (w + 1) : Nat) := by
      rw [← Int.add_emod_right, Int.emod_eq_of_lt (by omega) (by omega)]
    rw [if_neg (by omega)]
    omega
  · have same : i % (2 ^ (w + 1) : Nat) = i := Int.emod_eq_of_lt (by omega) (by omega)
    rw [if_pos (by omega)]
    omega

/-- A saturated word is in the range of 24 bits. -/
theorem sgn_wrap_satI (i : Int) : sgn 24 (wrap 24 (satI 24 i)) = satI 24 i := by
  have range : -(2 ^ 23 : Nat) ≤ satI 24 i ∧ satI 24 i < (2 ^ 23 : Nat) := by
    unfold satI clampI
    omega
  exact sgn_wrap range.1 range.2

/-! ### Engines -/

/-- A bank of an engine. -/
def Engine.bank (e : Engine) (shadow : Bool) : EngBank := if shadow then e.shadow else e.main

/-- An engine with a bank replaced. -/
def Engine.setBank (e : Engine) (shadow : Bool) (b : EngBank) : Engine :=
  if shadow then { e with shadow := b } else { e with main := b }

@[simp] theorem Engine.bank_setBank (e : Engine) (sh : Bool) (b : EngBank) : (e.setBank sh b).bank sh = b := by
  cases sh <;> rfl

@[simp] theorem Engine.flight_setBank (e : Engine) (sh : Bool) (b : EngBank) : (e.setBank sh b).flight = e.flight := by
  cases sh <;> rfl

@[simp] theorem Engine.slots_setBank (e : Engine) (sh : Bool) (b : EngBank) : (e.setBank sh b).slots = e.slots := by
  cases sh <;> rfl

theorem engBank_eq (a : Nat) (s : State) : engBank a s = (s.ana a).bank (engShadow a s) := rfl

/-- The machine t is s but for engine a, which is e in t. -/
structure AnaIs (a : Nat) (e : Engine) (s t : State) : Prop where
  here : t.ana a = e
  others : ∀ j, j ≠ a → t.ana j = s.ana j
  regs : t.regs = s.regs
  bytes : t.mem = s.mem

namespace AnaIs
variable {a : Nat} {e : Engine} {s t : State}

protected theorem refl (a : Nat) (s : State) : AnaIs a (s.ana a) s s := ⟨rfl, fun _ _ => rfl, rfl, rfl⟩

protected theorem modAna (h : AnaIs a e s t) (f : Engine → Engine) : AnaIs a (f e) s (t.modAna a f) :=
  ⟨(State.ana_modAna_same t a f).trans (congrArg f h.here), fun j ne => (State.ana_modAna_ne t f ne).trans (h.others j ne),
    h.regs, h.bytes⟩

theorem get (h : AnaIs a e s t) (f : Fld) : t.get f = s.get f := by
  unfold State.get
  rw [h.regs]

theorem byte (h : AnaIs a e s t) (x : Nat) : t.byte x = s.byte x := by
  unfold State.byte
  rw [h.bytes]

theorem shadow (h : AnaIs a e s t) : engShadow a t = engShadow a s := by
  unfold engShadow State.on
  rw [h.get]

theorem bank (h : AnaIs a e s t) : engBank a t = e.bank (engShadow a s) := by
  rw [engBank_eq, h.here, h.shadow]

theorem setEngBank (h : AnaIs a e s t) (b : EngBank) : AnaIs a (e.setBank (engShadow a s) b) s (setEngBank a b t) := by
  rw [← h.shadow]
  exact h.modAna fun e => e.setBank (engShadow a t) b

theorem engResult (h : AnaIs a e s t) (l : Nat) (d : EngDest) (i : Int) :
    AnaIs a { e with flight := e.flight ++ [⟨s.get (ANA_CYCLES a) + l - 1, engShadow a s, d, i⟩] } s (engResult a l d i t) := by
  rw [← h.shadow, ← h.get]
  exact h.modAna fun e => { e with flight := e.flight ++ [⟨t.get (ANA_CYCLES a) + l - 1, engShadow a t, d, i⟩] }

/-- The one result in flight lands as it is due. -/
theorem engLand {n : Nat} {sh : Bool} {d : EngDest} {i : Int} (h : AnaIs a e s t) (one : e.flight = [⟨n, sh, d, i⟩]) :
    AnaIs a (({ e with flight := [] } : Engine).setBank sh ((e.bank sh).put d i)) s (engLand a n t) := by
  have landed : Machine.engLand a n t =
      setEngBankOf a sh ((engBankOf a sh (t.setAna a { e with flight := [] })).put d i) (t.setAna a { e with flight := [] }) := by
    simp only [Machine.engLand, h.here, one]
    simp
  have bank : engBankOf a sh (t.setAna a { e with flight := [] }) = e.bank sh := by
    simp only [engBankOf, State.ana_setAna_same]
    rfl
  rw [landed, bank]
  exact AnaIs.modAna (e := { e with flight := [] }) (t := t.setAna a { e with flight := [] })
    ⟨State.ana_setAna_same t a _, fun j ne => (State.ana_setAna_ne t _ ne).trans (h.others j ne), h.regs, h.bytes⟩
    fun x => x.setBank sh ((e.bank sh).put d i)

end AnaIs

/-- The bank after a register of it is written. -/
theorem EngBank.vI_setV (b : EngBank) {r : Nat} (hr : r < b.v.length) (i : Int) : (b.setV r i).vI r = sgn 24 (wrap 24 i) := by
  simp [EngBank.vI, EngBank.setV, List.getD_eq_getElem?_getD, hr]

/-- Another register of the bank. -/
theorem EngBank.vI_setV_ne (b : EngBank) {r j : Nat} (ne : j ≠ r) (i : Int) : (b.setV r i).vI j = b.vI j := by
  simp [EngBank.vI, EngBank.setV, List.getD_eq_getElem?_getD, List.getElem?_set_ne ne.symm]

/-- Without loops and slots an engine goes on at the next address. -/
theorem engNext_of_plain {a : Nat} {s : State} (slots : (s.ana a).slots = 0) (loops : (engBank a s).loops = [])
    (inside : s.get (ANA_PC a) < 0x3FFF) :
    engNext a none s = (setEngBank a { engBank a s with loops := [] } s).set (ANA_PC a) (s.get (ANA_PC a) + 1) := by
  simp only [engNext, slots, engSequential, loops, loopNext, engGoto]
  rw [if_neg (by omega)]

section
variable {a : Nat} {s : State}

/-- The machine as the cycle of engine a ends, but for the count of cycles: results have landed and the clock has moved on. -/
def afterLand (a : Nat) (s : State) : State :=
  (engLand a (s.get (ANA_CYCLES a)) s).modAna a fun e =>
    { e with at_ := e.at_ + engCycle a (engLand a (s.get (ANA_CYCLES a)) s), held := false }

/-- The active bank after an ADD of sum x to V(d). -/
def addedBank (b : EngBank) (d : Nat) (x : Int) : EngBank :=
  ({ b with o := decide (satI 24 x ≠ x) }.flags (satI 24 x)).setV d (satI 24 x)

/-- The machine as an ADD ends its cycle is as before but for its engine, whose active bank holds the sum. -/
theorem anaIs_afterAdd (empty : (s.ana a).flight = []) (d : Nat) (x : Int) :
    ∃ e, AnaIs a e s (afterLand a (satResult a d x s)) ∧ e.bank (engShadow a s) = addedBank (engBank a s) d x
      ∧ e.slots = (s.ana a).slots := by
  have sets := (AnaIs.refl a s).setEngBank { engBank a s with o := decide (satI 24 x ≠ x) }
  have flags := sets.setEngBank ((engBank a (setO a (decide (satI 24 x ≠ x)) s)).flags (satI 24 x))
  have added := flags.engResult 1 (.v d) (satI 24 x)
  have lands := added.engLand (n := s.get (ANA_CYCLES a)) (sh := engShadow a s) (d := .v d) (i := satI 24 x) (by simp [empty])
  rw [← added.get] at lands
  refine ⟨_, lands.modAna _, ?_, ?_⟩
  · have bank : engBank a (setO a (decide (satI 24 x ≠ x)) s) = { engBank a s with o := decide (satI 24 x ≠ x) } := by
      rw [setO, sets.bank, Engine.bank_setBank]
    refine (Engine.bank_setBank _ _ _).trans (congrArg (fun b => EngBank.put b (.v d) (satI 24 x)) ?_)
    exact (Engine.bank_setBank _ _ _).trans (congrArg (fun b => EngBank.flags b (satI 24 x)) bank)
  · simp only [Engine.slots_setBank]

section
variable {e : Engine} {t : State} (is : AnaIs a e s t)
include is

/-- Counting a cycle leaves the engine and its program counter. -/
theorem AnaIs.inc_cycles : (t.inc (ANA_CYCLES a)).ana a = e ∧ engShadow a (t.inc (ANA_CYCLES a)) = engShadow a s
    ∧ (t.inc (ANA_CYCLES a)).get (ANA_PC a) = s.get (ANA_PC a)
    ∧ (t.inc (ANA_CYCLES a)).get (ANA_CYCLES a) = (s.get (ANA_CYCLES a) + 1) % 2 ^ 64 := by
  unfold State.inc engShadow State.on
  refine ⟨is.here, ?_, ?_, ?_⟩
  · rw [State.get_set_ne _ _ (by simp only [ANA_STATUS_SHADOW, ANA_CYCLES]; omega), is.get]
  · rw [State.get_set_ne _ _ (by simp only [ANA_PC, ANA_CYCLES]; omega), is.get]
  · rw [State.get_set_same, is.get]
    rfl

/-- Without loops and slots an engine ends its cycle at the next address. -/
theorem AnaIs.engNext (slots : e.slots = 0) (loops : (e.bank (engShadow a s)).loops = []) (inside : s.get (ANA_PC a) < 0x3FFF) :
    Machine.engNext a none (t.inc (ANA_CYCLES a)) =
      (Machine.setEngBank a { e.bank (engShadow a s) with loops := [] } (t.inc (ANA_CYCLES a))).set (ANA_PC a) (s.get (ANA_PC a) + 1) := by
  obtain ⟨here, shadow, pc, -⟩ := is.inc_cycles
  generalize t.inc (ANA_CYCLES a) = u at here shadow pc ⊢
  have bank : engBank a u = e.bank (engShadow a s) := by rw [engBank_eq, here, shadow]
  rw [engNext_of_plain (by rw [here, slots]) (by rw [bank, loops]) (pc.symm ▸ inside), bank, pc]

/-- What the end of such a cycle leaves. -/
theorem AnaIs.next_frame (b : EngBank) (inside : s.get (ANA_PC a) < 0x3FFF) :
    let v := (Machine.setEngBank a b (t.inc (ANA_CYCLES a))).set (ANA_PC a) (s.get (ANA_PC a) + 1)
    engBank a v = b ∧ v.get (ANA_PC a) = s.get (ANA_PC a) + 1 ∧ v.get (ANA_CYCLES a) = (s.get (ANA_CYCLES a) + 1) % 2 ^ 64
      ∧ (∀ j, j ≠ a → v.ana j = s.ana j) ∧ ∀ y, v.byte y = s.byte y := by
  obtain ⟨-, -, -, cycles⟩ := is.inc_cycles
  have others (j : Nat) : (t.inc (ANA_CYCLES a)).ana j = t.ana j := rfl
  have bytes (y : Nat) : (t.inc (ANA_CYCLES a)).byte y = t.byte y := rfl
  generalize t.inc (ANA_CYCLES a) = u at others bytes cycles ⊢
  have set := (AnaIs.refl a u).setEngBank b
  have shadow : ∀ n, engShadow a ((Machine.setEngBank a b u).set (ANA_PC a) n) = engShadow a u := by
    intro n
    unfold engShadow State.on
    rw [State.get_set_ne _ _ (by simp only [ANA_STATUS_SHADOW, ANA_PC]; omega), set.get]
  refine ⟨?_, ?_, ?_, fun j ne => ?_, fun y => ?_⟩
  · rw [engBank_eq, shadow, State.ana_set, set.here, Engine.bank_setBank]
  · rw [State.get_set_same]
    exact Nat.mod_eq_of_lt (show s.get (ANA_PC a) + 1 < 2 ^ 14 by omega)
  · rw [State.get_set_ne _ _ (by simp only [ANA_CYCLES, ANA_PC]; omega), set.get, cycles]
  · exact (set.others j ne).trans ((others j).trans (is.others j ne))
  · exact (set.byte y).trans ((bytes y).trans (is.byte y))

end

end

/-- Settles O26, from the bank and the registers that the end of the cycle leaves. -/
theorem analysisAddLandsAfterOneCycle : Obligations.AnalysisAddLandsAfterOneCycle := by
  unfold Obligations.AnalysisAddLandsAfterOneCycle
  intro a s issues empty slots loops inside length w x
  obtain ⟨running, noInterrupt, opcode, placed⟩ := issues
  obtain ⟨e, is, bank, still⟩ := anaIs_afterAdd (a := a) empty (bits w 23 3) x
  have plain : (e.bank (engShadow a s)).loops = [] := by rw [bank]; exact loops
  obtain ⟨holds, pc, cycles, others, bytes⟩ := 
    is.next_frame { addedBank (engBank a s) (bits w 23 3) x with loops := [] } inside
  have run : exec (.anaAdd a) s = .next (engFinish a .seq (satResult a (bits w 23 3) x s)) :=
    congrArg Host.Outcome.next (engIssue_ok running noInterrupt opcode placed rfl)
  have next := is.engNext (still.trans slots) plain inside
  rw [bank] at next
  refine ⟨_, run.trans (congrArg Host.Outcome.next next), ?_⟩
  rw [holds]
  have named : bits w 23 3 < (engBank a s).v.length := by
    rw [length]
    exact bits_lt w 23 3
  refine ⟨?_, rfl, rfl, rfl, fun r ne => EngBank.vI_setV_ne _ ne _, rfl, rfl, pc, cycles, others, bytes⟩
  exact (EngBank.vI_setV _ named _).trans (sgn_wrap_satI x)

end Sys2Proof.Machine
end

section
/-! PROOFS. Decision windows, readout windows and records, and the banks of kernels and descriptors (R165, R177 to R179, R236 to R283). -/

namespace Sys2Proof.Machine

/-! ### Places in time -/

section
variable {t : Nat} {f : State → State} {s : State}

/-- A tick that time has not reached: what it brings does not take place. -/
theorem atTick_of_before (before : (runTo (keyOf t 0) s).now < t) : atTick t f s = runTo (keyOf t 0) s := if_pos before

/-- A tick that time has reached: what it brings takes place. -/
theorem atTick_of_reached (reached : t ≤ (runTo (keyOf t 0) s).now) : atTick t f s = f (runTo (keyOf t 0) s) :=
  if_neg (Nat.not_lt.2 reached)

/-- The same, where what waits for the tick has taken place first. -/
theorem withTick_of_before (before : (advanceTo t s).now < t) : withTick t f s = advanceTo t s := if_pos before

theorem withTick_of_reached (reached : t ≤ (advanceTo t s).now) : withTick t f s = f (advanceTo t s) :=
  if_neg (Nat.not_lt.2 reached)

end

/-! ### Decision windows (R272 to R283) -/

section
variable {d : Fin 64} {s : State}

/-- The judging of a round that R275 puts off. -/
theorem roundDeferredEval_of_none (none : (s.dec d).defer = none) : exec (.roundDeferredEval d) s = .next s := by
  show execRoundDeferredEval d s = _
  simp only [execRoundDeferredEval, none]

theorem roundDeferredEval_of_some {t : Nat} (some : (s.dec d).defer = some t) : exec (.roundDeferredEval d) s = .next (judgeAt d t s) := by
  show execRoundDeferredEval d s = _
  simp only [execRoundDeferredEval, some]

/-- The TIMEOUT of an open round. -/
theorem roundTimeout_of_none (none : (s.dec d).start = none ∨ (s.dec d).tmo = 0) : exec (.roundTimeout d) s = .next s := by
  show execRoundTimeout d s = _
  rcases none with none | zero
  · simp only [execRoundTimeout, none]
  · simp only [execRoundTimeout, zero, if_true]
    split <;> rfl

theorem roundTimeout_of_some {a : Nat} (start : (s.dec d).start = some a) (tmo : (s.dec d).tmo ≠ 0) :
    exec (.roundTimeout d) s = .next (judgeAt d (a + 256 * (s.dec d).tmo) s) := by
  show execRoundTimeout d s = _
  simp only [execRoundTimeout, start, if_neg tmo]

/-- The action of the oldest round under way. -/
theorem roundAction_of_none (none : (s.dec d).rounds = []) : exec (.roundAction d) s = .next s := by
  show execRoundAction d s = _
  simp only [execRoundAction, none]

theorem roundAction_of_some {r : Round} {more : List Round} (oldest : (s.dec d).rounds = r :: more) :
    exec (.roundAction d) s = .next (actRound d (runTo (keyOf (r.at_ + 32) (20000 + d)) s)) := by
  show execRoundAction d s = _
  simp only [execRoundAction, oldest]
  rfl

theorem actRound_of_none {d : Nat} (none : (s.dec d).rounds = []) : actRound d s = s := by
  simp only [actRound, none]

theorem actRound_of_some {d : Nat} {r : Round} {more : List Round} (oldest : (s.dec d).rounds = r :: more) :
    actRound d s = roundAction d r (r.at_ + 32) s := by
  simp only [actRound, oldest]

end

/-- Settles O17, clause by clause from the equations above. -/
theorem decisionWindowsJudgeAndAct : Obligations.DecisionWindowsJudgeAndAct := by
  unfold Obligations.DecisionWindowsJudgeAndAct
  refine ⟨fun d s none => roundDeferredEval_of_none none, fun d s t some => roundDeferredEval_of_some some,
    fun d s none => roundTimeout_of_none none, fun d s a start tmo => roundTimeout_of_some start tmo,
    fun d s none => roundAction_of_none none, ?action, ?enable, ?base, fun r x be v s => rfl⟩
  case action =>
    intro d s r more oldest u
    exact ⟨fun gone => (roundAction_of_some oldest).trans (congrArg _ (actRound_of_none gone)),
      fun r' more' later => (roundAction_of_some oldest).trans (congrArg _ (actRound_of_some later))⟩
  case enable =>
    intro r d on s priv
    refine congrArg Host.Outcome.next ((privileged_of priv _ _ _).trans ?_)
    simp only [decEnWrite, Bool.and_eq_true]
  case base => exact fun r d v s priv => congrArg Host.Outcome.next (privileged_of priv _ _ _)

/-! ### Readout (R236 to R266) -/

section
variable {s : State}

/-- The record of the oldest window of a channel. -/
theorem windowRecord_of_none {c : Fin 1024} {xs : WindowData} {ovs : Bool} {n : BitVec 32} (none : (s.lau c).windows = []) :
    exec (.windowRecord c xs ovs n) s = .next s := by
  show execWindowRecord c xs ovs n s = _
  simp only [execWindowRecord, none]

theorem windowRecord_of_gone {c : Fin 1024} {xs : WindowData} {ovs : Bool} {n : BitVec 32} {w : Window} {more : List Window}
    (oldest : (s.lau c).windows = w :: more) (gone : ((advanceTo (w.e + 80) s).lau c).windows = []) :
    exec (.windowRecord c xs ovs n) s = .next (advanceTo (w.e + 80) s) := by
  show execWindowRecord c xs ovs n s = _
  simp only [execWindowRecord, oldest, gone]

theorem windowRecord_of_some {c : Fin 1024} {xs : WindowData} {ovs : Bool} {n : BitVec 32} {w : Window} {more : List Window}
    (oldest : (s.lau c).windows = w :: more) {w' : Window} {more' : List Window}
    (later : ((advanceTo (w.e + 80) s).lau c).windows = w' :: more') :
    let v := overrange (c / 32) n.toNat (advanceTo (w.e + 80) s)
    let zs := windowSamples w' (streamInts xs.stream) (xs.xs.map fun x => (x.1.toInt, x.2.toInt))
    exec (.windowRecord c xs ovs n) s = .next (produceWindow c w' (windowRecord c w' zs ovs v) v) := by
  show execWindowRecord c xs ovs n s = _
  simp only [execWindowRecord, oldest, later]

/-- New full-scale samples are counted. -/
theorem overrange_eq (i : Nat) (n : BitVec 32) (s : State) : overrange i n.toNat s =
    if n = 0 then s else (s.incSat (RFI_OVR_COUNT i) n.toNat).flag (RFI_STATUS_OVERRANGE i) (704 + i) := by
  unfold overrange
  exact ite_congr (propext ⟨fun h => BitVec.eq_of_toNat_eq h, fun h => h ▸ rfl⟩) (fun _ => rfl) fun _ => rfl

/-- The router and the oldest record that waits. -/
theorem resultWrite_of_none (none : s.recs = []) : exec .resultWrite s = .next s := by
  show execResultWrite s = _
  simp only [execResultWrite, none]

theorem resultWrite_of_some {r : Rec} {rest : List Rec} (oldest : s.recs = r :: rest) :
    exec .resultWrite s = .next (routeHead (runTo (keyOf (r.at_ + 8) rankRecord) s)) := by
  show execResultWrite s = _
  simp only [execResultWrite, oldest]

theorem routeHead_of_none (none : s.recs = []) : routeHead s = s := by
  simp only [routeHead, none]

theorem routeHead_of_some {r : Rec} {rest : List Rec} (oldest : s.recs = r :: rest) :
    routeHead s = routeRecord r (r.at_ + 8) { s with recs := rest } := by
  simp only [routeHead, oldest]

/-- A write of 1 to EN of an RFI. -/
theorem rfiEnable_eq (i t : Nat) (s : State) : rfiEnable i t s =
    (let on := if rfiPower i s ≤ 1 then t + 400000 else t + 64
     let u := (s.setRfi i { s.rfi i with pend := (s.rfi i).pend ++ [on] }).setB (RFI_CTRL_EN i) true
     if s.on (RFI_STATUS_SLICES_OK i) = false ∨ fenced (i / 4) s = true then s.flagAlways (RFI_STATUS_EN_REFUSED i) (704 + i)
     else (if rfiPower i u = 0 then setRfiPower i 1 t u else u).later on (.rfiEnable i)) := by
  simp only [rfiEnable, Bool.or_eq_true, Bool.not_eq_true', decide_eq_true_eq]

end

/-- Settles O18, clause by clause from the equations above. -/
theorem readoutWindowsBecomeRecords : Obligations.ReadoutWindowsBecomeRecords := by
  unfold Obligations.ReadoutWindowsBecomeRecords
  refine ⟨fun c xs ovs n s none => windowRecord_of_none none, ?window, fun s none => resultWrite_of_none none, ?record, ?rfi,
    fun r i s priv => congrArg Host.Outcome.next (privileged_of priv _ _ _), ?lauter⟩
  case window =>
    intro c xs ovs n s w more oldest u
    refine ⟨fun gone => windowRecord_of_gone oldest gone, fun w' more' later => ?_⟩
    have go := windowRecord_of_some (xs := xs) (ovs := ovs) (n := n) oldest later
    rw [overrange_eq] at go
    exact go
  case record =>
    intro s r rest oldest u
    exact ⟨fun gone => (resultWrite_of_some oldest).trans (congrArg _ (routeHead_of_none gone)),
      fun r' rest' later => (resultWrite_of_some oldest).trans (congrArg _ (routeHead_of_some later))⟩
  case rfi =>
    intro r i s priv t u
    exact congrArg Host.Outcome.next ((privileged_of priv _ _ _).trans (rfiEnable_eq _ _ _))
  case lauter =>
    intro r c on s priv
    refine congrArg Host.Outcome.next ((privileged_of priv _ _ _).trans ?_)
    simp only [lauEnWrite, Bool.and_eq_true]

/-! ### Banks (R165, R177 to R179, R259) -/

section
variable {s : State} {b : BankOp}

/-- The tick of a swap of kernels brings the swap that is still pending. -/
theorem kBankDue_of_swap {i : Nat} (pending : (s.rfi i).bank = some b) (swap : b.copy = false) : kBankDue i b.at_ s = kSwap i b s := by
  simp only [kBankDue, pending, swap, if_true, Bool.false_eq_true, if_false]

theorem kBankDue_of_none {i t : Nat} (none : (s.rfi i).bank = none) : kBankDue i t s = s := by
  simp only [kBankDue, none]

/-- The same of the descriptors' banks. -/
theorem wftBankDue_of_swap (pending : s.wft.bank = some b) (swap : b.copy = false) : wftBankDue b.at_ s = wftSwap b s := by
  simp only [wftBankDue, pending, swap, if_true, Bool.false_eq_true, if_false]

theorem wftBankDue_of_none {t : Nat} (none : s.wft.bank = none) : wftBankDue t s = s := by
  simp only [wftBankDue, none]

/-- The pending bank operation of the kernels. -/
theorem exec_kswapApply {i : Fin 32} (pending : (s.rfi i).bank = some b) :
    exec (.kswapApply i) s = .next (if b.copy then s else atTick b.at_ (kBankDue i b.at_) s) := by
  show execKswapApply i s = _
  simp only [execKswapApply, pending]

theorem exec_kcopyDone {i : Fin 32} (pending : (s.rfi i).bank = some b) :
    exec (.kcopyDone i) s = .next (if b.copy then kCopy i b s else s) := by
  show execKcopyDone i s = _
  simp only [execKcopyDone, pending]

theorem kbank_of_none {i : Fin 32} (none : (s.rfi i).bank = none) :
    exec (.kswapApply i) s = .next s ∧ exec (.kcopyDone i) s = .next s := by
  constructor
  · show execKswapApply i s = _
    simp only [execKswapApply, none]
  · show execKcopyDone i s = _
    simp only [execKcopyDone, none]

/-- The pending bank operation of the descriptors. -/
theorem exec_wftSwapApply (pending : s.wft.bank = some b) :
    exec .wftSwapApply s = .next (if b.copy then s else atTick b.at_ (wftBankDue b.at_) s) := by
  show execWftSwapApply s = _
  simp only [execWftSwapApply, pending]

theorem exec_wftCopyDone (pending : s.wft.bank = some b) : exec .wftCopyDone s = .next (if b.copy then wftCopy b s else s) := by
  show execWftCopyDone s = _
  simp only [execWftCopyDone, pending]

theorem wftBank_of_none (none : s.wft.bank = none) : exec .wftSwapApply s = .next s ∧ exec .wftCopyDone s = .next s := by
  constructor
  · show execWftSwapApply s = _
    simp only [execWftSwapApply, none]
  · show execWftCopyDone s = _
    simp only [execWftCopyDone, none]

/-- A partial write into a table window is refused. -/
theorem fullDword_of_partial {r : Req} {be : BitVec 4} (part : be ≠ 0xF) (a v : Nat) (k : State → State) :
    fullDword r be.toNat a v s k = accessFault r .width true be.toNat a v s :=
  if_neg fun full => part (BitVec.eq_of_toNat_eq full)

end

/-- Settles O19, clause by clause from the equations above. -/
theorem banksSwapAndCopyAtTheirTicks : Obligations.BanksSwapAndCopyAtTheirTicks := by
  unfold Obligations.BanksSwapAndCopyAtTheirTicks
  refine ⟨fun i s => rfl, fun i s => rfl, fun i s => rfl, ?kswap, ?kcopy, fun i s none => kbank_of_none none, ?kother, ?wswap, ?wnow,
    ?wcopy, ?wapply, ?wdone, fun s none => wftBank_of_none none, ?wother, ?narrow, fun r f v s => rfl, fun r f v s => rfl,
    fun r f v s => ⟨rfl, rfl⟩⟩
  case kswap =>
    intro i s b pending swap u
    have go := (exec_kswapApply pending).trans (congrArg Host.Outcome.next (ite_of_false swap))
    refine ⟨fun reached still => go.trans (congrArg _ ((atTick_of_reached reached).trans (kBankDue_of_swap still swap))),
      fun other => ?_⟩
    by_cases before : u.now < b.at_
    · exact go.trans (congrArg _ (atTick_of_before before))
    · exact go.trans (congrArg _ ((atTick_of_reached (Nat.not_lt.1 before)).trans (kBankDue_of_none (other.resolve_left before))))
  case kcopy => exact fun i s b pending copy => (exec_kcopyDone pending).trans (congrArg Host.Outcome.next (if_pos copy))
  case kother =>
    exact fun i s b pending => ⟨fun copy => (exec_kswapApply pending).trans (congrArg Host.Outcome.next (if_pos copy)),
      fun swap => (exec_kcopyDone pending).trans (congrArg Host.Outcome.next (ite_of_false swap))⟩
  case wswap =>
    intro s
    simp only [← Bool.not_eq_true']
    rfl
  case wnow =>
    intro s
    simp only [← Bool.not_eq_true, ite_not]
    rfl
  case wcopy =>
    intro s
    simp only [← Bool.not_eq_true, ite_not]
    rfl
  case wapply =>
    intro s b pending swap u
    have go := (exec_wftSwapApply pending).trans (congrArg Host.Outcome.next (ite_of_false swap))
    refine ⟨fun reached still => go.trans (congrArg _ ((atTick_of_reached reached).trans (wftBankDue_of_swap still swap))),
      fun other => ?_⟩
    by_cases before : u.now < b.at_
    · exact go.trans (congrArg _ (atTick_of_before before))
    · exact go.trans (congrArg _ ((atTick_of_reached (Nat.not_lt.1 before)).trans (wftBankDue_of_none (other.resolve_left before))))
  case wdone => exact fun s b pending copy => (exec_wftCopyDone pending).trans (congrArg Host.Outcome.next (if_pos copy))
  case wother =>
    exact fun s b pending => ⟨fun copy => (exec_wftSwapApply pending).trans (congrArg Host.Outcome.next (if_pos copy)),
      fun swap => (exec_wftCopyDone pending).trans (congrArg Host.Outcome.next (ite_of_false swap))⟩
  case narrow => exact fun r f dw be v s part => congrArg Host.Outcome.next (fullDword_of_partial part _ _ _)

end Sys2Proof.Machine
end

section
/-! PROOFS. RFO ports and Z ports (R186, R190 to R198, R208 to R230, R468). -/

namespace Sys2Proof.Machine

/-! ### RFO ports -/

section
variable {s : State}

/-- A refused write of 1 to EN of an RFO port. -/
theorem rfoEnable_of_refused {p t : Nat} (refused : rfoRefused p s = true) : rfoEnable p t s =
    (if s.get (RFO_CFG_CENTRE_N p) < 32 ∨ 192 < s.get (RFO_CFG_CENTRE_N p) then s.setB (RFO_STATUS_BAD_CENTRE p) true
      else s).flagAlways (RFO_STATUS_EN_REFUSED p) (rfoEvent p 2) := by
  simp only [rfoEnable, refused, if_true, Bool.or_eq_true, decide_eq_true_eq]

/-- An accepted one. -/
theorem rfoEnable_of_accepted {p t : Nat} (accepted : rfoRefused p s = false) : rfoEnable p t s =
    (let ten := if rfoCountsHold p s then t + 64 else t + 400000
     let u := ((s.setRfo p { s.rfo p with pend := (s.rfo p).pend ++ [ten], down := none }).setB (RFO_CTRL_EN p) true).later ten
      (.rfoEnable p)
     if rfoPower p u = psOff ∧ rfoFree p u = true then setRfoPower p psPowering u else u) :=
  ite_of_false accepted

/-- The first pending enable of a port. -/
theorem rfoEnabled_of_none {p : Fin 288} (none : (s.rfo p).pend.min? = none) : exec (.rfoEnabled p) s = .next s := by
  show execRfoEnabled p s = _
  simp only [execRfoEnabled, none]

theorem exec_rfoEnabled {p : Fin 288} {t : Nat} (first : (s.rfo p).pend.min? = some t) :
    exec (.rfoEnabled p) s = .next (atTick t (rfoEnabled p t) s) := by
  show execRfoEnabled p s = _
  simp only [execRfoEnabled, first]

/-- An enable that a Park has dropped does nothing. -/
theorem rfoEnabled_of_dropped {p t : Nat} (dropped : (s.rfo p).pend.contains t = false) : rfoEnabled p t s = s :=
  ite_of_false dropped

/-- An enable that is still pending takes effect on a port that is not held. -/
theorem rfoEnabled_of_pending {p t : Nat} (pending : (s.rfo p).pend.contains t = true) : rfoEnabled p t s =
    (let v := s.setRfo p { s.rfo p with pend := (s.rfo p).pend.filter (· != t) }
     let w := v.setRfo p { v.rfo p with enGain := (s.rfo p).enGain.next t true (v.on (RFO_CFG_HARD_MUTE p)) }
     if rfoFree p v then ((setRfoPower p psActive w).set (RFO_EN_TICK p) t).event (rfoEvent p 6) else v) :=
  if_pos pending

end

/-- Settles O20, clause by clause from the equations above. -/
theorem rfPortsEnableParkAndClear : Obligations.RfPortsEnableParkAndClear := by
  unfold Obligations.RfPortsEnableParkAndClear
  refine ⟨?refused, ?accepted, fun p s none => rfoEnabled_of_none none, ?enabled,
    fun r p s priv => congrArg Host.Outcome.next (privileged_of priv _ _ _), fun p on s => rfl, fun p s => rfl, fun p s => rfl,
    fun p s => rfl, fun zf p s => rfl, fun p s => rfl, fun p s => rfl⟩
  case refused =>
    intro r p s priv refused u
    exact congrArg Host.Outcome.next ((privileged_of priv _ _ _).trans (rfoEnable_of_refused refused))
  case accepted =>
    intro r p s priv accepted ten u
    exact congrArg Host.Outcome.next ((privileged_of priv _ _ _).trans (rfoEnable_of_accepted accepted))
  case enabled =>
    intro p s t first u x v w
    refine ⟨fun other => (exec_rfoEnabled first).trans (congrArg _ ?_),
      fun reached pending => (exec_rfoEnabled first).trans (congrArg _ ?_)⟩
    · by_cases before : u.now < t
      · exact atTick_of_before before
      · exact (atTick_of_reached (Nat.not_lt.1 before)).trans (rfoEnabled_of_dropped (other.resolve_left before))
    · exact (atTick_of_reached reached).trans (rfoEnabled_of_pending pending)

/-! ### Z ports -/

section
variable {s : State}

/-- The next stream sample of a port. -/
theorem zbStreamSample_of_none {z : Fin 768} (none : (s.zp z).stream = none) : exec (.zbStreamSample z) s = .next s := by
  show execZbStreamSample z s = _
  simp only [execZbStreamSample, none]

theorem exec_zbStreamSample {z : Fin 768} {c : Nat} (some : (s.zp z).stream = some c) :
    exec (.zbStreamSample z) s = .next (withTick (cycleTick c) (streamSample z c (cycleTick c)) s) := by
  show execZbStreamSample z s = _
  simp only [execZbStreamSample, some]

/-- A sample instant that another has replaced. -/
theorem streamSample_of_other {z c t : Nat} (other : (s.zp z).stream ≠ some c) : streamSample z c t s = s := if_neg other

section
variable {z c t : Nat} (here : (s.zp z).stream = some c)
include here

/-- The machine at a sample instant, with the next instant set. -/
def streamNext (z c : Nat) (s : State) : State :=
  let next := c + max 1 (s.get (ZP_CFG_STREAM_DIV z))
  (s.setZp z { s.zp z with stream := some next }).later (cycleTick next) (.zStream z next)

/-- An empty queue at a sample instant is an underrun. -/
theorem streamSample_of_empty (empty : (nextSample z t (streamNext z c s)).1 = none) : streamSample z c t s =
    ((nextSample z t (streamNext z c s)).2.incSat (ZB_UNDERRUNS z)).flagAlways (ZP_STATUS_UNDERRUN z) (zEvent z 12) := by
  unfold streamNext at *
  refine (if_pos here).trans ?_
  dsimp only at *
  generalize nextSample z t _ = n at *
  obtain ⟨x, u⟩ := n
  obtain rfl : x = none := empty
  rfl

/-- A sample of the queue sets the current. -/
theorem streamSample_of_sample {x : Nat} (sample : (nextSample z t (streamNext z c s)).1 = some x) : streamSample z c t s =
    (let u := (nextSample z t (streamNext z c s)).2
     bias z 0 (codeCurrent (if bits x 24 2 = 3 then zTarget z u else bits x 24 2) (sgn 24 x)) (bits x 24 2) t u) := by
  unfold streamNext at *
  refine (if_pos here).trans ?_
  dsimp only at *
  generalize nextSample z t _ = n at *
  obtain ⟨y, u⟩ := n
  obtain rfl : y = some x := sample
  rfl

end

/-- The opening of a transfer window. -/
theorem transferWindowOpen_of_none {z : Fin 768} (none : windowTick z s = none) : exec (.transferWindowOpen z) s = .next s := by
  show execTransferWindowOpen z s = _
  simp only [execTransferWindowOpen, none]

theorem exec_transferWindowOpen {z : Fin 768} {t : Nat} (some : windowTick z s = some t) :
    exec (.transferWindowOpen z) s = .next (atTick t (openWindow z t) s) := by
  show execTransferWindowOpen z s = _
  simp only [execTransferWindowOpen, some]

/-- The end of a transfer window. -/
theorem transferWindowEnd_of_none {z : Fin 768} (none : (s.zp z).window = none) : exec (.transferWindowEnd z) s = .next s := by
  show execTransferWindowEnd z s = _
  simp only [execTransferWindowEnd, none]

theorem exec_transferWindowEnd {z : Fin 768} {w : ZWindow} (some : (s.zp z).window = some w) :
    exec (.transferWindowEnd z) s = .next (atTick w.ends (zWindowEnd z w.opened w.ends) s) := by
  show execTransferWindowEnd z s = _
  simp only [execTransferWindowEnd, some]

theorem closeWindow_eq (z : Nat) (w : ZWindow) (u : State) : closeWindow z w u = windowClosed z w u := rfl

theorem zWindowEnd_of_none {z o t : Nat} (none : (s.zp z).window = none) : zWindowEnd z o t s = s := by
  simp only [zWindowEnd, none]

theorem zWindowEnd_of_same {z o t : Nat} {w : ZWindow} (some : (s.zp z).window = some w) (same : w.opened = o) :
    zWindowEnd z o t s = if w.park then startPark z t (windowClosed z w s) else windowClosed z w s := by
  simp only [zWindowEnd, some, if_pos same, closeWindow_eq]

/-- The end of a Park sequence. -/
theorem parkDone_of_none {z : Fin 768} (none : (s.zp z).park = none) : exec (.parkDone z) s = .next s := by
  show execParkDone z s = _
  simp only [execParkDone, none]

theorem exec_parkDone {z : Fin 768} {k : ZPark} (some : (s.zp z).park = some k) :
    exec (.parkDone z) s = .next (withTick k.ends (zParkDone z k.from_) s) := by
  show execParkDone z s = _
  simp only [execParkDone, some]

theorem zParkDone_of_none {z from_ : Nat} (none : (s.zp z).park = none) : zParkDone z from_ s = s := by
  simp only [zParkDone, none]

theorem zParkDone_of_some {z from_ : Nat} {k : ZPark} (some : (s.zp z).park = some k) : zParkDone z from_ s =
    if k.from_ = from_ ∧ k.live = true ∧ k.again = false then
      ((s.setZp z { s.zp z with park := none }).setB (ZP_STATUS_PARK_DONE z) true).setB (ZP_STATUS_RAMPING z) false else s := by
  simp only [zParkDone, some, Bool.not_eq_true']

/-- The end of a ramp. -/
theorem biasRampEnd_of_none {z : Fin 768} (none : (s.zp z).segs = []) : exec (.biasRampEnd z) s = .next s := by
  show execBiasRampEnd z s = _
  simp only [execBiasRampEnd, none]

theorem exec_biasRampEnd {z : Fin 768} {g : Seg} {more : List Seg} (some : (s.zp z).segs = g :: more) :
    exec (.biasRampEnd z) s = .next (atTick (g.at_ + g.d) (zRampEnd z g.at_ (g.at_ + g.d)) s) := by
  show execBiasRampEnd z s = _
  simp only [execBiasRampEnd, some]

theorem zRampEnd_of_some {z ramp d : Nat} {g : Seg} {more : List Seg} (some : (s.zp z).segs = g :: more) :
    zRampEnd z ramp (ramp + d) s =
      if g.at_ = ramp ∧ g.d = d ∧ ((s.zp z).park.any fun k => k.live) = false then s.setB (ZP_STATUS_RAMPING z) false else s := by
  simp only [zRampEnd, some, Nat.add_left_cancel_iff, Bool.not_eq_true']

end

/-- Settles O21, clause by clause from the equations above. -/
theorem zPortsMoveRangeAndPark : Obligations.ZPortsMoveRangeAndPark := by
  unfold Obligations.ZPortsMoveRangeAndPark
  refine ⟨fun r z s priv => congrArg Host.Outcome.next (privileged_of priv _ _ _),
    fun r z s priv => congrArg Host.Outcome.next (privileged_of priv _ _ _), fun z s none => zbStreamSample_of_none none, ?sample,
    fun z s none => transferWindowOpen_of_none none, ?opens, fun z s none => transferWindowEnd_of_none none, ?closes, fun z m s => rfl,
    fun z s => rfl, fun z s => rfl, fun z s none => parkDone_of_none none, ?park, fun z s none => biasRampEnd_of_none none, ?ramp,
    fun z s => rfl, fun z s => rfl⟩
  case sample =>
    intro z s c some t u next v n
    have go := exec_zbStreamSample some
    refine ⟨fun other => go.trans (congrArg _ ?_), fun reached here => ⟨fun empty => go.trans (congrArg _ ?_),
      fun x sample => go.trans (congrArg _ ?_)⟩⟩
    · by_cases before : u.now < t
      · exact withTick_of_before before
      · exact (withTick_of_reached (Nat.not_lt.1 before)).trans (streamSample_of_other (other.resolve_left before))
    · exact (withTick_of_reached reached).trans (streamSample_of_empty here empty)
    · exact (withTick_of_reached reached).trans (streamSample_of_sample here sample)
  case opens =>
    intro z s t some u
    have go := exec_transferWindowOpen some
    refine ⟨fun other => go.trans (congrArg _ ?_), fun reached here => go.trans (congrArg _ ?_)⟩
    · by_cases before : u.now < t
      · exact atTick_of_before before
      · exact (atTick_of_reached (Nat.not_lt.1 before)).trans (if_neg (other.resolve_left before))
    · exact (atTick_of_reached reached).trans (if_pos here)
  case closes =>
    intro z s w some u
    have go := exec_transferWindowEnd some
    refine ⟨fun other => go.trans (congrArg _ ?_), fun w' reached here same => go.trans (congrArg _ ?_)⟩
    · by_cases before : u.now < w.ends
      · exact atTick_of_before before
      · exact (atTick_of_reached (Nat.not_lt.1 before)).trans (zWindowEnd_of_none (other.resolve_left before))
    · exact (atTick_of_reached reached).trans (zWindowEnd_of_same here same)
  case park =>
    intro z s k some u
    have go := exec_parkDone some
    refine ⟨fun other => go.trans (congrArg _ ?_), fun k' reached here => go.trans (congrArg _ ?_)⟩
    · by_cases before : u.now < k.ends
      · exact withTick_of_before before
      · exact (withTick_of_reached (Nat.not_lt.1 before)).trans (zParkDone_of_none (other.resolve_left before))
    · exact (withTick_of_reached reached).trans (zParkDone_of_some here)
  case ramp =>
    intro z s g more some u
    have go := exec_biasRampEnd some
    exact ⟨fun before => go.trans (congrArg _ (atTick_of_before before)),
      fun g' more' reached here => go.trans (congrArg _ ((atTick_of_reached reached).trans (zRampEnd_of_some here)))⟩

end Sys2Proof.Machine
end

section
/-! PROOFS. Tap units and Flavas links (R304 to R337). -/

namespace Sys2Proof.Machine

/-! ### Tap units -/

section
variable {i : Nat} {s : State}

/-- What is written beside a unit's registers reads back. -/
@[simp] theorem State.tap_setTap_same (s : State) (i : Nat) (x : Tap) : (s.setTap i x).tap i = x := Tab.get_put_same _ _ _ _

/-- A unit moved to a state is in it. -/
theorem tapState_setTapState {st at_ : Nat} (code : st < 8) : tapState i (setTapState i st at_ s) = st :=
  (State.get_set_same _ _ _).trans (Nat.mod_eq_of_lt code)

/-- The clear of EN leaves a unit's state. -/
theorem tapState_clearEn : tapState i (s.setB (TAP_CTRL_EN i) false) = tapState i s :=
  State.get_set_ne s _ (by simp only [TAP_STATUS_STATE, TAP_CTRL_EN]; omega)

/-- A released unit is IDLE. -/
theorem tapState_tapRelease {at_ : Nat} : tapState i (tapRelease i at_ s) = tapIdle := by
  show tapState i (if _ then _ else _) = _
  split
  · exact tapState_clearEn.trans (tapState_setTapState (by decide))
  · exact tapState_setTapState (by decide)

/-- A unit's state leaves its ARM. -/
theorem armAt_setTapState {st at_ : Nat} : ((setTapState i st at_ s).tap i).armAt = (s.tap i).armAt := by
  show ((s.setTap i _).tap i).armAt = _
  rw [State.tap_setTap_same]

/-- A released unit holds no capture. -/
theorem cap_tapRelease {at_ : Nat} : ((tapRelease i at_ s).tap i).cap = none := congrArg Tap.cap (State.tap_setTap_same _ _ _)

/-- It holds an ARM only where it held one before. -/
theorem armAt_tapRelease {at_ : Nat} : ((tapRelease i at_ s).tap i).armAt = (s.tap i).armAt :=
  (congrArg Tap.armAt (State.tap_setTap_same _ _ _)).trans armAt_setTapState

/-- EN = 0 on a unit. -/
theorem tapDisable_eq : tapDisable i s =
    if s.on (TAP_CTRL_EN i) = false then s else tapDisarm i (s.setTap i { s.tap i with disable := true }) := by
  cases on : s.on (TAP_CTRL_EN i)
  · exact ite_of_false on
  · exact ite_of_true on

/-- DISARM on a capturing unit: the capture goes on, and ends the acquisition. -/
theorem tapDisarm_of_capturing (capturing : tapState i s = tapCapturing) : ((tapDisarm i s).tap i).armAt = none ∧
    tapState i (tapDisarm i s) = tapCapturing ∧ ((tapDisarm i s).tap i).disarm = true ∧
    ((tapDisarm i s).tap i).cap = (s.tap i).cap := by
  have eq : tapDisarm i s = (s.setTap i { s.tap i with armAt := none }).setTap i
      { (s.setTap i { s.tap i with armAt := none }).tap i with disarm := true } := if_pos capturing
  simp only [eq, State.tap_setTap_same]
  exact ⟨trivial, capturing, trivial, trivial⟩

/-- DISARM on any other unit: it is released. -/
theorem tapDisarm_of_not_capturing (not : tapState i s ≠ tapCapturing) : ((tapDisarm i s).tap i).armAt = none ∧
    tapState i (tapDisarm i s) = tapIdle ∧ ((tapDisarm i s).tap i).cap = none := by
  have eq : tapDisarm i s = tapRelease i (32 * s.now) (s.setTap i { s.tap i with armAt := none }) := if_neg not
  rw [eq]
  exact ⟨armAt_tapRelease.trans (congrArg Tap.armAt (State.tap_setTap_same _ _ _)), tapState_tapRelease, cap_tapRelease⟩

/-- The end of a segment whose capture is gone, before or after what waits for its tick. -/
theorem exec_tapSegmentEnd_of_none {i : Fin 32} {xs : TapData} (none : ((tapSettle i s).tap i).cap = none) :
    exec (.tapSegmentEnd i xs) s = .next (tapSettle i s) := by
  show execTapSegmentEnd i xs s = _
  simp only [execTapSegmentEnd, none]

theorem exec_tapSegmentEnd_of_gone {i : Fin 32} {xs : TapData} {c : Capture} (some : ((tapSettle i s).tap i).cap = some c)
    (none : ((advanceTo (ceilDiv c.ends 32) (tapSettle i s)).tap i).cap = none) :
    exec (.tapSegmentEnd i xs) s = .next (advanceTo (ceilDiv c.ends 32) (tapSettle i s)) := by
  show execTapSegmentEnd i xs s = _
  simp only [execTapSegmentEnd, some, none]

/-- The end of a segment whose capture is still there. -/
theorem exec_tapSegmentEnd_of_some {i : Fin 32} {xs : TapData} {c c' : Capture} (first : ((tapSettle i s).tap i).cap = some c)
    (then_ : ((advanceTo (ceilDiv c.ends 32) (tapSettle i s)).tap i).cap = some c') :
    exec (.tapSegmentEnd i xs) s = .next (tapSegmentEnd i c' (tapRaw i c' (xs.xs.map fun x => x.map BitVec.toNat)
      (streamInts xs.stream) (advanceTo (ceilDiv c.ends 32) (tapSettle i s))) (advanceTo (ceilDiv c.ends 32) (tapSettle i s))) := by
  show execTapSegmentEnd i xs s = _
  simp only [execTapSegmentEnd, first, then_]

/-- A unit that waits for a slot gets the one that has become free. -/
theorem exec_tapSlotFree {i : Fin 32} : exec (.tapSlotFree i) s = .next (
    if tapState i s = tapWaitRoom ∧ tapSlotFree i s = true then
      (let u := setTapState i tapArmed (32 * s.now) s
       u.setTap i { u.tap i with armedAt := s.now, slot := tapNextSlot i u })
    else s) := by
  show Host.Outcome.next (if _ then _ else _) = _
  split
  · rename_i free
    exact congrArg Host.Outcome.next (if_pos free.2)
  · rfl

end

/-- Settles O27: each clause is a branch of its command; the state of a released unit is read back. -/
theorem tapUnitsArmCaptureAndDeliver : Obligations.TapUnitsArmCaptureAndDeliver := by
  unfold Obligations.TapUnitsArmCaptureAndDeliver
  refine ⟨fun r i s priv => congrArg Host.Outcome.next ((privileged_of priv _ _ _)), ?_, fun i s => rfl, fun i t s => rfl, ?_, ?_, ?_,
    fun i s => rfl, ?_, ?_⟩
  case refine_1 =>
    intro r i s priv v u
    exact congrArg Host.Outcome.next ((privileged_of priv _ _ _).trans tapDisable_eq)
  case refine_2 =>
    intro i s
    refine ⟨_, rfl, ?_⟩
    by_cases capturing : tapState i s = tapCapturing
    · obtain ⟨arm, rest⟩ := tapDisarm_of_capturing capturing
      exact ⟨arm, fun _ => rest, fun not => absurd capturing not⟩
    · obtain ⟨arm, rest⟩ := tapDisarm_of_not_capturing capturing
      exact ⟨arm, fun is => absurd is capturing, fun _ => rest⟩
  case refine_3 => exact fun i xs s none => exec_tapSegmentEnd_of_none none
  case refine_4 =>
    intro i xs s c first u
    refine ⟨exec_tapSegmentEnd_of_gone first, ?_⟩
    intro c' then_ v t
    exact exec_tapSegmentEnd_of_some first then_
  case refine_5 => exact fun i t s rearm at_ => if_pos ⟨rearm, at_⟩
  case refine_6 => exact fun i s => exec_tapSlotFree

/-! ### Flavas links -/

section
variable {n : Nat} {s : State}

/-- A received CREDIT or idle ordered set in EIDLE ends the exit where the burst ends. -/
theorem exitTick_eq : (match (s.link n).exitAt with | some t => t | none => s.now + 16) = ((s.link n).exitAt).getD (s.now + 16) := by
  cases (s.link n).exitAt <;> rfl

/-- An ACTIVE link on which no idle ordered set came goes to EIDLE where AUTO_IDLE is set and it has been quiet for IDLE_AFTER. -/
theorem exec_eidleEntry_of_quiet {n : Fin 32} :
    let wait := 2000 * max 1 (s.get (FLV_CFG_IDLE_AFTER n))
    let u := advanceTo ((s.link n).quiet + wait) s
    exec (.eidleEntry n false) s = .next (
      if linkState n s = lkActive ∧ s.on (FLV_CFG_AUTO_IDLE n) = true ∧ linkQuiet n s = true then
        (if linkState n u = lkActive ∧ linkQuiet n u = true ∧ (u.link n).quiet + wait ≤ u.now then enterIdle n u.now u else u)
      else s) := by
  intro wait u
  show execEidleEntry n false s = _
  simp only [execEidleEntry, Nat.add_sub_cancel_left, Bool.false_eq_true, if_false, Bool.and_eq_true]
  by_cases active : linkState n s = lkActive
  · simp only [active, true_and, if_true]
    rfl
  · simp only [active, false_and, if_false]

end

/-- Settles O28: each clause is the branch of its command for the link's state. -/
theorem linksMoveThroughTheirStates : Obligations.LinksMoveThroughTheirStates := by
  unfold Obligations.LinksMoveThroughTheirStates
  simp only [LinkNot, ne_eq, ite_not]
  refine ⟨?_, ?_, fun n found s => rfl, fun n s => rfl, fun n s => rfl, fun n s => rfl, fun n s => rfl, ?_, fun n s => rfl, ?_, ?_,
    fun n s => rfl, fun n s => exec_eidleEntry_of_quiet, ?_⟩
  case refine_1 => exact fun r n s priv => congrArg Host.Outcome.next (privileged_of priv _ _ _)
  case refine_2 => exact fun r n s priv => congrArg Host.Outcome.next (privileged_of priv _ _ _)
  case refine_3 =>
    intro n peer width depth s
    show execFlvCaps n peer width depth s = _
    simp only [execFlvCaps, ne_eq, ite_not]
  case refine_4 => exact fun r n s priv => congrArg Host.Outcome.next (privileged_of priv _ _ _)
  case refine_5 => exact fun r n s priv => congrArg Host.Outcome.next (privileged_of priv _ _ _)
  case refine_6 =>
    intro n s
    show execEidleExit n s = _
    rw [← exitTick_eq]
    rfl

section
variable {n : Nat} {s : State}

/-- A received flit is dispatched where it passes its checks, and else discarded. -/
theorem flitTake_eq {f : Nat} : flitTake n f s = if flitOk f then
    (List.range (bits f 38 2)).foldl (fun s k => dispatch n (bits f 32 6) (bits f (64 + 128 * k) 128) s)
      (flitHeader n f (flitConsume n s))
    else flitDiscard n (flitConsume n s) := by
  cases ok : flitOk f
  · exact ite_not_of_false ok
  · exact ite_not_of_true ok

/-- An exit burst begins where none runs. -/
theorem startExit_eq : startExit n s =
    if linkState n s = lkEidle ∧ (s.link n).exitAt = none then s.setLink n { s.link n with exitAt := some (s.now + 16) } else s := by
  simp only [startExit, Option.isNone_iff_eq_none]

variable {n : Fin 32} {f : BitVec 528}

/-- A flit that comes on an ACTIVE link, in EIDLE, and in any other state. -/
theorem exec_flitRx_of_active (active : linkState n s = lkActive) :
    exec (.flitRx n f) s = .next (flvPump n 64 (flitTake n (rxFlit f.toNat) (countSync n f.toNat s))) :=
  congrArg Host.Outcome.next (if_pos active)

theorem exec_flitRx_of_eidle (eidle : linkState n s = lkEidle) :
    exec (.flitRx n f) s = .next (startExit n (flitTake n (rxFlit f.toNat) (countSync n f.toNat s))) :=
  congrArg Host.Outcome.next ((if_neg fun active => absurd (eidle.symm.trans active) (by decide)).trans (if_pos eidle))

theorem exec_flitRx_of_other (active : linkState n s ≠ lkActive) (eidle : linkState n s ≠ lkEidle) :
    exec (.flitRx n f) s = .next (if s.now < (s.link n).flushTo then flitFlush n s else s) :=
  congrArg Host.Outcome.next ((if_neg active).trans (if_neg eidle))

end

/-- A locked checker's errors. -/
theorem exec_prbsLoss {l : Fin 32} {errors : BitVec 32} {s : State} :
    let u := s.incSat (FLV_PRBS_ERRORS l) errors.toNat
    exec (.prbsLoss l errors) s = .next (if s.on (FLV_LANE_STATUS_PRBS_LOCK l) = false then s
      else if errors.toNat < 64 then u else (laneUnlock l u.now u).flag (FLV_LANE_STATUS_PRBS_LOSS l) (768 + l)) := by
  intro u
  refine congrArg Host.Outcome.next ?_
  by_cases unlocked : s.on (FLV_LANE_STATUS_PRBS_LOCK l) = false
  · exact (ite_of_false unlocked).trans (if_pos unlocked).symm
  · exact (ite_of_true (eq_true_of_ne_false unlocked)).trans (if_neg unlocked).symm

/-- Settles O29: a flit by the state of its link and its checks, the other commands by their conditions. -/
theorem flitsCreditsAndLaneTests : Obligations.FlitsCreditsAndLaneTests := by
  unfold Obligations.FlitsCreditsAndLaneTests
  refine ⟨?_, fun n s => rfl, fun n s => rfl, ?_, ?_, fun l s => rfl, fun l errors s => exec_prbsLoss⟩
  case refine_1 =>
    intro n f s x u v
    have taken : flitTake n x (countSync n f.toNat s) = v := flitTake_eq
    refine ⟨fun active => ?_, fun eidle => ?_, fun active eidle => exec_flitRx_of_other active eidle⟩
    · rw [← taken]
      exact exec_flitRx_of_active active
    · rw [← taken, ← startExit_eq]
      exact exec_flitRx_of_eidle eidle
  case refine_2 =>
    simp only [LinkNot, ne_eq, ite_not]
    exact fun n k s => rfl
  case refine_3 => exact fun r l s priv => congrArg Host.Outcome.next (privileged_of priv _ _ _)

end Sys2Proof.Machine
end

section
/-! PROOFS. Network time and Ethernet frames, and the trigger bus (R31 to R40, R340 to R352). -/

namespace Sys2Proof.Machine

/-! ### Network time -/

section
variable {v : Nat} {s : State}

/-- A write of NT_INC is applied at the next 500 MHz cycle where it lies within 0.1 % of 2 ns, and else refused. -/
theorem ntIncWrite_eq : ntIncWrite v s =
    if s.on NT_CTRL_EN = true ∧ 1998 * 2 ^ 32 ≤ 1000 * v ∧ 1000 * v ≤ 2002 * 2 ^ 32 then s.later (s.now + 4 - s.up % 4) (.ntInc v)
    else s.flagAlways NT_STATUS_INC_REFUSED 114 := by
  simp only [ntIncWrite, incRefuse, Bool.or_eq_true, Bool.not_eq_true', decide_eq_true_eq]
  by_cases taken : s.on NT_CTRL_EN = true ∧ 1998 * 2 ^ 32 ≤ 1000 * v ∧ 1000 * v ≤ 2002 * 2 ^ 32
  · rw [if_pos taken, if_neg]
    obtain ⟨en, low, high⟩ := taken
    exact fun refused => refused.elim
      (fun refused => refused.elim (fun off => Bool.false_ne_true (off.symm.trans en)) (Nat.not_lt.2 low)) (Nat.not_lt.2 high)
  · rw [if_neg taken, if_pos]
    by_cases en : s.on NT_CTRL_EN = true
    · by_cases low : 1998 * 2 ^ 32 ≤ 1000 * v
      · exact .inr (Nat.lt_of_not_le fun high => taken ⟨en, low, high⟩)
      · exact .inl (.inr (Nat.lt_of_not_le low))
    · exact .inl (.inl (eq_false_of_ne_true en))

/-- A STEP or LOAD waits for its cycle, unless another does or EN = 0. -/
theorem ntCommand_eq {a : Action} : ntCommand a s =
    if s.on NT_CTRL_EN = false then s
    else if s.on NT_STATUS_STEP_PENDING = true then s.flagAlways NT_STATUS_STEP_BUSY 114
    else (s.setB NT_STATUS_STEP_PENDING true).later (ntCycleAfter s.now s) a := by
  simp only [ntCommand, Bool.not_eq_true']

end

/-! ### Ethernet frames -/

section
variable {e : Nat} {f : List Byte} {s : State}

/-- A frame that the port does not take. -/
theorem ethReceive_of_not_taken {fcs : Bool} (not : s.on (ETH_STATUS_LINK e) = false ∨ f.length < 60 ∨ 9212 < f.length) :
    ethReceive e f fcs s = s := by
  refine if_pos ?_
  simp only [Bool.or_eq_true, Bool.not_eq_true', decide_eq_true_eq]
  exact or_assoc.2 not

/-- A frame of a right length on a link that is up. -/
theorem ethReceive_of_taken {fcs : Bool} (link : s.on (ETH_STATUS_LINK e) = true) (short : 60 ≤ f.length) (long : f.length ≤ 9212) :
    ethReceive e f fcs s =
      if fcs = false then (s.incSat (ETH_FCS_ERRORS e)).flag (ETH_STATUS_FCS_ERR e) (120 + e)
      else if isPause f then ((s.inc (ETH_RX_FRAMES e)).incSat (ETH_PAUSE_RX e)).flag (ETH_STATUS_PAUSE_RX e) (120 + e)
      else if isMgmt e f (s.inc (ETH_RX_FRAMES e)) then ethMgmt e f (s.inc (ETH_RX_FRAMES e))
      else ethQueueRx e f (s.inc (ETH_RX_FRAMES e)) := by
  refine (if_neg ?_).trans ?_
  · simp only [Bool.or_eq_true, Bool.not_eq_true', decide_eq_true_eq, link, Bool.true_eq_false, false_or, not_or, Nat.not_lt]
    exact ⟨short, long⟩
  · simp only [Bool.not_eq_true']

/-- A management frame is dropped, relayed or run. -/
theorem ethMgmt_eq : ethMgmt e f s =
    (let body := f.drop (typeOffset f + 2)
     if s.host.ryvexUp = false ∨ bodyOk body = false then s.incSat (ETH_RX_DROPS e)
     else if relayed body s = true then mgmtRelay e (frameBe f 6 6) body s
     else mgmtHere (.frame e (frameBe f 6 6)) body s) := by
  simp only [ethMgmt, ethDrop, Bool.or_eq_true, Bool.not_eq_true']

/-- Every other frame is queued behind its header, or dropped. -/
theorem ethQueueRx_eq : ethQueueRx e f s =
    (let x := rxStamp e s
     if x.2.on (QM_Q_CTRL_Q_EN (ethQueue e 3)) = false then x.2.incSat (ETH_RX_DROPS e)
     else if x.2.full (ethQueue e 3) = true then (x.2.noteEmpty (ethQueue e 3)).incSat (ETH_RX_DROPS e)
     else x.2.append (ethQueue e 3) { bytes := rxHeader f x.1 ++ f }) := by
  simp only [ethQueueRx, ethDrop, Bool.not_eq_true']

/-- The state in which the head of port e's general queue is served: the line is free. -/
abbrev ethFreeLine (e : Nat) (s : State) : State := advanceTo (s.now + (ethFreeUp e s - s.up)) s

/-- No head, or no link: nothing is sent. -/
theorem ethServe_of_idle (idle : (ethFreeLine e s).on (ETH_STATUS_LINK e) = false ∨ ethHead (ethQueue e 0) (ethFreeLine e s) = none) :
    ethServe e s = ethFreeLine e s := by
  simp only [ethServe]
  rcases idle with down | none
  · simp only [down, Bool.not_false, if_true]
    split <;> rfl
  · simp only [none]

/-- A head is returned where its LEN is bad, waits, or leaves. -/
theorem ethServe_of_head {b : List Byte} (link : (ethFreeLine e s).on (ETH_STATUS_LINK e) = true)
    (head : ethHead (ethQueue e 0) (ethFreeLine e s) = some b) : ethServe e s =
    (let u := ethFreeLine e s
     if txLenOk b = false then ethComplete e (ethQueue e 0) 4 none b u
     else if u.up < ethFreeUp e u ∨ ethBlocked e b u = true then u
     else ethSend e (ethQueue e 0) 0 (txStamp e u).1 b (txStamp e u).2) := by
  simp only [ethServe, head, link, Bool.not_true, Bool.false_eq_true, if_false, Bool.not_eq_true', Bool.or_eq_true, decide_eq_true_eq]

/-- The timed head is judged at its tick, where one is due. -/
theorem exec_ethTimedLaunch_of_none {e : Fin 2} {bufs : List (List Byte)}
    (none : let v := bufs.foldl (fun s b => ethFetch (ethQueue e 1) b s) s; timedDue e (advanceTo v.now v) = none) :
    let v := bufs.foldl (fun s b => ethFetch (ethQueue e 1) b s) s
    exec (.ethTimedLaunch e bufs) s = .next (advanceTo v.now v) := by
  intro v
  show execEthTimedLaunch e bufs s = _
  simp only [execEthTimedLaunch]
  simp only [none]
  rfl

theorem exec_ethTimedLaunch_of_some {e : Fin 2} {bufs : List (List Byte)} {t : Nat}
    (some : let v := bufs.foldl (fun s b => ethFetch (ethQueue e 1) b s) s; timedDue e (advanceTo v.now v) = some t) :
    let v := bufs.foldl (fun s b => ethFetch (ethQueue e 1) b s) s
    exec (.ethTimedLaunch e bufs) s = .next (timedJudge e (runTo (keyOf t rankLaunch) (advanceTo v.now v))) := by
  intro v
  show execEthTimedLaunch e bufs s = _
  simp only [execEthTimedLaunch]
  simp only [some]
  rfl

/-- The judgement of a timed head, and of none. -/
theorem timedJudge_of_none (none : ethHead (ethQueue e 1) s = none) : timedJudge e s = s := by
  simp only [timedJudge, none]

theorem timedJudge_of_some {b : List Byte} (head : ethHead (ethQueue e 1) s = some b) : timedJudge e s =
    (let u := s.setEth e { s.eth e with judge := s.up + 1 }
     if txLenOk b = false then ethComplete e (ethQueue e 1) 4 none b u
     else if 0 < launchIn b s then u
     else if launchIn b s = 0 then ethLaunch e b u
     else ethLate e b u) := by
  simp only [timedJudge, head, Bool.not_eq_true']

end

/-- Settles O30: the writes of network time and the frames by the lemmas above, each for one branch of its command. -/
theorem networkTimeAndFramesFollowTheirRules : Obligations.NetworkTimeAndFramesFollowTheirRules := by
  unfold Obligations.NetworkTimeAndFramesFollowTheirRules
  refine ⟨?_, ?_, fun s => rfl, ?_, ?_, ?_, ?_, ?_, ?_,
    fun e s none => timedJudge_of_none none, fun e s b head => timedJudge_of_some head,
    fun e up s => rfl⟩
  case refine_1 =>
    intro r hi s priv x v
    exact congrArg Host.Outcome.next ((if_pos priv).trans ntIncWrite_eq)
  case refine_2 =>
    intro r s priv did
    exact ⟨congrArg Host.Outcome.next ((privileged_of priv _ _ _).trans ntCommand_eq),
      congrArg Host.Outcome.next ((privileged_of priv _ _ _).trans ntCommand_eq)⟩
  case refine_3 =>
    intro e f s not
    refine ⟨fun fcs => congrArg Host.Outcome.next (ethReceive_of_not_taken not), congrArg Host.Outcome.next ?_⟩
    rw [ethReceive_of_not_taken not, ite_self]
  case refine_4 => exact fun e f s other => congrArg Host.Outcome.next (ite_of_false other)
  case refine_5 => exact fun e f s mgmt => congrArg Host.Outcome.next (ite_of_true mgmt)
  case refine_6 =>
    intro e f s link short long u x body
    refine ⟨congrArg Host.Outcome.next (ethReceive_of_taken link short long), congrArg Host.Outcome.next ?_⟩
    refine (ethReceive_of_taken link short long).trans ?_
    rw [ethMgmt_eq, ethQueueRx_eq]
    rfl
  case refine_7 =>
    intro e bufs s v u
    refine ⟨fun idle => congrArg Host.Outcome.next (ethServe_of_idle idle), fun b link head => ?_⟩
    exact congrArg Host.Outcome.next (ethServe_of_head link head)
  case refine_8 => exact fun e bufs s => ⟨exec_ethTimedLaunch_of_none, fun t => exec_ethTimedLaunch_of_some⟩

/-! ### The trigger bus -/

section
variable {s : State}

/-- A master that is aligned sends a SYNC or SYNC_CHECK at SYNC_AT, where that is far enough ahead. -/
theorem masterSend_eq {type : Nat} : masterSend type s =
    if masterReady s = false then s
    else if s.get TL_SYNC_AT < s.now + 64 then s.flagAlways TL_STATUS_SYNC_LATE 97
    else s.later (s.get TL_SYNC_AT) (.busLaunch type (s.get TL_SYNC_AT)) := by
  by_cases ready : masterReady s = false
  · exact (ite_of_false ready).trans (if_pos ready).symm
  · exact (ite_of_true (eq_true_of_ne_false ready)).trans (if_neg ready).symm

/-- A master that may send is enabled. -/
theorem masterReady_en (ready : masterReady s = true) : s.on TL_CTRL_EN = true := by
  simp only [masterReady, Bool.and_eq_true] at ready
  exact ready.1.1

/-- A frame of an enabled master leaves at its timing point. -/
theorem busLaunch_of_en {type at_ : Nat} (en : s.on TL_CTRL_EN = true) : busLaunch type at_ s =
    fireSource 33 (32 * at_) at_ (holdLine (32 * at_)
      (s.emit (.busFrame (frameBits type 1 (myDev s) at_) (fineStamp (32 * at_ : Nat))))) := ite_of_true en

/-- The SYNC_CHECK of a second leaves an aligned master whose AUTO_CHECK is set. -/
theorem secondCheck_eq : secondCheck s =
    (let m := s.tl.checkNext
     let v := { s with tl := { s.tl with checkNext := m + 2000000000 } }
     if masterReady v = true ∧ v.on TL_CFG_AUTO_CHECK = true then
       fireSource 33 (32 * m) m (holdLine (32 * m) (v.emit (.busFrame (frameBits 2 1 (myDev v) m) (fineStamp (32 * m : Nat)))))
     else v) := by
  simp only [secondCheck, Bool.and_eq_true]
  split
  · rename_i sends
    exact busLaunch_of_en (masterReady_en sends.1)
  · rfl

/-- The frame is a good one for this device where it passes every test of its reception. -/
theorem busGood_iff {up : Bool} {type : Nat} {f : BitVec 84} (right : frError f.toNat up = false) : BusGood up type f s ↔
    frType f.toNat = type ∧ ¬ (!up && !frBcast f.toNat && frAddr f.toNat != myDev s) = true := by
  simp only [BusGood, right, true_and, Bool.and_eq_true, Bool.not_eq_true', bne_iff_ne, ne_eq, Classical.not_and_iff_not_or_not,
    Bool.not_eq_false, Classical.not_not, or_assoc]

/-- A frame on a line: not listened to, in error, for others, or acted on. -/
theorem busRow_of {up : Bool} {type : Nat} {c : BitVec 84 → BitVec 64 → Instr} {k does : BitVec 84 → BitVec 64 → State → State}
    (receives : ∀ f stamp s, exec (c f stamp) s = .next (busReceive up type f.toNat stamp.toNat s (k f stamp)))
    (acts : ∀ f stamp u, k f stamp u = does f stamp u) : BusRow up type c does := by
  intro f stamp s
  have quiet : ¬ BusArrives up f s ↔ (!f.toNat.testBit 0 || !busListens up s) = true := by
    simp only [BusArrives, Bool.or_eq_true, Bool.not_eq_true', Classical.not_and_iff_not_or_not, Bool.not_eq_true]
  have comes : BusArrives up f s → busReceive up type f.toNat stamp.toNat s (k f stamp) =
      if frError f.toNat up then (busAt stamp s).flagAlways TL_STATUS_BUS_FRAME_ERR 102
      else if frType f.toNat ≠ type then busAt stamp s
      else if !up && !frBcast f.toNat && frAddr f.toNat != myDev (busAt stamp s) then busAt stamp s
      else k f stamp (busAt stamp s) := fun arrives => if_neg fun not => quiet.2 not arrives
  rw [receives]
  refine ⟨fun not => congrArg Host.Outcome.next (if_pos (quiet.1 not)), fun arrives wrong => ?_, fun arrives right others => ?_,
    fun arrives good => ?_⟩
  · rw [comes arrives, ite_of_true wrong]
  · rw [comes arrives, ite_of_false right]
    rw [busGood_iff right] at others
    split
    · rfl
    · rename_i type
      exact congrArg Host.Outcome.next (if_pos (Classical.not_not.1 fun mine => others ⟨Classical.not_not.1 type, mine⟩))
  · obtain ⟨type, mine⟩ := (busGood_iff good.1).1 good
    rw [comes arrives, ite_of_false good.1, if_neg (Classical.not_not.2 type), if_neg mine, acts]

/-- The limit of an outstanding request. -/
theorem echoTimeout_of_none (idle : s.tl.echo = none) : exec .echoTimeout s = .next s := by
  show execEchoTimeout s = _
  simp only [execEchoTimeout, idle]

theorem exec_echoTimeout {e : Echo} (echo : s.tl.echo = some e) :
    exec .echoTimeout s = .next (echoExpire (runTo (keyOf (e.reqStamp / 32 + 16808) rankEcho) s)) := by
  show execEchoTimeout s = _
  simp only [execEchoTimeout, echo, echoLimit]

theorem echoExpire_of_none (idle : s.tl.echo = none) : echoExpire s = s := by
  simp only [echoExpire, idle]

theorem echoExpire_of_some {e : Echo} (echo : s.tl.echo = some e) : echoExpire s = echoNext (e.rest.drop 1)
    ((s.setB (TL_ECHO_RESULT_VALID (e.rest.headD 64)) false).flagAlways TL_STATUS_ECHO_NO_REPLY 99) := by
  simp only [echoExpire, echo]

/-- ECHO_START begins a procedure where none runs. -/
theorem exec_echoStart {r : Req} (priv : Privileged r s) : exec (.echoStart r) s = .next (
    if masterReady s = true ∧ s.tl.echo = none then
      echoNext ((setBits 64 (s.get TL_ECHO_MASK)).filter (· != myDev s)) (s.setB TL_STATUS_ECHO_BUSY true)
    else s) := by
  refine congrArg Host.Outcome.next ((privileged_of priv _ _ _).trans ?_)
  simp only [Bool.and_eq_true, Option.isNone_iff_eq_none]

end

/-- Settles O31: the five kinds of frames by `busRow_of`, the messages and the echo procedure by the lemmas on each. -/
theorem triggerBusAlignsTheDevices : Obligations.TriggerBusAlignsTheDevices := by
  unfold Obligations.TriggerBusAlignsTheDevices
  refine ⟨?_, fun type at_ s en => ite_of_true en, fun s off => congrArg Host.Outcome.next (ite_of_false off), ?_, ?_,
    busRow_of (fun f stamp s => rfl) fun f stamp u => rfl, busRow_of (fun f stamp s => rfl) fun f stamp u => rfl, ?_, ?_,
    busRow_of (fun f stamp s => rfl) fun f stamp u => rfl, busRow_of (fun f stamp s => rfl) ?_,
    busRow_of (fun f stamp s => rfl) fun f stamp u => rfl⟩
  case refine_1 =>
    intro r s priv at_ did
    exact ⟨congrArg Host.Outcome.next ((privileged_of priv _ _ _).trans masterSend_eq),
      congrArg Host.Outcome.next ((privileged_of priv _ _ _).trans masterSend_eq)⟩
  case refine_2 =>
    intro s counting u m v
    exact congrArg Host.Outcome.next ((ite_of_true counting).trans secondCheck_eq)
  case refine_3 => exact fun r s priv => exec_echoStart priv
  case refine_4 => exact fun s idle => echoTimeout_of_none idle
  case refine_5 =>
    intro s e echo u
    exact ⟨fun idle => (exec_echoTimeout echo).trans (congrArg Host.Outcome.next (echoExpire_of_none idle)),
      fun x running => (exec_echoTimeout echo).trans (congrArg Host.Outcome.next (echoExpire_of_some running))⟩
  case refine_6 =>
    intro f stamp u
    simp only [Bool.not_eq_true']

end Sys2Proof.Machine
end

section
/-! PROOFS. The Timeline's captures, the trigger pins and the Cycle Angle (R31, R42 to R54). -/

namespace Sys2Proof.Machine

/-! ### Captures and pins -/

section
variable {n : Nat} {s : State}

/-- What is written of a pin reads back, and every other pin as before. -/
@[simp] theorem State.pin_setPin_same (s : State) (n : Nat) (x : Pin) : (s.setPin n x).pin n = x := Tab.get_put_same _ _ _ _

theorem State.pin_setPin_ne (s : State) {n j : Nat} (x : Pin) (h : j ≠ n) : (s.setPin n x).pin j = s.pin j :=
  Tab.get_put_ne _ _ _ h

/-- The write of a pin's pulse: a pin that is not TIMED is not armed, and a pulse less than 32 ticks ahead is late. -/
theorem pinArm_of_untimed {at_ : Nat} (untimed : pinTimed n (s.set (TL_PIN_AT n) at_) = false) :
    pinArm n at_ s = s.set (TL_PIN_AT n) at_ := ite_of_false untimed

theorem pinArm_of_ahead {at_ : Nat} (timed : pinTimed n (s.set (TL_PIN_AT n) at_) = true)
    (ahead : (s.set (TL_PIN_AT n) at_).now + 32 ≤ at_) :
    pinArm n at_ s = (let u := s.set (TL_PIN_AT n) at_; u.setPin n { u.pin n with armed := some at_ }) :=
  (ite_of_true timed).trans (if_neg (Nat.not_lt.2 ahead))

theorem pinArm_of_late {at_ : Nat} (timed : pinTimed n (s.set (TL_PIN_AT n) at_) = true)
    (late : at_ < (s.set (TL_PIN_AT n) at_).now + 32) :
    pinArm n at_ s = (let u := s.set (TL_PIN_AT n) at_
      (u.setPin n { u.pin n with armed := none }).flagAlways TL_STATUS_PIN_LATE 104) :=
  (ite_of_true timed).trans (if_pos late)

/-- The armed tick of a pin: without one nothing happens, a pin that is TIMED no more is disarmed, and a TIMED one pulses. -/
theorem exec_pinPulse_of_none {n : Fin 22} (none : (s.pin n).armed = none) : exec (.pinPulse n) s = .next s := by
  show execPinPulse n s = _
  simp only [execPinPulse, none]

theorem exec_pinPulse_of_untimed {n : Fin 22} {at_ : Nat} (armed : (s.pin n).armed = some at_)
    (untimed : pinTimed n (advanceTo at_ s) = false) :
    exec (.pinPulse n) s = .next ((advanceTo at_ s).setPin n { (advanceTo at_ s).pin n with armed := none }) := by
  show execPinPulse n s = _
  simp only [execPinPulse, armed, untimed, Bool.false_eq_true, if_false]

/-- The state in which a pin's pulse goes out. -/
def pulsing (n st w : Nat) (s : State) : State :=
  (s.setPin n { s.pin n with armed := none }).setPin n
    { (s.setPin n { s.pin n with armed := none }).pin n with pulse := some (st, w) }

theorem exec_pinPulse_of_timed {n : Fin 22} {at_ : Nat} (armed : (s.pin n).armed = some at_)
    (timed : pinTimed n (advanceTo at_ s) = true) :
    let u := advanceTo at_ s
    let st := fineStamp ((32 * at_ : Nat) - pinComp n u)
    let w := if u.get (TL_PIN_CFG_PULSE_W n) = 0 then 256 else u.get (TL_PIN_CFG_PULSE_W n)
    exec (.pinPulse n) s = .next ((pulsing n st w u).emit (.pinPulse n st w)) := by
  show execPinPulse n s = _
  simp only [execPinPulse, armed, timed, if_true, pulsing]

/-- It changes that pin alone, which is disarmed and keeps its stamps. -/
theorem pulsing_frame {st w : Nat} :
    pulsing n st w s = { s with tl := { s.tl with pins := (pulsing n st w s).tl.pins } } ∧
    ((pulsing n st w s).pin n).pulse = some (st, w) ∧ ((pulsing n st w s).pin n).armed = none ∧
    ((pulsing n st w s).pin n).fifo = (s.pin n).fifo ∧ ∀ j, j ≠ n → (pulsing n st w s).pin j = s.pin j := by
  refine ⟨rfl, ?_, ?_, ?_, fun j other => ?_⟩
  · simp only [pulsing, State.pin_setPin_same]
  · simp only [pulsing, State.pin_setPin_same]
  · simp only [pulsing, State.pin_setPin_same]
  · simp only [pulsing, State.pin_setPin_ne _ _ other]

end

/-! ### The Cycle Angle -/

section
variable {s : State}

/-- A real index starts the tracker, is out of range, or is used. -/
theorem caIndex_eq {x t : Nat} : caIndex x t s =
    (let a := s.tl.angle
     let v := (s.set TL_CA_LAST_IDX x).inc TL_CA_INDEX_COUNT
     let m := 8 * x - a.tIdx
     if a.started = false then fireSource 32 (32 * t) t (caRestart (8 * x) t (modAngle (fun a => { a with started := true }) v))
     else if m < 20000 * 256 ∨ m > 2 ^ 36 * 256 then
       (modAngle (fun a => { a with good := 0 }) v).flagAlways TL_CA_STATUS_PERIOD_RANGE 110
     else fireSource 32 (32 * t) t (caUsed (8 * x) m (sgn 16 (angleFine v (8 * x : Nat))) t v)) := by
  simp only [caIndex, Bool.not_eq_true']

/-- A tracker that does not run, or takes its indices from the bridge, takes none from CYC_IDX. -/
theorem exec_caIndex_of_off {stamp : BitVec 64} (off : caOn s = false ∨ s.get TL_CA_CFG_MODE = 3) :
    exec (.caIndex stamp) s = .next s := by
  refine congrArg Host.Outcome.next (if_neg ?_)
  simp only [Bool.and_eq_true, bne_iff_ne, not_and, Classical.not_not]
  exact fun on => off.resolve_left fun no => Bool.false_ne_true (no.symm.trans on)

theorem exec_caIndex_of_on {stamp : BitVec 64} (on : caOn s = true) (mode : s.get TL_CA_CFG_MODE ≠ 3) :
    exec (.caIndex stamp) s = .next (caIndex (s.instant stamp.toNat) (ceilDiv (s.instant stamp.toNat) 32)
      (advanceTo (ceilDiv (s.instant stamp.toNat) 32) s)) :=
  congrArg Host.Outcome.next (if_pos (by simp only [on, Bool.true_and, bne_iff_ne, ne_eq, mode, not_false_eq_true]))

/-- The tick of the next missed index of a tracker that runs. -/
theorem caMissAt_of_runs (on : caOn s = true) (started : s.tl.angle.started = true) (set : s.tl.angle.pSet = true) :
    caMissAt s = some (max s.now (caMissTick s)) := by
  simp only [caMissAt, on, started, set, Bool.and_self, if_true]

theorem caMissAt_of_rests (rests : ¬ (caOn s = true ∧ s.tl.angle.started = true ∧ s.tl.angle.pSet = true)) : caMissAt s = none := by
  refine if_neg ?_
  simp only [Bool.and_eq_true, and_assoc]
  exact rests

/-- A missed index: none of a tracker that does not run, or none found any more, or one whose tick has moved on, or a virtual one. -/
theorem exec_caMissedIndex_of_none (none : caMissAt s = none) : exec .caMissedIndex s = .next s := by
  show execCaMissedIndex s = _
  simp only [execCaMissedIndex, none]

section
variable {t : Nat} (missed : caMissAt s = some t)
include missed

theorem exec_caMissedIndex_of_found (none : caMissAt (runTo (keyOf t rankMiss) s) = none) :
    exec .caMissedIndex s = .next (runTo (keyOf t rankMiss) s) := by
  show execCaMissedIndex s = _
  simp only [execCaMissedIndex, missed, none]

theorem exec_caMissedIndex_of_some {t' : Nat} (then_ : caMissAt (runTo (keyOf t rankMiss) s) = some t') :
    exec .caMissedIndex s = .next (if t' ≤ (runTo (keyOf t rankMiss) s).now then
      caMiss (runTo (keyOf t rankMiss) s).now (runTo (keyOf t rankMiss) s) else runTo (keyOf t rankMiss) s) := by
  show execCaMissedIndex s = _
  simp only [execCaMissedIndex, missed, then_]

end

/-- A quadrature edge counts in QUAD mode alone. -/
theorem quadMode_iff : (caOn s && s.get TL_CA_CFG_MODE == 2) = true ↔ caOn s = true ∧ s.get TL_CA_CFG_MODE = 2 := by
  simp only [Bool.and_eq_true, beq_iff_eq]

end

/-- Settles O32: the pins and the tracker by the lemmas above, each for one branch of its command. -/
theorem edgesStampPulseAndTrack : Obligations.EdgesStampPulseAndTrack := by
  unfold Obligations.EdgesStampPulseAndTrack
  refine ⟨fun r s priv => congrArg Host.Outcome.next (privileged_of priv _ _ _), fun s => rfl, fun s => rfl,
    fun n falling stamp s accepts => congrArg Host.Outcome.next (ite_of_true accepts),
    fun n falling stamp s refuses => congrArg Host.Outcome.next (ite_of_false refuses), ?_, ?_,
    fun n s none => exec_pinPulse_of_none none, ?_, fun stamp s off => exec_caIndex_of_off off, ?_,
    fun s rests => exec_caMissedIndex_of_none (caMissAt_of_rests rests), ?_, ?_, ?_, ?_⟩
  case refine_1 =>
    intro pin s
    refine congrArg Host.Outcome.next ?_
    by_cases named : pin.toNat < 22
    · exact (if_neg (Nat.not_le.2 named)).trans (if_pos named).symm
    · exact (if_pos (Nat.not_lt.1 named)).trans (if_neg named).symm
  case refine_2 =>
    intro n at_ s u
    exact ⟨fun untimed => congrArg Host.Outcome.next (pinArm_of_untimed untimed),
      fun timed ahead => congrArg Host.Outcome.next (pinArm_of_ahead timed ahead),
      fun timed late => congrArg Host.Outcome.next (pinArm_of_late timed late)⟩
  case refine_3 =>
    intro n s at_ armed u st w
    exact ⟨fun untimed => exec_pinPulse_of_untimed armed untimed,
      fun timed => ⟨_, exec_pinPulse_of_timed armed timed, pulsing_frame⟩⟩
  case refine_4 =>
    intro stamp s on mode x t u a v m
    exact (exec_caIndex_of_on on mode).trans (congrArg Host.Outcome.next caIndex_eq)
  case refine_5 =>
    intro s on started set u t n was v x
    have missed := caMissAt_of_runs on started set
    refine ⟨fun none => exec_caMissedIndex_of_found missed none, fun t' then_ later => ?_, fun t' then_ now => ?_⟩
    · exact (exec_caMissedIndex_of_some missed then_).trans (congrArg Host.Outcome.next (if_neg (Nat.not_le.2 later)))
    · exact (exec_caMissedIndex_of_some missed then_).trans (congrArg Host.Outcome.next (if_pos now))
  case refine_6 => exact fun lead stamp s not => congrArg Host.Outcome.next (if_neg fun quad => not (quadMode_iff.1 quad))
  case refine_7 =>
    intro lead stamp s on mode x u d before
    exact congrArg Host.Outcome.next (if_pos (quadMode_iff.2 ⟨on, mode⟩))
  case refine_8 =>
    intro k at_ s u v before
    refine congrArg Host.Outcome.next ?_
    show (if (caOn s && angleValid u && (inWindow u k v && !inWindow u k before)) = true then _ else _) = _
    simp only [Bool.and_eq_true, Bool.not_eq_true', and_assoc]
    rfl

end Sys2Proof.Machine
end

section
/-! PROOFS. Accesses of a host through BAR0, BAR2 and configuration space (R89, R91, R354 to R382). -/

namespace Sys2Proof.Machine

/-! ### BAR2 and configuration space -/

section
variable {fn v : Nat} {s : State}

/-- A table entry changes; a vector unmasked with its pending bit set sends its message. -/
theorem setMsix_eq {x : Msix} : setMsix v x s =
    (let t := { s with host := { s.host with msix := Tab.put {} s.host.msix v x } }
     if x.masked = false ∧ s.host.pba.contains v = true then
       { t with host := { t.host with pba := s.host.pba.filter (· != v) } }.emit (.msix v x.addr x.data)
     else t) := by
  simp only [setMsix, Bool.and_eq_true, Bool.not_eq_true']

/-- A dword beyond a function's table is not written. -/
theorem bar2Write_of_beyond {a : Nat} (beyond : (msixVectors fn).1 ≤ a / 16) : bar2Write fn a v s = s :=
  if_neg (Nat.not_lt.2 beyond)

/-- The four dwords of an entry of the table. -/
theorem bar2Write_entry {j : Nat} (entry : j < (msixVectors fn).1) :
    let n := (msixVectors fn).2 + j
    bar2Write fn (16 * j) v s = setMsix n { s.msix n with addr := putBits (s.msix n).addr 0 32 (v - v % 4) } s
    ∧ bar2Write fn (16 * j + 4) v s = setMsix n { s.msix n with addr := putBits (s.msix n).addr 32 32 v } s
    ∧ bar2Write fn (16 * j + 8) v s = setMsix n { s.msix n with data := v } s
    ∧ bar2Write fn (16 * j + 12) v s = setMsix n { s.msix n with masked := v.testBit 0 } s := by
  intro n
  have place : ∀ c, c < 16 → (16 * j + c) / 16 = j ∧ (16 * j + c) % 16 = c := by omega
  have first := place 0 (by decide)
  rw [Nat.add_zero] at first
  refine ⟨?_, ?_, ?_, ?_⟩
  · simp only [bar2Write, first, if_pos entry, Nat.zero_div]
    rfl
  · simp only [bar2Write, place 4 (by decide), if_pos entry]
    rfl
  · simp only [bar2Write, place 8 (by decide), if_pos entry]
    rfl
  · simp only [bar2Write, place 12 (by decide), if_pos entry]
    rfl

variable {r : Req}

/-- A write outside BAR0 reaches the table of BAR2, by whole dwords, or the Command register of the configuration space. -/
theorem otherWrite_eq {a : Nat} {be : BitVec 4} (other : r.space ≠ .bar0) : otherWrite r be.toNat a v s =
    if r.space = .bar2 then (if be = 0xF then bar2Write r.fn a v s else s)
    else if a = 4 ∧ be.getLsbD 0 = true then
      (let others := s.host.master.filter (· != r.fn.val)
       { s with host := { s.host with master := if v.testBit 2 then r.fn.val :: others else others } })
    else s := by
  have whole : be.toNat = 0xF ↔ be = 0xF := BitVec.toNat_inj (y := 0xF#4)
  unfold otherWrite
  cases space : r.space
  case bar0 => exact absurd space other
  case bar2 => simp only [whole, if_true]
  case config => rfl

/-- A read outside BAR0. -/
theorem otherRead_eq {a : Nat} (other : r.space ≠ .bar0) : otherRead r a s =
    if r.space = .bar2 then bar2Read r.fn a s
    else if a = 4 then (if s.host.master.contains r.fn.val then 4 else 0) else 0 := by
  unfold otherRead
  cases space : r.space
  case bar0 => exact absurd space other
  case bar2 => simp only [if_true]
  case config =>
    simp only [reduceCtorEq, if_false, busMaster]
    cases s.host.master.contains r.fn.val
    · simp only [b2n, Bool.false_eq_true, if_false, Nat.mul_zero]
    · simp only [b2n, if_true, Nat.mul_one]

end

/-- Settles O33: the accesses outside BAR0 by the lemmas above; the other clauses are the branches of their commands. -/
theorem hostAccessesReachTheirFields : Obligations.HostAccessesReachTheirFields := by
  unfold Obligations.HostAccessesReachTheirFields
  refine ⟨?_, ?_, fun fn a v s beyond => bar2Write_of_beyond beyond, fun fn j v s entry => bar2Write_entry entry,
    fun v x s => setMsix_eq, ?_, ?_, ?_, ?_, ?_, ?_, ?_, ?_, fun b s => rfl, fun fn s => rfl, fun fn s => rfl⟩
  case refine_1 =>
    intro r addr s
    refine congrArg Host.Outcome.next ?_
    exact ite_self _
  case refine_2 =>
    intro r addr be v s other a others masters
    exact congrArg Host.Outcome.next ((if_neg other).trans (otherWrite_eq other))
  case refine_3 =>
    intro r addr be v xs s bar0 a u
    exact congrArg Host.Outcome.next (if_pos bar0)
  case refine_4 =>
    intro r addr bes s a u x
    have reads : x = if r.space = .bar0 then readRequest r a bes u
        else ((List.range bes.length).map fun k => otherRead r (a + 4 * k) u, u) := by
      by_cases bar0 : r.space = .bar0
      · exact (if_pos bar0).trans (if_pos bar0).symm
      · simp only [otherRead_eq bar0]
        rfl
    rw [reads]
    rfl
  case refine_5 => exact fun r rid s priv => congrArg Host.Outcome.next (privileged_of priv _ _ _)
  case refine_6 => exact fun r s priv => congrArg Host.Outcome.next (privileged_of priv _ _ _)
  case refine_7 => exact fun r s priv => congrArg Host.Outcome.next (privileged_of priv _ _ _)
  case refine_8 => exact fun r m j v s priv => congrArg Host.Outcome.next (privileged_of priv _ _ _)
  case refine_9 => exact fun r s priv => congrArg Host.Outcome.next (privileged_of priv _ _ _)
  case refine_10 => exact fun r b s priv => congrArg Host.Outcome.next (privileged_of priv _ _ _)

end Sys2Proof.Machine
end

section
/-! PROOFS. The mailbox protocol: what a command that is not next, is turned away, waits or is taken does, and the commands on
doorbells, sessions and keys (R373 to R386). -/

namespace Sys2Proof.Machine

/-! ### Taking a command -/

section
variable {c : Spec} {m : Nat} {dma : Dma} {size : Cmd → State → Nat} {s u : State}

/-- A mailbox whose command is not next stays as it is. -/
theorem takeCommand_of_not_next (not : isNext m c.op s = false) (k : Cmd → List DmaDesc → State → State) :
    takeCommand c m dma size k s = s := ite_not_of_false not

/-- A command that fails one of checks 3 to 5 ends with the status. -/
theorem takeCommand_of_refused {st : Nat} (next : isNext m c.op s = true) (refused : admitted c m dma s = .error (st, u))
    (k : Cmd → List DmaDesc → State → State) : takeCommand c m dma size k s = finish m ⟨st, []⟩ u := by
  unfold takeCommand
  unfold admitted at refused
  simp only [next, Bool.not_true, Bool.false_eq_true, if_false]
  generalize dma.ecc.foldl (fun s e => cellarError e s) s = t at refused ⊢
  by_cases waiting : t.host.waits.contains m = true
  · rw [if_pos waiting] at refused
    cases refused
  · rw [if_neg waiting] at refused ⊢
    cases station : stationOk m c t with
    | false =>
      rw [if_pos station] at refused
      cases refused
      rfl
    | true =>
      cases tag : tagOk m c t with
      | false =>
        rw [station, tag] at refused
        cases refused
        rfl
      | true =>
        simp only [station, tag, Bool.true_eq_false, Bool.not_true, Bool.false_eq_true, if_false] at refused ⊢
        generalize accept m c t = accepted at refused ⊢
        obtain ⟨_ | _, _⟩ := accepted <;> cases refused
        rfl

/-- The command that a payload holds has the role of its session. -/
theorem layout_role {role flags : Nat} {p : List Byte} {x : Cmd} {ds : List DmaDesc}
    (laid : layout m role c dma p flags = .ok (x, ds)) : x.role = role := by
  simp only [layout] at laid
  repeat' split at laid
  all_goals cases laid
  all_goals rfl

section
variable {role : Nat} (ok : admitted c m dma s = .ok (role, u))
include ok

/-- A payload that is not one of the command ends it. -/
theorem goOn_of_bad_layout {st : Nat} (bad : layout m role c dma (cmdPayload m u) (cmdFlags m u) = .error st)
    (k : Cmd → List DmaDesc → State → State) :
    goOn c m role dma size k u = finish m ⟨st, []⟩ u ∧ turnedAway c m dma size s = some (st, u) := by
  constructor
  · unfold goOn
    simp only [bad]
  · simp only [turnedAway, ok, bad]

variable {x : Cmd} {ds : List DmaDesc} (laid : layout m role c dma (cmdPayload m u) (cmdFlags m u) = .ok (x, ds))
include laid

/-- The checks behind the payload's: a command that fails one ends, and any other waits or runs. -/
theorem goOn_of_layout (k : Cmd → List DmaDesc → State → State) : goOn c m role dma size k u =
    match turnedAway c m dma size s with
    | some x => finish m ⟨x.1, []⟩ x.2
    | none => if namedTiles c.op x.ps &&& heldTiles m u ≠ 0 then waitBusy m role u
      else k x ds { u with host := { u.host with waits := u.host.waits.filter (· != m) } } := by
  have room : ((dmaTotal ds true = 0 ∧ 4080 < size x u) ∨ (dmaTotal ds true ≠ 0 ∧ dmaTotal ds true < size x u)) ↔
      (if dmaTotal ds true = 0 then 4080 else dmaTotal ds true) < size x u := by
    split <;> omega
  have master : (!ds.isEmpty && !busMaster (dmaFn m u) u) = true ↔ ds ≠ [] ∧ busMaster (dmaFn m u) u = false := by
    simp only [Bool.and_eq_true, Bool.not_eq_true', List.isEmpty_eq_false_iff]
  unfold goOn
  simp only [turnedAway, ok, laid, room, master]
  by_cases long : (if dmaTotal ds true = 0 then 4080 else dmaTotal ds true) < size x u
  · simp only [if_pos long]
  by_cases flags : cmdFlags m u / 2 ≠ 0 ∨ cmdField m 10 2 u ≠ 0
  · simp only [if_neg long, if_pos flags]
  by_cases data : ds ≠ [] ∧ busMaster (dmaFn m u) u = false
  · simp only [if_neg long, if_neg flags, if_pos data]
  · simp only [if_neg long, if_neg flags, if_neg data]

end

/-- A command that no check turns away passes them all. -/
theorem passes_of_not_turnedAway (next : isNext m c.op s = true) (stays : turnedAway c m dma size s = none) :
    ∃ x ds u, Passes c m dma size x ds s u := by
  cases ok : admitted c m dma s with
  | error x => simp only [turnedAway, ok, reduceCtorEq] at stays
  | ok x =>
    obtain ⟨role, u⟩ := x
    cases laid : layout m role c dma (cmdPayload m u) (cmdFlags m u) with
    | error st => simp only [turnedAway, ok, laid, reduceCtorEq] at stays
    | ok y => exact ⟨y.1, y.2, u, next, stays, role, ok, laid⟩

/-- A command that a check turns away ends with its status. -/
theorem takeCommand_of_turnedAway {st : Nat} (next : isNext m c.op s = true) (turned : turnedAway c m dma size s = some (st, u))
    (k : Cmd → List DmaDesc → State → State) : takeCommand c m dma size k s = finish m ⟨st, []⟩ u := by
  cases ok : admitted c m dma s with
  | error x =>
    simp only [turnedAway, ok, Option.some.injEq] at turned
    subst turned
    exact takeCommand_of_refused next ok k
  | ok x =>
    obtain ⟨role, v⟩ := x
    rw [takeCommand_of_admitted next ok]
    cases laid : layout m role c dma (cmdPayload m v) (cmdFlags m v) with
    | error st =>
      obtain ⟨ends, same⟩ := goOn_of_bad_layout (size := size) ok laid k
      cases turned.symm.trans same
      exact ends
    | ok y => rw [goOn_of_layout ok laid, turned]

/-- A command that names a held tile waits. -/
theorem takeCommand_of_held {x : Cmd} {ds : List DmaDesc} (passes : Passes c m dma size x ds s u)
    (held : namedTiles c.op x.ps &&& heldTiles m u ≠ 0) (k : Cmd → List DmaDesc → State → State) :
    takeCommand c m dma size k s = waitBusy m x.role u := by
  obtain ⟨next, stays, role, ok, laid⟩ := passes
  rw [takeCommand_of_admitted next ok, goOn_of_layout ok laid, stays, layout_role laid]
  exact if_pos held

/-- What a command does is what `does` says, once its own checks and effect do. -/
theorem obeys_of_runs {act does : Cmd → State → Reply × State} (same : ∀ x u, act x u = does x u) :
    Obeys c m dma size does s (.next (runCommand c m dma act s size)) := by
  refine ⟨fun not => ?_, fun st u next turned => ?_, fun x ds u passes held => ?_, fun x ds u taken => ?_⟩
  · exact congrArg Host.Outcome.next (takeCommand_of_not_next not _)
  · exact congrArg Host.Outcome.next (takeCommand_of_turnedAway next turned _)
  · exact congrArg Host.Outcome.next (takeCommand_of_held passes held _)
  · rw [runCommand_of_takes taken, same]

end

/-! ### Doorbells, sessions and keys -/

section
variable {m : Nat} {s : State}

/-- A write of n records of the Cellar that ends OK where the temperature lets it. -/
theorem celCommand_of_ok {n : Nat} {act : State → Reply × State} {t : State} (wrote : act s = (⟨stOk, []⟩, t)) :
    celCommand n s act = inCellar n s t := by
  simp only [celCommand, inCellar, wrote, if_true, cellarTimeout, tempInhibit]

/-- OPEN_SESSION for a role that has no key, and for one that has. -/
theorem openSession_of_none {r : Nat} {nonce mac : List Byte}
    (none : roleKey r (s.setMbx m { s.mbx m with nonce := none }) = none) :
    openSession m r nonce mac s = (⟨stAuthFail, []⟩, countFail m (s.setMbx m { s.mbx m with nonce := .none })) := by
  simp only [openSession, none, authFail]

theorem openSession_of_some {r : Nat} {nonce mac : List Byte} {k : RoleKey}
    (key : roleKey r (s.setMbx m { s.mbx m with nonce := none }) = some k) : openSession m r nonce mac s =
    (let v := s.setMbx m { s.mbx m with nonce := none }
     let tag := Config.freeValue v.fresh.1 % 65535 + 1
     let w := v.fresh.2
     let t := w.setMbx m { w.mbx m with session := some ⟨tag, r, 0, w.up, (w.mbx m).origin, k.v, nonce⟩, fails := 0 }
     if roleOpen r v = true ∧ mac = hmac k.v (nonce ++ [BitVec.ofNat 8 r]) then
       (⟨stOk, toBytes 2 tag ++ toBytes 2 0⟩, t.setB (MBX_DB_SESSION_OPEN m) true)
     else (⟨stAuthFail, []⟩, countFail m v)) := by
  simp only [openSession, key, authFail]
  generalize s.setMbx m { s.mbx m with nonce := none } = v
  by_cases opens : roleOpen r v = true ∧ mac = hmac k.v (nonce ++ [BitVec.ofNat 8 r])
  · rw [if_pos opens, if_neg]
    simp only [opens.1, opens.2, Bool.not_true, ne_eq, not_true_eq_false, decide_false, Bool.or_self, Bool.false_eq_true,
      not_false_eq_true]
  · rw [if_neg opens, if_pos]
    simp only [Bool.or_eq_true, Bool.not_eq_true', decide_eq_true_eq]
    exact (Decidable.not_and_iff_or_not.1 opens).imp_left eq_false_of_ne_true

variable {m : Fin 16}

/-- A session's 3,600 s, and a lockout's end. -/
theorem sessionTimeout_of_none (none : (s.mbx m).session = none) : exec (.sessionTimeout m) s = .next s := by
  show execSessionTimeout m s = _
  simp only [execSessionTimeout, none]

theorem sessionTimeout_of_some {e : Session} (open_ : (s.mbx m).session = some e) :
    exec (.sessionTimeout m) s = .next (closeSession m (advanceTo (s.now + (e.at_ + 7200000000000 - s.up)) s)) := by
  show execSessionTimeout m s = _
  simp only [execSessionTimeout, open_]

theorem lockoutExpiry_of_none (none : (s.mbx m).lockEnd = none) : exec (.lockoutExpiry m) s = .next s := by
  show execLockoutExpiry m s = _
  simp only [execLockoutExpiry, none]

theorem lockoutExpiry_of_some {t : Nat} (locked : (s.mbx m).lockEnd = some t) :
    let u := advanceTo (s.now + (t - s.up)) s
    exec (.lockoutExpiry m) s = .next ((u.setMbx m { u.mbx m with lockEnd := none }).setB (MBX_DB_LOCKOUT m) false) := by
  show execLockoutExpiry m s = _
  simp only [execLockoutExpiry, locked]

/-- A doorbell: RING is privileged but in mailboxes 4 to 11. -/
theorem exec_mbxRing {r : Req} (mine : (4 ≤ m.val ∧ m.val < 12) ∨ Privileged r s) :
    exec (.mbxRing r m) s = .next (ring r.fn m s) := by
  refine congrArg Host.Outcome.next ?_
  by_cases privileged : m.val < 4 ∨ 12 ≤ m.val
  · exact (if_pos privileged).trans (privileged_of (mine.resolve_left (by omega)) _ _ _)
  · exact if_neg privileged

end

/-- Settles O34: the checks of the mailbox protocol by `obeys_of_runs`, and each command's own part. -/
theorem mailboxSessionsOpenAndClose : Obligations.MailboxSessionsOpenAndClose := by
  unfold Obligations.MailboxSessionsOpenAndClose
  refine ⟨fun r m s mine => exec_mbxRing mine, fun c m dma size s next stays => passes_of_not_turnedAway next stays,
    fun m s none => sessionTimeout_of_none none, fun m s e open_ => sessionTimeout_of_some open_,
    fun m s none => lockoutExpiry_of_none none, fun m s t locked => lockoutExpiry_of_some locked,
    fun m dma s => obeys_of_runs fun x u => rfl, fun m dma s => obeys_of_runs fun x u => rfl, ?_,
    fun m dma s => obeys_of_runs fun x u => rfl, ?_, fun m dma s => obeys_of_runs fun x u => rfl, ?_, ?_, ?_⟩
  case refine_1 =>
    intro m dma s
    refine obeys_of_runs fun x u => congrArg (ite _ _) (congrArg (ite _ _) ?_)
    generalize nonceFor m (le x.ps 0 1) u = nonce
    cases nonce with
    | none => rfl
    | some n =>
      cases key : roleKey (le x.ps 0 1) (u.setMbx m { u.mbx m with nonce := none }) with
      | none => exact openSession_of_none key
      | some k => exact openSession_of_some key
  case refine_2 =>
    intro m dma s
    refine obeys_of_runs fun x u => ?_
    exact congrArg (ite _ _) (congrArg (ite _ _) (celCommand_of_ok rfl))
  case refine_3 =>
    intro m dma s
    refine obeys_of_runs fun x u => ?_
    exact congrArg (ite _ _) (congrArg (ite _ _) (congrArg (ite _ _) (celCommand_of_ok rfl)))
  case refine_4 =>
    intro q s rests
    refine if_pos ?_
    simp only [Bool.or_eq_true, Bool.not_eq_true']
    exact rests
  case refine_5 =>
    intro q s t next cold answered
    show execCellarTimeout q s = _
    simp only [execCellarTimeout, next, cold, answered, Bool.not_true, Bool.or_self, Bool.false_eq_true, if_false, Ans.orSame]

end Sys2Proof.Machine
end

section
/-! PROOFS. The load commands (R20, R62, R131 to R386). -/

namespace Sys2Proof.Machine

/-- A recipe is loaded into the masked Tuns one by one. -/
theorem recipeEach_succ {mask t : Nat} {c : List Byte} {u : State} : recipeEach mask c (t + 1) u =
    if mask.testBit t then
      ((recipeLoad t c (recipeEach mask c t u).2).1 :: (recipeEach mask c t u).1, (recipeLoad t c (recipeEach mask c t u).2).2)
    else (0 :: (recipeEach mask c t u).1, (recipeEach mask c t u).2) := rfl

/-- STORE_RECIPE takes no container that is not an image or a patch. -/
theorem storable_iff {c : List Byte} :
    ((recipeRecords c).isNone || cnKind c == 2) = true ↔ recipeRecords c = none ∨ cnKind c = 2 := by
  simp only [Bool.or_eq_true, Option.isNone_iff_eq_none, beq_iff_eq]

/-- LOAD_PROGRAM runs while a host path is there. -/
theorem exec_loadProgram_of_path {m : Fin 16} {dma : Dma} {s : State} (path : hostPath s = true) :
    exec (.loadProgram m dma) s = .next (runCommand (coreSpec 0x0100) m dma
      (fun c s =>
        if 512 ≤ le c.ps 0 2 ∨ le c.ps 2 2 ≠ 0 ∨ 8192 < le c.ps 4 4 + le c.ps 8 4 then refuse stBadParam s
        else if s.get (SEQ_STATUS_STATE (le c.ps 0 2)) ≠ 0 then refuse stStateConflict s
        else loadReply c (s.setBytes (instrStoreBase + 0x10000 * le c.ps 0 2 + 8 * le c.ps 4 4) (wholeUnits 8 c))) s) :=
  congrArg Host.Outcome.next (ite_not_of_true path)

/-- Settles O35: every load command by `obeys_of_runs`. -/
theorem loadCommandsFillTheMemories : Obligations.LoadCommandsFillTheMemories := by
  unfold Obligations.LoadCommandsFillTheMemories
  intro m dma s stored whole
  refine ⟨fun lost => congrArg Host.Outcome.next (ite_not_of_false lost), fun path => ?_,
    obeys_of_runs fun x u => rfl, obeys_of_runs fun x u => rfl, obeys_of_runs fun x u => rfl, obeys_of_runs fun x u => rfl,
    obeys_of_runs fun x u => rfl, obeys_of_runs fun x u => rfl, fun mask c t u => ⟨rfl, recipeEach_succ⟩, ?_⟩
  case refine_1 =>
    rw [exec_loadProgram_of_path path]
    exact obeys_of_runs fun x u => rfl
  case refine_2 =>
    refine obeys_of_runs fun x u => ?_
    simp only [storable_iff]
    exact congrArg (ite _ _) (congrArg (ite _ _) (congrArg (ite _ _) (celCommand_of_ok rfl)))

end Sys2Proof.Machine
end

section
/-! PROOFS. Register, telemetry, bound-ring, Park and fence commands (R196 to R231, R386 to R389, R475 to R477). -/

namespace Sys2Proof.Machine

/-! ### FENCE -/

section
variable {c : Spec} {m : Nat} {dma : Dma} {size : Cmd → State → Nat} {x : Cmd} {ds : List DmaDesc} {s u : State}

/-- A command that is taken goes on in the state that its checks leave. -/
theorem takeCommand_of_takes (taken : Takes c m dma size x ds s u) (k : Cmd → List DmaDesc → State → State) :
    takeCommand c m dma size k s = k x ds u := by
  obtain ⟨v, ⟨next, stays, role, ok, laid⟩, free, rfl⟩ := taken
  exact (takeCommand_of_admitted next ok _).trans (goOn_of_not_turnedAway ok laid stays free _)

end

section
variable {m : Fin 16} {dma : Dma} {s u : State}

/-- FENCE on a tile: refused, fenced already, without supplies, or BUSY until they are off. -/
theorem exec_fence_of_takes {x : Cmd} {ds : List DmaDesc} (taken : Takes (coreSpec 0x0502) m dma noSize x ds s u) :
    let a := le x.ps 0 1
    let v := fenceTile a 1 false u.now u
    let w := { v with host := { v.host with posted := v.host.posted.filter (· != m.val) } }
    exec (.fence m dma) s = .next (
      if 8 ≤ a ∨ le x.ps 1 3 ≠ 0 then finish m ⟨stBadParam, []⟩ u
      else if fenced a u = true then finish m ⟨stOk, []⟩ u
      else if tilePowered a u = false then finish m ⟨stOk, []⟩ v
      else (w.setMbx m { w.mbx m with tile := some a }).set (MBX_DB_STATE m) mbBusy) := by
  intro a v w
  refine congrArg Host.Outcome.next ((takeCommand_of_takes taken _).trans ?_)
  simp only [Bool.not_eq_true']
  rfl

end

/-! ### The supplies of a fenced tile -/

section
variable {a : Nat} {s : State}

/-- A tile that is fenced by command, and still powered, loses its supplies. -/
theorem exec_fencePowerOff {a : Fin 8} :
    let u := untilParked 1024 a (fenceTick a s + 4000000000) s
    exec (.fencePowerOff a) s = .next (
      if fenced a s = true ∧ fenceCause a s = 1 ∧ tilePowered a s = true then
        rejectAll ((fenceWaiters a (tileOff a u.now u)).foldl
          (fun s m => finish m ⟨stOk, []⟩ (s.setMbx m { s.mbx m with tile := none })) (tileOff a u.now u))
      else s) := by
  intro u
  refine congrArg Host.Outcome.next ?_
  have stays : (!fenced a s || fenceCause a s != 1 || !tilePowered a s) = true ↔
      ¬ (fenced a s = true ∧ fenceCause a s = 1 ∧ tilePowered a s = true) := by
    simp only [Bool.or_eq_true, Bool.not_eq_true', bne_iff_ne, ne_eq, Classical.not_and_iff_not_or_not, Bool.not_eq_true, or_assoc]
  by_cases off : fenced a s = true ∧ fenceCause a s = 1 ∧ tilePowered a s = true
  · exact (if_neg fun not => stays.1 not off).trans (if_pos off).symm
  · exact (if_pos (stays.2 off)).trans (if_neg off).symm

variable {n limit : Nat}

/-- Time passes over the next step of a Park sequence, or to the limit. -/
theorem untilParked_of_step {t : Nat} (parks : parkedAll a s = false) (step : nextParkStep a s = some t) (within : t < limit) :
    untilParked (n + 1) a limit s = untilParked n a limit (advanceTo t s) := by
  simp only [untilParked, parks, step, Bool.false_eq_true, if_false, if_pos within]

theorem untilParked_of_no_step (parks : parkedAll a s = false) (beyond : ∀ t, nextParkStep a s = some t → limit ≤ t) :
    untilParked (n + 1) a limit s = advanceTo limit s := by
  simp only [untilParked, parks, Bool.false_eq_true, if_false]
  cases step : nextParkStep a s with
  | none => rfl
  | some t => exact if_neg (Nat.not_lt.2 (beyond t step))

end

/-! ### Exports -/

section
variable {k : Fin 1008} {cons : BitVec 64} {s : State}

/-- No slot is written without a bound ring, without a buffer, or while the device may not write. -/
theorem exportSlotWrite_of_unbound (none : s.exportOf k = none) : exec (.exportSlotWrite k cons) s = .next s := by
  show execExportSlotWrite k cons s = _
  simp only [execExportSlotWrite, none]

theorem exportSlotWrite_of_empty {x : Export} (bound : s.exportOf k = some x) (none : exportHead x.queue s = none) :
    exec (.exportSlotWrite k cons) s = .next s := by
  show execExportSlotWrite k cons s = _
  simp only [execExportSlotWrite, bound, none]

theorem exportSlotWrite_of_down (down : s.on HOST_CTRL_EN = false ∨ s.on HOST_STATUS_LINK_UP = false) :
    exec (.exportSlotWrite k cons) s = .next s := by
  have not : (s.on HOST_CTRL_EN && s.on HOST_STATUS_LINK_UP) = false := Bool.and_eq_false_iff.2 down
  show execExportSlotWrite k cons s = _
  simp only [execExportSlotWrite, not, Bool.false_eq_true, if_false]
  split
  · split <;> rfl
  · rfl

/-- A slot is written where the ring has room. -/
theorem exec_exportSlotWrite {x : Export} {it : Item} (bound : s.exportOf k = some x) (head : exportHead x.queue s = some it)
    (en : s.on HOST_CTRL_EN = true) (link : s.on HOST_STATUS_LINK_UP = true) :
    exec (.exportSlotWrite k cons) s = .next (exportSlot k cons.toNat x it s) := by
  show execExportSlotWrite k cons s = _
  simp only [execExportSlotWrite, bound, head, en, link, Bool.and_self, if_true]

/-- The end of a bound ring's last buffer. -/
theorem exportSlot_eq {k cons : Nat} {x : Export} {it : Item} : exportSlot k cons x it s =
    (let rest := it.bytes.drop x.done
     let part := rest.take (x.bytes - 16)
     let prod := (x.prod + 1) % 2 ^ 64
     let more := decide (x.bytes - 16 < rest.length)
     let u := (s.emit (.hostWrite 0 (x.addr + x.bytes * (x.prod % x.slots)) (slotHeader x.queue part.length more it ++ part))).emit
       (.hostWrite 0 (x.addr + x.bytes * x.slots) (toBytes 8 prod))
     let v := (u.popHead x.queue).2
     if x.slots ≤ (x.prod + 2 ^ 64 - cons) % 2 ^ 64 then s
     else if more then { u with exports := Tab.list u.exports k { x with prod := prod, done := x.done + part.length } }
     else if x.off then { v with exports := Tab.drop v.exports k }
     else { v with exports := Tab.list v.exports k { x with prod := prod, done := 0 } }) := by
  cases off : x.off with
  | true =>
    simp only [exportSlot, off]
    rfl
  | false =>
    simp only [exportSlot, off]
    rfl

end

/-- Settles O36: the commands by `obeys_of_runs`, exports and fences by the lemmas above. -/
theorem telemetryExportAndFenceCommands : Obligations.TelemetryExportAndFenceCommands := by
  unfold Obligations.TelemetryExportAndFenceCommands
  refine ⟨?commands, ?exports, fun a s => exec_fencePowerOff, fun a limit s => ⟨rfl, fun n => ⟨fun parked => if_pos parked,
    fun parks => ⟨fun t step within => untilParked_of_step parks step within,
      fun beyond => untilParked_of_no_step parks beyond⟩⟩⟩⟩
  case commands =>
    intro m dma s
    refine ⟨obeys_of_runs fun x u => rfl, obeys_of_runs fun x u => rfl, obeys_of_runs fun x u => rfl,
      obeys_of_runs fun x u => rfl, ?_, obeys_of_runs fun x u => rfl, ?_, ?_, ?_, ?_,
      fun not => congrArg Host.Outcome.next (takeCommand_of_not_next not _),
      fun st u next turned => congrArg Host.Outcome.next (takeCommand_of_turnedAway next turned _),
      fun x ds u taken => exec_fence_of_takes taken,
      fun x ds u passes held => congrArg Host.Outcome.next (takeCommand_of_held passes held _), ?_⟩
    case refine_1 =>
      refine obeys_of_runs fun x u => ?_
      simp only [Bool.and_eq_true, beq_iff_eq]
    case refine_2 =>
      refine obeys_of_runs fun x u => ?_
      simp only [refuse, Bool.or_eq_true, Bool.not_eq_true', decide_eq_true_eq, or_assoc]
    case refine_3 =>
      refine obeys_of_runs fun x u => ?_
      simp only [refuse, Bool.or_eq_true, Bool.not_eq_true', decide_eq_true_eq]
    case refine_4 =>
      refine obeys_of_runs fun x u => ?_
      simp only [refuse, Bool.not_eq_true']
    case refine_5 =>
      refine obeys_of_runs fun x u => ?_
      simp only [refuse, Bool.not_eq_true']
    case refine_6 =>
      intro rails stands
      refine obeys_of_runs fun x u => ?_
      cases rails <;> rfl
  case exports =>
    intro k cons s
    refine ⟨fun stays => stays.elim exportSlotWrite_of_unbound exportSlotWrite_of_down,
      fun x bound none => exportSlotWrite_of_empty bound none, fun x it bound head en link => ?_⟩
    exact (exec_exportSlotWrite bound head en link).trans (congrArg Host.Outcome.next exportSlot_eq)

end Sys2Proof.Machine
end

section
/-! PROOFS. The Excise commands and the island's events (R393 to R411, R447). -/

namespace Sys2Proof.Machine

/-! ### Tests with their refusal first -/

section
variable {α : Type} {x y y' : α}

/-- A refusal that stands before what is done stands behind it as well. -/
theorem ite_not_swap {b : Bool} (same : y = y') : (if !b then x else y) = if b = true then y' else x := by
  cases b
  · rfl
  · exact same

theorem ite_ne_swap {p : Prop} [Decidable p] (same : y = y') : (if ¬ p then x else y) = if p then y' else x := by
  rw [ite_not, same]

end

/-! ### The island's data -/

section
variable {s : State}

/-- An event leaves the island. -/
theorem State.event_exc {n : Nat} (hn : n < 1024) (c : Nat) : (s.event n c).exc = s.exc := by
  rw [((EventOnly.refl s).event hn c).units]

/-- An account that is written reads back, and every other as before. -/
@[simp] theorem State.account_setAccount_same (s : State) (n : Nat) (a : Account) : (s.setAccount n a).account n = a :=
  Tab.get_put_same _ _ _ _

theorem State.account_setAccount_ne (s : State) {n j : Nat} (a : Account) (h : j ≠ n) :
    (s.setAccount n a).account j = s.account j := Tab.get_put_ne _ _ _ h

/-- The audit-log entry that the island makes. -/
def auditEntry (type_ account x y : Nat) (s : State) : AuditEntry :=
  { index := s.exc.cur.nextIndex, tick := s.now, nt := s.get NT_NOW / 2 ^ 32, wraps := s.get NT_WRAPS, type_ := type_
    account := account, arg0 := x % 2 ^ 64, arg1 := y % 2 ^ 64
    chain := match s.exc.cur.log with | [] => List.replicate 20 0 | e :: _ => (sha384 e.bytes).take 20 }

/-- An entry carries the digest of the entry before it. -/
theorem auditEntry_chain {type_ account x y : Nat} :
    (∀ l rest, s.exc.cur.log = l :: rest → (auditEntry type_ account x y s).chain = (sha384 l.bytes).take 20) ∧
    (s.exc.cur.log = [] → (auditEntry type_ account x y s).chain = List.replicate 20 0) := by
  constructor
  · intro l rest log
    simp only [auditEntry, log]
  · intro log
    simp only [auditEntry, log]

/-- A running island keeps the entry. -/
theorem audit_of_up {type_ account x y : Nat} (up : s.exc.up = true) : audit type_ account x y s =
    { s with exc := { s.exc with cur := { s.exc.cur with
        log := (auditEntry type_ account x y s :: s.exc.cur.log).take 1024, nextIndex := s.exc.cur.nextIndex + 1
        ledger := (s.exc.cur.ledger || type_ == audLedgerBreak) && type_ != audPowerUp } } } := ite_not_of_true up

/-- An entry leaves the accounts, the registers, and whether the island runs. -/
theorem audit_accounts {type_ account x y : Nat} : (audit type_ account x y s).exc.cur.accounts = s.exc.cur.accounts := by
  unfold audit
  split <;> rfl

theorem audit_regs {type_ account x y : Nat} : (audit type_ account x y s).regs = s.regs := by
  unfold audit
  split <;> rfl

theorem audit_up {type_ account x y : Nat} : (audit type_ account x y s).exc.up = s.exc.up := by
  unfold audit
  split <;> rfl

/-- A commit leaves what the island holds, and saves it while the island is warm. -/
theorem islandCommit_cur : (islandCommit s).exc.cur = s.exc.cur := by
  unfold islandCommit
  split
  · rfl
  · split <;> rfl

theorem islandCommit_saved (up : s.exc.up = true) (warm : cellarWarm s = true) : (islandCommit s).exc.saved = s.exc.cur := by
  rw [islandCommit, ite_not_of_true up, ite_of_true warm]

/-- The state whose commit ends the loading of a voucher. -/
def voucherEntered (v : List Byte) (s : State) : State :=
  (audit audVoucherLoaded (le v 6 1) (le v 0x10 8) (le v 0x18 8) (s.setAccount (le v 6 1)
    { s.account (le v 6 1) with
      loaded := (s.account (le v 6 1)).loaded + le v 0x18 8
      balance := (s.account (le v 6 1)).balance + le v 0x18 8
      serial := some (le v 0x10 8) })).event 72

variable {v : List Byte}

theorem voucherLoad_eq : voucherLoad v s = islandCommit (voucherEntered v s) := rfl

/-- A voucher's accounts are those of the credit alone. -/
theorem voucherLoad_account (j : Nat) : (voucherLoad v s).account j = (s.setAccount (le v 6 1)
    { s.account (le v 6 1) with
      loaded := (s.account (le v 6 1)).loaded + le v 0x18 8
      balance := (s.account (le v 6 1)).balance + le v 0x18 8
      serial := some (le v 0x10 8) }).account j := by
  have accounts : (voucherLoad v s).exc.cur.accounts = (s.setAccount (le v 6 1)
    { s.account (le v 6 1) with
      loaded := (s.account (le v 6 1)).loaded + le v 0x18 8
      balance := (s.account (le v 6 1)).balance + le v 0x18 8
      serial := some (le v 0x10 8) }).exc.cur.accounts := by
    rw [voucherLoad_eq, islandCommit_cur, voucherEntered, State.event_exc (by decide), audit_accounts]
  exact congrArg (fun t => Tab.get {} t j) accounts

/-- What a voucher enters, a warm island that runs commits. -/
theorem voucherLoad_saved (up : s.exc.up = true) (warm : cellarWarm s = true) :
    (voucherLoad v s).exc.saved = (voucherLoad v s).exc.cur := by
  have runs : (voucherEntered v s).exc.up = true := by
    rw [voucherEntered, State.event_exc (by decide), audit_up]
    exact up
  have inhibit : (voucherEntered v s).get KILN_STATUS_CEL_INHIBIT = s.get KILN_STATUS_CEL_INHIBIT := by
    rw [voucherEntered, ((EventOnly.refl _).event (by decide) 0).regs _ (not_eventKey ⟨by decide, by decide⟩)]
    simp only [State.get, audit_regs]
    rfl
  have cellar : cellarWarm (voucherEntered v s) = true := by
    rw [← warm]
    simp only [cellarWarm, State.on, inhibit]
  rw [voucherLoad_eq, islandCommit_saved runs cellar, islandCommit_cur]

/-! ### Limits -/

/-- The last limit message is no earlier than that of any enforced partition. -/
theorem le_of_foldl_max {f : Nat → Nat} {l : List Nat} {o : Option Nat} {t : Nat}
    (last : l.foldl (fun o n => some (max (o.getD 0) (f n))) o = some t) : (∀ m, o = some m → m ≤ t) ∧ ∀ n ∈ l, f n ≤ t := by
  induction l generalizing o with
  | nil =>
    subst last
    exact ⟨fun m same => Nat.le_of_eq (Option.some.inj same).symm, fun n mem => absurd mem List.not_mem_nil⟩
  | cons a l ih =>
    obtain ⟨first, rest⟩ := ih last
    have both := first _ rfl
    refine ⟨fun m same => ?_, fun n mem => ?_⟩
    · subst same
      exact Nat.le_trans (Nat.le_max_left _ _) both
    · rcases List.mem_cons.1 mem with rfl | mem
      · exact Nat.le_trans (Nat.le_max_right _ _) both
      · exact rest n mem

/-- An enforced partition holds once its last limit message is 200,000 ticks old. -/
theorem creditHeld_of_stale {t n x : Nat} (last : lastLimit s = some t) (part : n < 16) (enforced : (s.part n).enforced = true)
    (stale : t + 200000 ≤ s.upOf x) : creditHeld n x s = true := by
  have limit := (le_of_foldl_max (f := fun n => (s.part n).limitAt) last).2 n
    (List.mem_filter.2 ⟨List.mem_range.2 part, enforced⟩)
  simp only [creditHeld, enforced, Bool.true_and, Bool.or_eq_true, decide_eq_true_eq]
  exact .inl (Nat.le_trans (Nat.add_le_add_right limit _) stale)

/-- The passing of 200,000 ticks after the last limit message. -/
theorem limitStale_of_none (none : lastLimit s = none) : exec .limitStale s = .next s := by
  show execLimitStale s = _
  simp only [execLimitStale, none]

theorem limitStale_of_some {t : Nat} (last : lastLimit s = some t) :
    exec .limitStale s = .next (advanceTo (s.now + (t + 200000 - s.up)) s) := by
  show execLimitStale s = _
  simp only [execLimitStale, last]

/-- A commit, by whether the island runs and is warm. -/
theorem islandCommit_eq : islandCommit s =
    if s.exc.up = false then s
    else if s.on KILN_STATUS_CEL_INHIBIT = true then { s with exc := { s.exc with dirty := true } }
    else { s with exc := { s.exc with saved := s.exc.cur, dirty := false } } := by
  simp only [islandCommit, cellarWarm, Bool.not_eq_true']
  refine congrArg (ite _ _) ?_
  by_cases cold : s.on KILN_STATUS_CEL_INHIBIT = true
  · rw [if_pos cold, if_neg fun warm => Bool.false_ne_true (warm.symm.trans cold)]
  · rw [if_neg cold, if_pos (eq_false_of_ne_true cold)]

end

/-- Settles O37: vouchers and entries by what they leave of the island, the commands by `obeys_of_runs`. -/
theorem exciseAccountsFollowTheirCommands : Obligations.ExciseAccountsFollowTheirCommands := by
  unfold Obligations.ExciseAccountsFollowTheirCommands
  refine ⟨?voucher, ?entry, ?commands, fun s => rfl, fun s => rfl, fun s none => limitStale_of_none none,
    fun s t last => ⟨limitStale_of_some last, fun n x part enforced stale => creditHeld_of_stale last part enforced stale⟩,
    fun s => congrArg Host.Outcome.next islandCommit_eq, ?fail, fun s => rfl, fun s => rfl, fun s => rfl⟩
  case voucher =>
    intro v s n t
    refine ⟨(voucherLoad_account n).trans (State.account_setAccount_same _ _ _),
      fun j other => (voucherLoad_account j).trans (State.account_setAccount_ne _ _ other), voucherLoad_saved⟩
  case entry =>
    intro type_ account x y s up t
    have eq : t = _ := audit_of_up up
    refine ⟨auditEntry type_ account x y s, ?_⟩
    rw [eq]
    exact ⟨rfl, rfl, rfl, rfl, rfl, rfl, rfl, rfl, rfl, rfl, auditEntry_chain.1, auditEntry_chain.2, fun j => rfl⟩
  case commands =>
    intro m dma s island meter
    refine ⟨obeys_of_runs fun x u => congrArg (ite _ _) (ite_not_swap rfl),
      obeys_of_runs fun x u => congrArg (ite _ _) (ite_not_swap rfl),
      obeys_of_runs fun x u => ite_not_swap (ite_not_swap (ite_ne_swap (celCommand_of_ok rfl))),
      obeys_of_runs fun x u => congrArg (ite _ _) (ite_not_swap (ite_not_swap (apply_ite _ _ _ _).symm)),
      obeys_of_runs fun x u => congrArg (ite _ _) (ite_not_swap (ite_not_swap (celCommand_of_ok rfl))),
      obeys_of_runs fun x u => congrArg (ite _ _) (ite_not_swap (ite_ne_swap (celCommand_of_ok rfl))),
      obeys_of_runs fun x u => ite_not_swap (ite_not_swap (congrArg (ite _ _) (ite_not_swap (celCommand_of_ok rfl)))),
      obeys_of_runs fun x u => rfl⟩
  case fail =>
    intro s done kept
    refine congrArg Host.Outcome.next ?_
    simp only [Bool.not_eq_true']
    rfl

end Sys2Proof.Machine
end

section
/-! PROOFS. Lifecycle, keys, firmware, debug port and Park Table (R444 to R462). -/

namespace Sys2Proof.Machine

/-- A refusal whose condition fails just where what is done may be done. -/
theorem ite_swap_of {α : Type} {x y y' : α} {c p : Prop} [Decidable c] [Decidable p] (iff : c ↔ ¬ p) (same : y = y') :
    (if c then x else y) = if p then y' else x := by
  by_cases holds : p
  · rw [if_neg fun not => iff.1 not holds, if_pos holds, same]
  · rw [if_pos (iff.2 holds), if_neg holds]

/-- A test in its two forms. -/
theorem ite_iff {α : Type} {x y y' : α} {c p : Prop} [Decidable c] [Decidable p] (iff : c ↔ p) (same : y = y') :
    (if c then x else y) = if p then x else y' := by
  by_cases holds : p
  · rw [if_pos (iff.2 holds), if_pos holds]
  · rw [if_neg fun test => holds (iff.1 test), if_neg holds, same]

section
variable {s : State}

/-- Registers that are set one by one leave every other. -/
theorem State.get_foldl_set {l : List Nat} {f : Nat → Fld} {v : Nat → Nat} {g : Fld} (other : ∀ j ∈ l, g.key ≠ (f j).key) :
    (l.foldl (fun s j => s.set (f j) (v j)) s).get g = s.get g := by
  induction l generalizing s with
  | nil => rfl
  | cons a l ih =>
    exact (ih fun j mem => other j (List.mem_cons_of_mem _ mem)).trans (s.get_set_ne _ (other a List.mem_cons_self))

/-- An event leaves the Cellar. -/
theorem State.event_cel {n : Nat} (hn : n < 1024) (c : Nat) : (s.event n c).cel = s.cel := by
  rw [((EventOnly.refl s).event hn c).units]

/-! ### Ownership and key slots -/

/-- Ownership moves the lifecycle to OWNED. -/
theorem lifecycle_takeOwnership {p : List Byte} : lifecycle (takeOwnership p s) = 1 :=
  (State.event_get _ (by decide) 0 (.inl ⟨by decide, by decide⟩)).trans (State.get_set_same _ _ _)

/-- It sets the owner root. -/
theorem takeOwnership_rootSet {p : List Byte} : (takeOwnership p s).on SEC_STATUS_OWNER_ROOT_SET = true := by
  have set : (takeOwnership p s).get SEC_STATUS_OWNER_ROOT_SET = 1 := by
    rw [takeOwnership, setLifecycle, State.event_get _ (by decide) _ (.inl ⟨by decide, by decide⟩),
      State.get_set_ne _ _ (by decide)]
    show ((List.foldl _ s _).setB SEC_STATUS_OWNER_ROOT_SET true).get _ = 1
    exact State.get_set_same _ _ _
  simp only [State.on, set]
  decide

/-- It gives the Owner a key. -/
theorem roleKey_takeOwnership {p : List Byte} :
    roleKey 1 (takeOwnership p s) = some ⟨slice p 100 32, slice p 132 16, le p 148 4⟩ := by
  have key : Tab.find? (takeOwnership p s).cel.roles 1 = some ⟨slice p 100 32, slice p 132 16, le p 148 4⟩ := by
    rw [takeOwnership, setLifecycle, State.event_cel (by decide)]
    exact Tab.find?_list_same _ _ _
  simp only [roleKey, key]

variable {k : Nat}

/-- What is set of a slot's identity leaves its VALID and USAGE. -/
theorem slotId_foldl {v : Nat → Nat} :
    ((List.range 12).foldl (fun s j => s.set (SEC_SLOT_ID k j) (v j)) s).get (SEC_SLOT_VALID k) = s.get (SEC_SLOT_VALID k) ∧
    ((List.range 12).foldl (fun s j => s.set (SEC_SLOT_ID k j) (v j)) s).get (SEC_SLOT_USAGE k) = s.get (SEC_SLOT_USAGE k) := by
  constructor
  · refine State.get_foldl_set fun j mem => ?_
    simp only [SEC_SLOT_VALID, SEC_SLOT_ID]
    omega
  · refine State.get_foldl_set fun j mem => ?_
    simp only [SEC_SLOT_USAGE, SEC_SLOT_ID]
    omega

/-- A slot's VALID and USAGE as they are set. -/
theorem slot_set {b : Bool} {v : Nat} : ((s.setB (SEC_SLOT_VALID k) b).set (SEC_SLOT_USAGE k) v).get (SEC_SLOT_VALID k) = b2n b ∧
    ((s.setB (SEC_SLOT_VALID k) b).set (SEC_SLOT_USAGE k) v).get (SEC_SLOT_USAGE k) = v % 2 ^ (SEC_SLOT_USAGE k).width := by
  refine ⟨?_, State.get_set_same _ _ _⟩
  rw [State.get_set_ne _ _ (by simp only [SEC_SLOT_VALID, SEC_SLOT_USAGE]; omega)]
  exact (State.get_set_same _ _ _).trans (by cases b <;> rfl)

/-- A key in slot k makes it VALID, with the certificate's USAGE. -/
theorem installKey_get {cert : List Byte} (hk : k < 8) : (installKey k cert s).on (SEC_SLOT_VALID k) = true ∧
    (installKey k cert s).get (SEC_SLOT_USAGE k) = le cert 6 2 % 2 ^ (SEC_SLOT_USAGE k).width := by
  have valid : (installKey k cert s).get (SEC_SLOT_VALID k) = 1 := by
    rw [installKey, State.flagAlways, State.event_get _ (by decide) _ (.inl (by simp only [SEC_SLOT_VALID]; omega)), State.setB,
      State.get_set_ne _ _ (by simp only [SEC_SLOT_VALID, SEC_STATUS_KEY_CHANGE]; omega), slotId_foldl.1]
    exact slot_set.1
  constructor
  · simp only [State.on, valid]
    rfl
  · rw [installKey, State.flagAlways, State.event_get _ (by decide) _ (.inl (by simp only [SEC_SLOT_USAGE]; omega)), State.setB,
      State.get_set_ne _ _ (by simp only [SEC_SLOT_USAGE, SEC_STATUS_KEY_CHANGE]; omega), slotId_foldl.2]
    exact slot_set.2

/-- An emptied slot is not VALID, and has no USAGE. -/
theorem emptySlot_get : (emptySlot k s).on (SEC_SLOT_VALID k) = false ∧
    (emptySlot k s).get (SEC_SLOT_USAGE k) = 0 := by
  have valid : (emptySlot k s).get (SEC_SLOT_VALID k) = 0 := by
    rw [emptySlot, (slotId_foldl (v := fun _ => 0)).1]
    exact slot_set.1
  constructor
  · simp only [State.on, valid]
    rfl
  · rw [emptySlot, (slotId_foldl (v := fun _ => 0)).2, slot_set.2]
    exact Nat.zero_mod _

end

/-! ### The debug port -/

section
variable {s : State}

/-- The debug port opens after the island's log entry. -/
theorem openDebug_eq {role : Nat} : openDebug role s =
    (let opened := if islandUp s = true then audit audDebugReopen 0xFF role 0 s else s
     if metered s = true ∧ islandUp s = false then no 0x0045 s
     else inCellar 1 opened
       (((opened.set SEC_DEBUG_COUNT (opened.get SEC_DEBUG_COUNT + 1)).setB SEC_STATUS_DEBUG_OPEN true).event 67)) := by
  refine ite_iff (by simp only [Bool.and_eq_true, Bool.not_eq_true']) ?_
  generalize (if islandUp s = true then audit audDebugReopen 0xFF role 0 s else s) = opened
  exact celCommand_of_ok rfl

/-- SEC_SET_ROLLBACK answers the floor that it raises. -/
theorem setRollback_eq : celCommand 1 s (fun s => (⟨stOk, toBytes 4 (max (s.get SEC_FW_MIN) (s.get GLB_FW))⟩,
      s.set SEC_FW_MIN (max (s.get SEC_FW_MIN) (s.get GLB_FW)))) =
    (let v := max (s.get SEC_FW_MIN) (s.get GLB_FW)
     if s.cel.late = false ∧ cellarWarm s = true then (⟨stOk, toBytes 4 v⟩, celWrote 1 (s.set SEC_FW_MIN v))
      else inCellar 1 s s) := by
  cases late : s.cel.late
  · cases warm : cellarWarm s
    · simp only [celCommand, inCellar, late, warm, tempInhibit, Bool.false_eq_true, if_false, and_false]
    · simp only [celCommand, late, warm, Bool.false_eq_true, if_false, if_true, and_self]
  · simp only [celCommand, inCellar, late, if_true, cellarTimeout, Bool.true_eq_false, false_and, if_false]

end

/-- Settles O38: the registers of the lifecycle and the slots are read back, the commands by `obeys_of_runs`. -/
theorem securityCommandsMoveTheLifecycle : Obligations.SecurityCommandsMoveTheLifecycle := by
  unfold Obligations.SecurityCommandsMoveTheLifecycle
  refine ⟨fun p s => ⟨lifecycle_takeOwnership, takeOwnership_rootSet, roleKey_takeOwnership⟩,
    fun k cert s hk => ⟨(installKey_get hk).1, emptySlot_get.1, (installKey_get hk).2, emptySlot_get.2⟩, ?_⟩
  intro m dma s
  refine ⟨obeys_of_runs fun x u => congrArg (ite _ _) (congrArg (ite _ _) (celCommand_of_ok rfl)), ?_, ?_,
    obeys_of_runs fun x u => congrArg (ite _ _) (celCommand_of_ok rfl), ?_, ?_, ?_, obeys_of_runs fun x u => rfl, ?_, ?_,
    obeys_of_runs fun x u => rfl⟩
  case refine_1 =>
    refine obeys_of_runs fun x u => congrArg (ite _ _) ?_
    refine ite_iff (by rw [Bool.not_eq_true']) (ite_swap_of ?_ (celCommand_of_ok rfl))
    simp only [Bool.or_eq_true, Bool.not_eq_true', bne_iff_ne, ne_eq, Classical.not_and_iff_not_or_not, Bool.not_eq_true]
  case refine_2 =>
    refine obeys_of_runs fun x u => congrArg (ite _ _) ?_
    exact ite_iff (by rw [Bool.not_eq_true']) (ite_iff (by rw [Bool.not_eq_true']) (celCommand_of_ok rfl))
  case refine_3 =>
    exact obeys_of_runs fun x u => congrArg (ite _ _) (ite_not_swap (celCommand_of_ok rfl))
  case refine_4 =>
    exact obeys_of_runs fun x u => congrArg (ite _ _) (ite_ne_swap (celCommand_of_ok rfl))
  case refine_5 => exact obeys_of_runs fun x u => setRollback_eq
  case refine_6 =>
    refine obeys_of_runs fun x u => ?_
    by_cases bad : le x.ps 0 1 ≠ x.role ∨ le x.ps 1 3 ≠ 0
    · exact (if_pos bad).trans (if_pos bad).symm
    · obtain ⟨role, -⟩ := not_or.1 bad
      refine (if_neg bad).trans (Eq.trans ?_ (if_neg bad).symm)
      rw [Classical.not_not.1 role]
      cases (u.mbx m).challenge with
      | none => rfl
      | some ch => exact congrArg (ite _ _) (ite_iff (by rw [Bool.not_eq_true']) openDebug_eq)
  case refine_7 =>
    refine obeys_of_runs fun x u => ite_iff ?_ (celCommand_of_ok rfl)
    simp only [Bool.or_eq_true, decide_eq_true_eq]

end Sys2Proof.Machine
end

section
/-! PROOFS. Calibration: its commands, triggers and steps (R423 to R429). -/

namespace Sys2Proof.Machine

section
variable {s : State}

/-- CAL_CANCEL on a tile. -/
theorem calCancel_eq {a : Nat} : calCancel a s =
    if s.get (CAL_STATE_STATE a) ≠ 2 then s
    else if (s.cal a).step.isSome then s.setCal a { s.cal a with cancel := true }
    else calDrop a s := by
  unfold calCancel
  cases (s.cal a).step <;> rfl

variable {a : Fin 8}

/-- The automatic triggers of a tile, by their conditions. -/
theorem exec_calTempCheck : exec (.calTempCheck a) s = .next (
    if s.on CAL_CTRL_EN = true ∧ s.on (CAL_CFG_AUTO_T a) = true ∧ s.on (KILN_TILE_TEMP_VALID a) = true
      ∧ max 1 (s.get (CAL_CFG_CAL_DT a)) < absI (s.getI (KILN_TILE_TEMP_T a) - s.getI (CAL_T_REF a)) then
      calRequest a 3 s.now s else s) := by
  refine congrArg Host.Outcome.next (ite_iff ?_ rfl)
  simp only [Bool.and_eq_true, decide_eq_true_eq, and_assoc, gt_iff_lt]

theorem exec_calPeriodTrigger :
    let u := advanceTo ((s.cal a).lastEnd + s.get (CAL_PERIOD a) * 2000000000) s
    let v := u.setCal a { u.cal a with fired := some (u.cal a).lastEnd }
    exec (.calPeriodTrigger a) s = .next (
      if s.on CAL_CTRL_EN = true ∧ s.on (CAL_CFG_AUTO_P a) = true ∧ s.get (CAL_PERIOD a) ≠ 0
        ∧ (s.cal a).fired ≠ some (s.cal a).lastEnd then calRequest a 2 u.now v else s) := by
  intro u v
  refine congrArg Host.Outcome.next (ite_iff ?_ rfl)
  simp only [Bool.and_eq_true, bne_iff_ne, and_assoc]

/-- No step starts where no run is requested, or one is in progress, or none may start. -/
theorem calStepStart_of_rests (rests : s.get (CAL_STATE_STATE a) = 0 ∨ (s.cal a).step ≠ none) :
    exec (.calStepStart a) s = .next s :=
  congrArg Host.Outcome.next (if_pos (rests.imp_right Option.isSome_iff_ne_none.2))

section
variable (asked : s.get (CAL_STATE_STATE a) ≠ 0) (idle : (s.cal a).step = none)
include asked idle

/-- A run that may go on is not at rest. -/
theorem not_calRests : ¬ (s.get (CAL_STATE_STATE a) = 0 ∨ (s.cal a).step.isSome = true) := by
  rw [idle]
  exact fun rests => rests.elim asked (absurd · Bool.false_ne_true)

theorem calStepStart_of_none (none : let n := calFirst a (s.cal a).next s; calWhen a (if n = 46 then 0 else stepTicks n) s = none) :
    exec (.calStepStart a) s = .next s := by
  refine congrArg Host.Outcome.next ((if_neg (not_calRests asked idle)).trans ?_)
  simp only [none]

/-- The next step that is not skipped starts, or a run with none left completes. -/
theorem exec_calStepStart {t : Nat}
    (when_ : let n := calFirst a (s.cal a).next s; calWhen a (if n = 46 then 0 else stepTicks n) s = some t) :
    let n := calFirst a (s.cal a).next s
    let u := advanceTo t s
    let v := u.incSat (CAL_SKIPS a) (calSkips a (u.cal a).next n u)
    exec (.calStepStart a) s = .next (
      if n ≠ 46 then calStart a n t v
      else calFinish a t (if (u.cal a).started then v
        else v.setCal a { u.cal a with temp0 := v.get (KILN_TILE_TEMP_T a) })) := by
  intro n u v
  refine congrArg Host.Outcome.next ((if_neg (not_calRests asked idle)).trans ?_)
  simp only [when_, ne_eq, ite_not]
  rfl

end

/-- The end of a step, measured or timed out: without a step nothing happens. -/
theorem calStepEnd_of_none {sel bad : BitVec 72} {res : BitVec 16} (none : (s.cal a).step = none) :
    exec (.calStepEnd a sel bad res) s = .next s ∧ exec (.calStepTimeout a) s = .next s := by
  constructor
  · show execCalStepEnd a sel bad res s = _
    simp only [execCalStepEnd, none]
  · show execCalStepTimeout a s = _
    simp only [execCalStepTimeout, stepOver, none]

section
variable {st : CalStep} (step : (s.cal a).step = some st)
include step

theorem exec_calStepEnd {sel bad : BitVec 72} {res : BitVec 16} :
    let t := st.at_ + stepTicks st.step
    let u := advanceTo t s
    exec (.calStepEnd a sel bad res) s = .next (calNext a st (max t u.now) (calApply a st sel.toNat bad.toNat res.toNat u)) := by
  intro t u
  show execCalStepEnd a sel bad res s = _
  simp only [execCalStepEnd, stepOver, step]
  rfl

theorem exec_calStepTimeout :
    let t := st.at_ + 2000 * max 100 (s.get (CAL_STEP_TMO a))
    let u := advanceTo t s
    exec (.calStepTimeout a) s = .next (calNext a st (max t u.now) (calFail a st.step true u)) := by
  intro t u
  show execCalStepTimeout a s = _
  simp only [execCalStepTimeout, stepOver, step]
  rfl

end

end

/-- Settles O39: the commands by `obeys_of_runs`, each trigger and step by its own lemma. -/
theorem calibrationRunsItsSteps : Obligations.CalibrationRunsItsSteps := by
  unfold Obligations.CalibrationRunsItsSteps
  refine ⟨fun m dma s => ⟨obeys_of_runs fun x u => rfl, obeys_of_runs fun x u => ?_,
      obeys_of_runs fun x u => congrArg (ite _ _) (celCommand_of_ok rfl)⟩,
    fun a s => exec_calTempCheck, fun a s => exec_calPeriodTrigger, fun a s rests => calStepStart_of_rests rests, ?_,
    fun a sel bad res s none => calStepEnd_of_none none, fun a sel bad res s st step => exec_calStepEnd step,
    fun a s st step => exec_calStepTimeout step, fun a s => rfl⟩
  case refine_1 =>
    simp only [calCancel_eq]
    rfl
  case refine_2 =>
    intro a s asked idle n len
    exact ⟨calStepStart_of_none asked idle, fun t when_ => exec_calStepStart asked idle when_⟩

end Sys2Proof.Machine
end

section
/-! PROOFS. Monitors and bridges (R412 to R422, R429). -/

namespace Sys2Proof.Machine

/-! ### Sequence entries -/

section
variable {x : Fin 10} {s : State}

/-- An entry of a converter fires while EN = 1 and a trigger is due. -/
theorem monSeqFire_of_rests {j : Fin 8} (rests : s.on MON_CTRL_EN = false ∨ monFires x j s = none) :
    exec (.monSeqFire x j) s = .next s := by
  show execMonSeqFire x j s = _
  rcases rests with off | none
  · simp only [execMonSeqFire, off, Bool.false_eq_true, if_false]
  · simp only [execMonSeqFire, none, ite_self]

theorem exec_monSeqFire {j : Fin 8} {t : Nat} (on : s.on MON_CTRL_EN = true) (fires : monFires x j s = some t) :
    exec (.monSeqFire x j) s = .next (runTo (keyOf t rankStart) s) := by
  show execMonSeqFire x j s = _
  simp only [execMonSeqFire, on, fires, if_true]

/-- The start of the conversion whose slot has come. -/
theorem monStart_of_none {x t : Nat} (none : monNext x s = none) : doEv (.monStart x) t s = s := by
  show monStart x s = _
  simp only [monStart, none]

theorem monStart_of_some {x t j fire at_ : Nat} (next : monNext x s = some (j, fire, at_)) :
    doEv (.monStart x) t s = s.setMon x { s.mon x with
      waiting := (s.mon x).waiting.filter (·.1 != j), freeAt := at_ + 2000
      begun := (s.mon x).begun ++ [⟨j, fire, at_, s.get (MON_SEQ_INPUT x j)⟩] } := by
  show monStart x s = _
  simp only [monStart, next]

/-- The state in which a conversion of converter x is under way, or one has started. -/
def monBegun (x : Nat) (s : State) : State :=
  match (s.mon x).begun, monNext x s with
  | [], some n => runTo (keyOf n.2.2 (rankStart + 1)) s
  | _, _ => s

/-- A conversion completes where one is under way. -/
theorem exec_monConversion_of_nil {code : BitVec 12} (nil : ((monBegun x s).mon x).begun = []) :
    exec (.monConversion x code) s = .next (monBegun x s) := by
  show Host.Outcome.next (match ((monBegun x s).mon x).begun with
    | [] => monBegun x s
    | c :: _ => withTick (c.at_ + 2000) (monResult x code c) (monBegun x s)) = _
  rw [nil]

theorem exec_monConversion_of_cons {code : BitVec 12} {c : MonConv} {more : List MonConv}
    (cons : ((monBegun x s).mon x).begun = c :: more) :
    exec (.monConversion x code) s = .next (withTick (c.at_ + 2000) (monResult x code c) (monBegun x s)) := by
  show Host.Outcome.next (match ((monBegun x s).mon x).begun with
    | [] => monBegun x s
    | c :: _ => withTick (c.at_ + 2000) (monResult x code c) (monBegun x s)) = _
  rw [cons]

/-- Without a conversion under way, and none to start, nothing happens. -/
theorem monBegun_of_rests {x : Nat} (nil : (s.mon x).begun = []) (none : monNext x s = none) : monBegun x s = s := by
  simp only [monBegun, nil, none]

/-- The result of a conversion. -/
theorem monResult_eq {x : Nat} {code : BitVec 12} {c : MonConv} : monResult x code c s =
    (let v := s.setMon x { s.mon x with begun := (s.mon x).begun.drop 1 }
     let w := (((v.set (MON_RES_CODE x c.entry) (if inputListed x c.input then code.toNat else 0)).setB
       (MON_RES_VALID x c.entry) true).setB (MON_RES_LATE x c.entry) (decide (c.fire < c.at_)))
     let y := (w.setB (MON_RES_TEST x c.entry) (tdacOn x c.input w)).set (MON_RES_TICK x c.entry) c.at_
     if c.fire < c.at_ then y.flag (MON_SAR_STATUS_LATE x) 856 else y) :=
  ite_iff decide_eq_true_iff rfl

end

/-! ### Bridge channels -/

section
variable {n : Nat} {s : State}

/-- What an excitation check finds of each limit. -/
theorem excJudge_eq {i t : Nat} : excJudge n i t s =
    (let v := s.set (BRG_EXC_I_I_EXC n) i
     let b := Tab.get {} v.brgs n
     let mark := b.codes.map fun c => (c.1, c.2.1 || decide (b.passAt ≤ c.2.2), c.2.2)
     let low := decide (i < v.get (BRG_CFG_I_MIN n))
     let high := decide (25000 < i)
     let bad := { v with brgs := Tab.put {} v.brgs n { b with codes := mark, off := b.off || high } }.setB (BRG_STATUS_EXC_FAULT n) true
     let w := if low then bad.flagAlways (BRG_STATUS_EXC_OPEN n) (848 + n) else bad
     if low = false ∧ high = false then
       { v with brgs := Tab.put {} v.brgs n { b with passAt := t, off := false } }.setB (BRG_STATUS_EXC_FAULT n) false
     else if high then w.flagAlways (BRG_STATUS_EXC_SHORT n) (848 + n) else w) := by
  refine ite_swap_of ?_ rfl
  simp only [Bool.or_eq_true, Classical.not_and_iff_not_or_not, Bool.not_eq_false]

end

/-- MON_DIAG refuses a converter of a fenced tile. -/
theorem diagFenced_iff {x : Nat} {s : State} : (decide (x < 8) && fenced x s) = true ↔ x < 8 ∧ fenced x s = true := by
  simp only [Bool.and_eq_true, decide_eq_true_eq]

/-- Settles O40: the entries, conversions and checks by the lemmas above. -/
theorem monitorsConvertWhenTriggered : Obligations.MonitorsConvertWhenTriggered := by
  unfold Obligations.MonitorsConvertWhenTriggered
  refine ⟨fun m dma m1 m2 i1 i2 s => obeys_of_runs fun x u => congrArg (ite _ _) (ite_iff diagFenced_iff rfl),
    fun x j s rests => monSeqFire_of_rests rests, fun x j s t on fires => exec_monSeqFire on fires, fun x j t s => rfl,
    fun x t s none => monStart_of_none none, fun x t s j fire at_ next => monStart_of_some next, ?_, ?_, ?_, ?_, ?_⟩
  case refine_1 =>
    intro x code s nil none
    have rests := monBegun_of_rests nil none
    exact (exec_monConversion_of_nil (by rw [rests, nil])).trans (congrArg Host.Outcome.next rests)
  case refine_2 =>
    intro x code s going u
    refine ⟨exec_monConversion_of_nil, ?_⟩
    intro c more cons gives
    have same : monResult x code c = gives := funext fun s => monResult_eq
    rw [← same]
    exact exec_monConversion_of_cons cons
  case refine_3 =>
    intro n s off
    exact ⟨fun code => congrArg Host.Outcome.next (ite_of_false off), fun current => congrArg Host.Outcome.next (ite_of_false off)⟩
  case refine_4 =>
    intro n code s on t u rail suspect b nw c v
    exact congrArg Host.Outcome.next (ite_of_true on)
  case refine_5 =>
    intro n current s on x r t d u v b mark low high bad w
    exact congrArg Host.Outcome.next ((ite_of_true on).trans excJudge_eq)

end Sys2Proof.Machine
end

section
/-! PROOFS. The Kiln's judgement of its readings (R433 to R441). -/

namespace Sys2Proof.Machine

section
variable {s : State}

/-- Under PORST_L, and before the first lock of the tick PLL, no reading is taken (log entry 67). -/
theorem kilnTempRead_of_stopped {n : Fin 49} {r : BitVec 16} (stopped : kilnClocked s = false) :
    exec (.kilnTempRead n r) s = .next s :=
  congrArg Host.Outcome.next (ite_not_of_false stopped)

theorem kilnRailRead_of_stopped {r : Fin 24} {mv : BitVec 16} (stopped : kilnClocked s = false) :
    exec (.kilnRailRead r mv) s = .next s :=
  congrArg Host.Outcome.next (ite_not_of_false stopped)

theorem kilnProcRead_of_stopped {k : Fin 32} {mhz : BitVec 16} (stopped : kilnClocked s = false) :
    exec (.kilnProcRead k mhz) s = .next s :=
  congrArg Host.Outcome.next (ite_not_of_false stopped)

/-- The Kiln counts as stopped 10 ms after the last reading of a sensor that is not faulty. -/
theorem exec_kilnReadingStale (n : Fin 49) (s : State) :
    exec (.kilnReadingStale n) s = .next (if s.host.kilnUp = true ∧ faulty n s = false then
      setKiln false (advanceTo ((s.sensor n).readAt + 20000001) s) else s) :=
  congrArg Host.Outcome.next (ite_iff (by rw [Bool.and_eq_true, Bool.not_eq_true']) rfl)

/-- What a rail's reading leaves of the rails out of range and of the fault's flag, where `was` and `out` say whether the
rail was out of range before it and is now (R435): one that is back leaves them, one that stays out enters them. -/
def judgeRail (r : Nat) (was out : Bool) (u : State) : State :=
  if out = false then { u with kiln := { u.kiln with railOut := u.kiln.railOut.filter (· != r) } }
  else if was = true ∧ u.kiln.railOut.contains r = false then
    ({ u with kiln := { u.kiln with railOut := r :: u.kiln.railOut } }).flagAlways KILN_STATUS_RAIL_FAULT 38
  else u

/-- Sense point r, just read, is out of range. -/
def railOutNow (r : Nat) (mv : BitVec 16) (s : State) : Bool :=
  decide (mv.toInt < s.getI (KILN_RAIL_LIM_LO r)) || decide (s.getI (KILN_RAIL_LIM_HI r) < mv.toInt)

/-- The registers of sense point r after a reading. -/
def showRail (r : Nat) (mv : BitVec 16) (s : State) : State :=
  (s.set (KILN_RAIL_MV r) mv.toNat).setB (KILN_RAIL_OUT r) (railOutNow r mv s)

/-- The model's form of `judgeRail`: first the list of the rails, then the flag. -/
theorem judgeRail_eq (r : Nat) (was out : Bool) (u : State) :
    judgeRail r was out u =
      (let v := { u with kiln := { u.kiln with
          railOut := if !out then u.kiln.railOut.filter (· != r)
            else if was && !u.kiln.railOut.contains r then r :: u.kiln.railOut else u.kiln.railOut } }
       if out && was && !u.kiln.railOut.contains r then v.flagAlways KILN_STATUS_RAIL_FAULT 38 else v) := by
  unfold judgeRail
  cases out with
  | false => rfl
  | true =>
    cases was with
    | false => rfl
    | true => cases u.kiln.railOut.contains r <;> rfl

theorem exec_kilnRailRead (r : Fin 24) (mv : BitVec 16) (clocked : kilnClocked s = true) :
    exec (.kilnRailRead r mv) s =
      .next (judgeRange (judgeRail r (s.on (KILN_RAIL_OUT r)) (railOutNow r mv s) (showRail r mv s))) := by
  rw [judgeRail_eq]
  exact congrArg Host.Outcome.next (ite_not_of_true clocked)

end

/-- Settles O41: each reading is judged where the Kiln is clocked and taken nowhere else; the stages of a judgement are
those of the command, in its order. -/
theorem kilnJudgesItsReadings : Obligations.KilnJudgesItsReadings := by
  unfold Obligations.KilnJudgesItsReadings
  refine ⟨fun _ _ _ _ _ _ _ stopped =>
      ⟨kilnTempRead_of_stopped stopped, kilnRailRead_of_stopped stopped, kilnProcRead_of_stopped stopped⟩,
    fun _ _ _ clocked => congrArg Host.Outcome.next (ite_not_of_true clocked), exec_kilnReadingStale, fun _ => rfl,
    fun r mv _ clocked => exec_kilnRailRead r mv clocked,
    fun _ _ _ clocked => congrArg Host.Outcome.next (ite_not_of_true clocked)⟩

end Sys2Proof.Machine
end

section
/-! PROOFS. PORST_L, the rails, the boot, the clocks, the start-up and the loss of a service (R17 to R29, R467 to R473). -/

namespace Sys2Proof.Machine

section
variable {s : State}

theorem released_of_asserted (porst : s.host.porst = true) : released s = false := congrArg not porst

theorem released_of_free (porst : s.host.porst = false) : released s = true := congrArg not porst

/-! ### Under PORST_L -/

/-- Under PORST_L a lost rail unpowers its tiles, and nothing reports it. -/
theorem pgLost_of_asserted (rail : Rail) (porst : s.host.porst = true) : exec (.pgLost rail) s =
    .next (((railTiles rail).filter fun a => tilePowered a s).foldl (fun s a => tileOff a s.now s) s) :=
  congrArg Host.Outcome.next (ite_not_of_false (released_of_asserted porst))

theorem tileRailsGood_of_asserted (a : Fin 8) (porst : s.host.porst = true) :
    exec (.tileRailsGood a) s = .next (if tilePowered a s = true then s else holdTile a s) :=
  congrArg Host.Outcome.next (congrArg (ite _ s) (ite_of_false (released_of_asserted porst)))

theorem parkApplied_of_asserted (a : Fin 8) (porst : s.host.porst = true) : exec (.parkApplied a) s = .next s := by
  show execParkApplied a s = _
  simp only [execParkApplied, released_of_asserted porst, Bool.false_and, Bool.false_eq_true, if_false]

theorem railEnableTimeout_of_asserted (tile : Option (Fin 8)) (porst : s.host.porst = true) :
    exec (.railEnableTimeout tile) s = .next s := by
  show execRailEnableTimeout tile s = _
  simp only [execRailEnableTimeout, released_of_asserted porst, Bool.not_false, Bool.true_or, if_true]

theorem parkLogicLost_of_asserted (a : Fin 8) (porst : s.host.porst = true) : exec (.parkLogicLost a) s = .next s := by
  show execParkLogicLost a s = _
  simp only [execParkLogicLost, released_of_asserted porst, Bool.and_false, Bool.false_eq_true, if_false]

theorem boot_of_asserted (porst : s.host.porst = true) : exec .boot s = .next s := by
  show execBoot s = _
  simp only [execBoot, released_of_asserted porst, Bool.false_and, Bool.false_eq_true, if_false]

theorem startupReady_of_asserted (porst : s.host.porst = true) : exec .startupReady s = .next s := by
  show execStartupReady s = _
  simp only [execStartupReady, released_of_asserted porst, Bool.false_and, Bool.false_eq_true, if_false]

theorem ryvexUp_of_asserted (porst : s.host.porst = true) : exec .ryvexUp s = .next s := by
  show execRyvexUp s = _
  simp only [execRyvexUp, released_of_asserted porst, Bool.false_and, Bool.false_eq_true, if_false]

theorem pllLocked_of_asserted (porst : s.host.porst = true) : exec .pllLocked s = .next s := by
  show execPllLocked s = _
  simp only [execPllLocked, released_of_asserted porst, Bool.false_and, Bool.false_eq_true, if_false]

theorem hostLinkChange_of_asserted (up : Bool) (speed : BitVec 3) (width : BitVec 4) (porst : s.host.porst = true) :
    exec (.hostLinkChange up speed width) s = .next s := by
  show execHostLinkChange up speed width s = _
  simp only [execHostLinkChange, released_of_asserted porst, Bool.not_false, Bool.true_or, if_true]

/-! ### Rails -/

theorem exec_pgLost (rail : Rail) (porst : s.host.porst = false) : exec (.pgLost rail) s = .next (match rail with
    | .core => porstAssert s
    | .biasP => (List.range 8).foldl railFence (s.event 10 20)
    | .biasN => (List.range 8).foldl railFence (s.event 10 21)
    | .atd a => if tilePowered a.val s then railFence (s.event 10 (4 + a.val)) a.val else s
    | .a18 a => if tilePowered a.val s then railFence (s.event 10 (12 + a.val)) a.val else s) :=
  congrArg Host.Outcome.next (ite_not_of_true (released_of_free porst))

/-- A timeout of a rail enable counts while Ryvex, which raised the enable, runs. -/
theorem exec_railEnableTimeout (tile : Option (Fin 8)) (porst : s.host.porst = false) : exec (.railEnableTimeout tile) s =
    .next (if s.host.ryvexUp = true then (match tile with
      | none => (List.range 8).foldl railFence { s with host := { s.host with enBias := false, enTiles := [] } }
      | some a => if tilePowered a.val s then s else railFence s a.val) else s) :=
  congrArg Host.Outcome.next (ite_swap_of
    (by simp only [released_of_free porst, Bool.not_true, Bool.false_or, Bool.not_eq_true', Bool.not_eq_true]) rfl)

theorem exec_railEnableTimeout_some (a : Fin 8) (porst : s.host.porst = false) : exec (.railEnableTimeout (some a)) s =
    .next (if s.host.ryvexUp = true ∧ tilePowered a s = false then railFence s a else s) := by
  rw [exec_railEnableTimeout (some a) porst]
  refine congrArg Host.Outcome.next ?_
  by_cases up : s.host.ryvexUp = true
  · rw [if_pos up]
    exact ite_swap_of (by rw [eq_true up, true_and, Bool.not_eq_false]) rfl
  · rw [if_neg up, if_neg fun both => up both.1]

theorem exec_tileRailsGood (a : Fin 8) (porst : s.host.porst = false) : exec (.tileRailsGood a) s =
    .next (if tilePowered a s = false then deriveReady ((holdTile a s).event 11 a) else s) :=
  congrArg Host.Outcome.next
    (Eq.trans (congrArg (ite _ s) (ite_of_true (released_of_free porst)))
      (ite_swap_of (by rw [Bool.not_eq_false]) rfl))

theorem exec_parkApplied (a : Fin 8) (porst : s.host.porst = false) : exec (.parkApplied a) s =
    .next (if s.host.ryvexUp = true ∧ s.host.held.contains a.val = true then applyPark true a.val s.now s else s) :=
  congrArg Host.Outcome.next (ite_iff (by simp only [released_of_free porst, Bool.and_eq_true, true_and]) rfl)

/-- The state in which tile a's Park logic is noted as lost. -/
def parkLostOf (a : Nat) (s : State) : State :=
  { s with host := { s.host with parkLost := a :: s.host.parkLost.filter (· != a) } }

theorem exec_parkLogicLost (a : Fin 8) (porst : s.host.porst = false) : exec (.parkLogicLost a) s =
    .next (if tilePowered a s = true then fenceTile a 2 true s.now (deriveReady (parkLostOf a s)) else s) :=
  congrArg Host.Outcome.next (ite_iff (by simp only [released_of_free porst, Bool.and_eq_true, and_true]) rfl)

/-! ### Boot and start-up -/

theorem exec_boot (porst : s.host.porst = false) : exec .boot s =
    .next (if s.tl.counting = true ∧ s.host.ryvexUp = false ∧ s.host.recovery = false then
      rejectAll (if (bootSlots s).host.ryvexUp = true then readCellar (checkExcise (bootSlots s)) else bootSlots s) else s) :=
  congrArg Host.Outcome.next (ite_iff
    (by simp only [released_of_free porst, Bool.and_eq_true, Bool.not_eq_true', true_and, and_assoc]) rfl)

/-- The state in which every Tun has its stored Recipe and the start-up is over. -/
def startedWithRecipes (s : State) : State :=
  let u := (List.range 64).foldl (fun s t => recipeStart t s) s
  { u with host := { u.host with started := true } }

theorem exec_startupReady (porst : s.host.porst = false) : exec .startupReady s =
    .next (if s.host.ryvexUp = true ∧ s.host.started = false then deriveReady (startedWithRecipes s) else s) :=
  congrArg Host.Outcome.next (ite_iff
    (by simp only [released_of_free porst, Bool.and_eq_true, Bool.not_eq_true', true_and]) rfl)

theorem exec_ryvexUp (porst : s.host.porst = false) : exec .ryvexUp s =
    .next (if s.host.started = true ∧ s.host.ryvexUp = false ∧ s.host.recovery = false then
      rejectAll (if (bootSlots s).host.ryvexUp = true then deriveReady ((checkExcise (bootSlots s)).event 9) else bootSlots s)
      else s) :=
  congrArg Host.Outcome.next (ite_iff
    (by simp only [released_of_free porst, Bool.and_eq_true, Bool.not_eq_true', true_and, and_assoc]) rfl)

/-! ### Clocks -/

/-- The state in which REF_IN is present or not. -/
def withRef (present : Bool) (s : State) : State := { s with host := { s.host with refPresent := present } }

/-- Under PORST_L a service is neither lost nor regained. -/
theorem ite_released_withRef (present : Bool) (x y : State) :
    (if released (withRef present s) then x else y) = if s.host.porst = true then y else x := ite_not_swap rfl

theorem exec_refLost (s : State) : exec .refLost s = .next (if s.host.refPresent = false then s
    else if s.host.porst = true then withRef false s
    else serviceLoss (withRef false s).now ((withRef false s).event 4)) := by
  rw [← ite_released_withRef false]
  exact congrArg Host.Outcome.next (ite_swap_of (iff_of_eq (Bool.not_eq_false s.host.refPresent).symm) rfl)

theorem exec_refOk (s : State) : exec .refOk s = .next (if s.host.refPresent = true then s
    else if s.host.porst = true then withRef true s else deriveReady ((withRef true s).event 5)) := by
  rw [← ite_released_withRef true]
  rfl

theorem exec_pllLocked (porst : s.host.porst = false) :
    let u := (s.setB TL_STATUS_PLL_LOCKED true).event 7
    exec .pllLocked s = .next (if s.host.refPresent = true ∧ s.on TL_STATUS_PLL_LOCKED = false then
      deriveReady { u with tl := { u.tl with counting := true } } else s) :=
  congrArg Host.Outcome.next (ite_iff
    (by simp only [released_of_free porst, Bool.and_eq_true, Bool.not_eq_true', true_and]) rfl)

/-! ### Counter storage and the host link -/

/-- The event of a broken counter, by the block that holds it. -/
theorem ledgerEvent_cases (holder which : Nat) : ledgerEvent holder which =
    if holder = 3 then 768 + which % 32 else if holder = 4 then 816 + which % 32
    else if holder = 2 then 760 + Config.ledgerEvent 65536 % 8 else 760 + Config.ledgerEvent which % 8 := by
  unfold ledgerEvent
  split
  · rfl
  · rfl
  · rfl
  · next three four two => rw [if_neg three, if_neg four, if_neg two]

/-- What the island and the Cellar do about a counter of the island. -/
def islandLedgerBreak (which : Nat) (word : BitVec 64) (u : State) : State :=
  let v := if word.toNat.testBit 63 = true then u else cellarCount (word.toNat % 2 ^ 26) u
  if v.exc.up = true then (audit audLedgerBreak which 2 word.toNat v).event 75 which else v

/-- A break is the island's where it holds the counter, and else an event of the holder. -/
theorem ledgerBreak_cases {u x : State} {holder which : Nat} : (if holder = 0 then x else u.event (ledgerEvent holder which) which) =
    if holder = 3 then u.event (768 + which % 32) which
    else if holder = 4 then u.event (816 + which % 32) which
    else if holder = 2 then u.event (760 + Config.ledgerEvent 65536 % 8) which
    else if holder ≠ 0 then u.event (760 + Config.ledgerEvent which % 8) which
    else x := by
  rw [ledgerEvent_cases]
  by_cases zero : holder = 0
  · subst zero
    rfl
  · rw [if_neg zero, if_pos zero]
    simp only [apply_ite (u.event · which)]

theorem exec_ledgerBreak (counter : CounterId) (word : BitVec 64) (s : State) :
    let holder := counter.holder.val
    let which := counter.which.toNat
    let u := { s with broken := s.broken ++ [(holder, which)] }
    exec (.ledgerBreak counter word) s = .next (
      if holder = 3 then u.event (768 + which % 32) which
      else if holder = 4 then u.event (816 + which % 32) which
      else if holder = 2 then u.event (760 + Config.ledgerEvent 65536 % 8) which
      else if holder ≠ 0 then u.event (760 + Config.ledgerEvent which % 8) which
      else islandLedgerBreak which word u) :=
  congrArg Host.Outcome.next ledgerBreak_cases

/-- The state in which the host's link is up, with its speed and width, or down. -/
def linkShown (up : Bool) (speed : BitVec 3) (width : BitVec 4) (s : State) : State :=
  ((s.setB HOST_STATUS_LINK_UP up).set HOST_STATUS_SPEED (if up then speed.toNat else 0)).set HOST_STATUS_WIDTH
    (if up then width.toNat else 0)

theorem hostLinkChange_of_early {up : Bool} (speed : BitVec 3) (width : BitVec 4) (rises : up = true)
    (early : s.tl.counting = false) : exec (.hostLinkChange up speed width) s = .next s :=
  congrArg Host.Outcome.next (if_pos (by rw [rises, early, Bool.or_eq_true]; exact .inr rfl))

theorem exec_hostLinkChange {up : Bool} (speed : BitVec 3) (width : BitVec 4) (porst : s.host.porst = false)
    (may : up = false ∨ s.tl.counting = true) :
    exec (.hostLinkChange up speed width) s = .next (deriveReady (linkShown up speed width s)) := by
  have waits : (!released s || (up && !s.tl.counting)) = false := by
    rw [released_of_free porst]
    rcases may with falls | counting
    · rw [falls]; rfl
    · rw [counting, Bool.not_true, Bool.and_false]; rfl
  exact congrArg Host.Outcome.next (if_neg (Bool.eq_false_iff.1 waits))

end

/-- Settles O42: under PORST_L an input acts on the rails alone; released, each acts where its guard lets it, by the
equations above. -/
theorem startUpBringsTheServicesUp : Obligations.StartUpBringsTheServicesUp := by
  unfold Obligations.StartUpBringsTheServicesUp
  refine ⟨fun _ => rfl, fun _ _ => congrArg Host.Outcome.next (ite_not_swap rfl), ?asserted, ?rails, ?tiles, ?boots,
    fun _ => rfl, fun _ => rfl, fun s => ⟨exec_refLost s, exec_refOk s⟩, fun _ porst => exec_pllLocked porst,
    fun _ => rfl, fun counter word s => exec_ledgerBreak counter word s,
    fun _ speed width _ porst => ⟨hostLinkChange_of_early speed width, exec_hostLinkChange speed width porst⟩⟩
  case asserted =>
    exact fun rail a tile up speed width _ porst => ⟨pgLost_of_asserted rail porst, tileRailsGood_of_asserted a porst,
      parkApplied_of_asserted a porst, railEnableTimeout_of_asserted tile porst, parkLogicLost_of_asserted a porst,
      boot_of_asserted porst, startupReady_of_asserted porst, ryvexUp_of_asserted porst, pllLocked_of_asserted porst,
      hostLinkChange_of_asserted up speed width porst⟩
  case rails =>
    exact fun a _ porst => ⟨exec_pgLost .core porst, exec_pgLost .biasP porst, exec_pgLost .biasN porst,
      exec_pgLost (.atd a) porst, exec_pgLost (.a18 a) porst, exec_railEnableTimeout none porst,
      exec_railEnableTimeout_some a porst⟩
  case tiles =>
    exact fun a _ porst => ⟨exec_tileRailsGood a porst, exec_parkApplied a porst, exec_parkLogicLost a porst⟩
  case boots =>
    exact fun _ porst => ⟨exec_boot porst, exec_startupReady porst, exec_ryvexUp porst⟩

end Sys2Proof.Machine
end
